-- ==== Sys2Proof/Word.lean ====
section
/-!
DEFINITION. The word types of the formatter: a byte, a 32-bit register word, a 256-bit buffer word with its 24-bit W-code check,
and the plainest readings of a number as bits.
-/
namespace Sys2Proof

/-- A byte (little-endian order is R6's, wherever bytes make a number). -/
abbrev Byte := BitVec 8

/-- A register word (R604). -/
abbrev Word := BitVec 32

/-- The 256-bit word that every bus, FIFO, memory and flit carries (R13). -/
abbrev Word256 := BitVec 256

/-- The 24 W-code check bits of a word (R13, R344). -/
abbrev Chk := BitVec 24

end Sys2Proof
end

