-- ==== Sys2Proof/Syntax.lean ====
section
/-!
DEFINITION. The commands of the formatter: one constructor per row of spec/opcode_table.json, in the table's order. A command of the host
carries what the host sends; an event carries what reaches the part from outside it (the medium, the mechanism, the far end of a link,
an analogue input), and nothing that the part works out for itself.
-/
namespace Sys2Proof

/-- A data set that CMD plans to read: its DSN in the row headers, its origin, its pass, and its extension size as the frame tags give it. -/
structure ReadPlan where
  dsn    : Nat
  origin : Nat
  pass   : Nat
  k      : Nat
  deriving DecidableEq, Repr

/-- A row of the housekeeping area as it is read: its header, and its 2,048 bytes where C1 has converged (R107, R135). -/
structure HkRow where
  header : BitVec 64
  data   : List Byte
  deriving DecidableEq, Repr

/-- What load-time calibration finds (R247–R249): POS locked and the area readable; by writer the SNR of its 8 current segments in 0.01 dB and
the mean PHI forward and, of both modules' readers, in reverse (2^−8 of 1/128 bit); what the other groups converge to. -/
structure LoadCal where
  ok      : Bool
  snr     : List (Nat × List Int)
  phi     : List (Nat × Int × Int × Int)
  items   : List (Nat × Nat × Nat × Int)
  taps    : List (Nat × Nat × Int)
  gains   : List (Nat × Nat × Nat)
  tilt    : Option Int
  cso     : List (Nat × Int)
  deriving DecidableEq, Repr

/-- What a pool page is used for (R359, R377): by the host; for records of the WRITE in progress, from a byte of its data; for a granule not yet packed; for row `g` of a
data set being written; for word block `i` of a C3 data set's parity, held in two copies; for a read granule's plaintext; for a row kept by the
recovery ladder; for a volume map; for meter, fault log and receipt staging; for an in-service test; for a known-answer vector; for the key
blob of a side queue's KEY_IMPORT; for pages read from tape. -/
inductive PageUse where
  | host
  | record (offset : Nat)
  | granule (gsn : Nat)
  | payload (dsn g : Nat)
  | c3 (dsn i copy : Nat)
  | readPlain (gsn : Nat)
  | ladder (dsn g : Nat)
  | volumeMap
  | staging
  | test
  | vector
  | blob (queue : Nat)
  | readSet (dsn : Nat)
  deriving DecidableEq, Repr

/-- How an attempt at a training step ends (R339, R340): it passes, it fails on a byte lane, or MR8 disagrees with SIZE. -/
inductive TrainResult where
  | pass
  | fail (lane : Nat)
  | density
  deriving DecidableEq, Repr

/-- A request to POOL comes from the host port, or from within the formatter, which says what the page is for. -/
inductive PoolFrom where
  | port (wait : Bool)
  | core (use : PageUse)
  deriving DecidableEq, Repr

/-- What reaches a reel drive in a PWM period: the shunt conversions of the two first-half windows and of the 000 vector, as codes (R480); whether
the chain of R476 ran late (R479). -/
structure PwmIn where
  first  : Nat
  second : Nat
  zero   : Nat
  late   : Bool
  deriving DecidableEq, Repr

/-- The commands and events of the formatter, by row of the table. -/
inductive Instr where
  /-- REG_RD (R429). A host REG_RD packet reads 1 to 5 register words in ascending address order and returns a response. -/
  | regRd (head : Word256) (body : List Word256)
  /-- REG_WR (R429). A host REG_WR packet writes 1 to 5 register words in ascending address order and responds if ACKREQ is set. -/
  | regWr (head : Word256) (body : List Word256)
  /-- REGISTER_WRITE (R605). A host write of the word at byte address `addr` of register space. -/
  | registerWrite (addr : Nat) (value : Word)
  /-- LO_WORD_READ (R54). A host read of the LO word at byte address `addr`. -/
  | loWordRead (addr : Nat)
  /-- WINDOW_DATA_ACCESS (R617). A host write of `value` to, or a host read of, the window DATA register at byte address `addr`. -/
  | windowDataAccess (addr : Nat) (value : Option Word)
  /-- PAGE_EN (R608). A write of PAGE_CTRL.EN stops or restarts the block's clocks on pages that have EN_CTL. -/
  | pageEn (page : Nat) (en : Bool)
  /-- PAGE_QUIESCE (R609). Setting PAGE_CTRL.QUIESCE asks the block to finish its current work and to start no more; clearing it resumes work. -/
  | pageQuiesce (page : Nat) (on : Bool)
  /-- PAGE_QUIESCED (R609). The quiesced block finishes its outstanding work and sets QUIESCED. -/
  | pageQuiesced (page : Nat)
  /-- PAGE_LOCK (R610). Setting PAGE_CTRL.LOCK after the seal locks the page's writable fields until PORST_N. -/
  | pageLock (page : Nat)
  /-- EVT_FORCE (R613). Writing a defined bit of EVT_FORCE acts as an occurrence of that event that carries no fault code. -/
  | evtForce (page bits : Nat)
  /-- EVT_FIRST_CLEAR (R614). Writing 1 to EVT_FIRST.VALID clears the capture and both ERR_POS words. -/
  | evtFirstClear (page : Nat)
  /-- STG_REGISTER_WRITE (R616). A write to an STG register changes only the staged copy, or before the seal also the ACT copy. -/
  | stgRegisterWrite (addr : Nat) (value : Word)
  /-- MAILBOX_REQUEST (R22). The word written to MB_CMD of a slot of a mailbox page. -/
  | mailboxRequest (page slot : Nat) (value : Word)
  /-- MAILBOX_COMPLETE (R22). The result words that the firmware writes. -/
  | mailboxComplete (page slot : Nat) (res : List Word)
  /-- LOCKSTEP_MISMATCH (R10). The pair: 0 CMD, 1 SECU, 2 to 5 MOT0 to MOT3 (as in CLU_LS_MISMATCH). -/
  | lockstepMismatch (pair : Nat)
  /-- INTERNAL_WORD_HOP (R13). The receiving block's page, the owning account and the word with its check, at a transport hop. -/
  | internalWordHop (page account : Nat) (word : Word256) (chk : Chk)
  /-- FIFO_ENTRY_WRITTEN (R18). The page of the block whose FIFO it is, the owning account, FIFO number and n (2^n entries); whether the producer spends a token, as it must; the word with its check. -/
  | fifoEntryWritten (page account fifo size : Nat) (holdsToken : Bool) (word : Word256) (chk : Chk)
  /-- FIFO_ENTRY_REMOVED (R18). FIFO number and n; the SRAM macro and row that hold the entry, and the errors that have arisen in them. -/
  | fifoEntryRemoved (fifo size unit row : Nat) (upset : Word256 × Chk)
  /-- SERVO_FRAME_DECODED (R39). Servo band and reader, the frame's 64 symbols in the order received (the first received in bit 63), the clock-tone amplitude and the amplitudes of bursts A to D. -/
  | servoFrameDecoded (band reader : Nat) (symbols : BitVec 64) (tone a b c d : Nat)
  /-- SERVO_FRAME_BOUNDARY (R46). The tape passes a frame boundary. `speed`: its speed in µm/s as the clock tones give it; `late`: the frame slots, 5 and 6, whose computation has overrun. -/
  | servoFrameBoundary (speed : Int) (late : List Nat)
  /-- POS_LOCK_LOST (R47). POS loses lock, closes the write gates, sets STALE and aborts the data set being written. -/
  | posLockLost
  /-- FRAME_SLIP (R46). After three disagreeing frames POS reloads its frame count from the majority and raises FRAME_SLIP. -/
  | frameSlip
  /-- POS_COARSE_ENTER (R48). Tape speed in µm/s. -/
  | posCoarseEnter (speed : Int)
  /-- POS_COARSE_EXIT (R48). Tape speed in µm/s. -/
  | posCoarseExit (speed : Int)
  /-- POS_LOCK_FAIL (R49). COARSE has lasted POS_RELOCK_FRM frames above 0.3 m/s without lock. -/
  | posLockFail
  /-- POS_STILL_TIMEOUT (R50). No clock cycle counted for POS_STILL_TMR sets STILL. -/
  | posStillTimeout
  /-- POS_STILL_CLEAR (R50). The first counted clock cycle clears STILL. -/
  | posStillClear (reverse : Bool) (speed : Int)
  /-- SERVO_ID_LOST (R79). 64 consecutive frames without a valid identity from any reader raise SERVO_ID_LOST and close the write gate. -/
  | servoIdLost
  /-- SERVO_BURST_RECEIVED (R70). Servo uplink 0 or 1 and the burst's payloads: header, 9 data blocks, trailer. -/
  | servoBurstReceived (link : Nat) (blocks : List (BitVec 64))
  /-- DOWNLINK_BURST_LAUNCH (R61). The HFE, the burst's first frame and bit, and the phase correction in 2^−16 line UI (R171). -/
  | downlinkBurstLaunch (hfe frame bit : Nat) (correction : Int)
  /-- UPLINK_BURST_RECEIVED (R67). An uplink burst of reader samples is received, checked and fed to the read channel. -/
  | uplinkBurstReceived (hfe module : Nat) (blocks : List (BitVec 64)) (lockLost : Bool)
  /-- LOOP_RESET (R197). A loop state clamped for 4,096 updates is reloaded from its seed. -/
  | loopReset (band track module : Nat)
  /-- MGMT_RESPONSE_RECEIVED (R71). A management response from an HFE is received and matched to its request. -/
  | mgmtResponseReceived (hfe : Nat) (block : BitVec 64)
  /-- MGMT_TIMEOUT (R72). A management request unanswered for 512 line blocks is resent, and a third timeout retrains the HFE's links. -/
  | mgmtTimeout (hfe tag : Nat)
  /-- HFE_STATUS_REFRESH (R73). The time to read WSTATE and RSTAT of an HFE by management reads. -/
  | hfeStatusRefresh (hfe : Nat)
  /-- CL_LINK_STATE_ADVANCE (R76). Link 3n + l of HFE n (l = 0 down, 1 and 2 the uplinks) or 96 + r for servo uplink r; the loop delay that ALIGN measured, in line UI; the block received, descrambled. -/
  | clLinkStateAdvance (link delay : Nat) (block : BitVec 64)
  /-- CL_LINK_TIMEOUT (R77). A carriage link training state passes its timeout and the link starts the next attempt or becomes FAILED. -/
  | clLinkTimeout (link : Nat)
  /-- CL_LINK_DOWN (R77). A link in RUN that sees 16 invalid sync headers within 64 blocks returns to BLOCK_LOCK. -/
  | clLinkDown (link : Nat)
  /-- CL_RETRAIN (R78). A write of CL_CTRL.RETRAIN restarts training of every enabled link of the HFE. -/
  | clRetrain (hfe : Nat)
  /-- PASS_END (R85). The formatter ends a pass when too little room remains and begins the next pass after turnaround. -/
  | passEnd
  /-- OUT_CTRL_WRITE (R142). Clearing C2_EN or C3_EN while the stream queue holds a write ends the command with ILLEGAL_COMMAND. -/
  | outCtrlWrite (c2En c3En : Bool)
  /-- DATA_SET_ROWS_COMPLETE (R139). Once a data set's rows are decoded, C2, the CRC check and C3 are applied to it. -/
  | dataSetRowsComplete (dsn : Nat)
  /-- BRD_ARM (R164). Band and buffer: 0 A, 1 B. -/
  | brdArm (band buf : Nat)
  /-- BRD_START (R159). START runs the armed buffer from square 0. -/
  | brdStart (band : Nat)
  /-- BRD_STOP (R159). STOP closes the band's write gate, stops the sequencer and disarms both buffers. -/
  | brdStop (band : Nat)
  /-- BRD_DISARM (R159). DISARM_A or DISARM_B disarms a buffer that is not running. -/
  | brdDisarm (band buf : Nat)
  /-- BRD_HOST_SET (R185). Setting BRD_CTRL.HOST hands the boards to the host when no board runs and no medium command is queued. -/
  | brdHostSet (band : Nat)
  /-- WAIT_FRAME (R156). The position reaches the origin of the band's board. -/
  | waitFrame (band : Nat)
  /-- EMIT_GAP (R151). The square emits the resync pattern and the frame tag at the start of a frame. -/
  | emitGap (band : Nat)
  /-- EMIT_SYNC (R151). The square emits a row sync mark and restarts the track scrambler for the slot. -/
  | emitSync (band : Nat)
  /-- EMIT_HEADER (R151). The square emits the scrambled row header of the slot. -/
  | emitHeader (band : Nat)
  /-- EMIT_ROW (R151). The square emits a range of scrambled codeword bits of the slot's row. -/
  | emitRow (band : Nat)
  /-- BAND_FILL (R151). The square emits band fill bits. -/
  | bandFill (band : Nat)
  /-- VERIFY_OPEN (R153). The square opens a verify or read window on the masked tracks for a row. -/
  | verifyOpen (band : Nat)
  /-- VERIFY_CLOSE (R153). The square closes a window, and its row enters the LDPC pool. -/
  | verifyClose (band : Nat)
  /-- APPLY_STAGED (R154). The square commits the staged HFE and RCHb settings and sends APPLY blocks. -/
  | applyStaged (band : Nat)
  /-- MARK_EVENT (R155). The square records a mark, and at a DS_START mark the speed matcher acts. -/
  | markEvent (band : Nat)
  /-- JUMP (R157). The square repeats a run of earlier squares with offsets stepped by STRIDE. -/
  | jump (band : Nat)
  /-- END (R160). The position reaches the END square at the band's index. -/
  | end_ (band : Nat)
  /-- ROW_FETCH (R176). Whether an encoder is upset at the first encoding, and again at the second. -/
  | rowFetch (dsn track slot : Nat) (upset1 upset2 : Bool)
  /-- ENC_INJECT (R179). ENC_CTRL.INJECT inverts a parity bit of encoder B for the next row encoded. -/
  | encInject
  /-- DATA_SET_READY (R180). The oldest data set whose contents are whole. -/
  | dataSetReady
  /-- BOARD_COMPILE (R258). The plan of a data set to read, where the medium has shown one; a data set to write goes first. -/
  | boardCompile (plan : Option ReadPlan)
  /-- REPOSITION_COMPLETE (R182). The tape reaches the run-up point before the data set that CMD repositions for. -/
  | repositionComplete
  /-- THREADING_DONE (R636). The loader mechanism finishes threading or unthreading the cartridge. -/
  | threadingDone
  /-- DETECTOR_REPASS (R204). Every GLOBAL_EVERY iterations without convergence the detector runs again with a priori values. -/
  | detectorRepass (band track slot dsn : Nat) (d : Int)
  /-- ROW_DECODE_DONE (R203). A row's LDPC decoding ends, converged or not, and the row is classified. -/
  | rowDecodeDone (band track slot dsn : Nat)
  /-- DEC_LATE (R206). A row not decoded 6 frames after its VERIFY_CLOSE is stopped as FAILED and raises DEC_LATE. -/
  | decLate (band track slot dsn : Nat)
  /-- MRD_LOW_GAIN (R219). A combining gain below 0.5 dB over 1,024 rows raises MRD_LOW_GAIN. -/
  | mrdLowGain (band : Nat)
  /-- TRK_WIN_WRITE (R227). A track window write sets a reader's loop seed, or is ignored while a window is open. -/
  | trkWinWrite (band value : Nat)
  /-- RECOVERY_RUNG_DONE (R273). A recovery rung ends after its passes are read and decoded, and the next rung starts or the ladder ends. -/
  | recoveryRungDone
  /-- WEAK_WIN_WRITE (R276). A write to the weak list window replaces or appends an entry. -/
  | weakWinWrite (dsn : Nat)
  /-- WEAK_CLR (R276). RCV_CTRL.WEAK_CLR clears the weak list. -/
  | weakClr
  /-- CAL_CYCLE_COMPUTE (R231). When a measurement pair is decoded, calibration checks the previous change, computes a new one and stages it. -/
  | calCycleCompute (cycle : Nat)
  /-- CAL_LATE (R233). A cycle that misses its staging deadline is discarded and raises CAL_LATE. -/
  | calLate
  /-- CSO_STANDSTILL_UPDATE (R242). At standstill the current-sense offsets are updated every 100 ms. -/
  | csoStandstillUpdate
  /-- CAL_VALUE_WRITE (R250). The register written: WCAL, CAL_TILT_STG, CAL_CSO, SV_KAB_STG or SV_KCD_STG. -/
  | calValueWrite (addr value : Nat)
  /-- CAL_WIN_WRITE (R251). A CAL window write sets a writer or reader item, or is ignored. -/
  | calWinWrite (value : Nat)
  /-- GRANULE_COMPRESSED (R302). An engine finishes compressing granule `gsn`; `upset1`, `upset2`: its first decompress-verify, and that of the retry, finds a difference of the engine's own making. -/
  | granuleCompressed (gsn : Nat) (upset1 upset2 : Bool)
  /-- DV_INJECT (R303). CMP_CTRL.DV_INJECT inverts one decompress-verify byte of the next granule. -/
  | dvInject
  /-- GRANULE_PACKED (R99). The oldest granule not yet packed, once sealed. -/
  | granulePacked
  /-- CIPHER_LANE_START (R310). A waiting cipher request starts on free lanes in queue priority order. -/
  | cipherLaneStart
  /-- CIPHER_REQUEST_DONE (R311). The request on a lane, or on the pair whose first lane it is; `upset`: the pair's lanes differed, or a single lane decrypted wrongly. -/
  | cipherRequestDone (lane : Nat) (upset : Bool)
  /-- PAIR_INJECT (R312). CIPH_CTRL.PAIR_INJECT inverts a ciphertext bit of the next write-path request. -/
  | pairInject
  /-- KEY_ERASE_COMPLETE (R325). After the last stream command that uses the slot finishes, the key is zeroed and the slot set FREE. -/
  | keyEraseComplete (slot : Nat)
  /-- KEK_ERASE_COMPLETE (R325). After running unwraps finish, the KEK slot is zeroed. -/
  | kekEraseComplete (slot : Nat)
  /-- KEY_IMPORT_UNWRAP_DONE (R328). The unwrap of a side queue's KEY_IMPORT; `upset`: the lane unwrapped wrongly. -/
  | keyImportUnwrapDone (queue : Nat) (upset : Bool)
  /-- MEM_TRAIN (R339). MEM_CTRL.TRAIN starts training of every channel that is not READY. -/
  | memTrain
  /-- DDR_TRAIN_STEP_DONE (R339). The channel's step under way ends with `result`. -/
  | ddrTrainStepDone (channel : Nat) (result : TrainResult)
  /-- DDR_REFRESH (R338). `rate`: highest MR4 refresh-rate code; `hot`: MR4 reports a temperature above the operating limit. -/
  | ddrRefresh (channel rate : Nat) (hot : Bool)
  /-- DDR_OSC_TRACK (R339). `reading`: what the WCK2DQ oscillators give. -/
  | ddrOscTrack (channel reading : Nat)
  /-- DDR_ZQ_LATCH (R338). `code`: the calibration code found in the background. -/
  | ddrZqLatch (channel code : Nat)
  /-- BUFFER_READ (R353). `upset`: errors that have arisen in the slot's cells by now, by slot byte, as XOR masks. -/
  | bufferRead (slot word : Nat) (upset : List (Nat × Byte))
  /-- BUFFER_WRITE (R355). A write of `bytes` at byte `offset` of a word for an account. -/
  | bufferWrite (slot word offset : Nat) (bytes : List Byte) (account : Nat) (upset : List (Nat × Byte))
  /-- SCRUB_VISIT (R356). `upset`: errors that have arisen in the slot's cells; `stuck`: errors that come back after a write. -/
  | scrubVisit (upset stuck : List (Nat × Byte))
  /-- RLOG_TAIL_WRITE (R363). A write of RLOG_TAIL acknowledges the retirement log entries below it. -/
  | rlogTailWrite (value : Nat)
  /-- RETIRE (R364). A write of MEMECC.RETIRE retires a page now or marks it pending. -/
  | retire (page : Nat)
  /-- MEM_RELEASE (R366). A write of MEMECC.RELEASE returns a tested quarantined page to the free ring. -/
  | memRelease (page : Nat)
  /-- SRAM_WORD_READ (R367). Row `row` of macro `unit` reads as `word` and `chk`. -/
  | sramWordRead (unit row : Nat) (word : Word256) (chk : Chk)
  /-- SREP_APPLY (R369). SREP_CTRL.APPLY reapplies the soft repair list and records the first failing entry. -/
  | srepApply
  /-- SPLIT_WRITE (R370). By the host port, or by SVC1's identical internal port. -/
  | splitWrite (internal : Bool)
  /-- SPLIT_READ (R370). By the host port, or by SVC1's identical internal port. -/
  | splitRead (internal : Bool)
  /-- SPLIT_PCHECK (R370). By the host port, or by SVC1's identical internal port. -/
  | splitPcheck (internal : Bool)
  /-- ALLOC (R379). POOL allocates a page to an account if quota and the reserve condition allow. -/
  | alloc (src : PoolFrom) (account : Nat)
  /-- FREE (R384). POOL returns an owned page to the free store, quarantine or retirement. -/
  | free (src : PoolFrom) (page account : Nat)
  /-- HANDOFF (R380). POOL recharges a page from its owner to a target account. -/
  | handoff (src : PoolFrom) (page account target : Nat)
  /-- ADDREF (R392). POOL raises the reference count of a reference-count page. -/
  | addref (src : PoolFrom) (page : Nat)
  /-- POOL_RELEASE (R392). POOL lowers the reference count and frees the page at zero. -/
  | poolRelease (src : PoolFrom) (page : Nat)
  /-- QUERY (R383). POOL returns a page's owner and reference count. -/
  | query (src : PoolFrom) (page : Nat)
  /-- POOL_BAD_OP (R394). GO with OP `op` (0 or 7). -/
  | poolBadOp (op : Nat)
  /-- POOL_CANCEL (R391). POOL_REQ.CANCEL ends a waiting host request with CANCELLED. -/
  | poolCancel
  /-- CACHE_FILL (R387). A cache holding fewer than 1,024 entries is refilled from the ring head. -/
  | cacheFill
  /-- POOL_BUILD (R389). Setting POOL_CTRL.EN starts building the free store. -/
  | poolBuild
  /-- POOL_BUILD_DONE (R389). The free store is built and BUILT is set. -/
  | poolBuildDone
  /-- ACCT_WIN_WRITE (R378). An account window write sets QUOTA, MIN, MODE or PEAK, or is ignored and recorded in ACCT_ERR. -/
  | acctWinWrite (value : Nat)
  /-- FLIT_RECEIVED (R410). One flit as it arrives: by lane of the group in the far end's order, the lane's bits, first bit in bit 0, still scrambled. -/
  | flitReceived (lanes : List (BitVec 288))
  /-- CTRL_FLIT_RECEIVED (R408). A good CTRL flit's body; `recent`: less than 8 µs have passed since the last replay started. -/
  | ctrlFlitReceived (body : Word256) (recent : Bool)
  /-- REPLAY_TIMEOUT (R412). Held flits without progress for 20 µs are replayed without a NAK. -/
  | replayTimeout
  /-- MARKER_RECEIVED (R405). The marker that lane `lane` receives, or none where one is missing; `skew`: the lane's skew in UI. -/
  | markerReceived (lane : Nat) (marker : Option (BitVec 72)) (skew : Nat)
  /-- EPBX_LINK_TIMEOUT (R414). An Epbex link state passes its timeout and the link moves to DOWN, DETECT or the next recovery attempt. -/
  | epbxLinkTimeout
  /-- LNK_RETRAIN (R416). LNK_CTRL.RETRAIN makes the link enter RECOVER. -/
  | lnkRetrain
  /-- LNK_RESET (R417). LNK_CTRL.RESET brings the link through a link reset once its response has been sent. -/
  | lnkReset
  /-- CMD (R420). A CMD packet places its descriptors into its queue. -/
  | cmd (head : Word256) (body : List Word256)
  /-- DATA_OUT (R426). A DATA_OUT packet delivers bytes of the oldest command awaiting data. -/
  | dataOut (head : Word256) (body : List Word256)
  /-- MINUTE (R420). A MINUTE packet enters the stream queue. -/
  | minute (head : Word256) (body : List Word256)
  /-- TOKEN (R424). A TOKEN packet from the host grants DATA or MSG tokens to the formatter. -/
  | token (head : Word256) (body : List Word256)
  /-- TOKEN_RETURN (R424). The formatter sends combined token returns within 1 µs. -/
  | tokenReturn
  /-- DATA_IN_SEND (R427). `poison`: the slot of a word of the packet that is found poisoned, if one is. -/
  | dataInSend (poison : Option Nat)
  /-- COMPL_SEND (R425). The formatter sends a completion from its FIFO once it holds a MSG token. -/
  | complSend
  /-- RETRACT_SEND (R428). The formatter sends a RETRACT naming the records to discard, before the command's COMPL. -/
  | retractSend
  /-- EVENT_SEND (R425). The formatter sends an EVENT packet once it holds a MSG token. -/
  | eventSend
  /-- QUE_EN (R600). Setting QUE_CTRL.EN enables the command queues and grants CMD and DATA tokens once CMD runs. -/
  | queEn
  /-- LOAD (R448). `present`: CART_PRES_N is low as LOAD begins. `hkTags`: the frame tags of the housekeeping area as read; `rows`: its rows read GOOD;
  `cal`: what load-time calibration measures; `tags`: the tags of the last frames passed after the end of data, the latest last. -/
  | load (present : Bool) (hkTags : List Nat) (rows : List HkRow) (cal : LoadCal) (tags : List Nat)
  /-- UNLOAD (R448). UNLOAD closes the mount, rewinds and releases the cartridge. -/
  | unload
  /-- FORMAT (R449). FORMAT writes a first end-of-data map and the housekeeping copies of a new volume. -/
  | format
  /-- WRITE (R450). WRITE takes records into pool pages and cuts them into granules. -/
  | write
  /-- FILEMARK (R288). FILEMARK closes the open granule and issues filemark granules. -/
  | filemark
  /-- FLUSH (R441). FLUSH closes the open granule and group and waits for settlement. -/
  | flush
  /-- READ (R451). `tags`: the frame tags of the last frames passed, as read, the latest last. -/
  | read (tags : List Nat)
  /-- LOCATE (R452). `tags`: the frame tags of the last frames passed, as read, the latest last. -/
  | locate (tags : List Nat)
  /-- REFRESH (R277). REFRESH relocates the weak data sets to end of data and updates the map. -/
  | refresh
  /-- SELECT_MAP (R280). `tags`: the frame tags of the last frames passed, as read, the latest last. -/
  | selectMap (tags : List Nat)
  /-- RECEIPT (R466). RECEIPT settles the data and returns a signed 400-byte receipt for the tenant. -/
  | receipt
  /-- OPEN_TENANT (R454). OPEN_TENANT opens the lowest CLOSED context with its tag and quota. -/
  | openTenant
  /-- CLOSE_TENANT (R455). CLOSE_TENANT settles the data, issues a receipt, erases the slots and closes the context. -/
  | closeTenant
  /-- KEY_IMPORT (R328). KEY_IMPORT checks the tenant and slots and starts unwrapping a key blob under a KEK. -/
  | keyImport (queue : Nat)
  /-- KEY_ERASE (R325). KEY_ERASE sets a loaded data slot to ERASING, or completes at once for a FREE slot. -/
  | keyErase (queue : Nat)
  /-- KEK_AGREE (R327). KEK_AGREE derives a KEK by X25519 and HKDF and returns the signed agreement record. -/
  | kekAgree (queue : Nat)
  /-- KEK_ERASE (R325). KEK_ERASE zeroes a KEK slot once running unwraps have finished. -/
  | kekErase (queue : Nat)
  /-- CIPHER (R316). CIPHER checks a host-direct cipher request and queues it. -/
  | cipher (queue : Nat)
  /-- METER_READ (R463). METER_READ returns logged meter records and optionally acknowledges them. -/
  | meterRead (queue : Nat)
  /-- SET_QUOTA (R456). SET_QUOTA writes QUOTA and MIN of an account. -/
  | setQuota (queue : Nat)
  /-- ATTEST (R589). ATTEST returns a signed attestation report or the receipt key certificate. -/
  | attest (queue : Nat)
  /-- SAFE_CLEAR (R558). The side queue; what the checks of R558 read from outside: the level of SAFE_STOP_N, the comparators of VBUS and tension, a SAFETY cause that persists, and the turn of the command's own coverage cycle that fails, with the rows of TURN. -/
  | safeClear (queue : Nat) (ssnHigh vbusOver tenOver : Bool) (persist bad : Option Nat) (rows : List Nat)
  /-- REG_IMAGE (R439). REG_IMAGE writes a list of register address and value pairs in order. -/
  | regImage (queue : Nat)
  /-- MINUTE_EXECUTE (R457). A MINUTE at the head of the stream queue opens a new minute bracket. -/
  | minuteExecute
  /-- BRACKET_FINAL (R461). A final bracket is logged as meter records once the bracket before it has been logged and there is room. -/
  | bracketFinal
  /-- MTR_TAIL_WRITE (R463). A write of MTR_TAIL acknowledges meter records. -/
  | mtrTailWrite (value : Nat)
  /-- PWM_PERIOD (R476). Each 40 kHz PWM period samples the shunt, runs the current loop and sets the next compares. -/
  | pwmPeriod (reel : Nat) (x : PwmIn)
  /-- CUR_PLAUS (R501). Implausible current sensing for 1 ms raises CUR_PLAUS and brings safe state S2. -/
  | curPlaus (reel : Nat)
  /-- HALL_EDGE (R484). A filtered change of a reel's Hall code, and the nanoseconds since the last valid edge. -/
  | hallEdge (reel code interval : Nat)
  /-- OBS_LOST (R487). Observer loss over one electrical period changes the angle source, bringing S1 if the observer was the source. -/
  | obsLost (reel : Nat)
  /-- MOT_EN (R504). Setting MOT_CTRL.EN enables a reel drive, or is ignored while parameters are zero or VBUS is out of range. -/
  | motEn (reel : Nat)
  /-- PULSE_START_DONE (R489). The pulse sequence completes: the six peak currents, as shunt codes. -/
  | pulseStartDone (reel : Nat) (peaks : List Nat)
  /-- START_TIMEOUT (R490). No valid observer within START_MAX switches the drive off with START_FAIL. -/
  | startTimeout (reel : Nat)
  /-- REEL_REVOLUTION (R492). A reel completes a revolution: the tick of the current frame, and the angle that the other reel turned meanwhile, in 2^−16 turn. -/
  | reelRevolution (reel tick other : Nat)
  /-- RAD_SEED (R494). A write of MOTA.RAD_SEED loads K for the radius estimates. -/
  | radSeed (value : Nat)
  /-- VBUS_SAMPLE (R498). The conversion of VBUS_SNS; whether it began more than 400 ns after its trigger. -/
  | vbusSample (code : Nat) (late : Bool)
  /-- BUS_UV (R497). VBUS below VBUS_UV for 1 ms while a reel runs raises BUS_UV and brings safe state S1. -/
  | busUv
  /-- CHOPPER_FAULT (R499). VBUS not falling within WAIT after chopper switch-on raises CHOPPER_FAULT, S1 and loss braking. -/
  | chopperFault
  /-- BUS_OVERVOLT (R500). The island comparator at VBUS_TRIP asserts STO and BUS_CLAMP_REQ and brings safe state S2. -/
  | busOvervolt
  /-- REEL_OVERSPEED (R502). Reel speed above 1.1 × NMAX for 1 ms raises REEL_OVERSPEED and brings safe state S2. -/
  | reelOverspeed (reel : Nat)
  /-- LOOP_SAMPLE_10KHZ (R512). A 10 kHz period: the conversions of AUX0–AUX3, and the slots whose computation has overrun. -/
  | loopSample10khz (aux late : List Nat)
  /-- OVERTENSION (R550). Tension above TEN_MAX on 2 consecutive samples raises OVERTENSION and brings safe state S2. -/
  | overtension
  /-- OVERTENSION_HW (R550). TEN_SNS above TEN_TRIP for 50 µs raises OVERTENSION_HW and brings safe state S2. -/
  | overtensionHw
  /-- SLACK_TAPE (R550). Tension below TEN_MIN on 20 consecutive samples while moving raises SLACK_TAPE and brings safe state S1. -/
  | slackTape
  /-- ACT_PWM_PERIOD (R533). An H-bridge period of an actuator, 0 lateral or 1 tilt: the conversions of its current and position; whether one of them began late; whether the slot has overrun. -/
  | actPwmPeriod (act cur pos : Nat) (late overrun : Bool)
  /-- ACT_SENSE (R535). Implausible actuator current for 1 ms raises ACT_SENSE and brings safe state S2. -/
  | actSense (act : Nat)
  /-- LOOP_FOLLOW (R524). Following error above FE_LIMIT for FE_SAMPLES raises LOOP_FOLLOW with the slot's safe state. -/
  | loopFollow (slot : Nat)
  /-- LOOP_COMMIT (R522). A write of LOOP_CTRL.COMMIT: bit n names slot n. -/
  | loopCommit (mask : Nat)
  /-- SLOT_WIN_WRITE (R540). A slot window write sets a staged slot item, or is ignored. -/
  | slotWinWrite (value : Nat)
  /-- SPD_SRC_WRITE (R515). A write of SPD_CTRL.SRC selects the tape target source when no board runs. -/
  | spdSrcWrite (src : Nat)
  /-- SPDREF_LOST (R516). No SPDREF edge within TMO sets the rate to zero and SPDREF_LOST. -/
  | spdrefLost
  /-- INJ_GO (R537). INJ_CTRL.GO starts the injection generator on a slot, or is refused. -/
  | injGo
  /-- INJ_STOP (R536). INJ_CTRL.STOP stops a running injection. -/
  | injStop
  /-- INJ_DONE (R536). The injection ends after COUNT samples. -/
  | injDone
  /-- CAP_ARM (R538). CAP_CTRL.ARM starts or restarts a capture. -/
  | capArm
  /-- CAP_ABORT (R542). CAP_CTRL.ABORT stops a capture without setting DONE. -/
  | capAbort
  /-- CAP_DONE (R538). A capture completes 8,192 − PRE samples after its trigger and latches the trigger stamp. -/
  | capDone
  /-- REP_CLR (R528). CLR_A or CLR_B clears a repetitive controller table. -/
  | repClr (a b : Bool)
  /-- BIN_WIN_WRITE (R528). A bin window write sets a repetitive bin while EN is clear, or is ignored. -/
  | binWinWrite (value : Nat)
  /-- S1_TIMEOUT (R546). S1 not at STILL within S1_TMAX raises S1_TIMEOUT and brings safe state S2. -/
  | s1Timeout
  /-- SAFE_STOP (R554). A filtered low on SAFE_STOP_N latches a stop under SSN_MODE. -/
  | safeStop
  /-- STO_READBACK (R552). An STO pad disagreeing with its command for 10 µs raises STO_READBACK and brings safe state S2. -/
  | stoReadback
  /-- CLK_FAIL (R555). Whether the island's own clock failed, or REFCLK; the REFCLK edges of the island's last window. -/
  | clkFail (island : Bool) (count : Nat)
  /-- SAFE_CFG_MISMATCH (R556). The pair, in the order SAFE_CFG, VBUS_TRIP, TEN_LIMITS, TEN_CMP, and the value that its second register takes. -/
  | safeCfgMismatch (pair : Nat) (value : Word)
  /-- FAULT_HANDLE (R560). SVC3 handles the next fault, logging it and sending its EVENT, with pre-emption by severity. -/
  | faultHandle
  /-- FLT_LOG_TAIL_WRITE (R562). A write of FLT_LOG_TAIL acknowledges fault log entries. -/
  | fltLogTailWrite (value : Nat)
  /-- TURN (R564). Whether the next turn of the cycle finds its item failed; the SRAM rows that failed march C− (for an AES lane, one entry for each vector that failed). -/
  | turn (bad : Bool) (rows : List Nat)
  /-- TURN_FORCE_START (R565). A coverage cycle unfinished at 55 s starts forcing one turn every 2 ms. -/
  | turnForceStart
  /-- TURN_OVERDUE (R565). A coverage cycle unfinished at 60 s raises TURN_OVERDUE. -/
  | turnOverdue
  /-- PORST_RELEASE (R578). TEST_EN's level; the VBUS comparator active; the 4,096 raw bits of the start-up test (R584); PLLs locked (as CLK_STATUS [4:1]); REFCLK edges in an island window. -/
  | porstRelease (testEn vbusOver : Bool) (raw : List Bool) (locks count : Nat)
  /-- PORST_ASSERT (R595). A low pulse on PORST_N of 10 µs or more resets the formatter. -/
  | porstAssert
  /-- RAIL_CHANGE (R593). the rail as RAIL_OK numbers it; whether it enters or leaves its range. -/
  | railChange (rail : Nat) (inRange : Bool)
  /-- BROWNOUT (R596). the rail, as RAIL_OK numbers it. -/
  | brownout (rail : Nat)
  /-- CART_PRES_FAULT (R627). More than 8 CART_PRES_N transitions within 10 ms declare the input faulty. -/
  | cartPresFault
  /-- CART_PRES_FAULT_CLEAR (R627). No CART_PRES_N transition for 100 ms clears the faulty declaration. -/
  | cartPresFaultClear
  /-- IMG_APERTURE_WRITE (R579). Word `index` of IMG_APERTURE. -/
  | imgApertureWrite (index value : Nat)
  /-- BOOT_GO (R580). BOOT_CTRL.GO moves the ROM to VERIFY of the loaded image. -/
  | bootGo
  /-- BOOT_CLEAR (R579). BOOT_CTRL.CLEAR zeroes the load region and its counters. -/
  | bootClear
  /-- IMAGE_VERIFY_DONE (R580). VERIFY accepts the image and starts the roles, or rejects it with IMG_REJECT. -/
  | imageVerifyDone
  /-- ROLE_START_DONE (R578). Whether every role of the image reported its start. -/
  | roleStartDone (ok : Bool)
  /-- LC_ADVANCE_OEM_OPEN (R573). SECU opcode 0x0101 advances MANUFACTURE to OEM_OPEN on a valid token. -/
  | lcAdvanceOemOpen
  /-- LC_ADVANCE_DEPLOYED (R573). SECU opcode 0x0102 advances OEM_OPEN to DEPLOYED. -/
  | lcAdvanceDeployed
  /-- LC_ADVANCE_RMA (R573). SECU opcode 0x0103 advances to RMA on a valid token and kills the identity key. -/
  | lcAdvanceRma
  /-- OEM_HASH_PROGRAM (R573). SECU opcode 0x0110 programs OEM_HASH once. -/
  | oemHashProgram
  /-- ENTROPY_FAIL (R584). The raw bits of the health tests in service: those before the present window, and the window up to the bit that fails. -/
  | entropyFail (before window : List Bool)
  /-- ENT_RETEST (R584). The 4,096 raw bits of the start-up test, those discarded left out. -/
  | entRetest (raw : List Bool)
  /-- CONFIG_SEAL (R586). SEAL_CTRL.SEAL checks the seal conditions and locks every RWS field. -/
  | configSeal
  /-- SEAL_COMPLETE (R587). The seal computes CFG_DIGEST, signs the certificate, sets SEALED and releases STO. -/
  | sealComplete
  /-- CL_CTRL_PERMISSION (R78). The enables that the write to CL_CTRL carries. -/
  | clCtrlPermission (hfe : Nat) (dl ul0 ul1 : Bool)
  /-- SPDREF_EDGE (R516). A filtered rising edge of SPDREF, so many 10 ns units after the last 10 kHz sample. -/
  | spdrefEdge (at_ : Nat)
  /-- LNK_LOCK_ELAPSED (R414). 500 µs after entering LOCK with one or more, but not all, lanes locked, the Epbex link moves on to ALIGN. -/
  | lnkLockElapsed
  deriving DecidableEq, Repr

end Sys2Proof
end

