-- ==== Sys2Proof/WellFormed.lean ====
section
/-!
DEFINITION. Which commands are well formed: an operand that names a piece of the formatter names one that exists. The model gives a meaning
to every command; an ill-formed one names nothing and changes nothing, or its value is cut to the register's width.
-/
namespace Sys2Proof

/-- A number below a bound. -/
def below (n k : Nat) : Bool := decide (k < n)

/-- The byte address of a word of register space: 256 pages of 4,096 bytes (R604). -/
def regAddr (a : Nat) : Bool := a % 4 == 0 && decide (a < 0x100000)

/-- A value of 32 bits. -/
def word (v : Nat) : Bool := decide (v < 2 ^ 32)

/-- A 12-bit conversion (R506). -/
def adcCode (v : Nat) : Bool := decide (v < 4096)

/-- The body of a packet: at most 64 flits (R418). -/
def packet (body : List Word256) : Bool := decide (body.length ≤ 64)

/-- A mailbox page, 0x81 to 0x88, and a slot of it (R21, R22). -/
def mailbox (page slot : Nat) : Bool := decide (0x81 ≤ page) && decide (page ≤ 0x88) && decide (slot < 8)

/-- A side queue, 1 to 63 (R434). -/
def sideQueue (q : Nat) : Bool := decide (1 ≤ q) && decide (q < 64)

/-- An account number of 9 bits (R378). -/
def account_ (a : Nat) : Bool := decide (a < 512)

/-- A page slot, 23 bits (R365, R379). -/
def slotPage (p : Nat) : Bool := decide (p < 2 ^ 23)

/-- A data word of a page slot (R353). -/
def slotWord (slot w : Nat) : Bool := slotPage slot && decide (w < 128)

/-- The well-formed commands. -/
def Instr.wellFormed : Instr → Bool
  | .regRd _ body => packet body
  | .regWr _ body => packet body
  | .registerWrite addr _ => regAddr addr
  | .loWordRead addr => regAddr addr
  | .windowDataAccess addr _ => regAddr addr
  | .pageEn page _ => below 256 page
  | .pageQuiesce page _ => below 256 page
  | .pageQuiesced page => below 256 page
  | .pageLock page => below 256 page
  | .evtForce page bits => below 256 page && word bits
  | .evtFirstClear page => below 256 page
  | .stgRegisterWrite addr _ => regAddr addr
  | .mailboxRequest page slot _ => mailbox page slot
  | .mailboxComplete page slot res => mailbox page slot && below 17 res.length
  | .lockstepMismatch pair => below 6 pair
  | .internalWordHop page account _ _ => below 256 page && account_ account
  | .fifoEntryWritten page account _ size _ _ _ => below 256 page && account_ account && below 16 size
  | .fifoEntryRemoved _ size unit row _ => below 16 size && below 288 unit && below 8192 row
  | .servoFrameDecoded band reader _ _ _ _ _ _ => below 9 band && below 2 reader
  | .servoFrameBoundary _ late => late.all fun i => i == 5 || i == 6
  | .posLockLost => true
  | .frameSlip => true
  | .posCoarseEnter _ => true
  | .posCoarseExit _ => true
  | .posLockFail => true
  | .posStillTimeout => true
  | .posStillClear _ _ => true
  | .servoIdLost => true
  | .servoBurstReceived link blocks => below 2 link && below 12 blocks.length
  | .downlinkBurstLaunch hfe _ _ _ => below 32 hfe
  | .uplinkBurstReceived hfe module _ _ => below 32 hfe && below 2 module
  | .loopReset band track module => below 8 band && below 64 track && below 2 module
  | .mgmtResponseReceived hfe _ => below 32 hfe
  | .mgmtTimeout hfe _ => below 32 hfe
  | .hfeStatusRefresh hfe => below 32 hfe
  | .clLinkStateAdvance link _ _ => below 98 link
  | .clLinkTimeout link => below 98 link
  | .clLinkDown link => below 98 link
  | .clRetrain hfe => below 32 hfe
  | .passEnd => true
  | .outCtrlWrite _ _ => true
  | .dataSetRowsComplete _ => true
  | .brdArm band buf => below 8 band && below 2 buf
  | .brdStart band => below 8 band
  | .brdStop band => below 8 band
  | .brdDisarm band buf => below 8 band && below 2 buf
  | .brdHostSet band => below 8 band
  | .waitFrame band => below 8 band
  | .emitGap band => below 8 band
  | .emitSync band => below 8 band
  | .emitHeader band => below 8 band
  | .emitRow band => below 8 band
  | .bandFill band => below 8 band
  | .verifyOpen band => below 8 band
  | .verifyClose band => below 8 band
  | .applyStaged band => below 8 band
  | .markEvent band => below 8 band
  | .jump band => below 8 band
  | .end_ band => below 8 band
  | .rowFetch _ _ _ _ _ => true
  | .encInject => true
  | .dataSetReady => true
  | .boardCompile _ => true
  | .repositionComplete => true
  | .threadingDone => true
  | .detectorRepass band _ _ _ _ => below 8 band
  | .rowDecodeDone band _ _ _ => below 8 band
  | .decLate band _ _ _ => below 8 band
  | .mrdLowGain band => below 8 band
  | .trkWinWrite band value => below 8 band && word value
  | .recoveryRungDone => true
  | .weakWinWrite dsn => word dsn
  | .weakClr => true
  | .calCycleCompute _ => true
  | .calLate => true
  | .csoStandstillUpdate => true
  | .calValueWrite addr value => regAddr addr && word value
  | .calWinWrite value => word value
  | .granuleCompressed _ _ _ => true
  | .dvInject => true
  | .granulePacked => true
  | .cipherLaneStart => true
  | .cipherRequestDone lane _ => below 8 lane
  | .pairInject => true
  | .keyEraseComplete slot => below 1024 slot
  | .kekEraseComplete slot => below 16 slot
  | .keyImportUnwrapDone queue _ => sideQueue queue
  | .memTrain => true
  | .ddrTrainStepDone channel _ => below 4 channel
  | .ddrRefresh channel _ _ => below 4 channel
  | .ddrOscTrack channel _ => below 4 channel
  | .ddrZqLatch channel _ => below 4 channel
  | .bufferRead slot word _ => slotWord slot word
  | .bufferWrite slot word offset bytes account _ => slotWord slot word && below 33 (offset + bytes.length) && account_ account
  | .scrubVisit _ _ => true
  | .rlogTailWrite value => word value
  | .retire page => slotPage page
  | .memRelease page => slotPage page
  | .sramWordRead unit row _ _ => below 288 unit && below 8192 row
  | .srepApply => true
  | .splitWrite _ => true
  | .splitRead _ => true
  | .splitPcheck _ => true
  | .alloc _ account => account_ account
  | .free _ page account => slotPage page && account_ account
  | .handoff _ page account target => slotPage page && account_ account && account_ target
  | .addref _ page => slotPage page
  | .poolRelease _ page => slotPage page
  | .query _ page => slotPage page
  | .poolBadOp op => op == 0 || op == 7
  | .poolCancel => true
  | .cacheFill => true
  | .poolBuild => true
  | .poolBuildDone => true
  | .acctWinWrite value => word value
  | .flitReceived lanes => below 9 lanes.length
  | .ctrlFlitReceived _ _ => true
  | .replayTimeout => true
  | .markerReceived lane _ _ => below 8 lane
  | .epbxLinkTimeout => true
  | .lnkRetrain => true
  | .lnkReset => true
  | .cmd _ body => packet body
  | .dataOut _ body => packet body
  | .minute _ body => packet body
  | .token _ body => packet body
  | .tokenReturn => true
  | .dataInSend _ => true
  | .complSend => true
  | .retractSend => true
  | .eventSend => true
  | .queEn => true
  | .load _ _ _ _ _ => true
  | .unload => true
  | .format => true
  | .write => true
  | .filemark => true
  | .flush => true
  | .read _ => true
  | .locate _ => true
  | .refresh => true
  | .selectMap _ => true
  | .receipt => true
  | .openTenant => true
  | .closeTenant => true
  | .keyImport queue => sideQueue queue
  | .keyErase queue => sideQueue queue
  | .kekAgree queue => sideQueue queue
  | .kekErase queue => sideQueue queue
  | .cipher queue => sideQueue queue
  | .meterRead queue => sideQueue queue
  | .setQuota queue => sideQueue queue
  | .attest queue => sideQueue queue
  | .safeClear queue _ _ _ _ _ _ => sideQueue queue
  | .regImage queue => sideQueue queue
  | .minuteExecute => true
  | .bracketFinal => true
  | .mtrTailWrite value => word value
  | .pwmPeriod reel _ => below 2 reel
  | .curPlaus reel => below 2 reel
  | .hallEdge reel code _ => below 2 reel && below 8 code
  | .obsLost reel => below 2 reel
  | .motEn reel => below 2 reel
  | .pulseStartDone reel peaks => below 2 reel && peaks.length == 6
  | .startTimeout reel => below 2 reel
  | .reelRevolution reel _ _ => below 2 reel
  | .radSeed value => word value
  | .vbusSample code _ => adcCode code
  | .busUv => true
  | .chopperFault => true
  | .busOvervolt => true
  | .reelOverspeed reel => below 2 reel
  | .loopSample10khz aux late => below 5 aux.length && late.all (below 16)
  | .overtension => true
  | .overtensionHw => true
  | .slackTape => true
  | .actPwmPeriod act cur pos _ _ => below 2 act && adcCode cur && adcCode pos
  | .actSense act => below 2 act
  | .loopFollow slot => below 16 slot
  | .loopCommit mask => below 65536 mask
  | .slotWinWrite value => word value
  | .spdSrcWrite src => below 4 src
  | .spdrefLost => true
  | .injGo => true
  | .injStop => true
  | .injDone => true
  | .capArm => true
  | .capAbort => true
  | .capDone => true
  | .repClr _ _ => true
  | .binWinWrite value => word value
  | .s1Timeout => true
  | .safeStop => true
  | .stoReadback => true
  | .clkFail _ count => below 2048 count
  | .safeCfgMismatch pair _ => below 4 pair
  | .faultHandle => true
  | .fltLogTailWrite value => word value
  | .turn _ _ => true
  | .turnForceStart => true
  | .turnOverdue => true
  | .porstRelease _ _ raw locks count => raw.length == 4096 && below 16 locks && below 2048 count
  | .porstAssert => true
  | .railChange rail _ => below 9 rail
  | .brownout rail => below 9 rail
  | .cartPresFault => true
  | .cartPresFaultClear => true
  | .imgApertureWrite index value => below 32 index && word value
  | .bootGo => true
  | .bootClear => true
  | .imageVerifyDone => true
  | .roleStartDone _ => true
  | .lcAdvanceOemOpen => true
  | .lcAdvanceDeployed => true
  | .lcAdvanceRma => true
  | .oemHashProgram => true
  | .entropyFail before window => below 1025 before.length && below 1025 window.length
  | .entRetest raw => raw.length == 4096
  | .configSeal => true
  | .sealComplete => true
  | .clCtrlPermission hfe _ _ _ => below 32 hfe
  | .spdrefEdge _ => true
  | .lnkLockElapsed => true

end Sys2Proof
end

