-- ==== Sys2Proof/Machine/Bits.lean ====
section
/-!
DEFINITION. Numbers as bits: fields of a number, two's complement readings, clamping, rounding, little-endian byte strings (R6), and the
tables that State holds sparse data in.
-/
namespace Sys2Proof.Machine

/-- Bits `lo` to `lo + w - 1` of `n`. -/
def slice (n lo w : Nat) : Nat := (n >>> lo) % 2 ^ w

/-- `n` with bits `lo` to `lo + w - 1` replaced by the low `w` bits of `v`. -/
def setSlice (n lo w v : Nat) : Nat :=
  n - (slice n lo w) * 2 ^ lo + (v % 2 ^ w) * 2 ^ lo

/-- The two's complement reading of the low `w` bits of `n`. -/
def toS (w n : Nat) : Int :=
  if 2 * (n % 2 ^ w) < 2 ^ w then ((n % 2 ^ w : Nat) : Int) else ((n % 2 ^ w : Nat) : Int) - ((2 ^ w : Nat) : Int)

/-- The `w`-bit two's complement word of an integer. -/
def ofS (w : Nat) (i : Int) : Nat := (i % ((2 ^ w : Nat) : Int)).toNat

/-- An integer held between two limits. -/
def clampI (lo hi x : Int) : Int := if x < lo then lo else if hi < x then hi else x

/-- A number held between two limits. -/
def clampN (lo hi x : Nat) : Nat := if x < lo then lo else if hi < x then hi else x

/-- Floor of the quotient (an arithmetic right shift divides by a power of two this way). -/
def fdiv (a : Int) (b : Nat) : Int := Int.fdiv a (b : Int)

/-- Arithmetic right shift. -/
def asr (a : Int) (k : Nat) : Int := Int.fdiv a ((2 ^ k : Nat) : Int)

/-- Quotient rounded to the nearest integer, ties away from zero. -/
def rdiv (a : Int) (b : Nat) : Int :=
  if 0 ≤ a then ((2 * a.toNat + b) / (2 * b) : Nat) else - (((2 * (-a).toNat + b) / (2 * b) : Nat) : Int)

/-- Quotient truncated towards zero. -/
def tdiv (a : Int) (b : Int) : Int := Int.tdiv a b

/-- 1 for true, 0 for false. -/
def b2n (b : Bool) : Nat := if b then 1 else 0

/-- Sign of an integer: −1, 0 or 1. -/
def sgn (x : Int) : Int := if x < 0 then -1 else if x = 0 then 0 else 1

/-- A count that saturates at the largest value of `w` bits. -/
def satAdd (w a b : Nat) : Nat := min (a + b) (2 ^ w - 1)

/-- Rounded-up quotient. -/
def cdiv (a b : Nat) : Nat := (a + b - 1) / b

/-- Byte `i` of a number (byte 0 is the least significant, R6). -/
def byteOf (n i : Nat) : Byte := BitVec.ofNat 8 (n >>> (8 * i))

/-- The `k` bytes of a number, least significant first (R6). -/
def leBytes (k n : Nat) : List Byte := (List.range k).map (byteOf n)

/-- The number that bytes make, least significant first (R6). -/
def leNat : List Byte → Nat
  | [] => 0
  | b :: t => b.toNat + 256 * leNat t

/-- The `k` bytes of a number, most significant first. -/
def beBytes (k n : Nat) : List Byte := (leBytes k n).reverse

/-- The number that bytes make, most significant first. -/
def beNat (l : List Byte) : Nat := l.foldl (fun a b => a * 256 + b.toNat) 0

/-- The little-endian number in `size` bytes at `off` of a byte string; bytes past its end read as zero. -/
def fieldAt (l : List Byte) (off size : Nat) : Nat := leNat ((l.drop off).take size)

/-- `size` bytes at `off`. -/
def bytesAt (l : List Byte) (off size : Nat) : List Byte := (l.drop off).take size

/-- Zero bytes. -/
def zeros (n : Nat) : List Byte := List.replicate n 0

/-- A byte string cut to `n` bytes, zero-padded to that length. -/
def padTo (n : Nat) (l : List Byte) : List Byte := l.take n ++ zeros (n - l.length)

/-- Bytes of ASCII text, as code numbers. -/
def ascii (l : List Nat) : List Byte := l.map (BitVec.ofNat 8)

/-- The bits of a number, most significant first. -/
def msbBits (w n : Nat) : List Bool := (List.range w).map fun i => n.testBit (w - 1 - i)

/-- The number that bits make, most significant first. -/
def natOfMsb (l : List Bool) : Nat := l.foldl (fun a b => 2 * a + b2n b) 0

/-- The bits of a number, least significant first. -/
def lsbBits (w n : Nat) : List Bool := (List.range w).map n.testBit

/-- How many bits of a mask of `w` bits are set. -/
def popCount (w n : Nat) : Nat := ((List.range w).filter n.testBit).length

/-- A mask's set bits, in ascending order. -/
def maskList (w n : Nat) : List Nat := (List.range w).filter n.testBit

/-- `f` applied at every number of a list in turn. -/
def forEach {σ : Type} (l : List Nat) (f : Nat → σ → σ) (s : σ) : σ := l.foldl (fun a i => f i a) s

/-- Sum of a list of integers. -/
def sumI (l : List Int) : Int := l.foldl (· + ·) 0

/-- Sum of a list of numbers. -/
def sumN (l : List Nat) : Nat := l.foldl (· + ·) 0

/-- A table: data by number, in rising order; a number not listed has the reader's default. -/
abbrev Tbl (α : Type) := List (Nat × α)

/-- The entry of `k`, or the default `d`. -/
def Tbl.get {α : Type} (d : α) : Tbl α → Nat → α
  | [], _ => d
  | (i, v) :: t, k => if i = k then v else if k < i then d else Tbl.get d t k

/-- The table with `v` at `k`: replaced in place, or inserted where the order puts it. -/
def Tbl.set {α : Type} : Tbl α → Nat → α → Tbl α
  | [], k, v => [(k, v)]
  | (i, w) :: t, k, v =>
    if i = k then (k, v) :: t else if k < i then (k, v) :: (i, w) :: t else (i, w) :: Tbl.set t k v

/-- The table without an entry at `k`. -/
def Tbl.erase {α : Type} (m : Tbl α) (k : Nat) : Tbl α := m.filter fun e => e.1 != k

end Sys2Proof.Machine
end

