-- ==== Sys2Proof/Machine/Geometry.lean ====
section
/-!
DEFINITION. The geometry of the recording (spec/03): zones, slots and rows (R80, R91–R95), passes (R84), where a board's frames lie (R145),
and the row header, frame tag and fill that stand on tape (R87, R88, R90).
-/
namespace Sys2Proof.Machine

/-- Channel bits per frame of a band (R80). -/
def bandBits (b : Nat) : Nat := if b = 0 ∨ b = 7 then 5000 else if b = 1 ∨ b = 6 then 5500 else 6000

/-- Rows per track per data set in a band (R80). -/
def bandRows (b : Nat) : Nat := if b = 0 ∨ b = 7 then 13 else if b = 1 ∨ b = 6 then 15 else 16

/-- The band of a track (R80). -/
def bandOf (t : Nat) : Nat := t / 64

/-- Rows per track of a track's band. -/
def trackRows (t : Nat) : Nat := bandRows (bandOf t)

/-- Bits of a row on tape: sync mark, header, codeword (R89). -/
def rowBits : Nat := 17504

/-- Rows of a data set (R92). -/
def dsRows : Nat := 7680

/-- Payload bytes of a data set (R92). -/
def dsPayload : Nat := 14155776

/-- Slot `p` of track `t` exists in the main area (R93). -/
def mainSlot (t p : Nat) : Bool :=
  t < 512 && (p ≤ 12 || (p ≤ 14 && 64 ≤ t && t ≤ 447) || (p == 15 && 128 ≤ t && t ≤ 383))

/-- The row that a main slot carries (R93). -/
def rowOfSlot (t p : Nat) : Nat :=
  if p ≤ 12 then 512 * p + (t + 512 - 5 * p) % 512
  else if p ≤ 14 then 6656 + 384 * (p - 13) + (t - 64 + 384 - 5 * p) % 384
  else 7424 + (t - 128 + 256 - 5 * p) % 256

/-- The track and slot of a row (R93). -/
def slotOfRow (g : Nat) : Nat × Nat :=
  if g < 6656 then ((g - 512 * (g / 512) + 5 * (g / 512)) % 512, g / 512)
  else if g < 7424 then
    (64 + (g - (6656 + 384 * ((g - 6656) / 384)) + 5 * (13 + (g - 6656) / 384)) % 384, 13 + (g - 6656) / 384)
  else (128 + (g - 7424 + 75) % 256, 15)

/-- SDS and row index of a row number (R92). -/
def sdsOf (g : Nat) : Nat := g % 32
def rowOf (g : Nat) : Nat := g / 32

/-- Extension slot of ordinal `e` exists on track `t` for an extension of `k` frames: its last bit lies within frame 48 + k (R95). -/
def extSlot (t e k : Nat) : Bool :=
  e < 3 && ((rowBits * (trackRows t + e + 1) - 1) / (bandBits (bandOf t) - 64) ≤ 48 + k)

/-- Extension slots of a band at `k` (R95). -/
def extSlots (b k : Nat) : Nat := ((List.range 3).filter fun e => extSlot (64 * b) e k).length

/-! ## Along the tape (R83) -/

/-- The frames of the calibration area (R83), from the first to the one after the last. -/
def calArea : Nat × Nat := (4000, 84000)

/-- The frames of the housekeeping area (R83). -/
def hkArea : Nat × Nat := (84000, 100000)

/-- A recording frame of the housekeeping area (R83). -/
def inHk (f : Nat) : Bool := decide (hkArea.1 ≤ f) && decide (f < hkArea.2)

/-- UA_START (R83). -/
def uaStart : Nat := 100000

/-- Pass `p` runs in reverse (R84). -/
def passReverse (p : Nat) : Bool := p % 2 == 1

/-- The recording frame `f` frames on from an origin, in the pass's direction (R145). -/
def frameOn (pass origin f : Nat) : Nat := if passReverse pass then origin - f else origin + f

/-- Frames left from a frame to the pass's far limit (R85): UA_END forward, 100,000 in reverse. -/
def framesLeft (pass frame uaEnd : Nat) : Nat := if passReverse pass then frame + 1 - uaStart else uaEnd - frame

/-- The frame at which a pass begins (R84). -/
def passStart (pass uaEnd : Nat) : Nat := if passReverse pass then uaEnd - 1 else uaStart

/-- A CRC of `w` bits over bits taken in order, polynomial without its top term, not reflected. -/
def crcBits (w poly init : Nat) (l : List Bool) : Nat :=
  l.foldl (fun c b => if (c.testBit (w - 1)) != b then (c * 2 % 2 ^ w) ^^^ poly else c * 2 % 2 ^ w) init

/-- The bits of bytes, each most significant bit first. -/
def byteBits (l : List Byte) : List Bool := l.flatMap fun b => msbBits 8 b.toNat

/-- The frame tag with its CRC-4 (R87). -/
def frameTag (kind index dsnLo4 : Nat) : Nat :=
  let v := kind % 4 * 2 ^ 10 + index % 64 * 2 ^ 4 + dsnLo4 % 16
  v * 16 + crcBits 4 0x3 0 (msbBits 12 v)

/-- A frame tag as read passes its CHECK (R87). -/
def frameTagOk (tag : Nat) : Bool := frameTag (tag / 2 ^ 14) (slice tag 8 6) (slice tag 4 4) == tag % 2 ^ 16

/-- A frame tag of the housekeeping area passes its CHECK (R87, R282). -/
def hkTagOk (tag : Nat) : Bool := frameTagOk tag && slice tag 14 2 == 3

/-- No frame tag has passed its CHECK for 116 frames, two of the longest pitches (R113): `tags` holds the tags of the frames passed, as read, the
latest last. -/
def noMoreTags (tags : List Nat) : Bool := decide (116 ≤ tags.length) && (tags.drop (tags.length - 116)).all fun t => !frameTagOk t

/-- The CRC-16 of a row header (R90): polynomial 0x1021, initial value 0xFFFF (R133). -/
def headerCrc (v : Nat) : Nat := crcBits 16 0x1021 0xFFFF (msbBits 48 v)

/-- A row header with its CRC (R90). -/
def rowHeader (dsnLo sds row kind rewr pass : Nat) : Nat :=
  let v := dsnLo % 2 ^ 24 * 2 ^ 24 + sds % 32 * 2 ^ 19 + row % 256 * 2 ^ 11 + kind % 4 * 2 ^ 9 + rewr % 8 * 2 ^ 6 + pass % 64
  v * 2 ^ 16 + headerCrc v

/-- A header's CRC-16 holds (R90). -/
def headerCrcOk (h : Nat) : Bool := headerCrc (h / 2 ^ 16) == h % 2 ^ 16

/-- A header is valid: CRC, ROW, KIND (R90). -/
def headerValid (h : Nat) : Bool := headerCrcOk h && slice h 27 8 ≤ 239 && slice h 25 2 != 3

/-! ## The housekeeping area (R106–R108) -/

/-- Bytes of a housekeeping block's 216 data rows, and of a copy's four blocks (R107, R108). -/
def hkBlockLen : Nat := 442368
def hkCopyLen : Nat := 4 * hkBlockLen

/-- The first frame of slot `s` of copy `c` (R107). -/
def hkFrame (c s : Nat) : Nat := hkArea.1 + 5000 * c + 16 * s

/-- The pass position at which copy `c` is written, and the servo stripe there (R107). -/
def hkPass (c : Nat) : Nat := 16 * c
def hkStripe (c : Nat) : Nat := 32 * c

/-- Channel bits per frame of a band in robust mode (R106). -/
def robustBits (b : Nat) : Nat := bandBits b / 4

/-- The block and row that track `t` carries in slot `s` of a copy, if it carries one (R107). -/
def hkRowOf (t s : Nat) : Option (Nat × Nat) := if t < 480 ∧ s < 2 then some (2 * s + t % 2, t / 2) else none

/-- The track and slot of row `r` of block `j` (R107). -/
def hkPlace (j r : Nat) : Nat × Nat := (2 * r + j % 2, j / 2)

/-- DSN_LO of the rows of block `j` of copy `c` (R90). -/
def hkDsnLo (c j : Nat) : Nat := 0xFFFF00 + 16 * c + j

/-- The header of row `r` of block `j` of copy `c` (R90, R107). -/
def hkHeader (c j r : Nat) : Nat := rowHeader (hkDsnLo c j) 0 r 2 0 (hkPass c)

/-- The tag of frame `i` of slot `s` of copy `c` (R87). -/
def hkTag (c s i : Nat) : Nat := frameTag 3 i (4 * c + s)

/-- Band fill bit `x` of a frame (R88). -/
def fillBit (x : Nat) : Bool := (0x0F : Nat).testBit (7 - x % 8)

end Sys2Proof.Machine
end

