-- ==== Sys2Proof/Machine/Codes.lean ====
section
/-!
DEFINITION. The codes of the formatter: the field GF(2^8) (R118), Reed-Solomon coding and decoding over it (C2 R128, C3 R130, P-code R347,
W-code R344), the row code C1 (R123–R127), the row scrambler (R121, R122), and the byte CRCs (R60, R132–R134).
-/
namespace Sys2Proof.Machine

/-! ## The field (R118) -/

/-- Product in GF(2^8) generated by 0x11D. -/
def gfMul (a b : Nat) : Nat :=
  ((List.range 8).foldl (fun (st : Nat × Nat) i =>
    let acc := if b.testBit i then st.1 ^^^ st.2 else st.1
    let d := st.2 * 2
    (acc, if 256 ≤ d then d ^^^ 0x11D else d)) (0, a % 256)).1

/-- `a` to the power `k`. -/
def gfPow (a : Nat) : Nat → Nat
  | 0 => 1
  | k + 1 => gfMul a (gfPow a k)

/-- α to the power `k` (α = 0x02, of order 255). -/
def alphaPow (k : Nat) : Nat := gfPow 2 (k % 255)

/-- Inverse in the field: the 254th power. -/
def gfInv (a : Nat) : Nat := gfPow a 254

/-- The exponent of a non-zero field element to the base α. -/
def gfLog (a : Nat) : Nat := match (List.range 255).find? fun k => alphaPow k == a with | some k => k | none => 0

/-- A polynomial's value; coefficients from x^0 up. -/
def polyEval (p : List Nat) (x : Nat) : Nat := p.foldr (fun c acc => c ^^^ gfMul x acc) 0

def polyAdd (p q : List Nat) : List Nat := (List.range (max p.length q.length)).map fun i => p.getD i 0 ^^^ q.getD i 0

def polyScale (c : Nat) (p : List Nat) : List Nat := p.map (gfMul c)

def polyMul (p q : List Nat) : List Nat :=
  p.foldr (fun c acc => polyAdd (polyScale c q) (0 :: acc)) []

/-- The generator with roots α^0 to α^(r−1), coefficients from x^0 up. -/
def rsGen (r : Nat) : List Nat := (List.range r).foldl (fun g i => polyMul g [alphaPow i, 1]) [1]

/-- The remainder of m(x)·x^r divided by the generator: message from its highest coefficient, answer from x^(r−1) down to x^0. -/
def rsParity (r : Nat) (msg : List Nat) : List Nat :=
  let g := (rsGen r).take r |>.reverse
  msg.foldl (fun reg m =>
    let f := m ^^^ reg.headD 0
    List.zipWith (fun a b => a ^^^ b) (reg.tail ++ [0]) (polyScale f g)) (List.replicate r 0)

/-- Syndromes S_0 to S_(r−1) of a word, given from its highest coefficient. -/
def rsSyndromes (r : Nat) (word : List Nat) : List Nat :=
  (List.range r).map fun j => let x := alphaPow j; word.foldl (fun acc c => gfMul acc x ^^^ c) 0

/-- The locator polynomial of erasures at exponents `er`. -/
def erasureLocator (er : List Nat) : List Nat := er.foldl (fun p e => polyMul p [1, alphaPow e]) [1]

/-- One step of the Berlekamp–Massey recursion, from the erasure locator: index, length, current and previous polynomials. -/
def bmStep (syn : List Nat) (f : Nat) (st : Nat × List Nat × List Nat) (r : Nat) : Nat × List Nat × List Nat :=
  let (l, lam, b) := st
  let delta := (List.range (r + 1)).foldl (fun a j => a ^^^ gfMul (lam.getD j 0) (syn.getD (r - j) 0)) 0
  if delta = 0 then (l, lam, 0 :: b)
  else
    let t := polyAdd lam (polyScale delta (0 :: b))
    if 2 * l ≤ r + f then (r + 1 + f - l, t, polyScale (gfInv delta) lam) else (l, t, 0 :: b)

/-- A polynomial without its zero top coefficients. -/
def polyTrim (p : List Nat) : List Nat := (p.reverse.dropWhile (· == 0)).reverse

/-- Bounded-distance decoding with `r` check symbols, `f` erasures at exponents `er` and `e` further errors: the corrected word and `e`,
accepted only if 2e + f ≤ `cap`; none otherwise. -/
def rsDecode (r cap : Nat) (er : List Nat) (word : List Nat) : Option (List Nat × Nat) :=
  let n := word.length
  let f := er.length
  let syn := rsSyndromes r word
  if cap < f then none
  else if syn.all (· == 0) then some (word, 0)
  else
    let g := erasureLocator er
    let st := ((List.range r).drop f).foldl (bmStep syn f) (f, g, g)
    let lam := polyTrim st.2.1
    let locs := (List.range n).filter fun p => polyEval lam (alphaPow (255 - p % 255)) == 0
    let omega := (polyMul syn lam).take r
    let dlam := (List.range (lam.length - 1)).map fun i => if i % 2 = 0 then lam.getD (i + 1) 0 else 0
    let fix := locs.map fun p =>
      let xi := alphaPow (255 - p % 255)
      (p, gfMul (alphaPow p) (gfMul (polyEval omega xi) (gfInv (polyEval dlam xi))))
    let out := (List.range n).map fun i =>
      match fix.find? fun x => x.1 == n - 1 - i with | some x => word.getD i 0 ^^^ x.2 | none => word.getD i 0
    let e := (locs.filter fun p => !er.contains p).length
    if locs.length + 1 = lam.length ∧ (rsSyndromes r out).all (· == 0) ∧ 2 * e + f ≤ cap then some (out, e) else none

/-! ## C2 (R128, R129, R137) -/

/-- The 24 check symbols of a byte column of 216 (R129). -/
def c2Parity (col : List Nat) : List Nat := rsParity 24 col

/-- A column decoded with flagged rows under a margin (R137): its 240 symbols from row 0, none if FAILED. -/
def c2Decode (margin : Nat) (flagged : List Nat) (col : List Nat) : Option (List Nat × Nat) :=
  rsDecode 24 (24 - min margin 8) (flagged.map fun r => 239 - r) col

/-! ## C3 (R130, R131, R140) -/

/-- C3 symbols of data sets B + 30 and B + 31 from the 30 of the message (R131). -/
def c3Parity (msg : List Nat) : List Nat := rsParity 2 msg

/-- The result of C3 at one offset (R140). -/
inductive C3Result where
  | clean
  | corrected (word : List Nat)
  | failed
  deriving DecidableEq, Repr

/-- C3 at one payload offset: 32 symbols from data set B on, flagged data sets by index, and the indices that are data sets of the group
(R140). -/
def c3Decode (errEn : Bool) (flagged present : List Nat) (word : List Nat) : C3Result :=
  let z := (List.range 32).map fun i => if flagged.contains i then 0 else word.getD i 0
  let syn := rsSyndromes 2 z
  let s0 := syn.getD 0 0
  let s1 := syn.getD 1 0
  let put (l : List (Nat × Nat)) : List Nat := (List.range 32).map fun i =>
    match l.find? fun x => x.1 == i with | some x => z.getD i 0 ^^^ x.2 | none => z.getD i 0
  match flagged with
  | [] =>
    if s0 = 0 ∧ s1 = 0 then .clean
    else if !errEn ∨ s0 = 0 ∨ s1 = 0 then .failed
    else
      let p := gfLog (gfMul s1 (gfInv s0))
      if p ≤ 31 ∧ present.contains (31 - p) then .corrected (put [(31 - p, s0)]) else .failed
  | [i] => if gfMul s0 (alphaPow (31 - i)) = s1 then .corrected (put [(i, s0)]) else .failed
  | [i, j] =>
    let xi := alphaPow (31 - i)
    let xj := alphaPow (31 - j)
    let ej := gfMul (s1 ^^^ gfMul s0 xi) (gfInv (xi ^^^ xj))
    .corrected (put [(i, s0 ^^^ ej), (j, ej)])
  | _ => .failed

/-! ## W-code (R344–R346) -/

/-- Bytes of a 256-bit word, byte 0 first. -/
def wordBytes (w : Word256) : List Nat := (List.range 32).map fun i => (w.toNat >>> (8 * i)) % 256

/-- The word that 32 byte values make. -/
def wordOf (l : List Nat) : Word256 := BitVec.ofNat 256 (l.foldr (fun b acc => b % 256 + 256 * acc) 0)

/-- The CHK of a word: byte k is the coefficient of x^k of the remainder (R344). -/
def wChk (w : Word256) : Chk :=
  match rsParity 3 (wordBytes w) with
  | [c2, c1, c0] => BitVec.ofNat 24 (c0 + 256 * c1 + 65536 * c2)
  | _ => 0

/-- The poison mask and its syndrome (R345, R346). -/
def poisonMask : Chk := 0x5A00A5#24
def poisonSyn : Nat := 0x6CD0FF

/-- The 35 symbols of a word and its CHK, from x^34 down (R344). -/
def wSymbols (w : Word256) (c : Chk) : List Nat :=
  wordBytes w ++ [(c.toNat >>> 16) % 256, (c.toNat >>> 8) % 256, c.toNat % 256]

/-- SYN: S0 in [7:0], S1 in [15:8], S2 in [23:16] (R345). -/
def wSyn (w : Word256) (c : Chk) : Nat :=
  match rsSyndromes 3 (wSymbols w c) with
  | [a, b, d] => a + 256 * b + 65536 * d
  | _ => 0

/-- What the W-code says of a word (R345); a single-byte error with the corrected word and CHK. -/
inductive WResult where
  | clean
  | poisoned
  | single (w : Word256) (c : Chk)
  | uncorrectable
  deriving DecidableEq, Repr

/-- W-code decoding, the first case that matches (R345). -/
def wDecode (w : Word256) (c : Chk) : WResult :=
  let syn := wSyn w c
  let s0 := syn % 256
  let s1 := syn / 256 % 256
  let s2 := syn / 65536
  if syn = 0 then .clean
  else if syn = poisonSyn then .poisoned
  else if s0 ≠ 0 ∧ s1 ≠ 0 ∧ s2 ≠ 0 ∧ gfMul s1 s1 = gfMul s0 s2 then
    let p := gfLog (gfMul s1 (gfInv s0))
    if p ≤ 34 then
      if 3 ≤ p then .single (w ^^^ BitVec.ofNat 256 (s0 * 2 ^ (8 * (34 - p)))) c
      else .single w (c ^^^ BitVec.ofNat 24 (s0 * 2 ^ (8 * p)))
    else .uncorrectable
  else .uncorrectable

/-- A poisoned word as it is written: zero data, CHK the mask (R346). -/
def poisonWord : Word256 × Chk := (0, poisonMask)

/-! ## P-code (R347–R350) -/

/-- The four P words of 128 data words: parity symbol k of interleave j is byte j of P word k (R347). -/
def pWords (ws : List Word256) : List Word256 :=
  let cols := (List.range 32).map fun j => (rsParity 4 (ws.map fun w => (w.toNat >>> (8 * j)) % 256)).reverse
  (List.range 4).map fun k => wordOf (cols.map fun c => c.getD k 0)

/-- Byte `j` of each data word, then parity symbols 3 down to 0: interleave `j` from its highest coefficient (R347). -/
def interleave (ws ps : List Word256) (j : Nat) : List Nat :=
  (ws ++ ps.reverse).map fun w => (w.toNat >>> (8 * j)) % 256

/-- A slot's 128 words and 4 P words decoded with flagged words as erasures (R349, step 3); none if an interleave is not accepted. -/
def pDecode (flagged : List Nat) (ws ps : List Word256) : Option (List Word256 × List Word256) :=
  let cols := (List.range 32).map fun j => rsDecode 4 4 (flagged.map fun i => 131 - i) (interleave ws ps j)
  if cols.all Option.isSome then
    let c := cols.map fun x => match x with | some y => y.1 | none => []
    let words := (List.range 132).map fun i => wordOf (c.map fun l => l.getD i 0)
    some (words.take 128, (words.drop 128).reverse)
  else none

/-- Every interleave of the slot has zero P-code syndrome (R349, step 2). -/
def pClean (ws ps : List Word256) : Bool :=
  (List.range 32).all fun j => (rsSyndromes 4 (interleave ws ps j)).all (· == 0)

/-! ## C1 (R123–R127) -/

/-- The number whose bit r is the r-th of a list of bits. -/
def natOfLsb (l : List Bool) : Nat := l.foldr (fun b a => b2n b + 2 * a) 0

/-- A column block: bit r is v[r] (R123). -/
def blockOf (bytes : List Byte) : Word256 := BitVec.ofNat 256 (natOfLsb (byteBits bytes))

/-- P^s applied to a block: (P^s v)[r] = v[(r + s) mod 256] (R124). -/
def rotBlock (v : Word256) (s : Nat) : Word256 := v.rotateRight (s % 256)

/-- The shift of information block (j, i) (R125); none where the block is zero. -/
def c1Shift (j i : Nat) : Option Nat := if i % 4 = j then none else some (((j + 1) * (7 * i + 3)) % 256)

/-- λ_j: the sum of a block row over the information blocks (R127). -/
def c1Lambda (u : List Word256) (j : Nat) : Word256 :=
  ((List.range 64).zip u).foldl (fun acc x => match c1Shift j x.1 with | some s => acc ^^^ rotBlock x.2 s | none => acc) 0

/-- The four parity blocks of the 64 information blocks (R127). -/
def c1Encode (u : List Word256) : List Word256 :=
  let l0 := c1Lambda u 0
  let l1 := c1Lambda u 1
  let l2 := c1Lambda u 2
  let l3 := c1Lambda u 3
  let p0 := l0 ^^^ l1 ^^^ l2 ^^^ l3
  let p1 := l0 ^^^ rotBlock p0 1
  [p0, p1, l1 ^^^ p0 ^^^ p1, l3 ^^^ rotBlock p0 1]

/-- The four block-row sums of a codeword of 68 blocks: all zero on a codeword (R124, R126). -/
def c1Checks (v : List Word256) : List Word256 :=
  let u := v.take 64
  let p := v.drop 64
  let p0 := p.getD 0 0
  let p1 := p.getD 1 0
  let p2 := p.getD 2 0
  let p3 := p.getD 3 0
  [c1Lambda u 0 ^^^ rotBlock p0 1 ^^^ p1, c1Lambda u 1 ^^^ p0 ^^^ p1 ^^^ p2, c1Lambda u 2 ^^^ p2 ^^^ p3, c1Lambda u 3 ^^^ rotBlock p0 1 ^^^ p3]

/-- The information blocks of a row's 2,048 bytes (R123). -/
def rowBlocks (bytes : List Byte) : List Word256 := (List.range 64).map fun i => blockOf (bytesAt bytes (32 * i) 32)

/-- The bits of a block in codeword order. -/
def blockBits (v : Word256) : List Bool := (List.range 256).map fun r => v.toNat.testBit r

/-- The codeword of a row: its 68 blocks (R123, R127). -/
def c1Codeword (bytes : List Byte) : List Word256 := let u := rowBlocks bytes; u ++ c1Encode u

/-- The bits of a codeword in index order (R123). -/
def codewordBits (v : List Word256) : List Bool := v.flatMap blockBits

/-! ## The row on tape (R119–R122) -/

def syncMark : Nat := 0xE5B09C3F
def resyncPattern : Nat := 0xCCCCCC1E7A4B

/-- The seed of a row recorded on track t, slot p (R122). -/
def rowSeed (hk t p : Nat) : Nat := 0x10000 + hk % 2 * 2 ^ 15 + t % 512 * 2 ^ 5 + p % 32

/-- `n` more bits of the scrambling sequence, from its last 17, newest first (R121). -/
def scrambleFrom : Nat → List Bool → List Bool
  | 0, _ => []
  | n + 1, st => let b := (st.getD 2 false) != (st.getD 16 false); b :: scrambleFrom n (b :: st.take 16)

/-- The first `n` bits of the scrambling sequence of a seed (R121). -/
def scrambleSeq (seed n : Nat) : List Bool :=
  let first := msbBits 17 seed
  (first ++ scrambleFrom (n - 17) first.reverse).take n

/-- A row as recorded: sync mark, then header and codeword scrambled (R89, R119, R121). -/
def rowOnTape (seed header : Nat) (code : List Bool) : List Bool :=
  let body := msbBits 64 header ++ code
  msbBits 32 syncMark ++ List.zipWith (fun a b => a != b) body (scrambleSeq seed body.length)

/-! ## CRCs over bytes (R60, R132–R134, R405) -/

/-- CRC-8, polynomial 0x07, initial value 0, not reflected (R60, R405). -/
def crc8 (l : List Byte) : Nat := crcBits 8 0x07 0 (byteBits l)

/-- The servo CRC-8: polynomial 0x2F, initial value 0xFF (R38). -/
def servoCrc (bits : List Bool) : Nat := crcBits 8 0x2F 0xFF bits

/-- CRC-32 of IEEE 802.3, reflected (R60). -/
def crc32 (l : List Byte) : Nat :=
  let c := l.foldl (fun c b => (List.range 8).foldl (fun x _ => if x % 2 = 1 then (x / 2) ^^^ 0xEDB88320 else x / 2) (c ^^^ b.toNat)) 0xFFFFFFFF
  c ^^^ 0xFFFFFFFF

/-- CRC-64 of ECMA-182, initial value 0, not reflected (R134). -/
def crc64 (l : List Byte) : Nat := crcBits 64 0x42F0E1EBA9EA3693 0 (byteBits l)

end Sys2Proof.Machine
end

