-- ==== Sys2Proof/Config.lean ====
section
/-!
DEFINITION. What the spec leaves open, as constants without a body: nothing in Lean can see their values, so a claim holds whatever they
are. Each is applied to the operands it depends on, or to the count of free values taken so far (State.freeCount).
-/
namespace Sys2Proof.Config

/-- A free value of `w` bits, fresh at each count: a random draw of the DRBG, or a value the spec does not state. -/
opaque freeValue (w : Nat) : Nat → BitVec w

/-- The phase error of a servo reader's clock tone in 2^−8 tick, from 8 samples and the tick they are taken at: the spec gives no phase
detector (R44). -/
opaque phaseError : List (BitVec 8) → Nat → Int

/-- What the position PLL adds to the count for a mean phase error, in 1/48,828,125 tick: the spec gives no loop filter (R44). -/
opaque pllSteer : Int → Int

/-- The bit that stands in a write burst where no square emits one, by track, frame and bit: the spec gives it no value (R61, R148). -/
opaque unsentBit : Nat → Nat → Nat → Bool

/-- The interpolator's output at one of its 64 phases, from its last 8 inputs, newest first: the spec gives it no coefficients (R191). -/
opaque interpolate : Nat → List Int → Int

/-- Whether a quotient that is no whole number is rounded up, where the spec names no rounding (R203, R219, R235). -/
opaque roundsUp : Nat → Nat → Bool

/-- An equaliser output as the 5-bit skew store gives it back, held to 5 bits where it is used: the spec names no quantiser (R214). -/
opaque skewValue : Int → Int

/-- The magnitude of a channel LLR, in units of 0.25, for a difference of two path metrics of the detector, before it is held to 31: the spec gives no
noise scale (R200). -/
opaque llrSize : Nat → Nat

/-- What an a priori value of the decoder is worth in the detector's path metrics (R204). -/
opaque priorMetric : Int → Int

/-- A ratio of two sums of squares in decibel when the second is zero: the spec states no result (R219, R235). -/
opaque ratioFree : Nat → Nat

/-- The hard decision on an LLR of zero (R202, R203), and the survivor taken when two have one metric (R193). -/
opaque tieBreak : Nat → Bool

/-- The observer's low-pass filter over the last four PWM periods of the back-EMF, newest first, in mV in the stationary frame (R486). -/
opaque emfFilter : List (Int × Int) → Int × Int

/-- A step of the observer's PLL, from its angle in 2^−16 electrical turn, its speed in mrad/s and the filtered back-EMF: the next angle and speed,
and the error in 1/256 turn. The spec gives no loop filter (R486). -/
opaque observerStep : Nat → Int → Int × Int → Nat × Int × Int

/-- How far beyond its vector the parabola through the largest of six pulse peaks and its neighbours peaks, in 2^−16 turn, held to half the angle
between two vectors where it is used (R489). -/
opaque pulseAngle : List Nat → Nat

/-- The offset of an AUX tension channel in counts, which no register holds (R520). -/
opaque auxOffset : Nat → Int

end Sys2Proof.Config
end

