-- ==== Sys2Proof/Machine/Reg.lean ====
section
/-!
DEFINITION. The register fields by name, as the field maps of the chapters give them (spec/01 to spec/20): each is a word address of the 1 MiB register space
(page × 0x1000 + offset, R604), a lowest bit and a width. A page that has instances takes its instance number n, an array its index i.
A register whose only field spans it carries the register's name.
-/
namespace Sys2Proof.Machine

/-- A register field: its word's address in register space (R604), its lowest bit and its width. -/
structure Fld where
  addr  : Nat
  lo    : Nat
  width : Nat
  deriving DecidableEq, Repr

namespace Reg

/-! ## CHIP page (R619, spec/20) -/
abbrev CHIP_ID_PART : Fld := ⟨0x40, 0, 16⟩
abbrev CHIP_ID_ORDER : Fld := ⟨0x40, 16, 2⟩
abbrev CHIP_ID_STEPPING : Fld := ⟨0x40, 24, 8⟩
abbrev CHIP_MAP : Fld := ⟨0x44, 0, 8⟩
abbrev CHIP_SCRATCH (i : Nat) : Fld := ⟨0x50 + 0x4 * i, 0, 32⟩

/-! ## FAULT page (R568, spec/17) -/
abbrev FLT_CTRL : Fld := ⟨0x1040, 0, 3⟩
abbrev FLT_STATUS_ACTIVE : Fld := ⟨0x1044, 0, 3⟩
abbrev FLT_STATUS_DEPTH : Fld := ⟨0x1044, 4, 7⟩
abbrev FLT_STATUS_SAFETY_BUF : Fld := ⟨0x1044, 11, 4⟩
abbrev FAULT_LOST : Fld := ⟨0x1048, 0, 32⟩
abbrev FLT_LOG_HEAD : Fld := ⟨0x104c, 0, 32⟩
abbrev FLT_LOG_TAIL : Fld := ⟨0x1050, 0, 32⟩
abbrev FLT_LOG_LOST_CNT : Fld := ⟨0x1054, 0, 32⟩
abbrev FLT_LOG_WIN_ADDR_ENTRY : Fld := ⟨0x1058, 0, 10⟩
abbrev FLT_LOG_WIN_ADDR_WORD : Fld := ⟨0x1058, 10, 3⟩
abbrev FLT_LOG_WIN_ADDR_AUTOINC : Fld := ⟨0x1058, 13, 1⟩
abbrev FLT_LOG_WIN_DATA : Fld := ⟨0x105c, 0, 32⟩
abbrev SAFETY_LAST : Fld := ⟨0x1060, 0, 16⟩
abbrev SAFETY_CNT : Fld := ⟨0x1064, 0, 32⟩

/-! ## SAFE page (R567, spec/17) -/
abbrev SAFE_STATUS_S1 : Fld := ⟨0x2040, 0, 1⟩
abbrev SAFE_STATUS_S2 : Fld := ⟨0x2040, 1, 1⟩
abbrev SAFE_STATUS_S3 : Fld := ⟨0x2040, 2, 1⟩
abbrev SAFE_STATUS_SSN_LATCHED : Fld := ⟨0x2040, 3, 1⟩
abbrev SAFE_STATUS_SSN_PIN : Fld := ⟨0x2040, 4, 1⟩
abbrev SAFE_STATUS_STO_REELS : Fld := ⟨0x2040, 5, 1⟩
abbrev SAFE_STATUS_STO_ACT : Fld := ⟨0x2040, 6, 1⟩
abbrev SAFE_STATUS_BUS_CLAMP : Fld := ⟨0x2040, 7, 1⟩
abbrev SAFE_STATUS_FAULT_N : Fld := ⟨0x2040, 8, 1⟩
abbrev SAFE_STATUS_CFG_OK : Fld := ⟨0x2040, 9, 1⟩
abbrev SAFE_STATUS_UNCONTROLLED : Fld := ⟨0x2040, 10, 1⟩
abbrev SAFE_CAUSE_CODE : Fld := ⟨0x2044, 0, 16⟩
abbrev SAFE_CAUSE_PORST_ONLY : Fld := ⟨0x2044, 16, 1⟩
abbrev SAFE_CFG_SSN_MODE : Fld := ⟨0x2048, 0, 1⟩
abbrev SAFE_CFG_TEN_CMP_EN : Fld := ⟨0x2048, 1, 1⟩
abbrev SAFE_CFG_FAULTN_MIN : Fld := ⟨0x2048, 8, 3⟩
abbrev SAFE_CFG_S1_TMAX : Fld := ⟨0x2048, 16, 16⟩
abbrev SAFE_CFG_DUP_SSN_MODE : Fld := ⟨0x204c, 0, 1⟩
abbrev SAFE_CFG_DUP_TEN_CMP_EN : Fld := ⟨0x204c, 1, 1⟩
abbrev SAFE_CFG_DUP_FAULTN_MIN : Fld := ⟨0x204c, 8, 3⟩
abbrev SAFE_CFG_DUP_S1_TMAX : Fld := ⟨0x204c, 16, 16⟩
abbrev VBUS_TRIP : Fld := ⟨0x2050, 0, 12⟩
abbrev VBUS_TRIP_DUP : Fld := ⟨0x2054, 0, 12⟩
abbrev TEN_LIMITS_TEN_MAX : Fld := ⟨0x2058, 0, 16⟩
abbrev TEN_LIMITS_TEN_MIN : Fld := ⟨0x2058, 16, 16⟩
abbrev TEN_LIMITS_DUP_TEN_MAX : Fld := ⟨0x205c, 0, 16⟩
abbrev TEN_LIMITS_DUP_TEN_MIN : Fld := ⟨0x205c, 16, 16⟩
abbrev TEN_CMP : Fld := ⟨0x2060, 0, 12⟩
abbrev TEN_CMP_DUP : Fld := ⟨0x2064, 0, 12⟩
abbrev DUMP_ADDR_PAGE : Fld := ⟨0x2068, 0, 23⟩
abbrev DUMP_ADDR_WORD : Fld := ⟨0x2068, 23, 7⟩
abbrev DUMP_STATUS_VERDICT : Fld := ⟨0x206c, 0, 2⟩
abbrev DUMP_STATUS_UNWRITTEN : Fld := ⟨0x206c, 2, 1⟩
abbrev STOP_CNT : Fld := ⟨0x2070, 0, 32⟩
abbrev UNCTRL_CNT : Fld := ⟨0x2074, 0, 32⟩
abbrev DUMP_DATA (i : Nat) : Fld := ⟨0x2080 + 0x4 * i, 0, 32⟩

/-! ## SEC page (R590, spec/18) -/
abbrev SEC_STATUS_LC : Fld := ⟨0x3040, 0, 2⟩
abbrev SEC_STATUS_LC_PENDING : Fld := ⟨0x3040, 2, 1⟩
abbrev SEC_STATUS_BOOT_STATE : Fld := ⟨0x3040, 3, 3⟩
abbrev SEC_STATUS_FUSE_ERR : Fld := ⟨0x3040, 6, 1⟩
abbrev SEC_STATUS_ID_OK : Fld := ⟨0x3040, 7, 1⟩
abbrev SEC_STATUS_OEM_SET : Fld := ⟨0x3040, 8, 1⟩
abbrev SEC_STATUS_ENTROPY_OK : Fld := ⟨0x3040, 9, 1⟩
abbrev SEC_STATUS_RKEY_OK : Fld := ⟨0x3040, 10, 1⟩
abbrev SEC_STATUS_SEAL_BUSY : Fld := ⟨0x3040, 11, 1⟩
abbrev SEC_STATUS_SEALED : Fld := ⟨0x3040, 12, 1⟩
abbrev BOOT_CTRL_GO : Fld := ⟨0x3044, 0, 1⟩
abbrev BOOT_CTRL_CLEAR : Fld := ⟨0x3044, 1, 1⟩
abbrev IMG_WIN_ADDR : Fld := ⟨0x3048, 0, 24⟩
abbrev IMG_RCVD : Fld := ⟨0x304c, 0, 24⟩
abbrev BOOT_ERR_REASON : Fld := ⟨0x3050, 0, 4⟩
abbrev BOOT_ERR_ATTEMPTS : Fld := ⟨0x3050, 4, 12⟩
abbrev BOOT_ERR_VALID : Fld := ⟨0x3050, 31, 1⟩
abbrev FW_VERSION : Fld := ⟨0x3054, 0, 32⟩
abbrev SEAL_CTRL : Fld := ⟨0x3058, 0, 1⟩
abbrev SEAL_ERR_REASON : Fld := ⟨0x305c, 0, 4⟩
abbrev SEAL_ERR_VALID : Fld := ⟨0x305c, 31, 1⟩
abbrev ENT_CTRL : Fld := ⟨0x3060, 0, 1⟩
abbrev ENT_STATUS_RCT_FAIL : Fld := ⟨0x3064, 0, 1⟩
abbrev ENT_STATUS_APT_FAIL : Fld := ⟨0x3064, 1, 1⟩
abbrev ENT_STATUS_FAILS : Fld := ⟨0x3064, 16, 16⟩
abbrev LC_CHALLENGE (i : Nat) : Fld := ⟨0x3068 + 0x4 * i, 0, 32⟩
abbrev FW_DIGEST (i : Nat) : Fld := ⟨0x3080 + 0x4 * i, 0, 32⟩
abbrev CFG_DIGEST (i : Nat) : Fld := ⟨0x30c0 + 0x4 * i, 0, 32⟩
abbrev ID_PUB (i : Nat) : Fld := ⟨0x3100 + 0x4 * i, 0, 32⟩
abbrev DEVICE_ID (i : Nat) : Fld := ⟨0x3120 + 0x4 * i, 0, 32⟩
abbrev BOOT_ID (i : Nat) : Fld := ⟨0x3140 + 0x4 * i, 0, 32⟩
abbrev RCPT_PUB (i : Nat) : Fld := ⟨0x3150 + 0x4 * i, 0, 32⟩
abbrev IMG_APERTURE (i : Nat) : Fld := ⟨0x3200 + 0x4 * i, 0, 32⟩

/-! ## TEST page (R568, spec/17) -/
abbrev TURN_CTRL : Fld := ⟨0x4040, 0, 1⟩
abbrev TURN_STATUS_DONE : Fld := ⟨0x4044, 0, 11⟩
abbrev TURN_STATUS_FORCING : Fld := ⟨0x4044, 11, 1⟩
abbrev TURN_AGE : Fld := ⟨0x4048, 0, 16⟩
abbrev TURN_CYCLE_CNT : Fld := ⟨0x404c, 0, 32⟩
abbrev TURN_FORCED_CNT : Fld := ⟨0x4050, 0, 32⟩
abbrev TURN_FAIL_LAST_CODE : Fld := ⟨0x4054, 0, 16⟩
abbrev TURN_FAIL_LAST_ITEM : Fld := ⟨0x4054, 16, 16⟩

/-! ## CLK page (R620, spec/20) -/
abbrev CLK_STATUS_REFCLK_OK : Fld := ⟨0x5040, 0, 1⟩
abbrev CLK_STATUS_CORE_LOCK : Fld := ⟨0x5040, 1, 1⟩
abbrev CLK_STATUS_LINK_LOCK : Fld := ⟨0x5040, 2, 1⟩
abbrev CLK_STATUS_CARR_LOCK : Fld := ⟨0x5040, 3, 1⟩
abbrev CLK_STATUS_DDR_LOCK : Fld := ⟨0x5040, 4, 1⟩
abbrev CLK_STATUS_CLK_FAILED : Fld := ⟨0x5040, 5, 1⟩
abbrev CLK_REF_MEAS : Fld := ⟨0x5044, 0, 11⟩

/-! ## PWR page (R598, spec/19) -/
abbrev PWR_STATUS : Fld := ⟨0x6040, 0, 9⟩
abbrev RESET_CAUSE_POWER_UP : Fld := ⟨0x6044, 0, 1⟩
abbrev RESET_CAUSE_PORST_PIN : Fld := ⟨0x6044, 1, 1⟩
abbrev RESET_CAUSE_BROWNOUT : Fld := ⟨0x6044, 2, 1⟩
abbrev RESET_CAUSE_SEQ_ERR : Fld := ⟨0x6044, 3, 1⟩
abbrev RESET_CAUSE_RAIL : Fld := ⟨0x6044, 8, 4⟩
abbrev RESET_CNT : Fld := ⟨0x6048, 0, 32⟩

/-! ## POS page (R55, spec/02) -/
abbrev POS_CTRL_EN : Fld := ⟨0x8040, 0, 1⟩
abbrev POS_CTRL_MIN_READERS : Fld := ⟨0x8040, 8, 5⟩
abbrev POS_STATUS_LOCKED : Fld := ⟨0x8044, 0, 1⟩
abbrev POS_STATUS_STALE : Fld := ⟨0x8044, 1, 1⟩
abbrev POS_STATUS_COARSE : Fld := ⟨0x8044, 2, 1⟩
abbrev POS_STATUS_STILL : Fld := ⟨0x8044, 3, 1⟩
abbrev POS_STATUS_REVERSE : Fld := ⟨0x8044, 4, 1⟩
abbrev POS_STATUS_QUAL : Fld := ⟨0x8044, 8, 5⟩
abbrev POS_NOW_LO : Fld := ⟨0x8048, 0, 32⟩
abbrev POS_NOW_HI : Fld := ⟨0x804c, 0, 32⟩
abbrev POS_SPEED : Fld := ⟨0x8050, 0, 32⟩
abbrev POS_PASS : Fld := ⟨0x8054, 0, 8⟩
abbrev POS_READER_EN : Fld := ⟨0x8058, 0, 18⟩
abbrev POS_SLIP_CNT : Fld := ⟨0x805c, 0, 32⟩
abbrev POS_STILL_TMR : Fld := ⟨0x8060, 0, 16⟩
abbrev POS_RELOCK_FRM : Fld := ⟨0x8064, 0, 16⟩
abbrev POS_WR_OFFSET : Fld := ⟨0x8068, 0, 32⟩
abbrev POS_BOFS (i : Nat) : Fld := ⟨0x806c + 0x4 * i, 0, 32⟩
abbrev SL_STATE_LINK0 : Fld := ⟨0x808c, 0, 3⟩
abbrev SL_STATE_LINK1 : Fld := ⟨0x808c, 4, 3⟩
abbrev SL_CRC_LINK0 : Fld := ⟨0x8090, 0, 16⟩
abbrev SL_CRC_LINK1 : Fld := ⟨0x8090, 16, 16⟩

/-! ## SERVO pages (R57, spec/02) -/
abbrev SV_CTRL_RD0_EN (n : Nat) : Fld := ⟨0x9040 + 0x1000 * n, 0, 1⟩
abbrev SV_CTRL_RD1_EN (n : Nat) : Fld := ⟨0x9040 + 0x1000 * n, 1, 1⟩
abbrev SV_STATUS_RD0_QUAL (n : Nat) : Fld := ⟨0x9044 + 0x1000 * n, 0, 1⟩
abbrev SV_STATUS_RD1_QUAL (n : Nat) : Fld := ⟨0x9044 + 0x1000 * n, 1, 1⟩
abbrev SV_STATUS_LAT_JUMP (n : Nat) : Fld := ⟨0x9044 + 0x1000 * n, 2, 1⟩
abbrev SV_STATUS_K_CLAMP (n : Nat) : Fld := ⟨0x9044 + 0x1000 * n, 3, 1⟩
abbrev SV_STATUS_RD0_STRIPE (n : Nat) : Fld := ⟨0x9044 + 0x1000 * n, 8, 7⟩
abbrev SV_STATUS_RD1_STRIPE (n : Nat) : Fld := ⟨0x9044 + 0x1000 * n, 16, 7⟩
abbrev SV_LAT0 (n : Nat) : Fld := ⟨0x9048 + 0x1000 * n, 0, 32⟩
abbrev SV_LAT1 (n : Nat) : Fld := ⟨0x904c + 0x1000 * n, 0, 32⟩
abbrev SV_KAB_STG_RD0 (n : Nat) : Fld := ⟨0x9050 + 0x1000 * n, 0, 16⟩
abbrev SV_KAB_STG_RD1 (n : Nat) : Fld := ⟨0x9050 + 0x1000 * n, 16, 16⟩
abbrev SV_KAB_ACT_RD0 (n : Nat) : Fld := ⟨0x9054 + 0x1000 * n, 0, 16⟩
abbrev SV_KAB_ACT_RD1 (n : Nat) : Fld := ⟨0x9054 + 0x1000 * n, 16, 16⟩
abbrev SV_KCD_STG_RD0 (n : Nat) : Fld := ⟨0x9058 + 0x1000 * n, 0, 16⟩
abbrev SV_KCD_STG_RD1 (n : Nat) : Fld := ⟨0x9058 + 0x1000 * n, 16, 16⟩
abbrev SV_KCD_ACT_RD0 (n : Nat) : Fld := ⟨0x905c + 0x1000 * n, 0, 16⟩
abbrev SV_KCD_ACT_RD1 (n : Nat) : Fld := ⟨0x905c + 0x1000 * n, 16, 16⟩
abbrev SV_IDERR_CNT_RD0 (n : Nat) : Fld := ⟨0x9060 + 0x1000 * n, 0, 16⟩
abbrev SV_IDERR_CNT_RD1 (n : Nat) : Fld := ⟨0x9060 + 0x1000 * n, 16, 16⟩
abbrev SV_AMP_MIN (n : Nat) : Fld := ⟨0x9064 + 0x1000 * n, 0, 12⟩

/-! ## FMT page (R115, spec/03 ; R178, spec/05 ; R183, spec/05) -/
abbrev FMT_CTRL : Fld := ⟨0x12040, 0, 1⟩
abbrev FMT_STATUS_VM_VALID : Fld := ⟨0x12044, 0, 1⟩
abbrev FMT_STATUS_VM_CONFLICT : Fld := ⟨0x12044, 1, 1⟩
abbrev FMT_STATUS_VM_DIRTY : Fld := ⟨0x12044, 2, 1⟩
abbrev FMT_STATUS_WG_OPEN : Fld := ⟨0x12044, 3, 1⟩
abbrev FMT_UA_END : Fld := ⟨0x12048, 0, 32⟩
abbrev FMT_DSN_NEXT : Fld := ⟨0x1204c, 0, 32⟩
abbrev FMT_WG : Fld := ⟨0x12050, 0, 5⟩
abbrev FMT_EXT_LAST_FRAMES : Fld := ⟨0x12054, 0, 4⟩
abbrev FMT_EXT_LAST_ROWS : Fld := ⟨0x12054, 16, 11⟩
abbrev FMT_VM_GEN_LO : Fld := ⟨0x12058, 0, 32⟩
abbrev FMT_VM_GEN_HI : Fld := ⟨0x1205c, 0, 32⟩
abbrev FMT_GSN_LO : Fld := ⟨0x12060, 0, 32⟩
abbrev FMT_GSN_HI : Fld := ⟨0x12064, 0, 32⟩
abbrev FMT_EOD_FRAME : Fld := ⟨0x12068, 0, 32⟩
abbrev ENC_CTRL : Fld := ⟨0x12080, 0, 1⟩
abbrev ENC_STATUS_RETRY : Fld := ⟨0x12084, 0, 1⟩
abbrev ENC_STATUS_FAILED : Fld := ⟨0x12084, 1, 1⟩
abbrev ENC_MISMATCH_CNT : Fld := ⟨0x12088, 0, 32⟩
abbrev ENC_LATE_CNT : Fld := ⟨0x1208c, 0, 32⟩
abbrev ENC_LAST_LO : Fld := ⟨0x12090, 0, 32⟩
abbrev ENC_LAST_HI_ROW : Fld := ⟨0x12094, 0, 8⟩
abbrev ENC_LAST_HI_SDS : Fld := ⟨0x12094, 8, 5⟩
abbrev ENC_LAST_HI_INJECTED : Fld := ⟨0x12094, 13, 1⟩
abbrev SPM_CTRL_EN : Fld := ⟨0x120a0, 0, 1⟩
abbrev SPM_CTRL_HIGH : Fld := ⟨0x120a0, 4, 4⟩
abbrev SPM_CTRL_LOW : Fld := ⟨0x120a0, 8, 4⟩
abbrev SPM_CTRL_STEP_MAX : Fld := ⟨0x120a0, 12, 4⟩
abbrev SPM_CTRL_STEP_FIX : Fld := ⟨0x120a0, 16, 4⟩
abbrev SPM_STATUS_STEP : Fld := ⟨0x120a4, 0, 4⟩
abbrev SPM_STATUS_CEIL : Fld := ⟨0x120a4, 4, 4⟩
abbrev SPM_STATUS_READY : Fld := ⟨0x120a4, 8, 8⟩
abbrev SPM_STATUS_RUNNING : Fld := ⟨0x120a4, 16, 1⟩
abbrev SPM_RUNUP : Fld := ⟨0x120a8, 0, 16⟩
abbrev SPM_BACKHITCH_CNT : Fld := ⟨0x120ac, 0, 32⟩

/-! ## BSEQ pages (R184, spec/05) -/
abbrev BRD_CTRL_EN (n : Nat) : Fld := ⟨0x14040 + 0x1000 * n, 0, 1⟩
abbrev BRD_CTRL_ARM_A (n : Nat) : Fld := ⟨0x14040 + 0x1000 * n, 1, 1⟩
abbrev BRD_CTRL_ARM_B (n : Nat) : Fld := ⟨0x14040 + 0x1000 * n, 2, 1⟩
abbrev BRD_CTRL_START (n : Nat) : Fld := ⟨0x14040 + 0x1000 * n, 3, 1⟩
abbrev BRD_CTRL_STOP (n : Nat) : Fld := ⟨0x14040 + 0x1000 * n, 4, 1⟩
abbrev BRD_CTRL_HOST (n : Nat) : Fld := ⟨0x14040 + 0x1000 * n, 5, 1⟩
abbrev BRD_CTRL_DISARM_A (n : Nat) : Fld := ⟨0x14040 + 0x1000 * n, 6, 1⟩
abbrev BRD_CTRL_DISARM_B (n : Nat) : Fld := ⟨0x14040 + 0x1000 * n, 7, 1⟩
abbrev BRD_STATUS_RUNNING (n : Nat) : Fld := ⟨0x14044 + 0x1000 * n, 0, 1⟩
abbrev BRD_STATUS_BUF (n : Nat) : Fld := ⟨0x14044 + 0x1000 * n, 1, 1⟩
abbrev BRD_STATUS_ARMED_A (n : Nat) : Fld := ⟨0x14044 + 0x1000 * n, 2, 1⟩
abbrev BRD_STATUS_ARMED_B (n : Nat) : Fld := ⟨0x14044 + 0x1000 * n, 3, 1⟩
abbrev BRD_STATUS_HOLD (n : Nat) : Fld := ⟨0x14044 + 0x1000 * n, 4, 1⟩
abbrev BRD_STATUS_TAIL (n : Nat) : Fld := ⟨0x14044 + 0x1000 * n, 5, 1⟩
abbrev BRD_STATUS_INDEX (n : Nat) : Fld := ⟨0x14044 + 0x1000 * n, 8, 13⟩
abbrev BRD_ORIGIN_A (n : Nat) : Fld := ⟨0x14048 + 0x1000 * n, 0, 32⟩
abbrev BRD_ORIGIN_B (n : Nat) : Fld := ⟨0x1404c + 0x1000 * n, 0, 32⟩
abbrev BRD_INFO_A_PASS (n : Nat) : Fld := ⟨0x14050 + 0x1000 * n, 0, 6⟩
abbrev BRD_INFO_A_READ (n : Nat) : Fld := ⟨0x14050 + 0x1000 * n, 6, 1⟩
abbrev BRD_INFO_A_ROBUST (n : Nat) : Fld := ⟨0x14050 + 0x1000 * n, 7, 1⟩
abbrev BRD_INFO_A_LEN (n : Nat) : Fld := ⟨0x14050 + 0x1000 * n, 16, 14⟩
abbrev BRD_INFO_B_PASS (n : Nat) : Fld := ⟨0x14054 + 0x1000 * n, 0, 6⟩
abbrev BRD_INFO_B_READ (n : Nat) : Fld := ⟨0x14054 + 0x1000 * n, 6, 1⟩
abbrev BRD_INFO_B_ROBUST (n : Nat) : Fld := ⟨0x14054 + 0x1000 * n, 7, 1⟩
abbrev BRD_INFO_B_LEN (n : Nat) : Fld := ⟨0x14054 + 0x1000 * n, 16, 14⟩
abbrev BRD_ERR_CODE (n : Nat) : Fld := ⟨0x14058 + 0x1000 * n, 0, 4⟩
abbrev BRD_ERR_BUF (n : Nat) : Fld := ⟨0x14058 + 0x1000 * n, 4, 1⟩
abbrev BRD_ERR_INDEX (n : Nat) : Fld := ⟨0x14058 + 0x1000 * n, 8, 13⟩
abbrev BRD_ERR_VALID (n : Nat) : Fld := ⟨0x14058 + 0x1000 * n, 31, 1⟩
abbrev BRD_WIN_ADDR_INDEX (n : Nat) : Fld := ⟨0x1405c + 0x1000 * n, 0, 13⟩
abbrev BRD_WIN_ADDR_BUF (n : Nat) : Fld := ⟨0x1405c + 0x1000 * n, 13, 1⟩
abbrev BRD_WIN_ADDR_WORD (n : Nat) : Fld := ⟨0x1405c + 0x1000 * n, 14, 2⟩
abbrev BRD_WIN_ADDR_AUTOINC (n : Nat) : Fld := ⟨0x1405c + 0x1000 * n, 16, 1⟩
abbrev BRD_WIN_DATA (n : Nat) : Fld := ⟨0x14060 + 0x1000 * n, 0, 32⟩
abbrev EXT_WIN_ADDR_ENTRY (n : Nat) : Fld := ⟨0x14064 + 0x1000 * n, 0, 8⟩
abbrev EXT_WIN_ADDR_BUF (n : Nat) : Fld := ⟨0x14064 + 0x1000 * n, 8, 1⟩
abbrev EXT_WIN_ADDR_AUTOINC (n : Nat) : Fld := ⟨0x14064 + 0x1000 * n, 9, 1⟩
abbrev EXT_WIN_DATA (n : Nat) : Fld := ⟨0x14068 + 0x1000 * n, 0, 32⟩
abbrev VFY_DIST (n : Nat) : Fld := ⟨0x1406c + 0x1000 * n, 0, 32⟩
abbrev WG_STATUS (n : Nat) : Fld := ⟨0x14070 + 0x1000 * n, 0, 8⟩
abbrev WG_CLOSE_CNT (n : Nat) : Fld := ⟨0x14074 + 0x1000 * n, 0, 32⟩
abbrev OFFTRACK (n : Nat) : Fld := ⟨0x14078 + 0x1000 * n, 0, 12⟩
abbrev MARK_LAST (n : Nat) : Fld := ⟨0x1407c + 0x1000 * n, 0, 16⟩
abbrev MARK_DATA (n : Nat) : Fld := ⟨0x14080 + 0x1000 * n, 0, 32⟩
abbrev MARK_POS_LO (n : Nat) : Fld := ⟨0x14084 + 0x1000 * n, 0, 32⟩
abbrev MARK_POS_HI (n : Nat) : Fld := ⟨0x14088 + 0x1000 * n, 0, 32⟩
abbrev TMASK_LO (n i : Nat) : Fld := ⟨0x14100 + 0x1000 * n + 0x8 * i, 0, 32⟩
abbrev TMASK_HI (n i : Nat) : Fld := ⟨0x14104 + 0x1000 * n + 0x8 * i, 0, 32⟩

/-! ## HFE pages (R78, spec/02 ; R173, spec/05 ; R224, spec/06) -/
abbrev CL_CTRL_DL_EN (n : Nat) : Fld := ⟨0x20040 + 0x1000 * n, 0, 1⟩
abbrev CL_CTRL_UL0_EN (n : Nat) : Fld := ⟨0x20040 + 0x1000 * n, 1, 1⟩
abbrev CL_CTRL_UL1_EN (n : Nat) : Fld := ⟨0x20040 + 0x1000 * n, 2, 1⟩
abbrev CL_CTRL_RETRAIN (n : Nat) : Fld := ⟨0x20040 + 0x1000 * n, 3, 1⟩
abbrev CL_STATE_DL (n : Nat) : Fld := ⟨0x20044 + 0x1000 * n, 0, 3⟩
abbrev CL_STATE_UL0 (n : Nat) : Fld := ⟨0x20044 + 0x1000 * n, 4, 3⟩
abbrev CL_STATE_UL1 (n : Nat) : Fld := ⟨0x20044 + 0x1000 * n, 8, 3⟩
abbrev CL_DELAY (n : Nat) : Fld := ⟨0x20048 + 0x1000 * n, 0, 16⟩
abbrev CL_UL_CRC_UL0 (n : Nat) : Fld := ⟨0x2004c + 0x1000 * n, 0, 16⟩
abbrev CL_UL_CRC_UL1 (n : Nat) : Fld := ⟨0x2004c + 0x1000 * n, 16, 16⟩
abbrev CL_DL_DROP_DLCRC (n : Nat) : Fld := ⟨0x20050 + 0x1000 * n, 0, 16⟩
abbrev CL_DL_DROP_LATE (n : Nat) : Fld := ⟨0x20050 + 0x1000 * n, 16, 16⟩
abbrev CL_MGMT_TIMEOUT (n : Nat) : Fld := ⟨0x20054 + 0x1000 * n, 0, 16⟩
abbrev CL_MGMT_RETRY (n : Nat) : Fld := ⟨0x20054 + 0x1000 * n, 16, 16⟩
abbrev WCUR_LEVEL (n i : Nat) : Fld := ⟨0x20100 + 0x1000 * n + 0x10 * i, 0, 8⟩
abbrev WCUR_OS_LEVEL (n i : Nat) : Fld := ⟨0x20100 + 0x1000 * n + 0x10 * i, 8, 8⟩
abbrev WCUR_OS_LEN (n i : Nat) : Fld := ⟨0x20100 + 0x1000 * n + 0x10 * i, 16, 4⟩
abbrev WPRE_SH1 (n i : Nat) : Fld := ⟨0x20104 + 0x1000 * n + 0x10 * i, 0, 6⟩
abbrev WPRE_SH2 (n i : Nat) : Fld := ⟨0x20104 + 0x1000 * n + 0x10 * i, 8, 6⟩
abbrev WPRE_SH3 (n i : Nat) : Fld := ⟨0x20104 + 0x1000 * n + 0x10 * i, 16, 6⟩
abbrev WSTATE_EN (n i : Nat) : Fld := ⟨0x20108 + 0x1000 * n + 0x10 * i, 0, 1⟩
abbrev WSTATE_INHIBIT (n i : Nat) : Fld := ⟨0x20108 + 0x1000 * n + 0x10 * i, 1, 1⟩
abbrev WSTATE_OPEN (n i : Nat) : Fld := ⟨0x20108 + 0x1000 * n + 0x10 * i, 2, 1⟩
abbrev WSTATE_SHORT (n i : Nat) : Fld := ⟨0x20108 + 0x1000 * n + 0x10 * i, 3, 1⟩
abbrev WSTATE_DRV_FAULT (n i : Nat) : Fld := ⟨0x20108 + 0x1000 * n + 0x10 * i, 4, 1⟩
abbrev WSTATE_FAULT_CNT (n i : Nat) : Fld := ⟨0x20108 + 0x1000 * n + 0x10 * i, 8, 8⟩
abbrev WCAL_CUR_TRIM (n i : Nat) : Fld := ⟨0x2010c + 0x1000 * n + 0x10 * i, 0, 8⟩
abbrev WCAL_PRE_TRIM (n i : Nat) : Fld := ⟨0x2010c + 0x1000 * n + 0x10 * i, 8, 8⟩
abbrev WCAL_FREEZE (n i : Nat) : Fld := ⟨0x2010c + 0x1000 * n + 0x10 * i, 16, 1⟩
abbrev WCAL_ROLLED_BACK (n i : Nat) : Fld := ⟨0x2010c + 0x1000 * n + 0x10 * i, 17, 1⟩
abbrev RCFG_EN (n i : Nat) : Fld := ⟨0x20200 + 0x1000 * n + 0x8 * i, 0, 1⟩
abbrev RCFG_BIAS (n i : Nat) : Fld := ⟨0x20200 + 0x1000 * n + 0x8 * i, 8, 8⟩
abbrev RCFG_AGAIN (n i : Nat) : Fld := ⟨0x20200 + 0x1000 * n + 0x8 * i, 16, 6⟩
abbrev RCFG_HPF (n i : Nat) : Fld := ⟨0x20200 + 0x1000 * n + 0x8 * i, 24, 2⟩
abbrev RSTAT_OPEN (n i : Nat) : Fld := ⟨0x20204 + 0x1000 * n + 0x8 * i, 0, 1⟩
abbrev RSTAT_SHORT (n i : Nat) : Fld := ⟨0x20204 + 0x1000 * n + 0x8 * i, 1, 1⟩
abbrev RSTAT_CLIP (n i : Nat) : Fld := ⟨0x20204 + 0x1000 * n + 0x8 * i, 2, 1⟩
abbrev RSTAT_INHIBIT (n i : Nat) : Fld := ⟨0x20204 + 0x1000 * n + 0x8 * i, 3, 1⟩
abbrev RSTAT_FAULT_CNT (n i : Nat) : Fld := ⟨0x20204 + 0x1000 * n + 0x8 * i, 8, 8⟩

/-! ## RCH pages (R226, spec/06) -/
abbrev RCH_CTRL_EN (n : Nat) : Fld := ⟨0x40040 + 0x1000 * n, 0, 1⟩
abbrev RCH_CTRL_MRD_EN (n : Nat) : Fld := ⟨0x40040 + 0x1000 * n, 1, 1⟩
abbrev RCH_CTRL_PEAK_FORCE (n : Nat) : Fld := ⟨0x40040 + 0x1000 * n, 2, 1⟩
abbrev RCH_STATUS_MRD_ACTIVE (n : Nat) : Fld := ⟨0x40044 + 0x1000 * n, 0, 1⟩
abbrev RCH_STATUS_SKEW_OVF (n : Nat) : Fld := ⟨0x40044 + 0x1000 * n, 1, 1⟩
abbrev RCH_STATUS_WINDOWS (n : Nat) : Fld := ⟨0x40044 + 0x1000 * n, 2, 8⟩
abbrev LOOP_STG_KP_SH (n : Nat) : Fld := ⟨0x40048 + 0x1000 * n, 0, 5⟩
abbrev LOOP_STG_KI_SH (n : Nat) : Fld := ⟨0x40048 + 0x1000 * n, 5, 5⟩
abbrev LOOP_STG_G_SH (n : Nat) : Fld := ⟨0x40048 + 0x1000 * n, 10, 5⟩
abbrev LOOP_STG_O_SH (n : Nat) : Fld := ⟨0x40048 + 0x1000 * n, 15, 5⟩
abbrev LOOP_STG_A_SH (n : Nat) : Fld := ⟨0x40048 + 0x1000 * n, 20, 5⟩
abbrev LOOP_ACT_KP_SH (n : Nat) : Fld := ⟨0x4004c + 0x1000 * n, 0, 5⟩
abbrev LOOP_ACT_KI_SH (n : Nat) : Fld := ⟨0x4004c + 0x1000 * n, 5, 5⟩
abbrev LOOP_ACT_G_SH (n : Nat) : Fld := ⟨0x4004c + 0x1000 * n, 10, 5⟩
abbrev LOOP_ACT_O_SH (n : Nat) : Fld := ⟨0x4004c + 0x1000 * n, 15, 5⟩
abbrev LOOP_ACT_A_SH (n : Nat) : Fld := ⟨0x4004c + 0x1000 * n, 20, 5⟩
abbrev EQ_STG_MU_SH (n : Nat) : Fld := ⟨0x40050 + 0x1000 * n, 0, 5⟩
abbrev EQ_STG_FREEZE (n : Nat) : Fld := ⟨0x40050 + 0x1000 * n, 5, 1⟩
abbrev EQ_STG_MUW_SH (n : Nat) : Fld := ⟨0x40050 + 0x1000 * n, 6, 5⟩
abbrev EQ_STG_MUF_SH (n : Nat) : Fld := ⟨0x40050 + 0x1000 * n, 11, 5⟩
abbrev EQ_ACT_MU_SH (n : Nat) : Fld := ⟨0x40054 + 0x1000 * n, 0, 5⟩
abbrev EQ_ACT_FREEZE (n : Nat) : Fld := ⟨0x40054 + 0x1000 * n, 5, 1⟩
abbrev EQ_ACT_MUW_SH (n : Nat) : Fld := ⟨0x40054 + 0x1000 * n, 6, 5⟩
abbrev EQ_ACT_MUF_SH (n : Nat) : Fld := ⟨0x40054 + 0x1000 * n, 11, 5⟩
abbrev TARGET_T0 (n : Nat) : Fld := ⟨0x40058 + 0x1000 * n, 0, 8⟩
abbrev TARGET_T1 (n : Nat) : Fld := ⟨0x40058 + 0x1000 * n, 8, 8⟩
abbrev TARGET_T2 (n : Nat) : Fld := ⟨0x40058 + 0x1000 * n, 16, 8⟩
abbrev NPRED_P1 (n : Nat) : Fld := ⟨0x4005c + 0x1000 * n, 0, 8⟩
abbrev NPRED_P2 (n : Nat) : Fld := ⟨0x4005c + 0x1000 * n, 8, 8⟩
abbrev DEFECT_DROP_PCT (n : Nat) : Fld := ⟨0x40060 + 0x1000 * n, 0, 8⟩
abbrev DEFECT_TA_LEVEL (n : Nat) : Fld := ⟨0x40060 + 0x1000 * n, 8, 8⟩
abbrev DEFECT_GUARD (n : Nat) : Fld := ⟨0x40060 + 0x1000 * n, 16, 8⟩
abbrev PEAK_THR_PCT (n : Nat) : Fld := ⟨0x40064 + 0x1000 * n, 0, 8⟩
abbrev PEAK_PEAK_LLR (n : Nat) : Fld := ⟨0x40064 + 0x1000 * n, 8, 5⟩
abbrev MRD_SEP (n : Nat) : Fld := ⟨0x40068 + 0x1000 * n, 0, 32⟩
abbrev MRD_STATUS_GAIN (n : Nat) : Fld := ⟨0x4006c + 0x1000 * n, 0, 16⟩
abbrev MRD_STATUS_SINGLE (n : Nat) : Fld := ⟨0x4006c + 0x1000 * n, 16, 16⟩
abbrev TRK_WIN_ADDR_TRACK (n : Nat) : Fld := ⟨0x40070 + 0x1000 * n, 0, 6⟩
abbrev TRK_WIN_ADDR_MODULE (n : Nat) : Fld := ⟨0x40070 + 0x1000 * n, 6, 1⟩
abbrev TRK_WIN_ADDR_ITEM (n : Nat) : Fld := ⟨0x40070 + 0x1000 * n, 7, 6⟩
abbrev TRK_WIN_ADDR_AUTOINC (n : Nat) : Fld := ⟨0x40070 + 0x1000 * n, 13, 1⟩
abbrev TRK_WIN_DATA (n : Nat) : Fld := ⟨0x40074 + 0x1000 * n, 0, 32⟩
abbrev SYNC_FOUND_CNT (n : Nat) : Fld := ⟨0x40078 + 0x1000 * n, 0, 32⟩
abbrev SYNC_MISS_CNT (n : Nat) : Fld := ⟨0x4007c + 0x1000 * n, 0, 32⟩
abbrev SYNC_SHIFT_CNT (n : Nat) : Fld := ⟨0x40080 + 0x1000 * n, 0, 32⟩
abbrev SYNC_AMBIG_CNT (n : Nat) : Fld := ⟨0x40084 + 0x1000 * n, 0, 32⟩
abbrev RESYNC_MISS_CNT (n : Nat) : Fld := ⟨0x40088 + 0x1000 * n, 0, 32⟩
abbrev DEFECT_CNT (n : Nat) : Fld := ⟨0x4008c + 0x1000 * n, 0, 32⟩
abbrev TSLIP_CNT (n : Nat) : Fld := ⟨0x40090 + 0x1000 * n, 0, 32⟩
abbrev LOOP_RESET_CNT (n : Nat) : Fld := ⟨0x40094 + 0x1000 * n, 0, 32⟩

/-! ## LDPC page (R227, spec/06) -/
abbrev LDPC_CTRL_ITER_STREAM : Fld := ⟨0x48040, 0, 6⟩
abbrev LDPC_CTRL_ITER_RECOV : Fld := ⟨0x48040, 8, 6⟩
abbrev LDPC_CTRL_GLOBAL_EVERY : Fld := ⟨0x48040, 16, 4⟩
abbrev LDPC_CTRL_SCALE : Fld := ⟨0x48040, 20, 4⟩
abbrev LDPC_STATUS : Fld := ⟨0x48044, 0, 10⟩
abbrev DEC_ROWS_CNT : Fld := ⟨0x48048, 0, 32⟩
abbrev DEC_FAIL_CNT : Fld := ⟨0x4804c, 0, 32⟩
abbrev DEC_LATE_CNT : Fld := ⟨0x48050, 0, 32⟩
abbrev DEC_ITER_SUM : Fld := ⟨0x48054, 0, 32⟩

/-! ## OUTER page (R141, spec/04) -/
abbrev OUT_CTRL_C2_EN : Fld := ⟨0x49040, 0, 1⟩
abbrev OUT_CTRL_C3_EN : Fld := ⟨0x49040, 1, 1⟩
abbrev OUT_CTRL_C3_ERR_EN : Fld := ⟨0x49040, 2, 1⟩
abbrev OUT_CTRL_C2_MARGIN : Fld := ⟨0x49040, 8, 4⟩
abbrev OUTER_OUT_STATUS_C3_OPEN : Fld := ⟨0x49044, 0, 1⟩
abbrev OUTER_OUT_STATUS_C3_COUNT : Fld := ⟨0x49044, 1, 5⟩
abbrev C2_CORR_CNT : Fld := ⟨0x49048, 0, 32⟩
abbrev C2_FAIL_CNT : Fld := ⟨0x4904c, 0, 32⟩
abbrev C1_MISCORR_CNT : Fld := ⟨0x49050, 0, 32⟩
abbrev DS_CRC_FAIL_CNT : Fld := ⟨0x49054, 0, 32⟩
abbrev C3_CORR_CNT : Fld := ⟨0x49058, 0, 32⟩
abbrev C3_FAIL_CNT : Fld := ⟨0x4905c, 0, 32⟩

/-! ## VERIFY page (R283, spec/08) -/
abbrev VFY_CTRL_EN : Fld := ⟨0x4a040, 0, 1⟩
abbrev VFY_CTRL_ITER_MAX : Fld := ⟨0x4a040, 8, 6⟩
abbrev VFY_CTRL_RAW_MAX : Fld := ⟨0x4a040, 16, 12⟩
abbrev RW_CTRL_K_MAX : Fld := ⟨0x4a044, 0, 4⟩
abbrev RW_CTRL_ABANDON_MAX : Fld := ⟨0x4a044, 4, 4⟩
abbrev RW_CTRL_STORM_RETRY : Fld := ⟨0x4a044, 8, 4⟩
abbrev RW_STATUS_BACKLOG : Fld := ⟨0x4a048, 0, 11⟩
abbrev RW_STATUS_STORM_COUNT : Fld := ⟨0x4a048, 16, 4⟩
abbrev VFY_ROWS_CNT : Fld := ⟨0x4a04c, 0, 32⟩
abbrev VFY_FAIL_CNT : Fld := ⟨0x4a050, 0, 32⟩
abbrev VFY_MISCMP_CNT : Fld := ⟨0x4a054, 0, 32⟩
abbrev RW_ROWS_CNT : Fld := ⟨0x4a058, 0, 32⟩
abbrev RW_ABANDON_CNT : Fld := ⟨0x4a05c, 0, 32⟩
abbrev STORM_CNT : Fld := ⟨0x4a060, 0, 32⟩
abbrev VFY_LAST_LO : Fld := ⟨0x4a064, 0, 32⟩
abbrev VFY_LAST_HI_TRACK : Fld := ⟨0x4a068, 0, 9⟩
abbrev VFY_LAST_HI_REASON : Fld := ⟨0x4a068, 12, 4⟩
abbrev VFY_LAST_HI_SDS : Fld := ⟨0x4a068, 16, 5⟩
abbrev VFY_LAST_HI_ROW : Fld := ⟨0x4a068, 21, 8⟩

/-! ## CAL page (R250, spec/07) -/
abbrev CAL_CTRL_EN : Fld := ⟨0x4b040, 0, 1⟩
abbrev CAL_CTRL_WCUR_EN : Fld := ⟨0x4b040, 1, 1⟩
abbrev CAL_CTRL_WDLY_EN : Fld := ⟨0x4b040, 2, 1⟩
abbrev CAL_CTRL_RSEED_EN : Fld := ⟨0x4b040, 3, 1⟩
abbrev CAL_CTRL_SERVO_EN : Fld := ⟨0x4b040, 4, 1⟩
abbrev CAL_CTRL_TILT_EN : Fld := ⟨0x4b040, 5, 1⟩
abbrev CAL_CTRL_CSO_EN : Fld := ⟨0x4b040, 6, 1⟩
abbrev CAL_CTRL_LOAD_EN : Fld := ⟨0x4b040, 7, 1⟩
abbrev CAL_CTRL_LOAD_WR : Fld := ⟨0x4b040, 8, 1⟩
abbrev CAL_STATUS_LOAD_DONE : Fld := ⟨0x4b044, 0, 1⟩
abbrev CAL_STATUS_LOAD_SEEDS : Fld := ⟨0x4b044, 1, 1⟩
abbrev CAL_STATUS_ACTIVE : Fld := ⟨0x4b044, 2, 1⟩
abbrev CAL_STATUS_SERVO_RB : Fld := ⟨0x4b044, 3, 1⟩
abbrev CAL_STATUS_TILT_RB : Fld := ⟨0x4b044, 4, 1⟩
abbrev CAL_STATUS_SERVO_FREEZE : Fld := ⟨0x4b044, 5, 1⟩
abbrev CAL_STATUS_TILT_FREEZE : Fld := ⟨0x4b044, 6, 1⟩
abbrev CAL_STATUS_WEAK_WRITERS : Fld := ⟨0x4b044, 8, 10⟩
abbrev CAL_WCUR_DITHER : Fld := ⟨0x4b048, 0, 4⟩
abbrev CAL_WCUR_SLOPE_HI : Fld := ⟨0x4b048, 4, 8⟩
abbrev CAL_WCUR_SLOPE_LO : Fld := ⟨0x4b048, 12, 8⟩
abbrev CAL_WCUR_KNEE : Fld := ⟨0x4b048, 20, 8⟩
abbrev CAL_RB_RB_DB : Fld := ⟨0x4b04c, 0, 8⟩
abbrev CAL_RB_RB_LAT_PCT : Fld := ⟨0x4b04c, 8, 8⟩
abbrev CAL_RB_HOLD : Fld := ⟨0x4b04c, 16, 8⟩
abbrev CAL_LOAD_PASS : Fld := ⟨0x4b050, 0, 6⟩
abbrev CAL_LOAD_SNR_MIN : Fld := ⟨0x4b050, 8, 8⟩
abbrev CAL_TILT_STG_TRIM : Fld := ⟨0x4b054, 0, 16⟩
abbrev CAL_TILT_STG_TILT_K : Fld := ⟨0x4b054, 16, 8⟩
abbrev CAL_TILT_ACT : Fld := ⟨0x4b058, 0, 16⟩
abbrev CAL_CSO_REEL_A : Fld := ⟨0x4b05c, 0, 12⟩
abbrev CAL_CSO_REEL_B : Fld := ⟨0x4b05c, 16, 12⟩
abbrev CAL_WIN_ADDR_ELEMENT : Fld := ⟨0x4b060, 0, 10⟩
abbrev CAL_WIN_ADDR_KIND : Fld := ⟨0x4b060, 10, 2⟩
abbrev CAL_WIN_ADDR_ITEM : Fld := ⟨0x4b060, 12, 4⟩
abbrev CAL_WIN_ADDR_AUTOINC : Fld := ⟨0x4b060, 16, 1⟩
abbrev CAL_WIN_DATA : Fld := ⟨0x4b064, 0, 32⟩
abbrev CAL_CYCLE_CNT : Fld := ⟨0x4b068, 0, 32⟩
abbrev CAL_CHANGE_CNT : Fld := ⟨0x4b06c, 0, 32⟩
abbrev CAL_RB_CNT : Fld := ⟨0x4b070, 0, 32⟩
abbrev CAL_LATE_CNT : Fld := ⟨0x4b074, 0, 32⟩
abbrev CAL_LIMIT_CNT : Fld := ⟨0x4b078, 0, 32⟩

/-! ## RECOV page (R284, spec/08) -/
abbrev RCV_CTRL_EN : Fld := ⟨0x4c040, 0, 1⟩
abbrev RCV_CTRL_MAX_LEVEL : Fld := ⟨0x4c040, 1, 3⟩
abbrev RCV_CTRL_L1_PASSES : Fld := ⟨0x4c040, 8, 4⟩
abbrev RCV_CTRL_L2_PASSES : Fld := ⟨0x4c040, 12, 4⟩
abbrev RCV_CTRL_L3_OFS : Fld := ⟨0x4c040, 16, 8⟩
abbrev RCV_CTRL_WEAK_CLR : Fld := ⟨0x4c040, 31, 1⟩
abbrev RCV_STATUS_ACTIVE : Fld := ⟨0x4c044, 0, 1⟩
abbrev RCV_STATUS_LEVEL : Fld := ⟨0x4c044, 1, 3⟩
abbrev RCV_STATUS_WEAK_COUNT : Fld := ⟨0x4c044, 8, 9⟩
abbrev RCV_STATUS_WEAK_OVF : Fld := ⟨0x4c044, 17, 1⟩
abbrev RCV_DSN : Fld := ⟨0x4c048, 0, 32⟩
abbrev RCV_L_CNT (i : Nat) : Fld := ⟨0x4c04c + 0x4 * i, 0, 32⟩
abbrev RCV_FAIL_CNT : Fld := ⟨0x4c060, 0, 32⟩
abbrev WEAK_WIN_ADDR_ENTRY : Fld := ⟨0x4c064, 0, 8⟩
abbrev WEAK_WIN_ADDR_AUTOINC : Fld := ⟨0x4c064, 8, 1⟩
abbrev WEAK_WIN_DATA : Fld := ⟨0x4c068, 0, 32⟩
abbrev RCV_MARGIN_L1 : Fld := ⟨0x4c06c, 0, 4⟩
abbrev RCV_MARGIN_L2 : Fld := ⟨0x4c06c, 4, 4⟩
abbrev RCV_MARGIN_L3 : Fld := ⟨0x4c06c, 8, 4⟩
abbrev RCV_MARGIN_L4 : Fld := ⟨0x4c06c, 12, 4⟩
abbrev RCV_MARGIN_L5 : Fld := ⟨0x4c06c, 16, 4⟩

/-! ## CMP page (R307, spec/09) -/
abbrev CMP_CTRL_EN : Fld := ⟨0x50040, 0, 1⟩
abbrev CMP_CTRL_DV_INJECT : Fld := ⟨0x50040, 1, 1⟩
abbrev CMP_STATUS_BUSY : Fld := ⟨0x50044, 0, 16⟩
abbrev CMP_STATUS_DV_FAILED : Fld := ⟨0x50044, 16, 1⟩
abbrev CMP_ENG_EN : Fld := ⟨0x50048, 0, 16⟩
abbrev CMP_IN_LO : Fld := ⟨0x5004c, 0, 32⟩
abbrev CMP_IN_HI : Fld := ⟨0x50050, 0, 32⟩
abbrev CMP_OUT_LO : Fld := ⟨0x50054, 0, 32⟩
abbrev CMP_OUT_HI : Fld := ⟨0x50058, 0, 32⟩
abbrev CMP_GRAN_CNT : Fld := ⟨0x5005c, 0, 32⟩
abbrev CMP_STORED_CNT : Fld := ⟨0x50060, 0, 32⟩
abbrev DV_MISMATCH_CNT : Fld := ⟨0x50064, 0, 32⟩
abbrev DEC_GRAN_CNT : Fld := ⟨0x50068, 0, 32⟩
abbrev CORRUPT_CNT : Fld := ⟨0x5006c, 0, 32⟩
abbrev CORRUPT_LAST_LO : Fld := ⟨0x50070, 0, 32⟩
abbrev CORRUPT_LAST_HI_GSN : Fld := ⟨0x50074, 0, 28⟩
abbrev CORRUPT_LAST_HI_REASON : Fld := ⟨0x50074, 28, 4⟩

/-! ## CIPH page (R334, spec/10) -/
abbrev CIPH_CTRL_EN : Fld := ⟨0x51040, 0, 1⟩
abbrev CIPH_CTRL_CT_EN : Fld := ⟨0x51040, 1, 1⟩
abbrev CIPH_CTRL_PAIR_INJECT : Fld := ⟨0x51040, 2, 1⟩
abbrev CIPH_STATUS_BUSY : Fld := ⟨0x51044, 0, 8⟩
abbrev CIPH_STATUS_LANE_OFF : Fld := ⟨0x51044, 8, 8⟩
abbrev CIPH_STATUS_FAILED : Fld := ⟨0x51044, 16, 1⟩
abbrev CIPH_STATUS_NO_PAIR : Fld := ⟨0x51044, 17, 1⟩
abbrev CIPH_LANE_EN : Fld := ⟨0x51048, 0, 8⟩
abbrev CIPH_QDEPTH_WR : Fld := ⟨0x5104c, 0, 8⟩
abbrev CIPH_QDEPTH_RD : Fld := ⟨0x5104c, 8, 8⟩
abbrev CIPH_QDEPTH_FW : Fld := ⟨0x5104c, 16, 8⟩
abbrev CIPH_QDEPTH_HOST : Fld := ⟨0x5104c, 24, 8⟩
abbrev ENC_BYTES_LO : Fld := ⟨0x51050, 0, 32⟩
abbrev ENC_BYTES_HI : Fld := ⟨0x51054, 0, 32⟩
abbrev DEC_BYTES_LO : Fld := ⟨0x51058, 0, 32⟩
abbrev DEC_BYTES_HI : Fld := ⟨0x5105c, 0, 32⟩
abbrev TAG_FAIL_CNT : Fld := ⟨0x51060, 0, 32⟩
abbrev PAIR_MISMATCH_CNT : Fld := ⟨0x51064, 0, 32⟩
abbrev RETRACT_CNT : Fld := ⟨0x51068, 0, 32⟩
abbrev KAT_FAIL_CNT : Fld := ⟨0x5106c, 0, 32⟩
abbrev TAG_LAST_LO : Fld := ⟨0x51070, 0, 32⟩
abbrev TAG_LAST_HI : Fld := ⟨0x51074, 0, 28⟩

/-! ## KEYS page (R335, spec/10) -/
abbrev KEY_STATUS_LOADED : Fld := ⟨0x52040, 0, 11⟩
abbrev KEY_STATUS_KEK_LOADED : Fld := ⟨0x52040, 16, 16⟩
abbrev KEYS_SLOT_WIN_ADDR_SLOT : Fld := ⟨0x52044, 0, 10⟩
abbrev KEYS_SLOT_WIN_ADDR_AUTOINC : Fld := ⟨0x52044, 10, 1⟩
abbrev KEYS_SLOT_WIN_DATA_STATE : Fld := ⟨0x52048, 0, 2⟩
abbrev KEYS_SLOT_WIN_DATA_TENANT : Fld := ⟨0x52048, 8, 8⟩
abbrev SLOT_WIN_TAG : Fld := ⟨0x5204c, 0, 32⟩
abbrev KEY_UNWRAP_FAIL_CNT : Fld := ⟨0x52050, 0, 32⟩
abbrev KEY_BIND_FAIL_CNT : Fld := ⟨0x52054, 0, 32⟩
abbrev KEK_AGREE_CNT : Fld := ⟨0x52058, 0, 32⟩

/-! ## DDR pages (R372, spec/11) -/
abbrev DDR_STATUS_STATE (n : Nat) : Fld := ⟨0x58040 + 0x1000 * n, 0, 3⟩
abbrev DDR_STATUS_TRAINED (n : Nat) : Fld := ⟨0x58040 + 0x1000 * n, 4, 8⟩
abbrev DDR_STATUS_REF_RATE (n : Nat) : Fld := ⟨0x58040 + 0x1000 * n, 12, 3⟩
abbrev DDR_TRAIN_ERR_STEP (n : Nat) : Fld := ⟨0x58044 + 0x1000 * n, 0, 4⟩
abbrev DDR_TRAIN_ERR_LANE (n : Nat) : Fld := ⟨0x58044 + 0x1000 * n, 4, 4⟩
abbrev DDR_TRAIN_ERR_VALID (n : Nat) : Fld := ⟨0x58044 + 0x1000 * n, 31, 1⟩
abbrev DDR_MR_ADDR_MR (n : Nat) : Fld := ⟨0x58048 + 0x1000 * n, 0, 7⟩
abbrev DDR_MR_ADDR_DEV (n : Nat) : Fld := ⟨0x58048 + 0x1000 * n, 7, 1⟩
abbrev DDR_MR_DATA (n : Nat) : Fld := ⟨0x5804c + 0x1000 * n, 0, 8⟩
abbrev DDR_CE_CNT (n : Nat) : Fld := ⟨0x58050 + 0x1000 * n, 0, 32⟩
abbrev DDR_UE_CNT (n : Nat) : Fld := ⟨0x58054 + 0x1000 * n, 0, 32⟩
abbrev DDR_RETRAIN_CNT (n : Nat) : Fld := ⟨0x58058 + 0x1000 * n, 0, 32⟩

/-! ## MEMECC page (R373, spec/11) -/
abbrev MEM_CFG_SIZE : Fld := ⟨0x5c040, 0, 1⟩
abbrev MEM_CFG_RATE : Fld := ⟨0x5c040, 1, 2⟩
abbrev MEM_CTRL_EN : Fld := ⟨0x5c044, 0, 1⟩
abbrev MEM_CTRL_SCRUB_EN : Fld := ⟨0x5c044, 1, 1⟩
abbrev MEM_CTRL_TRAIN : Fld := ⟨0x5c044, 2, 1⟩
abbrev MEM_STATUS_READY : Fld := ⟨0x5c048, 0, 1⟩
abbrev MEM_STATUS_TRAIN_BUSY : Fld := ⟨0x5c048, 1, 1⟩
abbrev MEM_STATUS_SCRUB_RUN : Fld := ⟨0x5c048, 2, 1⟩
abbrev MEM_STATUS_RETIRE_FULL : Fld := ⟨0x5c048, 3, 1⟩
abbrev MEM_STATUS_RLOG_LOST : Fld := ⟨0x5c048, 4, 1⟩
abbrev POOL_SLOTS : Fld := ⟨0x5c04c, 0, 23⟩
abbrev SCRUB_CTRL : Fld := ⟨0x5c050, 0, 11⟩
abbrev SCRUB_POS : Fld := ⟨0x5c054, 0, 23⟩
abbrev SCRUB_PASS_CNT : Fld := ⟨0x5c058, 0, 32⟩
abbrev CE_RD_CNT : Fld := ⟨0x5c05c, 0, 32⟩
abbrev CE_SCRUB_CNT : Fld := ⟨0x5c060, 0, 32⟩
abbrev UE_CNT : Fld := ⟨0x5c064, 0, 32⟩
abbrev PREPAIR_CNT : Fld := ⟨0x5c068, 0, 32⟩
abbrev POISON_CNT : Fld := ⟨0x5c06c, 0, 32⟩
abbrev CE_REPEAT_CNT : Fld := ⟨0x5c070, 0, 32⟩
abbrev HOT_DROP_CNT : Fld := ⟨0x5c074, 0, 32⟩
abbrev RLOG_HEAD : Fld := ⟨0x5c078, 0, 32⟩
abbrev RLOG_TAIL : Fld := ⟨0x5c07c, 0, 32⟩
abbrev RLOG_LOST_CNT : Fld := ⟨0x5c080, 0, 32⟩
abbrev RLOG_WIN_ADDR_ENTRY : Fld := ⟨0x5c084, 0, 12⟩
abbrev RLOG_WIN_ADDR_WORD : Fld := ⟨0x5c084, 12, 3⟩
abbrev RLOG_WIN_ADDR_AUTOINC : Fld := ⟨0x5c084, 15, 1⟩
abbrev RLOG_WIN_DATA : Fld := ⟨0x5c088, 0, 32⟩
abbrev RETIRE : Fld := ⟨0x5c08c, 0, 23⟩
abbrev RELEASE : Fld := ⟨0x5c090, 0, 23⟩
abbrev RETIRE_STATUS_RETIRED : Fld := ⟨0x5c094, 0, 16⟩
abbrev RETIRE_STATUS_PENDING : Fld := ⟨0x5c094, 16, 16⟩
abbrev QUAR_STATUS : Fld := ⟨0x5c098, 0, 23⟩
abbrev RET_WIN_ADDR_ENTRY : Fld := ⟨0x5c09c, 0, 15⟩
abbrev RET_WIN_ADDR_AUTOINC : Fld := ⟨0x5c09c, 15, 1⟩
abbrev RET_WIN_DATA_PAGE : Fld := ⟨0x5c0a0, 0, 23⟩
abbrev RET_WIN_DATA_PENDING : Fld := ⟨0x5c0a0, 31, 1⟩
abbrev SPLIT_CTRL_ARM : Fld := ⟨0x5c0a4, 0, 1⟩
abbrev SPLIT_CTRL_PCODE_KEEP : Fld := ⟨0x5c0a4, 1, 1⟩
abbrev SPLIT_CTRL_WRITE : Fld := ⟨0x5c0a4, 2, 1⟩
abbrev SPLIT_CTRL_READ : Fld := ⟨0x5c0a4, 3, 1⟩
abbrev SPLIT_CTRL_PCHECK : Fld := ⟨0x5c0a4, 4, 1⟩
abbrev SPLIT_CTRL_ACCT : Fld := ⟨0x5c0a4, 5, 9⟩
abbrev SPLIT_ADDR_PAGE : Fld := ⟨0x5c0a8, 0, 23⟩
abbrev SPLIT_ADDR_WORD : Fld := ⟨0x5c0a8, 23, 7⟩
abbrev SPLIT_CHK : Fld := ⟨0x5c0ac, 0, 24⟩
abbrev SPLIT_RESULT_SYN : Fld := ⟨0x5c0b0, 0, 24⟩
abbrev SPLIT_RESULT_VERDICT : Fld := ⟨0x5c0b0, 24, 4⟩
abbrev SPLIT_RESULT_DONE : Fld := ⟨0x5c0b0, 28, 1⟩
abbrev SPLIT_DATA (i : Nat) : Fld := ⟨0x5c0c0 + 0x4 * i, 0, 32⟩

/-! ## SREP page (R374, spec/11) -/
abbrev SREP_CTRL : Fld := ⟨0x5d040, 0, 1⟩
abbrev SREP_STATUS_APPLIED : Fld := ⟨0x5d044, 0, 1⟩
abbrev SREP_STATUS_ENTRIES : Fld := ⟨0x5d044, 1, 10⟩
abbrev SREP_WIN_ADDR_ENTRY : Fld := ⟨0x5d048, 0, 9⟩
abbrev SREP_WIN_ADDR_AUTOINC : Fld := ⟨0x5d048, 9, 1⟩
abbrev SREP_WIN_DATA : Fld := ⟨0x5d04c, 0, 32⟩
abbrev SREP_ERR_INDEX : Fld := ⟨0x5d050, 0, 9⟩
abbrev SREP_ERR_CODE : Fld := ⟨0x5d050, 9, 3⟩
abbrev SREP_ERR_VALID : Fld := ⟨0x5d050, 31, 1⟩
abbrev SREP_FUSE_ADDR : Fld := ⟨0x5d054, 0, 9⟩
abbrev SREP_FUSE_DATA_FUSE_ROWS : Fld := ⟨0x5d058, 0, 3⟩
abbrev SREP_FUSE_DATA_FUSE_COL : Fld := ⟨0x5d058, 3, 1⟩
abbrev SREP_FUSE_DATA_SOFT_ROWS : Fld := ⟨0x5d058, 4, 3⟩
abbrev SREP_FUSE_DATA_SOFT_COL : Fld := ⟨0x5d058, 7, 1⟩
abbrev SREP_CE_CNT : Fld := ⟨0x5d05c, 0, 32⟩
abbrev SREP_CAND_CNT_ENTRIES : Fld := ⟨0x5d060, 0, 7⟩
abbrev SREP_CAND_CNT_DROPPED : Fld := ⟨0x5d060, 16, 16⟩
abbrev SREP_CAND_ADDR : Fld := ⟨0x5d064, 0, 6⟩
abbrev SREP_CAND_DATA : Fld := ⟨0x5d068, 0, 32⟩

/-! ## POOL page (R397, spec/12) -/
abbrev POOL_CTRL : Fld := ⟨0x60040, 0, 1⟩
abbrev POOL_STATUS_BUILT : Fld := ⟨0x60044, 0, 1⟩
abbrev POOL_STATUS_MIN_SHORT : Fld := ⟨0x60044, 1, 1⟩
abbrev POOL_STATUS_FLOOR_LOW : Fld := ⟨0x60044, 2, 1⟩
abbrev POOL_CAP : Fld := ⟨0x60048, 0, 23⟩
abbrev POOL_FREE : Fld := ⟨0x6004c, 0, 23⟩
abbrev POOL_CACHE : Fld := ⟨0x60050, 0, 13⟩
abbrev POOL_RING : Fld := ⟨0x60054, 0, 24⟩
abbrev POOL_REQ_OP : Fld := ⟨0x60058, 0, 3⟩
abbrev POOL_REQ_WAIT : Fld := ⟨0x60058, 3, 1⟩
abbrev POOL_REQ_GO : Fld := ⟨0x60058, 4, 1⟩
abbrev POOL_REQ_CANCEL : Fld := ⟨0x60058, 5, 1⟩
abbrev POOL_REQ_ACCOUNT : Fld := ⟨0x60058, 6, 9⟩
abbrev POOL_REQ_TARGET : Fld := ⟨0x60058, 15, 9⟩
abbrev POOL_REQ_PAGE : Fld := ⟨0x6005c, 0, 23⟩
abbrev POOL_RESP_BUSY : Fld := ⟨0x60060, 0, 1⟩
abbrev POOL_RESP_DONE : Fld := ⟨0x60060, 1, 1⟩
abbrev POOL_RESP_STATUS : Fld := ⟨0x60060, 4, 4⟩
abbrev POOL_RESP_REFCNT : Fld := ⟨0x60060, 8, 8⟩
abbrev POOL_RESP_OWNER : Fld := ⟨0x60060, 16, 9⟩
abbrev POOL_RESP_PAGE : Fld := ⟨0x60064, 0, 23⟩
abbrev ALLOC_CNT : Fld := ⟨0x60068, 0, 32⟩
abbrev FREE_CNT : Fld := ⟨0x6006c, 0, 32⟩
abbrev HANDOFF_CNT : Fld := ⟨0x60070, 0, 32⟩
abbrev EMPTY_CNT : Fld := ⟨0x60074, 0, 32⟩
abbrev QUOTA_CNT : Fld := ⟨0x60078, 0, 32⟩
abbrev MISUSE_CNT : Fld := ⟨0x6007c, 0, 32⟩
abbrev SPILL_CNT : Fld := ⟨0x60080, 0, 32⟩
abbrev FILL_CNT : Fld := ⟨0x60084, 0, 32⟩
abbrev STALE_CNT : Fld := ⟨0x60088, 0, 32⟩
abbrev WAIT_FULL_CNT : Fld := ⟨0x6008c, 0, 32⟩
abbrev ERR_LAST_PAGE : Fld := ⟨0x60090, 0, 23⟩
abbrev ERR_LAST_ACCT_REQUESTER : Fld := ⟨0x60094, 0, 9⟩
abbrev ERR_LAST_ACCT_OWNER : Fld := ⟨0x60094, 9, 9⟩
abbrev ERR_LAST_ACCT_STATUS : Fld := ⟨0x60094, 18, 4⟩
abbrev ERR_LAST_ACCT_HOST : Fld := ⟨0x60094, 22, 1⟩
abbrev ERR_LAST_ACCT_VALID : Fld := ⟨0x60094, 31, 1⟩
abbrev WAIT_STATUS : Fld := ⟨0x60098, 0, 9⟩

/-! ## ACCT page (R396, spec/12) -/
abbrev ACCT_WIN_ADDR_ACCOUNT : Fld := ⟨0x61040, 0, 9⟩
abbrev ACCT_WIN_ADDR_ITEM : Fld := ⟨0x61040, 9, 3⟩
abbrev ACCT_WIN_ADDR_AUTOINC : Fld := ⟨0x61040, 12, 1⟩
abbrev ACCT_WIN_DATA : Fld := ⟨0x61044, 0, 32⟩
abbrev ACCT_ERR_ACCOUNT : Fld := ⟨0x61048, 0, 9⟩
abbrev ACCT_ERR_ITEM : Fld := ⟨0x61048, 9, 3⟩
abbrev ACCT_ERR_REASON : Fld := ⟨0x61048, 12, 3⟩
abbrev ACCT_ERR_VALID : Fld := ⟨0x61048, 31, 1⟩
abbrev MIN_SUM : Fld := ⟨0x6104c, 0, 24⟩
abbrev UNMET_SUM : Fld := ⟨0x61050, 0, 24⟩

/-! ## EPBX page (R432, spec/13) -/
abbrev LNK_CTRL_RETRAIN : Fld := ⟨0x68040, 0, 1⟩
abbrev LNK_CTRL_RESET : Fld := ⟨0x68040, 1, 1⟩
abbrev LNK_CTRL_MAX_WIDTH : Fld := ⟨0x68040, 2, 2⟩
abbrev LNK_CTRL_HALF_ONLY : Fld := ⟨0x68040, 4, 1⟩
abbrev LNK_CTRL_LANE_DIS : Fld := ⟨0x68040, 8, 8⟩
abbrev LNK_STATUS_STATE : Fld := ⟨0x68044, 0, 3⟩
abbrev LNK_STATUS_WIDTH : Fld := ⟨0x68044, 4, 2⟩
abbrev LNK_STATUS_HALF : Fld := ⟨0x68044, 6, 1⟩
abbrev LNK_STATUS_REVERSED : Fld := ⟨0x68044, 7, 1⟩
abbrev LNK_STATUS_LANES : Fld := ⟨0x68044, 8, 8⟩
abbrev LNK_STATUS_GOOD : Fld := ⟨0x68044, 16, 8⟩
abbrev LNK_STATUS_RESET_SEEN : Fld := ⟨0x68044, 24, 1⟩
abbrev LNK_STATUS_PREV_LOST : Fld := ⟨0x68044, 25, 1⟩
abbrev LNK_POL : Fld := ⟨0x68048, 0, 8⟩
abbrev LNK_SKEW : Fld := ⟨0x6804c, 0, 16⟩
abbrev LNK_SEQ_TX_NEXT : Fld := ⟨0x68050, 0, 12⟩
abbrev LNK_SEQ_TX_OLDEST : Fld := ⟨0x68050, 16, 12⟩
abbrev LNK_RXSEQ : Fld := ⟨0x68054, 0, 12⟩
abbrev LNK_HELD : Fld := ⟨0x68058, 0, 12⟩
abbrev LNK_CE_CNT : Fld := ⟨0x6805c, 0, 32⟩
abbrev LNK_BAD_CNT : Fld := ⟨0x68060, 0, 32⟩
abbrev LNK_NAK_CNT : Fld := ⟨0x68064, 0, 32⟩
abbrev LNK_REPLAY_CNT : Fld := ⟨0x68068, 0, 32⟩
abbrev LNK_RECOVER_CNT : Fld := ⟨0x6806c, 0, 32⟩
abbrev LNK_RESET_CNT : Fld := ⟨0x68070, 0, 32⟩
abbrev LNK_DISCARD_CNT : Fld := ⟨0x68074, 0, 32⟩
abbrev LNK_TRAIN_ERR_STATE : Fld := ⟨0x68078, 0, 3⟩
abbrev LNK_TRAIN_ERR_HALF : Fld := ⟨0x68078, 3, 1⟩
abbrev LNK_TRAIN_ERR_NOT_GOOD : Fld := ⟨0x68078, 8, 8⟩
abbrev LNK_TRAIN_ERR_VALID : Fld := ⟨0x68078, 31, 1⟩
abbrev PROTO_ERR_CODE : Fld := ⟨0x6807c, 0, 4⟩
abbrev PROTO_ERR_PTYPE : Fld := ⟨0x6807c, 4, 8⟩
abbrev PROTO_ERR_QUEUE : Fld := ⟨0x6807c, 12, 6⟩
abbrev PROTO_ERR_VALID : Fld := ⟨0x6807c, 31, 1⟩
abbrev PROTO_CNT : Fld := ⟨0x68080, 0, 32⟩
abbrev TOK_WIN_ADDR_QUEUE : Fld := ⟨0x68084, 0, 6⟩
abbrev TOK_WIN_ADDR_CLASS : Fld := ⟨0x68084, 6, 2⟩
abbrev TOK_WIN_ADDR_DIR : Fld := ⟨0x68084, 8, 1⟩
abbrev TOK_WIN_DATA_COUNT : Fld := ⟨0x68088, 0, 16⟩
abbrev TOK_WIN_DATA_DEPTH : Fld := ⟨0x68088, 16, 16⟩
abbrev DO_WIN_ADDR : Fld := ⟨0x6808c, 0, 6⟩
abbrev DO_WIN_TAG_TAG : Fld := ⟨0x68090, 0, 16⟩
abbrev DO_WIN_TAG_ACTIVE : Fld := ⟨0x68090, 16, 1⟩
abbrev DO_WIN_BYTES : Fld := ⟨0x68094, 0, 32⟩
abbrev EPBX_OUT_STATUS_COMPL_WAIT : Fld := ⟨0x68098, 0, 11⟩
abbrev EPBX_OUT_STATUS_EVT_WAIT : Fld := ⟨0x68098, 11, 9⟩
abbrev EVT_LOST_CNT : Fld := ⟨0x6809c, 0, 32⟩

/-! ## QUE page (R469, spec/14) -/
abbrev QUE_CTRL : Fld := ⟨0x69040, 0, 1⟩
abbrev QUE_STATUS_HALTED : Fld := ⟨0x69044, 0, 1⟩
abbrev QUE_STATUS_BUSY : Fld := ⟨0x69044, 1, 1⟩
abbrev QUE_STATUS_DEPTH : Fld := ⟨0x69044, 8, 9⟩
abbrev QUE_STATUS_HALT_STATUS : Fld := ⟨0x69044, 24, 8⟩
abbrev STREAM_EXEC_TAG : Fld := ⟨0x69048, 0, 16⟩
abbrev STREAM_EXEC_OPCODE : Fld := ⟨0x69048, 16, 8⟩
abbrev MINUTE_LO : Fld := ⟨0x6904c, 0, 32⟩
abbrev MINUTE_HI : Fld := ⟨0x69050, 0, 32⟩
abbrev SQ_WIN_ADDR : Fld := ⟨0x69054, 0, 6⟩
abbrev SQ_WIN_DATA_WAITING : Fld := ⟨0x69058, 0, 5⟩
abbrev SQ_WIN_DATA_BUSY : Fld := ⟨0x69058, 5, 1⟩
abbrev SQ_WIN_DATA_TAG : Fld := ⟨0x69058, 16, 16⟩
abbrev CMD_SEQ : Fld := ⟨0x6905c, 0, 32⟩
abbrev CMD_CNT : Fld := ⟨0x69060, 0, 32⟩
abbrev REJECT_CNT : Fld := ⟨0x69064, 0, 32⟩

/-! ## TEN page (R470, spec/14) -/
abbrev TEN_STATUS : Fld := ⟨0x70040, 0, 9⟩
abbrev TEN_WIN_ADDR_CONTEXT : Fld := ⟨0x70044, 0, 8⟩
abbrev TEN_WIN_ADDR_ITEM : Fld := ⟨0x70044, 8, 3⟩
abbrev TEN_WIN_ADDR_AUTOINC : Fld := ⟨0x70044, 11, 1⟩
abbrev TEN_WIN_DATA : Fld := ⟨0x70048, 0, 32⟩

/-! ## METER page (R471, spec/14) -/
abbrev MTR_STATUS_HELD : Fld := ⟨0x71040, 0, 1⟩
abbrev MTR_STATUS_PENDING : Fld := ⟨0x71040, 1, 1⟩
abbrev MTR_HEAD : Fld := ⟨0x71044, 0, 32⟩
abbrev MTR_TAIL : Fld := ⟨0x71048, 0, 32⟩
abbrev MTR_HOLD_CNT : Fld := ⟨0x7104c, 0, 32⟩
abbrev RCPT_CNT : Fld := ⟨0x71050, 0, 32⟩

/-! ## MOT pages (R505, spec/15) -/
abbrev MOT_CTRL_EN (n : Nat) : Fld := ⟨0x78040 + 0x1000 * n, 0, 1⟩
abbrev MOT_CTRL_HALL_FIT (n : Nat) : Fld := ⟨0x78040 + 0x1000 * n, 1, 1⟩
abbrev MOT_CTRL_PULSE_START (n : Nat) : Fld := ⟨0x78040 + 0x1000 * n, 2, 1⟩
abbrev MOT_CTRL_DTC (n : Nat) : Fld := ⟨0x78040 + 0x1000 * n, 3, 1⟩
abbrev MOT_CTRL_SRC_FORCE (n : Nat) : Fld := ⟨0x78040 + 0x1000 * n, 4, 3⟩
abbrev MOT_STATUS_RUNNING (n : Nat) : Fld := ⟨0x78044 + 0x1000 * n, 0, 1⟩
abbrev MOT_STATUS_STO (n : Nat) : Fld := ⟨0x78044 + 0x1000 * n, 1, 1⟩
abbrev MOT_STATUS_SRC (n : Nat) : Fld := ⟨0x78044 + 0x1000 * n, 2, 3⟩
abbrev MOT_STATUS_HALL_OK (n : Nat) : Fld := ⟨0x78044 + 0x1000 * n, 5, 1⟩
abbrev MOT_STATUS_OBS_VALID (n : Nat) : Fld := ⟨0x78044 + 0x1000 * n, 6, 1⟩
abbrev MOT_STATUS_RAD_VALID (n : Nat) : Fld := ⟨0x78044 + 0x1000 * n, 7, 1⟩
abbrev MOT_STATUS_VLIMIT (n : Nat) : Fld := ⟨0x78044 + 0x1000 * n, 8, 1⟩
abbrev MOT_STATUS_SS_HOLD (n : Nat) : Fld := ⟨0x78044 + 0x1000 * n, 9, 1⟩
abbrev MOT_STATUS_FORCE_BAD (n : Nat) : Fld := ⟨0x78044 + 0x1000 * n, 10, 1⟩
abbrev PWM_CFG_DEAD (n : Nat) : Fld := ⟨0x78048 + 0x1000 * n, 0, 8⟩
abbrev PWM_CFG_MIN_WIN (n : Nat) : Fld := ⟨0x78048 + 0x1000 * n, 8, 8⟩
abbrev PWM_CFG_SETTLE (n : Nat) : Fld := ⟨0x78048 + 0x1000 * n, 16, 8⟩
abbrev MOTOR_POLE_PAIRS (n : Nat) : Fld := ⟨0x7804c + 0x1000 * n, 0, 4⟩
abbrev MOTOR_NMAX (n : Nat) : Fld := ⟨0x7804c + 0x1000 * n, 16, 16⟩
abbrev MOTOR_RL_RS (n : Nat) : Fld := ⟨0x78050 + 0x1000 * n, 0, 16⟩
abbrev MOTOR_RL_LS (n : Nat) : Fld := ⟨0x78050 + 0x1000 * n, 16, 16⟩
abbrev MOTOR_PSI (n : Nat) : Fld := ⟨0x78054 + 0x1000 * n, 0, 20⟩
abbrev CUR_KP (n : Nat) : Fld := ⟨0x78058 + 0x1000 * n, 0, 32⟩
abbrev CUR_KI (n : Nat) : Fld := ⟨0x7805c + 0x1000 * n, 0, 32⟩
abbrev CUR_SHIFT_KP_SH (n : Nat) : Fld := ⟨0x78060 + 0x1000 * n, 0, 5⟩
abbrev CUR_SHIFT_KI_SH (n : Nat) : Fld := ⟨0x78060 + 0x1000 * n, 8, 5⟩
abbrev CUR_LIMIT_IMAX (n : Nat) : Fld := ⟨0x78064 + 0x1000 * n, 0, 16⟩
abbrev CUR_LIMIT_ID_LOSS (n : Nat) : Fld := ⟨0x78064 + 0x1000 * n, 16, 16⟩
abbrev IDQ_ID (n : Nat) : Fld := ⟨0x78068 + 0x1000 * n, 0, 16⟩
abbrev IDQ_IQ (n : Nat) : Fld := ⟨0x78068 + 0x1000 * n, 16, 16⟩
abbrev IQ_REF_IQ_REF (n : Nat) : Fld := ⟨0x7806c + 0x1000 * n, 0, 16⟩
abbrev IQ_REF_ID_REF (n : Nat) : Fld := ⟨0x7806c + 0x1000 * n, 16, 16⟩
abbrev VDQ_VD (n : Nat) : Fld := ⟨0x78070 + 0x1000 * n, 0, 16⟩
abbrev VDQ_VQ (n : Nat) : Fld := ⟨0x78070 + 0x1000 * n, 16, 16⟩
abbrev ANGLE_ELEC (n : Nat) : Fld := ⟨0x78074 + 0x1000 * n, 0, 16⟩
abbrev ANGLE_MECH (n : Nat) : Fld := ⟨0x78074 + 0x1000 * n, 16, 16⟩
abbrev SPEED (n : Nat) : Fld := ⟨0x78078 + 0x1000 * n, 0, 32⟩
abbrev RADIUS (n : Nat) : Fld := ⟨0x7807c + 0x1000 * n, 0, 20⟩
abbrev OBS_CFG_OBS_MIN (n : Nat) : Fld := ⟨0x78080 + 0x1000 * n, 0, 16⟩
abbrev OBS_CFG_EMF_MIN_PCT (n : Nat) : Fld := ⟨0x78080 + 0x1000 * n, 16, 8⟩
abbrev OBS_CFG_ERR_MAX (n : Nat) : Fld := ⟨0x78080 + 0x1000 * n, 24, 8⟩
abbrev OBS_STATUS_ERR (n : Nat) : Fld := ⟨0x78084 + 0x1000 * n, 0, 8⟩
abbrev OBS_STATUS_EMF_PCT (n : Nat) : Fld := ⟨0x78084 + 0x1000 * n, 8, 8⟩
abbrev OBS_STATUS_HALL_DIFF (n : Nat) : Fld := ⟨0x78084 + 0x1000 * n, 16, 8⟩
abbrev HALL_CFG (n : Nat) : Fld := ⟨0x78088 + 0x1000 * n, 0, 16⟩
abbrev HALL_STATUS_CODE (n : Nat) : Fld := ⟨0x7808c + 0x1000 * n, 0, 3⟩
abbrev HALL_STATUS_SECTOR (n : Nat) : Fld := ⟨0x7808c + 0x1000 * n, 3, 3⟩
abbrev HALL_STATUS_SEQ_ERR (n : Nat) : Fld := ⟨0x7808c + 0x1000 * n, 8, 8⟩
abbrev PULSE_CFG_PULSE_US (n : Nat) : Fld := ⟨0x78090 + 0x1000 * n, 0, 8⟩
abbrev PULSE_CFG_SAL_MIN_PCT (n : Nat) : Fld := ⟨0x78090 + 0x1000 * n, 8, 8⟩
abbrev PULSE_CFG_START_MAX (n : Nat) : Fld := ⟨0x78090 + 0x1000 * n, 16, 16⟩
abbrev SS_SHIFT_CNT (n : Nat) : Fld := ⟨0x78094 + 0x1000 * n, 0, 32⟩
abbrev SS_MISS_CNT (n : Nat) : Fld := ⟨0x78098 + 0x1000 * n, 0, 32⟩
abbrev VCEIL (n : Nat) : Fld := ⟨0x7809c + 0x1000 * n, 0, 16⟩
abbrev ZERO_SAMPLE (n : Nat) : Fld := ⟨0x780a0 + 0x1000 * n, 0, 12⟩
abbrev ISH_SCALE (n : Nat) : Fld := ⟨0x780a4 + 0x1000 * n, 0, 16⟩
abbrev VBUS (n : Nat) : Fld := ⟨0x780c0 + 0x1000 * n, 0, 16⟩
abbrev VBUS_SCALE (n : Nat) : Fld := ⟨0x780c4 + 0x1000 * n, 0, 16⟩
abbrev VBUS_CHOP_ON (n : Nat) : Fld := ⟨0x780c8 + 0x1000 * n, 0, 16⟩
abbrev VBUS_CHOP_OFF (n : Nat) : Fld := ⟨0x780c8 + 0x1000 * n, 16, 16⟩
abbrev VBUS_UV (n : Nat) : Fld := ⟨0x780cc + 0x1000 * n, 0, 16⟩
abbrev CHOP_CFG_WAIT (n : Nat) : Fld := ⟨0x780d0 + 0x1000 * n, 0, 16⟩
abbrev CHOP_CFG_MAX_DUTY (n : Nat) : Fld := ⟨0x780d0 + 0x1000 * n, 16, 8⟩
abbrev CHOP_STATUS_ON (n : Nat) : Fld := ⟨0x780d4 + 0x1000 * n, 0, 1⟩
abbrev CHOP_STATUS_FAULT (n : Nat) : Fld := ⟨0x780d4 + 0x1000 * n, 1, 1⟩
abbrev CHOP_STATUS_OVERLOAD (n : Nat) : Fld := ⟨0x780d4 + 0x1000 * n, 2, 1⟩
abbrev CHOP_STATUS_DUTY (n : Nat) : Fld := ⟨0x780d4 + 0x1000 * n, 8, 8⟩
abbrev RAD_SEED (n : Nat) : Fld := ⟨0x780d8 + 0x1000 * n, 0, 24⟩
abbrev RAD_K (n : Nat) : Fld := ⟨0x780dc + 0x1000 * n, 0, 24⟩
abbrev CHOP_CNT (n : Nat) : Fld := ⟨0x780e0 + 0x1000 * n, 0, 32⟩

/-! ## ACT page (R541, spec/16) -/
abbrev ACT_CTRL_LAT_EN : Fld := ⟨0x7a040, 0, 1⟩
abbrev ACT_CTRL_TILT_EN : Fld := ⟨0x7a040, 1, 1⟩
abbrev ACT_STATUS_LAT_STO : Fld := ⟨0x7a044, 0, 1⟩
abbrev ACT_STATUS_TILT_STO : Fld := ⟨0x7a044, 1, 1⟩
abbrev ACT_STATUS_LAT_RUN : Fld := ⟨0x7a044, 2, 1⟩
abbrev ACT_STATUS_TILT_RUN : Fld := ⟨0x7a044, 3, 1⟩
abbrev ACT_DUTY_LAT : Fld := ⟨0x7a048, 0, 16⟩
abbrev ACT_DUTY_TILT : Fld := ⟨0x7a048, 16, 16⟩
abbrev ACT_CUR_LAT : Fld := ⟨0x7a04c, 0, 16⟩
abbrev ACT_CUR_TILT : Fld := ⟨0x7a04c, 16, 16⟩
abbrev ACT_POS_LAT : Fld := ⟨0x7a050, 0, 16⟩
abbrev ACT_POS_TILT : Fld := ⟨0x7a050, 16, 16⟩
abbrev ACT_ISCALE_LAT : Fld := ⟨0x7a054, 0, 16⟩
abbrev ACT_ISCALE_TILT : Fld := ⟨0x7a054, 16, 16⟩
abbrev ACT_POS_OFS_LAT : Fld := ⟨0x7a058, 0, 16⟩
abbrev ACT_POS_OFS_TILT : Fld := ⟨0x7a058, 16, 16⟩
abbrev ACT_IMAX_LAT : Fld := ⟨0x7a05c, 0, 16⟩
abbrev ACT_IMAX_TILT : Fld := ⟨0x7a05c, 16, 16⟩

/-! ## ADC page (R507, spec/15) -/
abbrev ADC_CTRL_EN : Fld := ⟨0x7b040, 0, 1⟩
abbrev ADC_CTRL_AUX_EN : Fld := ⟨0x7b040, 1, 1⟩
abbrev ADC_STATUS_BUSY0 : Fld := ⟨0x7b044, 0, 1⟩
abbrev ADC_STATUS_BUSY1 : Fld := ⟨0x7b044, 1, 1⟩
abbrev ADC_WIN_ADDR : Fld := ⟨0x7b048, 0, 4⟩
abbrev ADC_WIN_DATA : Fld := ⟨0x7b04c, 0, 12⟩
abbrev ADC_LATE_CNT : Fld := ⟨0x7b050, 0, 32⟩

/-! ## LOOP page (R539, spec/16) -/
abbrev LOOP_CTRL_EN : Fld := ⟨0x7c040, 0, 1⟩
abbrev LOOP_CTRL_COMMIT : Fld := ⟨0x7c040, 16, 16⟩
abbrev LOOP_STATUS_SAT : Fld := ⟨0x7c044, 0, 16⟩
abbrev LOOP_STATUS_SP_LIMITED : Fld := ⟨0x7c044, 16, 16⟩
abbrev LOOP_FLAGS_GUARD_A : Fld := ⟨0x7c048, 0, 1⟩
abbrev LOOP_FLAGS_GUARD_B : Fld := ⟨0x7c048, 1, 1⟩
abbrev LOOP_FLAGS_TRAIL : Fld := ⟨0x7c048, 2, 1⟩
abbrev LOOP_FLAGS_COMMIT_PEND : Fld := ⟨0x7c048, 3, 1⟩
abbrev LOOP_FLAGS_DECEL_HALF : Fld := ⟨0x7c048, 4, 1⟩
abbrev LOOP_FLAGS_VCLAMP : Fld := ⟨0x7c048, 5, 1⟩
abbrev SPD_CTRL_SRC : Fld := ⟨0x7c04c, 0, 2⟩
abbrev SPD_CTRL_SPDREF_DIR : Fld := ⟨0x7c04c, 2, 1⟩
abbrev V_HOST : Fld := ⟨0x7c050, 0, 32⟩
abbrev SPDREF_CFG_NM : Fld := ⟨0x7c054, 0, 16⟩
abbrev SPDREF_CFG_TMO : Fld := ⟨0x7c054, 16, 16⟩
abbrev SPDREF_STATUS_RATE : Fld := ⟨0x7c058, 0, 22⟩
abbrev SPDREF_STATUS_SAT : Fld := ⟨0x7c058, 22, 1⟩
abbrev SPDREF_STATUS_LOST : Fld := ⟨0x7c058, 23, 1⟩
abbrev V_LIM : Fld := ⟨0x7c05c, 0, 32⟩
abbrev TENSION : Fld := ⟨0x7c060, 0, 16⟩
abbrev TEN_CFG_SRC : Fld := ⟨0x7c064, 0, 1⟩
abbrev TEN_CFG_AUX : Fld := ⟨0x7c064, 1, 2⟩
abbrev TEN_CFG_AUX_SCALE : Fld := ⟨0x7c064, 16, 16⟩
abbrev TEN_MODEL_A_KT : Fld := ⟨0x7c068, 0, 16⟩
abbrev TEN_MODEL_A_FRIC : Fld := ⟨0x7c068, 16, 16⟩
abbrev TEN_MODEL_B_KT : Fld := ⟨0x7c06c, 0, 16⟩
abbrev TEN_MODEL_B_FRIC : Fld := ⟨0x7c06c, 16, 16⟩
abbrev TEN_INERTIA_J_HUB : Fld := ⟨0x7c070, 0, 16⟩
abbrev TEN_INERTIA_K_PACK : Fld := ⟨0x7c070, 16, 16⟩
abbrev TEN_HUB : Fld := ⟨0x7c074, 0, 20⟩
abbrev REEL_POL_A : Fld := ⟨0x7c078, 0, 1⟩
abbrev REEL_POL_B : Fld := ⟨0x7c078, 1, 1⟩
abbrev LAT_OFS_STG : Fld := ⟨0x7c07c, 0, 16⟩
abbrev LAT_OFS_ACT : Fld := ⟨0x7c080, 0, 16⟩
abbrev RD_OFS_STG : Fld := ⟨0x7c084, 0, 16⟩
abbrev RD_OFS_ACT : Fld := ⟨0x7c084, 16, 16⟩
abbrev LAT_MEAS : Fld := ⟨0x7c088, 0, 32⟩
abbrev LAT_SP : Fld := ⟨0x7c08c, 0, 32⟩
abbrev BAND_ERR_LU (i : Nat) : Fld := ⟨0x7c090 + 0x4 * i, 0, 16⟩
abbrev BAND_ERR_VALID (i : Nat) : Fld := ⟨0x7c090 + 0x4 * i, 16, 1⟩
abbrev TILT_D_D : Fld := ⟨0x7c0b0, 0, 16⟩
abbrev TILT_D_D_SP : Fld := ⟨0x7c0b0, 16, 16⟩
abbrev WIDTH_EW : Fld := ⟨0x7c0b4, 0, 16⟩
abbrev WIDTH_VALID : Fld := ⟨0x7c0b4, 16, 1⟩
abbrev WID_CFG_WID_KI : Fld := ⟨0x7c0b8, 0, 8⟩
abbrev WID_CFG_WID_SH : Fld := ⟨0x7c0b8, 8, 5⟩
abbrev WID_CFG_TILT_DIR : Fld := ⟨0x7c0b8, 13, 1⟩
abbrev WID_CFG_WID_MAX : Fld := ⟨0x7c0b8, 16, 16⟩
abbrev BOFS_K : Fld := ⟨0x7c0bc, 0, 16⟩
abbrev OVR_CNT : Fld := ⟨0x7c0c0, 0, 32⟩
abbrev FE_CNT : Fld := ⟨0x7c0c4, 0, 32⟩
abbrev INJ_CTRL_SLOT : Fld := ⟨0x7c0c8, 0, 4⟩
abbrev INJ_CTRL_POINT : Fld := ⟨0x7c0c8, 4, 2⟩
abbrev INJ_CTRL_KIND : Fld := ⟨0x7c0c8, 6, 2⟩
abbrev INJ_CTRL_GO : Fld := ⟨0x7c0c8, 8, 1⟩
abbrev INJ_CTRL_STOP : Fld := ⟨0x7c0c8, 9, 1⟩
abbrev INJ_CTRL_RUN : Fld := ⟨0x7c0c8, 10, 1⟩
abbrev INJ_CTRL_REFUSED : Fld := ⟨0x7c0c8, 11, 1⟩
abbrev INJ_CTRL_HOLD : Fld := ⟨0x7c0c8, 16, 8⟩
abbrev INJ_AMP : Fld := ⟨0x7c0cc, 0, 32⟩
abbrev INJ_FREQ : Fld := ⟨0x7c0d0, 0, 32⟩
abbrev INJ_COUNT : Fld := ⟨0x7c0d4, 0, 32⟩
abbrev LOOP_SLOT_WIN_ADDR_SLOT : Fld := ⟨0x7c0d8, 0, 4⟩
abbrev LOOP_SLOT_WIN_ADDR_ITEM : Fld := ⟨0x7c0d8, 4, 7⟩
abbrev LOOP_SLOT_WIN_ADDR_ACT : Fld := ⟨0x7c0d8, 11, 1⟩
abbrev LOOP_SLOT_WIN_ADDR_AUTOINC : Fld := ⟨0x7c0d8, 12, 1⟩
abbrev LOOP_SLOT_WIN_DATA : Fld := ⟨0x7c0dc, 0, 32⟩

/-! ## LCAP page (R542, spec/16) -/
abbrev CAP_CTRL_ARM : Fld := ⟨0x7d040, 0, 1⟩
abbrev CAP_CTRL_ABORT : Fld := ⟨0x7d040, 1, 1⟩
abbrev CAP_CTRL_TRIG : Fld := ⟨0x7d040, 2, 2⟩
abbrev CAP_CTRL_EDGE : Fld := ⟨0x7d040, 4, 1⟩
abbrev CAP_CTRL_CLK_SLOT : Fld := ⟨0x7d040, 8, 4⟩
abbrev CAP_CTRL_DECIM : Fld := ⟨0x7d040, 12, 8⟩
abbrev CAP_STATUS_ARMED : Fld := ⟨0x7d044, 0, 1⟩
abbrev CAP_STATUS_TRIGGERED : Fld := ⟨0x7d044, 1, 1⟩
abbrev CAP_STATUS_DONE : Fld := ⟨0x7d044, 2, 1⟩
abbrev CAP_STATUS_INDEX : Fld := ⟨0x7d044, 16, 13⟩
abbrev CAP_PRE : Fld := ⟨0x7d048, 0, 13⟩
abbrev CAP_THRESH : Fld := ⟨0x7d04c, 0, 32⟩
abbrev CAP_SEL_SLOT (i : Nat) : Fld := ⟨0x7d050 + 0x4 * i, 0, 4⟩
abbrev CAP_SEL_SIGNAL (i : Nat) : Fld := ⟨0x7d050 + 0x4 * i, 4, 4⟩
abbrev CAP_TRIG_LO : Fld := ⟨0x7d060, 0, 32⟩
abbrev CAP_TRIG_HI : Fld := ⟨0x7d064, 0, 32⟩
abbrev CAP_WIN_ADDR_SAMPLE : Fld := ⟨0x7d068, 0, 13⟩
abbrev CAP_WIN_ADDR_CHANNEL : Fld := ⟨0x7d068, 13, 2⟩
abbrev CAP_WIN_ADDR_AUTOINC : Fld := ⟨0x7d068, 15, 1⟩
abbrev CAP_WIN_DATA : Fld := ⟨0x7d06c, 0, 32⟩

/-! ## LREP page (R543, spec/16) -/
abbrev REP_CTRL_EN_A : Fld := ⟨0x7e040, 0, 1⟩
abbrev REP_CTRL_EN_B : Fld := ⟨0x7e040, 1, 1⟩
abbrev REP_CTRL_CLR_A : Fld := ⟨0x7e040, 2, 1⟩
abbrev REP_CTRL_CLR_B : Fld := ⟨0x7e040, 3, 1⟩
abbrev REP_CFG_KR : Fld := ⟨0x7e044, 0, 16⟩
abbrev REP_CFG_KR_SH : Fld := ⟨0x7e044, 16, 5⟩
abbrev REP_CFG_LEAD : Fld := ⟨0x7e044, 24, 5⟩
abbrev REP_Q : Fld := ⟨0x7e048, 0, 5⟩
abbrev REP_MAX : Fld := ⟨0x7e04c, 0, 16⟩
abbrev REP_VMIN : Fld := ⟨0x7e050, 0, 16⟩
abbrev REP_STATUS_FROZEN_A : Fld := ⟨0x7e054, 0, 1⟩
abbrev REP_STATUS_FROZEN_B : Fld := ⟨0x7e054, 1, 1⟩
abbrev BIN_WIN_ADDR_BIN : Fld := ⟨0x7e058, 0, 8⟩
abbrev BIN_WIN_ADDR_REEL : Fld := ⟨0x7e058, 8, 1⟩
abbrev BIN_WIN_ADDR_AUTOINC : Fld := ⟨0x7e058, 9, 1⟩
abbrev BIN_WIN_DATA : Fld := ⟨0x7e05c, 0, 16⟩

/-! ## CLU page (R24, spec/01) -/
abbrev CLU_RUN_CMD : Fld := ⟨0x80040, 0, 1⟩
abbrev CLU_RUN_SECU : Fld := ⟨0x80040, 1, 1⟩
abbrev CLU_RUN_MOT : Fld := ⟨0x80040, 2, 4⟩
abbrev CLU_RUN_SVC : Fld := ⟨0x80040, 6, 4⟩
abbrev CLU_CH_RUN : Fld := ⟨0x80044, 0, 32⟩
abbrev CLU_LS_MISMATCH_CMD : Fld := ⟨0x80048, 0, 1⟩
abbrev CLU_LS_MISMATCH_SECU : Fld := ⟨0x80048, 1, 1⟩
abbrev CLU_LS_MISMATCH_MOT : Fld := ⟨0x80048, 2, 4⟩

end Reg

end Sys2Proof.Machine
end

