-- ==== Sys2Proof/Machine/RegMap.lean ====
section
/-!
DEFINITION. The register map: for each block type, its registers with every field's place, access code (R605) and reset value, as the field maps of the chapters
give them; and the page index of R618. Reserved bits are not listed: they read as zero and discard writes (R8).
-/
namespace Sys2Proof.Machine

/-- The access codes of R605. -/
inductive Access where
  | rw | ro | w1c | wo | rws | rwt
  deriving DecidableEq, Repr

/-- One field of a register map: lowest bit, width, access code, reset value. -/
structure FieldSpec where
  lo    : Nat
  width : Nat
  acc   : Access
  reset : Nat
  deriving DecidableEq, Repr

/-- One register of a page, or an array of `count` registers `stride` bytes apart, from byte offset `off` of the page. -/
structure RegSpec where
  off    : Nat
  count  : Nat
  stride : Nat
  fields : List FieldSpec
  deriving DecidableEq, Repr

namespace RegMap

/-- CHIP page (R619, spec/20). -/
def chipRegs : List RegSpec := [
  ⟨0x040, 1, 4, [⟨0, 16, .ro, 0x5120⟩, ⟨16, 2, .ro, 0⟩, ⟨24, 8, .ro, 0⟩]⟩,
  ⟨0x044, 1, 4, [⟨0, 8, .ro, 1⟩]⟩,
  ⟨0x050, 4, 4, [⟨0, 32, .rw, 0⟩]⟩]

/-- FAULT page (R568, spec/17). -/
def faultRegs : List RegSpec := [
  ⟨0x040, 1, 4, [⟨0, 3, .rwt, 2⟩]⟩,
  ⟨0x044, 1, 4, [⟨0, 3, .ro, 7⟩, ⟨4, 7, .ro, 0⟩, ⟨11, 4, .ro, 0⟩]⟩,
  ⟨0x048, 1, 4, [⟨0, 32, .ro, 0⟩]⟩,
  ⟨0x04c, 1, 4, [⟨0, 32, .ro, 0⟩]⟩,
  ⟨0x050, 1, 4, [⟨0, 32, .rw, 0⟩]⟩,
  ⟨0x054, 1, 4, [⟨0, 32, .ro, 0⟩]⟩,
  ⟨0x058, 1, 4, [⟨0, 10, .rw, 0⟩, ⟨10, 3, .rw, 0⟩, ⟨13, 1, .rw, 0⟩]⟩,
  ⟨0x05c, 1, 4, [⟨0, 32, .ro, 0⟩]⟩,
  ⟨0x060, 1, 4, [⟨0, 16, .ro, 0⟩]⟩,
  ⟨0x064, 1, 4, [⟨0, 32, .ro, 0⟩]⟩]

/-- SAFE page (R567, spec/17). -/
def safeRegs : List RegSpec := [
  ⟨0x040, 1, 4, [⟨0, 1, .ro, 0⟩, ⟨1, 1, .ro, 0⟩, ⟨2, 1, .ro, 0⟩, ⟨3, 1, .ro, 0⟩, ⟨4, 1, .ro, 1⟩, ⟨5, 1, .ro, 1⟩, ⟨6, 1, .ro, 1⟩, ⟨7, 1, .ro, 0⟩, ⟨8, 1, .ro, 1⟩, ⟨9, 1, .ro, 1⟩, ⟨10, 1, .w1c, 0⟩]⟩,
  ⟨0x044, 1, 4, [⟨0, 16, .ro, 0⟩, ⟨16, 1, .ro, 0⟩]⟩,
  ⟨0x048, 1, 4, [⟨0, 1, .rws, 0⟩, ⟨1, 1, .rws, 0⟩, ⟨8, 3, .rws, 3⟩, ⟨16, 16, .rws, 300⟩]⟩,
  ⟨0x04c, 1, 4, [⟨0, 1, .rws, 0⟩, ⟨1, 1, .rws, 0⟩, ⟨8, 3, .rws, 3⟩, ⟨16, 16, .rws, 300⟩]⟩,
  ⟨0x050, 1, 4, [⟨0, 12, .rws, 0xdc7⟩]⟩,
  ⟨0x054, 1, 4, [⟨0, 12, .rws, 0xdc7⟩]⟩,
  ⟨0x058, 1, 4, [⟨0, 16, .rws, 0⟩, ⟨16, 16, .rws, 0⟩]⟩,
  ⟨0x05c, 1, 4, [⟨0, 16, .rws, 0⟩, ⟨16, 16, .rws, 0⟩]⟩,
  ⟨0x060, 1, 4, [⟨0, 12, .rws, 0xfff⟩]⟩,
  ⟨0x064, 1, 4, [⟨0, 12, .rws, 0xfff⟩]⟩,
  ⟨0x068, 1, 4, [⟨0, 23, .rw, 0⟩, ⟨23, 7, .rw, 0⟩]⟩,
  ⟨0x06c, 1, 4, [⟨0, 2, .ro, 0⟩, ⟨2, 1, .ro, 0⟩]⟩,
  ⟨0x070, 1, 4, [⟨0, 32, .ro, 0⟩]⟩,
  ⟨0x074, 1, 4, [⟨0, 32, .ro, 0⟩]⟩,
  ⟨0x080, 8, 4, [⟨0, 32, .ro, 0⟩]⟩]

/-- SEC page (R590, spec/18). -/
def secRegs : List RegSpec := [
  ⟨0x040, 1, 4, [⟨0, 2, .ro, 0⟩, ⟨2, 1, .ro, 0⟩, ⟨3, 3, .ro, 0⟩, ⟨6, 1, .ro, 0⟩, ⟨7, 1, .ro, 0⟩, ⟨8, 1, .ro, 0⟩, ⟨9, 1, .ro, 0⟩, ⟨10, 1, .ro, 0⟩, ⟨11, 1, .ro, 0⟩, ⟨12, 1, .ro, 0⟩]⟩,
  ⟨0x044, 1, 4, [⟨0, 1, .wo, 0⟩, ⟨1, 1, .wo, 0⟩]⟩,
  ⟨0x048, 1, 4, [⟨0, 24, .rw, 0⟩]⟩,
  ⟨0x04c, 1, 4, [⟨0, 24, .ro, 0⟩]⟩,
  ⟨0x050, 1, 4, [⟨0, 4, .ro, 0⟩, ⟨4, 12, .ro, 0⟩, ⟨31, 1, .w1c, 0⟩]⟩,
  ⟨0x054, 1, 4, [⟨0, 32, .ro, 0⟩]⟩,
  ⟨0x058, 1, 4, [⟨0, 1, .wo, 0⟩]⟩,
  ⟨0x05c, 1, 4, [⟨0, 4, .ro, 0⟩, ⟨31, 1, .w1c, 0⟩]⟩,
  ⟨0x060, 1, 4, [⟨0, 1, .wo, 0⟩]⟩,
  ⟨0x064, 1, 4, [⟨0, 1, .w1c, 0⟩, ⟨1, 1, .w1c, 0⟩, ⟨16, 16, .ro, 0⟩]⟩,
  ⟨0x068, 4, 4, [⟨0, 32, .ro, 0⟩]⟩,
  ⟨0x080, 16, 4, [⟨0, 32, .ro, 0⟩]⟩,
  ⟨0x0c0, 16, 4, [⟨0, 32, .ro, 0⟩]⟩,
  ⟨0x100, 8, 4, [⟨0, 32, .ro, 0⟩]⟩,
  ⟨0x120, 8, 4, [⟨0, 32, .ro, 0⟩]⟩,
  ⟨0x140, 4, 4, [⟨0, 32, .ro, 0⟩]⟩,
  ⟨0x150, 8, 4, [⟨0, 32, .ro, 0⟩]⟩,
  ⟨0x200, 32, 4, [⟨0, 32, .wo, 0⟩]⟩]

/-- TEST page (R568, spec/17). -/
def testRegs : List RegSpec := [
  ⟨0x040, 1, 4, [⟨0, 1, .rws, 1⟩]⟩,
  ⟨0x044, 1, 4, [⟨0, 11, .ro, 0⟩, ⟨11, 1, .ro, 0⟩]⟩,
  ⟨0x048, 1, 4, [⟨0, 16, .ro, 0⟩]⟩,
  ⟨0x04c, 1, 4, [⟨0, 32, .ro, 0⟩]⟩,
  ⟨0x050, 1, 4, [⟨0, 32, .ro, 0⟩]⟩,
  ⟨0x054, 1, 4, [⟨0, 16, .ro, 0⟩, ⟨16, 16, .ro, 0⟩]⟩]

/-- CLK page (R620, spec/20). -/
def clkRegs : List RegSpec := [
  ⟨0x040, 1, 4, [⟨0, 1, .ro, 0⟩, ⟨1, 1, .ro, 0⟩, ⟨2, 1, .ro, 0⟩, ⟨3, 1, .ro, 0⟩, ⟨4, 1, .ro, 0⟩, ⟨5, 1, .ro, 0⟩]⟩,
  ⟨0x044, 1, 4, [⟨0, 11, .ro, 0⟩]⟩]

/-- PWR page (R598, spec/19). -/
def pwrRegs : List RegSpec := [
  ⟨0x040, 1, 4, [⟨0, 9, .ro, 0⟩]⟩,
  ⟨0x044, 1, 4, [⟨0, 1, .ro, 1⟩, ⟨1, 1, .ro, 0⟩, ⟨2, 1, .ro, 0⟩, ⟨3, 1, .ro, 0⟩, ⟨8, 4, .ro, 0⟩]⟩,
  ⟨0x048, 1, 4, [⟨0, 32, .ro, 0⟩]⟩]

/-- POS page (R55, spec/02). -/
def posRegs : List RegSpec := [
  ⟨0x040, 1, 4, [⟨0, 1, .rw, 0⟩, ⟨8, 5, .rws, 2⟩]⟩,
  ⟨0x044, 1, 4, [⟨0, 1, .ro, 0⟩, ⟨1, 1, .ro, 0⟩, ⟨2, 1, .ro, 0⟩, ⟨3, 1, .ro, 1⟩, ⟨4, 1, .ro, 0⟩, ⟨8, 5, .ro, 0⟩]⟩,
  ⟨0x048, 1, 4, [⟨0, 32, .ro, 0⟩]⟩,
  ⟨0x04c, 1, 4, [⟨0, 32, .ro, 0⟩]⟩,
  ⟨0x050, 1, 4, [⟨0, 32, .ro, 0⟩]⟩,
  ⟨0x054, 1, 4, [⟨0, 8, .ro, 0⟩]⟩,
  ⟨0x058, 1, 4, [⟨0, 18, .rws, 0x3ffff⟩]⟩,
  ⟨0x05c, 1, 4, [⟨0, 32, .ro, 0⟩]⟩,
  ⟨0x060, 1, 4, [⟨0, 16, .rws, 100⟩]⟩,
  ⟨0x064, 1, 4, [⟨0, 16, .rws, 400⟩]⟩,
  ⟨0x068, 1, 4, [⟨0, 32, .rws, 0⟩]⟩,
  ⟨0x06c, 8, 4, [⟨0, 32, .ro, 0⟩]⟩,
  ⟨0x08c, 1, 4, [⟨0, 3, .ro, 0⟩, ⟨4, 3, .ro, 0⟩]⟩,
  ⟨0x090, 1, 4, [⟨0, 16, .ro, 0⟩, ⟨16, 16, .ro, 0⟩]⟩]

/-- SERVO page (R57, spec/02). -/
def servoRegs : List RegSpec := [
  ⟨0x040, 1, 4, [⟨0, 1, .rw, 1⟩, ⟨1, 1, .rw, 1⟩]⟩,
  ⟨0x044, 1, 4, [⟨0, 1, .ro, 0⟩, ⟨1, 1, .ro, 0⟩, ⟨2, 1, .w1c, 0⟩, ⟨3, 1, .w1c, 0⟩, ⟨8, 7, .ro, 0⟩, ⟨16, 7, .ro, 0⟩]⟩,
  ⟨0x048, 1, 4, [⟨0, 32, .ro, 0⟩]⟩,
  ⟨0x04c, 1, 4, [⟨0, 32, .ro, 0⟩]⟩,
  ⟨0x050, 1, 4, [⟨0, 16, .rwt, 384⟩, ⟨16, 16, .rwt, 384⟩]⟩,
  ⟨0x054, 1, 4, [⟨0, 16, .ro, 384⟩, ⟨16, 16, .ro, 384⟩]⟩,
  ⟨0x058, 1, 4, [⟨0, 16, .rwt, 384⟩, ⟨16, 16, .rwt, 384⟩]⟩,
  ⟨0x05c, 1, 4, [⟨0, 16, .ro, 384⟩, ⟨16, 16, .ro, 384⟩]⟩,
  ⟨0x060, 1, 4, [⟨0, 16, .ro, 0⟩, ⟨16, 16, .ro, 0⟩]⟩,
  ⟨0x064, 1, 4, [⟨0, 12, .rws, 256⟩]⟩]

/-- FMT page (R115, spec/03 ; R178, spec/05 ; R183, spec/05). -/
def fmtRegs : List RegSpec := [
  ⟨0x040, 1, 4, [⟨0, 1, .rw, 0⟩]⟩,
  ⟨0x044, 1, 4, [⟨0, 1, .ro, 0⟩, ⟨1, 1, .ro, 0⟩, ⟨2, 1, .ro, 0⟩, ⟨3, 1, .ro, 0⟩]⟩,
  ⟨0x048, 1, 4, [⟨0, 32, .rws, 0x3b3440⟩]⟩,
  ⟨0x04c, 1, 4, [⟨0, 32, .ro, 0⟩]⟩,
  ⟨0x050, 1, 4, [⟨0, 5, .ro, 0⟩]⟩,
  ⟨0x054, 1, 4, [⟨0, 4, .ro, 0⟩, ⟨16, 11, .ro, 0⟩]⟩,
  ⟨0x058, 1, 4, [⟨0, 32, .ro, 0⟩]⟩,
  ⟨0x05c, 1, 4, [⟨0, 32, .ro, 0⟩]⟩,
  ⟨0x060, 1, 4, [⟨0, 32, .ro, 0⟩]⟩,
  ⟨0x064, 1, 4, [⟨0, 32, .ro, 0⟩]⟩,
  ⟨0x068, 1, 4, [⟨0, 32, .ro, 0⟩]⟩,
  ⟨0x080, 1, 4, [⟨0, 1, .wo, 0⟩]⟩,
  ⟨0x084, 1, 4, [⟨0, 1, .ro, 0⟩, ⟨1, 1, .ro, 0⟩]⟩,
  ⟨0x088, 1, 4, [⟨0, 32, .ro, 0⟩]⟩,
  ⟨0x08c, 1, 4, [⟨0, 32, .ro, 0⟩]⟩,
  ⟨0x090, 1, 4, [⟨0, 32, .ro, 0⟩]⟩,
  ⟨0x094, 1, 4, [⟨0, 8, .ro, 0⟩, ⟨8, 5, .ro, 0⟩, ⟨13, 1, .ro, 0⟩]⟩,
  ⟨0x0a0, 1, 4, [⟨0, 1, .rw, 0⟩, ⟨4, 4, .rwt, 6⟩, ⟨8, 4, .rwt, 2⟩, ⟨12, 4, .rws, 15⟩, ⟨16, 4, .rwt, 15⟩]⟩,
  ⟨0x0a4, 1, 4, [⟨0, 4, .ro, 0⟩, ⟨4, 4, .ro, 15⟩, ⟨8, 8, .ro, 0⟩, ⟨16, 1, .ro, 0⟩]⟩,
  ⟨0x0a8, 1, 4, [⟨0, 16, .rws, 0x7d0⟩]⟩,
  ⟨0x0ac, 1, 4, [⟨0, 32, .ro, 0⟩]⟩]

/-- BSEQ page (R184, spec/05). -/
def bseqRegs : List RegSpec := [
  ⟨0x040, 1, 4, [⟨0, 1, .rw, 0⟩, ⟨1, 1, .wo, 0⟩, ⟨2, 1, .wo, 0⟩, ⟨3, 1, .wo, 0⟩, ⟨4, 1, .wo, 0⟩, ⟨5, 1, .rw, 0⟩, ⟨6, 1, .wo, 0⟩, ⟨7, 1, .wo, 0⟩]⟩,
  ⟨0x044, 1, 4, [⟨0, 1, .ro, 0⟩, ⟨1, 1, .ro, 0⟩, ⟨2, 1, .ro, 0⟩, ⟨3, 1, .ro, 0⟩, ⟨4, 1, .ro, 0⟩, ⟨5, 1, .ro, 0⟩, ⟨8, 13, .ro, 0⟩]⟩,
  ⟨0x048, 1, 4, [⟨0, 32, .rw, 0⟩]⟩,
  ⟨0x04c, 1, 4, [⟨0, 32, .rw, 0⟩]⟩,
  ⟨0x050, 1, 4, [⟨0, 6, .rw, 0⟩, ⟨6, 1, .rw, 0⟩, ⟨7, 1, .rw, 0⟩, ⟨16, 14, .rw, 0⟩]⟩,
  ⟨0x054, 1, 4, [⟨0, 6, .rw, 0⟩, ⟨6, 1, .rw, 0⟩, ⟨7, 1, .rw, 0⟩, ⟨16, 14, .rw, 0⟩]⟩,
  ⟨0x058, 1, 4, [⟨0, 4, .ro, 0⟩, ⟨4, 1, .ro, 0⟩, ⟨8, 13, .ro, 0⟩, ⟨31, 1, .w1c, 0⟩]⟩,
  ⟨0x05c, 1, 4, [⟨0, 13, .rw, 0⟩, ⟨13, 1, .rw, 0⟩, ⟨14, 2, .rw, 0⟩, ⟨16, 1, .rw, 0⟩]⟩,
  ⟨0x060, 1, 4, [⟨0, 32, .rw, 0⟩]⟩,
  ⟨0x064, 1, 4, [⟨0, 8, .rw, 0⟩, ⟨8, 1, .rw, 0⟩, ⟨9, 1, .rw, 0⟩]⟩,
  ⟨0x068, 1, 4, [⟨0, 32, .rw, 0⟩]⟩,
  ⟨0x06c, 1, 4, [⟨0, 32, .rws, 0xc000⟩]⟩,
  ⟨0x070, 1, 4, [⟨0, 8, .ro, 205⟩]⟩,
  ⟨0x074, 1, 4, [⟨0, 32, .ro, 0⟩]⟩,
  ⟨0x078, 1, 4, [⟨0, 12, .rwt, 205⟩]⟩,
  ⟨0x07c, 1, 4, [⟨0, 16, .ro, 0⟩]⟩,
  ⟨0x080, 1, 4, [⟨0, 32, .ro, 0⟩]⟩,
  ⟨0x084, 1, 4, [⟨0, 32, .ro, 0⟩]⟩,
  ⟨0x088, 1, 4, [⟨0, 32, .ro, 0⟩]⟩,
  ⟨0x100, 15, 8, [⟨0, 32, .rw, 0xffffffff⟩]⟩,
  ⟨0x104, 15, 8, [⟨0, 32, .rw, 0xffffffff⟩]⟩]

/-- HFE page (R78, spec/02 ; R173, spec/05 ; R224, spec/06). -/
def hfeRegs : List RegSpec := [
  ⟨0x040, 1, 4, [⟨0, 1, .rw, 0⟩, ⟨1, 1, .rw, 0⟩, ⟨2, 1, .rw, 0⟩, ⟨3, 1, .wo, 0⟩]⟩,
  ⟨0x044, 1, 4, [⟨0, 3, .ro, 0⟩, ⟨4, 3, .ro, 0⟩, ⟨8, 3, .ro, 0⟩]⟩,
  ⟨0x048, 1, 4, [⟨0, 16, .ro, 0⟩]⟩,
  ⟨0x04c, 1, 4, [⟨0, 16, .ro, 0⟩, ⟨16, 16, .ro, 0⟩]⟩,
  ⟨0x050, 1, 4, [⟨0, 16, .ro, 0⟩, ⟨16, 16, .ro, 0⟩]⟩,
  ⟨0x054, 1, 4, [⟨0, 16, .ro, 0⟩, ⟨16, 16, .ro, 0⟩]⟩,
  ⟨0x100, 16, 16, [⟨0, 8, .rwt, 0⟩, ⟨8, 8, .rwt, 0⟩, ⟨16, 4, .rwt, 0⟩]⟩,
  ⟨0x104, 16, 16, [⟨0, 6, .rwt, 0⟩, ⟨8, 6, .rwt, 0⟩, ⟨16, 6, .rwt, 0⟩]⟩,
  ⟨0x108, 16, 16, [⟨0, 1, .rwt, 0⟩, ⟨1, 1, .ro, 0⟩, ⟨2, 1, .ro, 0⟩, ⟨3, 1, .ro, 0⟩, ⟨4, 1, .ro, 0⟩, ⟨8, 8, .ro, 0⟩]⟩,
  ⟨0x10c, 16, 16, [⟨0, 8, .rwt, 0⟩, ⟨8, 8, .rwt, 0⟩, ⟨16, 1, .rwt, 0⟩, ⟨17, 1, .w1c, 0⟩]⟩,
  ⟨0x200, 32, 8, [⟨0, 1, .rwt, 0⟩, ⟨8, 8, .rwt, 0⟩, ⟨16, 6, .rwt, 0⟩, ⟨24, 2, .rwt, 0⟩]⟩,
  ⟨0x204, 32, 8, [⟨0, 1, .ro, 0⟩, ⟨1, 1, .ro, 0⟩, ⟨2, 1, .ro, 0⟩, ⟨3, 1, .ro, 0⟩, ⟨8, 8, .ro, 0⟩]⟩]

/-- RCH page (R226, spec/06). -/
def rchRegs : List RegSpec := [
  ⟨0x040, 1, 4, [⟨0, 1, .rw, 0⟩, ⟨1, 1, .rwt, 1⟩, ⟨2, 1, .rwt, 0⟩]⟩,
  ⟨0x044, 1, 4, [⟨0, 1, .ro, 0⟩, ⟨1, 1, .ro, 0⟩, ⟨2, 8, .ro, 0⟩]⟩,
  ⟨0x048, 1, 4, [⟨0, 5, .rwt, 7⟩, ⟨5, 5, .rwt, 15⟩, ⟨10, 5, .rwt, 10⟩, ⟨15, 5, .rwt, 8⟩, ⟨20, 5, .rwt, 20⟩]⟩,
  ⟨0x04c, 1, 4, [⟨0, 5, .ro, 7⟩, ⟨5, 5, .ro, 15⟩, ⟨10, 5, .ro, 10⟩, ⟨15, 5, .ro, 8⟩, ⟨20, 5, .ro, 20⟩]⟩,
  ⟨0x050, 1, 4, [⟨0, 5, .rwt, 14⟩, ⟨5, 1, .rwt, 0⟩, ⟨6, 5, .rwt, 16⟩, ⟨11, 5, .rwt, 18⟩]⟩,
  ⟨0x054, 1, 4, [⟨0, 5, .ro, 14⟩, ⟨5, 1, .ro, 0⟩, ⟨6, 5, .ro, 16⟩, ⟨11, 5, .ro, 18⟩]⟩,
  ⟨0x058, 1, 4, [⟨0, 8, .rws, 32⟩, ⟨8, 8, .rws, 40⟩, ⟨16, 8, .rws, 8⟩]⟩,
  ⟨0x05c, 1, 4, [⟨0, 8, .ro, 0⟩, ⟨8, 8, .ro, 0⟩]⟩,
  ⟨0x060, 1, 4, [⟨0, 8, .rwt, 50⟩, ⟨8, 8, .rwt, 51⟩, ⟨16, 8, .rwt, 16⟩]⟩,
  ⟨0x064, 1, 4, [⟨0, 8, .rwt, 40⟩, ⟨8, 5, .rwt, 8⟩]⟩,
  ⟨0x068, 1, 4, [⟨0, 32, .rws, 0x18000⟩]⟩,
  ⟨0x06c, 1, 4, [⟨0, 16, .ro, 0⟩, ⟨16, 16, .ro, 0⟩]⟩,
  ⟨0x070, 1, 4, [⟨0, 6, .rw, 0⟩, ⟨6, 1, .rw, 0⟩, ⟨7, 6, .rw, 0⟩, ⟨13, 1, .rw, 0⟩]⟩,
  ⟨0x074, 1, 4, [⟨0, 32, .rw, 0⟩]⟩,
  ⟨0x078, 1, 4, [⟨0, 32, .ro, 0⟩]⟩,
  ⟨0x07c, 1, 4, [⟨0, 32, .ro, 0⟩]⟩,
  ⟨0x080, 1, 4, [⟨0, 32, .ro, 0⟩]⟩,
  ⟨0x084, 1, 4, [⟨0, 32, .ro, 0⟩]⟩,
  ⟨0x088, 1, 4, [⟨0, 32, .ro, 0⟩]⟩,
  ⟨0x08c, 1, 4, [⟨0, 32, .ro, 0⟩]⟩,
  ⟨0x090, 1, 4, [⟨0, 32, .ro, 0⟩]⟩,
  ⟨0x094, 1, 4, [⟨0, 32, .ro, 0⟩]⟩]

/-- LDPC page (R227, spec/06). -/
def ldpcRegs : List RegSpec := [
  ⟨0x040, 1, 4, [⟨0, 6, .rwt, 12⟩, ⟨8, 6, .rwt, 40⟩, ⟨16, 4, .rwt, 4⟩, ⟨20, 4, .rwt, 12⟩]⟩,
  ⟨0x044, 1, 4, [⟨0, 10, .ro, 0⟩]⟩,
  ⟨0x048, 1, 4, [⟨0, 32, .ro, 0⟩]⟩,
  ⟨0x04c, 1, 4, [⟨0, 32, .ro, 0⟩]⟩,
  ⟨0x050, 1, 4, [⟨0, 32, .ro, 0⟩]⟩,
  ⟨0x054, 1, 4, [⟨0, 32, .ro, 0⟩]⟩]

/-- OUTER page (R141, spec/04). -/
def outerRegs : List RegSpec := [
  ⟨0x040, 1, 4, [⟨0, 1, .rw, 0⟩, ⟨1, 1, .rw, 0⟩, ⟨2, 1, .rwt, 1⟩, ⟨8, 4, .rwt, 2⟩]⟩,
  ⟨0x044, 1, 4, [⟨0, 1, .ro, 0⟩, ⟨1, 5, .ro, 0⟩]⟩,
  ⟨0x048, 1, 4, [⟨0, 32, .ro, 0⟩]⟩,
  ⟨0x04c, 1, 4, [⟨0, 32, .ro, 0⟩]⟩,
  ⟨0x050, 1, 4, [⟨0, 32, .ro, 0⟩]⟩,
  ⟨0x054, 1, 4, [⟨0, 32, .ro, 0⟩]⟩,
  ⟨0x058, 1, 4, [⟨0, 32, .ro, 0⟩]⟩,
  ⟨0x05c, 1, 4, [⟨0, 32, .ro, 0⟩]⟩]

/-- VERIFY page (R283, spec/08). -/
def verifyRegs : List RegSpec := [
  ⟨0x040, 1, 4, [⟨0, 1, .rw, 0⟩, ⟨8, 6, .rwt, 8⟩, ⟨16, 12, .rwt, 700⟩]⟩,
  ⟨0x044, 1, 4, [⟨0, 4, .rwt, 8⟩, ⟨4, 4, .rwt, 2⟩, ⟨8, 4, .rwt, 2⟩]⟩,
  ⟨0x048, 1, 4, [⟨0, 11, .ro, 0⟩, ⟨16, 4, .ro, 0⟩]⟩,
  ⟨0x04c, 1, 4, [⟨0, 32, .ro, 0⟩]⟩,
  ⟨0x050, 1, 4, [⟨0, 32, .ro, 0⟩]⟩,
  ⟨0x054, 1, 4, [⟨0, 32, .ro, 0⟩]⟩,
  ⟨0x058, 1, 4, [⟨0, 32, .ro, 0⟩]⟩,
  ⟨0x05c, 1, 4, [⟨0, 32, .ro, 0⟩]⟩,
  ⟨0x060, 1, 4, [⟨0, 32, .ro, 0⟩]⟩,
  ⟨0x064, 1, 4, [⟨0, 32, .ro, 0⟩]⟩,
  ⟨0x068, 1, 4, [⟨0, 9, .ro, 0⟩, ⟨12, 4, .ro, 0⟩, ⟨16, 5, .ro, 0⟩, ⟨21, 8, .ro, 0⟩]⟩]

/-- CAL page (R250, spec/07). -/
def calRegs : List RegSpec := [
  ⟨0x040, 1, 4, [⟨0, 1, .rw, 0⟩, ⟨1, 1, .rwt, 1⟩, ⟨2, 1, .rwt, 1⟩, ⟨3, 1, .rwt, 1⟩, ⟨4, 1, .rwt, 1⟩, ⟨5, 1, .rwt, 1⟩, ⟨6, 1, .rwt, 1⟩, ⟨7, 1, .rwt, 1⟩, ⟨8, 1, .rwt, 1⟩]⟩,
  ⟨0x044, 1, 4, [⟨0, 1, .ro, 0⟩, ⟨1, 1, .ro, 0⟩, ⟨2, 1, .ro, 0⟩, ⟨3, 1, .w1c, 0⟩, ⟨4, 1, .w1c, 0⟩, ⟨5, 1, .w1c, 0⟩, ⟨6, 1, .w1c, 0⟩, ⟨8, 10, .ro, 0⟩]⟩,
  ⟨0x048, 1, 4, [⟨0, 4, .rwt, 1⟩, ⟨4, 8, .rwt, 5⟩, ⟨12, 8, .rwt, 2⟩, ⟨20, 8, .rwt, 20⟩]⟩,
  ⟨0x04c, 1, 4, [⟨0, 8, .rwt, 30⟩, ⟨8, 8, .rwt, 10⟩, ⟨16, 8, .rwt, 8⟩]⟩,
  ⟨0x050, 1, 4, [⟨0, 6, .rwt, 0⟩, ⟨8, 8, .rwt, 80⟩]⟩,
  ⟨0x054, 1, 4, [⟨0, 16, .rwt, 0⟩, ⟨16, 8, .rwt, 16⟩]⟩,
  ⟨0x058, 1, 4, [⟨0, 16, .ro, 0⟩]⟩,
  ⟨0x05c, 1, 4, [⟨0, 12, .rwt, 0⟩, ⟨16, 12, .rwt, 0⟩]⟩,
  ⟨0x060, 1, 4, [⟨0, 10, .rw, 0⟩, ⟨10, 2, .rw, 0⟩, ⟨12, 4, .rw, 0⟩, ⟨16, 1, .rw, 0⟩]⟩,
  ⟨0x064, 1, 4, [⟨0, 32, .rw, 0⟩]⟩,
  ⟨0x068, 1, 4, [⟨0, 32, .ro, 0⟩]⟩,
  ⟨0x06c, 1, 4, [⟨0, 32, .ro, 0⟩]⟩,
  ⟨0x070, 1, 4, [⟨0, 32, .ro, 0⟩]⟩,
  ⟨0x074, 1, 4, [⟨0, 32, .ro, 0⟩]⟩,
  ⟨0x078, 1, 4, [⟨0, 32, .ro, 0⟩]⟩]

/-- RECOV page (R284, spec/08). -/
def recovRegs : List RegSpec := [
  ⟨0x040, 1, 4, [⟨0, 1, .rw, 0⟩, ⟨1, 3, .rwt, 5⟩, ⟨8, 4, .rwt, 2⟩, ⟨12, 4, .rwt, 2⟩, ⟨16, 8, .rwt, 128⟩, ⟨31, 1, .wo, 0⟩]⟩,
  ⟨0x044, 1, 4, [⟨0, 1, .ro, 0⟩, ⟨1, 3, .ro, 0⟩, ⟨8, 9, .ro, 0⟩, ⟨17, 1, .w1c, 0⟩]⟩,
  ⟨0x048, 1, 4, [⟨0, 32, .ro, 0⟩]⟩,
  ⟨0x04c, 5, 4, [⟨0, 32, .ro, 0⟩]⟩,
  ⟨0x060, 1, 4, [⟨0, 32, .ro, 0⟩]⟩,
  ⟨0x064, 1, 4, [⟨0, 8, .rw, 0⟩, ⟨8, 1, .rw, 0⟩]⟩,
  ⟨0x068, 1, 4, [⟨0, 32, .rw, 0⟩]⟩,
  ⟨0x06c, 1, 4, [⟨0, 4, .rwt, 2⟩, ⟨4, 4, .rwt, 2⟩, ⟨8, 4, .rwt, 1⟩, ⟨12, 4, .rwt, 2⟩, ⟨16, 4, .rwt, 0⟩]⟩]

/-- CMP page (R307, spec/09). -/
def cmpRegs : List RegSpec := [
  ⟨0x040, 1, 4, [⟨0, 1, .rw, 0⟩, ⟨1, 1, .wo, 0⟩]⟩,
  ⟨0x044, 1, 4, [⟨0, 16, .ro, 0⟩, ⟨16, 1, .ro, 0⟩]⟩,
  ⟨0x048, 1, 4, [⟨0, 16, .rws, 0xffff⟩]⟩,
  ⟨0x04c, 1, 4, [⟨0, 32, .ro, 0⟩]⟩,
  ⟨0x050, 1, 4, [⟨0, 32, .ro, 0⟩]⟩,
  ⟨0x054, 1, 4, [⟨0, 32, .ro, 0⟩]⟩,
  ⟨0x058, 1, 4, [⟨0, 32, .ro, 0⟩]⟩,
  ⟨0x05c, 1, 4, [⟨0, 32, .ro, 0⟩]⟩,
  ⟨0x060, 1, 4, [⟨0, 32, .ro, 0⟩]⟩,
  ⟨0x064, 1, 4, [⟨0, 32, .ro, 0⟩]⟩,
  ⟨0x068, 1, 4, [⟨0, 32, .ro, 0⟩]⟩,
  ⟨0x06c, 1, 4, [⟨0, 32, .ro, 0⟩]⟩,
  ⟨0x070, 1, 4, [⟨0, 32, .ro, 0⟩]⟩,
  ⟨0x074, 1, 4, [⟨0, 28, .ro, 0⟩, ⟨28, 4, .ro, 0⟩]⟩]

/-- CIPH page (R334, spec/10). -/
def ciphRegs : List RegSpec := [
  ⟨0x040, 1, 4, [⟨0, 1, .rw, 0⟩, ⟨1, 1, .rwt, 0⟩, ⟨2, 1, .wo, 0⟩]⟩,
  ⟨0x044, 1, 4, [⟨0, 8, .ro, 0⟩, ⟨8, 8, .ro, 0⟩, ⟨16, 1, .ro, 0⟩, ⟨17, 1, .ro, 0⟩]⟩,
  ⟨0x048, 1, 4, [⟨0, 8, .rws, 255⟩]⟩,
  ⟨0x04c, 1, 4, [⟨0, 8, .ro, 0⟩, ⟨8, 8, .ro, 0⟩, ⟨16, 8, .ro, 0⟩, ⟨24, 8, .ro, 0⟩]⟩,
  ⟨0x050, 1, 4, [⟨0, 32, .ro, 0⟩]⟩,
  ⟨0x054, 1, 4, [⟨0, 32, .ro, 0⟩]⟩,
  ⟨0x058, 1, 4, [⟨0, 32, .ro, 0⟩]⟩,
  ⟨0x05c, 1, 4, [⟨0, 32, .ro, 0⟩]⟩,
  ⟨0x060, 1, 4, [⟨0, 32, .ro, 0⟩]⟩,
  ⟨0x064, 1, 4, [⟨0, 32, .ro, 0⟩]⟩,
  ⟨0x068, 1, 4, [⟨0, 32, .ro, 0⟩]⟩,
  ⟨0x06c, 1, 4, [⟨0, 32, .ro, 0⟩]⟩,
  ⟨0x070, 1, 4, [⟨0, 32, .ro, 0⟩]⟩,
  ⟨0x074, 1, 4, [⟨0, 28, .ro, 0⟩]⟩]

/-- KEYS page (R335, spec/10). -/
def keysRegs : List RegSpec := [
  ⟨0x040, 1, 4, [⟨0, 11, .ro, 0⟩, ⟨16, 16, .ro, 0⟩]⟩,
  ⟨0x044, 1, 4, [⟨0, 10, .rw, 0⟩, ⟨10, 1, .rw, 0⟩]⟩,
  ⟨0x048, 1, 4, [⟨0, 2, .ro, 0⟩, ⟨8, 8, .ro, 0⟩]⟩,
  ⟨0x04c, 1, 4, [⟨0, 32, .ro, 0⟩]⟩,
  ⟨0x050, 1, 4, [⟨0, 32, .ro, 0⟩]⟩,
  ⟨0x054, 1, 4, [⟨0, 32, .ro, 0⟩]⟩,
  ⟨0x058, 1, 4, [⟨0, 32, .ro, 0⟩]⟩]

/-- DDR page (R372, spec/11). -/
def ddrRegs : List RegSpec := [
  ⟨0x040, 1, 4, [⟨0, 3, .ro, 0⟩, ⟨4, 8, .ro, 0⟩, ⟨12, 3, .ro, 0⟩]⟩,
  ⟨0x044, 1, 4, [⟨0, 4, .ro, 0⟩, ⟨4, 4, .ro, 0⟩, ⟨31, 1, .w1c, 0⟩]⟩,
  ⟨0x048, 1, 4, [⟨0, 7, .rw, 0⟩, ⟨7, 1, .rw, 0⟩]⟩,
  ⟨0x04c, 1, 4, [⟨0, 8, .ro, 0⟩]⟩,
  ⟨0x050, 1, 4, [⟨0, 32, .ro, 0⟩]⟩,
  ⟨0x054, 1, 4, [⟨0, 32, .ro, 0⟩]⟩,
  ⟨0x058, 1, 4, [⟨0, 32, .ro, 0⟩]⟩]

/-- MEMECC page (R373, spec/11). -/
def memeccRegs : List RegSpec := [
  ⟨0x040, 1, 4, [⟨0, 1, .rws, 0⟩, ⟨1, 2, .rws, 2⟩]⟩,
  ⟨0x044, 1, 4, [⟨0, 1, .rw, 0⟩, ⟨1, 1, .rwt, 1⟩, ⟨2, 1, .wo, 0⟩]⟩,
  ⟨0x048, 1, 4, [⟨0, 1, .ro, 0⟩, ⟨1, 1, .ro, 0⟩, ⟨2, 1, .ro, 0⟩, ⟨3, 1, .ro, 0⟩, ⟨4, 1, .w1c, 0⟩]⟩,
  ⟨0x04c, 1, 4, [⟨0, 23, .ro, 0⟩]⟩,
  ⟨0x050, 1, 4, [⟨0, 11, .rwt, 240⟩]⟩,
  ⟨0x054, 1, 4, [⟨0, 23, .ro, 0⟩]⟩,
  ⟨0x058, 1, 4, [⟨0, 32, .ro, 0⟩]⟩,
  ⟨0x05c, 1, 4, [⟨0, 32, .ro, 0⟩]⟩,
  ⟨0x060, 1, 4, [⟨0, 32, .ro, 0⟩]⟩,
  ⟨0x064, 1, 4, [⟨0, 32, .ro, 0⟩]⟩,
  ⟨0x068, 1, 4, [⟨0, 32, .ro, 0⟩]⟩,
  ⟨0x06c, 1, 4, [⟨0, 32, .ro, 0⟩]⟩,
  ⟨0x070, 1, 4, [⟨0, 32, .ro, 0⟩]⟩,
  ⟨0x074, 1, 4, [⟨0, 32, .ro, 0⟩]⟩,
  ⟨0x078, 1, 4, [⟨0, 32, .ro, 0⟩]⟩,
  ⟨0x07c, 1, 4, [⟨0, 32, .rw, 0⟩]⟩,
  ⟨0x080, 1, 4, [⟨0, 32, .ro, 0⟩]⟩,
  ⟨0x084, 1, 4, [⟨0, 12, .rw, 0⟩, ⟨12, 3, .rw, 0⟩, ⟨15, 1, .rw, 0⟩]⟩,
  ⟨0x088, 1, 4, [⟨0, 32, .ro, 0⟩]⟩,
  ⟨0x08c, 1, 4, [⟨0, 23, .wo, 0⟩]⟩,
  ⟨0x090, 1, 4, [⟨0, 23, .wo, 0⟩]⟩,
  ⟨0x094, 1, 4, [⟨0, 16, .ro, 0⟩, ⟨16, 16, .ro, 0⟩]⟩,
  ⟨0x098, 1, 4, [⟨0, 23, .ro, 0⟩]⟩,
  ⟨0x09c, 1, 4, [⟨0, 15, .rw, 0⟩, ⟨15, 1, .rw, 0⟩]⟩,
  ⟨0x0a0, 1, 4, [⟨0, 23, .ro, 0⟩, ⟨31, 1, .ro, 0⟩]⟩,
  ⟨0x0a4, 1, 4, [⟨0, 1, .rw, 0⟩, ⟨1, 1, .rw, 0⟩, ⟨2, 1, .wo, 0⟩, ⟨3, 1, .wo, 0⟩, ⟨4, 1, .wo, 0⟩, ⟨5, 9, .rw, 0⟩]⟩,
  ⟨0x0a8, 1, 4, [⟨0, 23, .rw, 0⟩, ⟨23, 7, .rw, 0⟩]⟩,
  ⟨0x0ac, 1, 4, [⟨0, 24, .rw, 0⟩]⟩,
  ⟨0x0b0, 1, 4, [⟨0, 24, .ro, 0⟩, ⟨24, 4, .ro, 0⟩, ⟨28, 1, .w1c, 0⟩]⟩,
  ⟨0x0c0, 8, 4, [⟨0, 32, .rw, 0⟩]⟩]

/-- SREP page (R374, spec/11). -/
def srepRegs : List RegSpec := [
  ⟨0x040, 1, 4, [⟨0, 1, .wo, 0⟩]⟩,
  ⟨0x044, 1, 4, [⟨0, 1, .ro, 0⟩, ⟨1, 10, .ro, 0⟩]⟩,
  ⟨0x048, 1, 4, [⟨0, 9, .rw, 0⟩, ⟨9, 1, .rw, 0⟩]⟩,
  ⟨0x04c, 1, 4, [⟨0, 32, .rws, 0⟩]⟩,
  ⟨0x050, 1, 4, [⟨0, 9, .ro, 0⟩, ⟨9, 3, .ro, 0⟩, ⟨31, 1, .w1c, 0⟩]⟩,
  ⟨0x054, 1, 4, [⟨0, 9, .rw, 0⟩]⟩,
  ⟨0x058, 1, 4, [⟨0, 3, .ro, 0⟩, ⟨3, 1, .ro, 0⟩, ⟨4, 3, .ro, 0⟩, ⟨7, 1, .ro, 0⟩]⟩,
  ⟨0x05c, 1, 4, [⟨0, 32, .ro, 0⟩]⟩,
  ⟨0x060, 1, 4, [⟨0, 7, .ro, 0⟩, ⟨16, 16, .ro, 0⟩]⟩,
  ⟨0x064, 1, 4, [⟨0, 6, .rw, 0⟩]⟩,
  ⟨0x068, 1, 4, [⟨0, 32, .ro, 0⟩]⟩]

/-- POOL page (R397, spec/12). -/
def poolRegs : List RegSpec := [
  ⟨0x040, 1, 4, [⟨0, 1, .rws, 0⟩]⟩,
  ⟨0x044, 1, 4, [⟨0, 1, .ro, 0⟩, ⟨1, 1, .ro, 0⟩, ⟨2, 1, .ro, 1⟩]⟩,
  ⟨0x048, 1, 4, [⟨0, 23, .ro, 0⟩]⟩,
  ⟨0x04c, 1, 4, [⟨0, 23, .ro, 0⟩]⟩,
  ⟨0x050, 1, 4, [⟨0, 13, .ro, 0⟩]⟩,
  ⟨0x054, 1, 4, [⟨0, 24, .ro, 0⟩]⟩,
  ⟨0x058, 1, 4, [⟨0, 3, .rw, 0⟩, ⟨3, 1, .rw, 0⟩, ⟨4, 1, .wo, 0⟩, ⟨5, 1, .wo, 0⟩, ⟨6, 9, .rw, 0⟩, ⟨15, 9, .rw, 0⟩]⟩,
  ⟨0x05c, 1, 4, [⟨0, 23, .rw, 0⟩]⟩,
  ⟨0x060, 1, 4, [⟨0, 1, .ro, 0⟩, ⟨1, 1, .w1c, 0⟩, ⟨4, 4, .ro, 0⟩, ⟨8, 8, .ro, 0⟩, ⟨16, 9, .ro, 0⟩]⟩,
  ⟨0x064, 1, 4, [⟨0, 23, .ro, 0⟩]⟩,
  ⟨0x068, 1, 4, [⟨0, 32, .ro, 0⟩]⟩,
  ⟨0x06c, 1, 4, [⟨0, 32, .ro, 0⟩]⟩,
  ⟨0x070, 1, 4, [⟨0, 32, .ro, 0⟩]⟩,
  ⟨0x074, 1, 4, [⟨0, 32, .ro, 0⟩]⟩,
  ⟨0x078, 1, 4, [⟨0, 32, .ro, 0⟩]⟩,
  ⟨0x07c, 1, 4, [⟨0, 32, .ro, 0⟩]⟩,
  ⟨0x080, 1, 4, [⟨0, 32, .ro, 0⟩]⟩,
  ⟨0x084, 1, 4, [⟨0, 32, .ro, 0⟩]⟩,
  ⟨0x088, 1, 4, [⟨0, 32, .ro, 0⟩]⟩,
  ⟨0x08c, 1, 4, [⟨0, 32, .ro, 0⟩]⟩,
  ⟨0x090, 1, 4, [⟨0, 23, .ro, 0⟩]⟩,
  ⟨0x094, 1, 4, [⟨0, 9, .ro, 0⟩, ⟨9, 9, .ro, 0⟩, ⟨18, 4, .ro, 0⟩, ⟨22, 1, .ro, 0⟩, ⟨31, 1, .w1c, 0⟩]⟩,
  ⟨0x098, 1, 4, [⟨0, 9, .ro, 0⟩]⟩]

/-- ACCT page (R396, spec/12). -/
def acctRegs : List RegSpec := [
  ⟨0x040, 1, 4, [⟨0, 9, .rw, 0⟩, ⟨9, 3, .rw, 0⟩, ⟨12, 1, .rw, 0⟩]⟩,
  ⟨0x044, 1, 4, [⟨0, 32, .rw, 0⟩]⟩,
  ⟨0x048, 1, 4, [⟨0, 9, .ro, 0⟩, ⟨9, 3, .ro, 0⟩, ⟨12, 3, .ro, 0⟩, ⟨31, 1, .w1c, 0⟩]⟩,
  ⟨0x04c, 1, 4, [⟨0, 24, .ro, 0⟩]⟩,
  ⟨0x050, 1, 4, [⟨0, 24, .ro, 0⟩]⟩]

/-- EPBX page (R432, spec/13). -/
def epbxRegs : List RegSpec := [
  ⟨0x040, 1, 4, [⟨0, 1, .wo, 0⟩, ⟨1, 1, .wo, 0⟩, ⟨2, 2, .rwt, 0⟩, ⟨4, 1, .rwt, 0⟩, ⟨8, 8, .rwt, 0⟩]⟩,
  ⟨0x044, 1, 4, [⟨0, 3, .ro, 1⟩, ⟨4, 2, .ro, 0⟩, ⟨6, 1, .ro, 0⟩, ⟨7, 1, .ro, 0⟩, ⟨8, 8, .ro, 0⟩, ⟨16, 8, .ro, 0⟩, ⟨24, 1, .w1c, 0⟩, ⟨25, 1, .w1c, 0⟩]⟩,
  ⟨0x048, 1, 4, [⟨0, 8, .ro, 0⟩]⟩,
  ⟨0x04c, 1, 4, [⟨0, 16, .ro, 0⟩]⟩,
  ⟨0x050, 1, 4, [⟨0, 12, .ro, 0⟩, ⟨16, 12, .ro, 0⟩]⟩,
  ⟨0x054, 1, 4, [⟨0, 12, .ro, 0⟩]⟩,
  ⟨0x058, 1, 4, [⟨0, 12, .ro, 0⟩]⟩,
  ⟨0x05c, 1, 4, [⟨0, 32, .ro, 0⟩]⟩,
  ⟨0x060, 1, 4, [⟨0, 32, .ro, 0⟩]⟩,
  ⟨0x064, 1, 4, [⟨0, 32, .ro, 0⟩]⟩,
  ⟨0x068, 1, 4, [⟨0, 32, .ro, 0⟩]⟩,
  ⟨0x06c, 1, 4, [⟨0, 32, .ro, 0⟩]⟩,
  ⟨0x070, 1, 4, [⟨0, 32, .ro, 0⟩]⟩,
  ⟨0x074, 1, 4, [⟨0, 32, .ro, 0⟩]⟩,
  ⟨0x078, 1, 4, [⟨0, 3, .ro, 0⟩, ⟨3, 1, .ro, 0⟩, ⟨8, 8, .ro, 0⟩, ⟨31, 1, .w1c, 0⟩]⟩,
  ⟨0x07c, 1, 4, [⟨0, 4, .ro, 0⟩, ⟨4, 8, .ro, 0⟩, ⟨12, 6, .ro, 0⟩, ⟨31, 1, .w1c, 0⟩]⟩,
  ⟨0x080, 1, 4, [⟨0, 32, .ro, 0⟩]⟩,
  ⟨0x084, 1, 4, [⟨0, 6, .rw, 0⟩, ⟨6, 2, .rw, 0⟩, ⟨8, 1, .rw, 0⟩]⟩,
  ⟨0x088, 1, 4, [⟨0, 16, .ro, 0⟩, ⟨16, 16, .ro, 0⟩]⟩,
  ⟨0x08c, 1, 4, [⟨0, 6, .rw, 0⟩]⟩,
  ⟨0x090, 1, 4, [⟨0, 16, .ro, 0⟩, ⟨16, 1, .ro, 0⟩]⟩,
  ⟨0x094, 1, 4, [⟨0, 32, .ro, 0⟩]⟩,
  ⟨0x098, 1, 4, [⟨0, 11, .ro, 0⟩, ⟨11, 9, .ro, 0⟩]⟩,
  ⟨0x09c, 1, 4, [⟨0, 32, .ro, 0⟩]⟩]

/-- QUE page (R469, spec/14). -/
def queRegs : List RegSpec := [
  ⟨0x040, 1, 4, [⟨0, 1, .rw, 0⟩]⟩,
  ⟨0x044, 1, 4, [⟨0, 1, .ro, 0⟩, ⟨1, 1, .ro, 0⟩, ⟨8, 9, .ro, 0⟩, ⟨24, 8, .ro, 0⟩]⟩,
  ⟨0x048, 1, 4, [⟨0, 16, .ro, 0⟩, ⟨16, 8, .ro, 0⟩]⟩,
  ⟨0x04c, 1, 4, [⟨0, 32, .ro, 0xffffffff⟩]⟩,
  ⟨0x050, 1, 4, [⟨0, 32, .ro, 0xffffffff⟩]⟩,
  ⟨0x054, 1, 4, [⟨0, 6, .rw, 0⟩]⟩,
  ⟨0x058, 1, 4, [⟨0, 5, .ro, 0⟩, ⟨5, 1, .ro, 0⟩, ⟨16, 16, .ro, 0⟩]⟩,
  ⟨0x05c, 1, 4, [⟨0, 32, .ro, 0⟩]⟩,
  ⟨0x060, 1, 4, [⟨0, 32, .ro, 0⟩]⟩,
  ⟨0x064, 1, 4, [⟨0, 32, .ro, 0⟩]⟩]

/-- TEN page (R470, spec/14). -/
def tenRegs : List RegSpec := [
  ⟨0x040, 1, 4, [⟨0, 9, .ro, 0⟩]⟩,
  ⟨0x044, 1, 4, [⟨0, 8, .rw, 0⟩, ⟨8, 3, .rw, 0⟩, ⟨11, 1, .rw, 0⟩]⟩,
  ⟨0x048, 1, 4, [⟨0, 32, .ro, 0⟩]⟩]

/-- METER page (R471, spec/14). -/
def meterRegs : List RegSpec := [
  ⟨0x040, 1, 4, [⟨0, 1, .ro, 0⟩, ⟨1, 1, .ro, 0⟩]⟩,
  ⟨0x044, 1, 4, [⟨0, 32, .ro, 0⟩]⟩,
  ⟨0x048, 1, 4, [⟨0, 32, .rw, 0⟩]⟩,
  ⟨0x04c, 1, 4, [⟨0, 32, .ro, 0⟩]⟩,
  ⟨0x050, 1, 4, [⟨0, 32, .ro, 0⟩]⟩]

/-- MOT page (R505, spec/15), part 1. -/
def motRegs1 : List RegSpec := [
  ⟨0x040, 1, 4, [⟨0, 1, .rw, 0⟩, ⟨1, 1, .rws, 0⟩, ⟨2, 1, .rws, 1⟩, ⟨3, 1, .rws, 1⟩, ⟨4, 3, .rwt, 0⟩]⟩,
  ⟨0x044, 1, 4, [⟨0, 1, .ro, 0⟩, ⟨1, 1, .ro, 1⟩, ⟨2, 3, .ro, 0⟩, ⟨5, 1, .ro, 0⟩, ⟨6, 1, .ro, 0⟩, ⟨7, 1, .ro, 0⟩, ⟨8, 1, .ro, 0⟩, ⟨9, 1, .ro, 0⟩, ⟨10, 1, .w1c, 0⟩]⟩,
  ⟨0x048, 1, 4, [⟨0, 8, .rws, 50⟩, ⟨8, 8, .rws, 120⟩, ⟨16, 8, .rws, 80⟩]⟩,
  ⟨0x04c, 1, 4, [⟨0, 4, .rws, 4⟩, ⟨16, 16, .rws, 0xbb8⟩]⟩,
  ⟨0x050, 1, 4, [⟨0, 16, .rws, 0⟩, ⟨16, 16, .rws, 0⟩]⟩,
  ⟨0x054, 1, 4, [⟨0, 20, .rws, 0⟩]⟩,
  ⟨0x058, 1, 4, [⟨0, 32, .rws, 0⟩]⟩,
  ⟨0x05c, 1, 4, [⟨0, 32, .rws, 0⟩]⟩,
  ⟨0x060, 1, 4, [⟨0, 5, .rws, 0⟩, ⟨8, 5, .rws, 0⟩]⟩,
  ⟨0x064, 1, 4, [⟨0, 16, .rws, 0⟩, ⟨16, 16, .rws, 0⟩]⟩,
  ⟨0x068, 1, 4, [⟨0, 16, .ro, 0⟩, ⟨16, 16, .ro, 0⟩]⟩,
  ⟨0x06c, 1, 4, [⟨0, 16, .ro, 0⟩, ⟨16, 16, .ro, 0⟩]⟩,
  ⟨0x070, 1, 4, [⟨0, 16, .ro, 0⟩, ⟨16, 16, .ro, 0⟩]⟩,
  ⟨0x074, 1, 4, [⟨0, 16, .ro, 0⟩, ⟨16, 16, .ro, 0⟩]⟩,
  ⟨0x078, 1, 4, [⟨0, 32, .ro, 0⟩]⟩,
  ⟨0x07c, 1, 4, [⟨0, 20, .ro, 0⟩]⟩,
  ⟨0x080, 1, 4, [⟨0, 16, .rws, 60⟩, ⟨16, 8, .rws, 50⟩, ⟨24, 8, .rws, 16⟩]⟩,
  ⟨0x084, 1, 4, [⟨0, 8, .ro, 0⟩, ⟨8, 8, .ro, 0⟩, ⟨16, 8, .ro, 0⟩]⟩,
  ⟨0x088, 1, 4, [⟨0, 16, .rws, 0⟩]⟩,
  ⟨0x08c, 1, 4, [⟨0, 3, .ro, 0⟩, ⟨3, 3, .ro, 7⟩, ⟨8, 8, .ro, 0⟩]⟩,
  ⟨0x090, 1, 4, [⟨0, 8, .rws, 30⟩, ⟨8, 8, .rws, 5⟩, ⟨16, 16, .rws, 500⟩]⟩,
  ⟨0x094, 1, 4, [⟨0, 32, .ro, 0⟩]⟩,
  ⟨0x098, 1, 4, [⟨0, 32, .ro, 0⟩]⟩,
  ⟨0x09c, 1, 4, [⟨0, 16, .ro, 0⟩]⟩,
  ⟨0x0a0, 1, 4, [⟨0, 12, .ro, 0⟩]⟩,
  ⟨0x0a4, 1, 4, [⟨0, 16, .rws, 0x1313⟩]⟩,
  ⟨0x0c0, 1, 4, [⟨0, 16, .ro, 0⟩]⟩,
  ⟨0x0c4, 1, 4, [⟨0, 16, .rws, 0x44aa⟩]⟩,
  ⟨0x0c8, 1, 4, [⟨0, 16, .rws, 0xdac0⟩, ⟨16, 16, .rws, 0xd2f0⟩]⟩,
  ⟨0x0cc, 1, 4, [⟨0, 16, .rws, 0x4e20⟩]⟩]

/-- MOT page (R505, spec/15), part 2. -/
def motRegs2 : List RegSpec := [
  ⟨0x0d0, 1, 4, [⟨0, 16, .rws, 200⟩, ⟨16, 8, .rws, 30⟩]⟩,
  ⟨0x0d4, 1, 4, [⟨0, 1, .ro, 0⟩, ⟨1, 1, .ro, 0⟩, ⟨2, 1, .ro, 0⟩, ⟨8, 8, .ro, 0⟩]⟩,
  ⟨0x0d8, 1, 4, [⟨0, 24, .rwt, 0⟩]⟩,
  ⟨0x0dc, 1, 4, [⟨0, 24, .ro, 0⟩]⟩,
  ⟨0x0e0, 1, 4, [⟨0, 32, .ro, 0⟩]⟩]

/-- All registers of the MOT page. -/
def motRegs : List RegSpec := motRegs1 ++ motRegs2

/-- ACT page (R541, spec/16). -/
def actRegs : List RegSpec := [
  ⟨0x040, 1, 4, [⟨0, 1, .rw, 0⟩, ⟨1, 1, .rw, 0⟩]⟩,
  ⟨0x044, 1, 4, [⟨0, 1, .ro, 1⟩, ⟨1, 1, .ro, 1⟩, ⟨2, 1, .ro, 0⟩, ⟨3, 1, .ro, 0⟩]⟩,
  ⟨0x048, 1, 4, [⟨0, 16, .ro, 0⟩, ⟨16, 16, .ro, 0⟩]⟩,
  ⟨0x04c, 1, 4, [⟨0, 16, .ro, 0⟩, ⟨16, 16, .ro, 0⟩]⟩,
  ⟨0x050, 1, 4, [⟨0, 16, .ro, 0⟩, ⟨16, 16, .ro, 0⟩]⟩,
  ⟨0x054, 1, 4, [⟨0, 16, .rws, 0x3e8⟩, ⟨16, 16, .rws, 0x3e8⟩]⟩,
  ⟨0x058, 1, 4, [⟨0, 16, .rws, 0x800⟩, ⟨16, 16, .rws, 0x800⟩]⟩,
  ⟨0x05c, 1, 4, [⟨0, 16, .rws, 0⟩, ⟨16, 16, .rws, 0⟩]⟩]

/-- ADC page (R507, spec/15). -/
def adcRegs : List RegSpec := [
  ⟨0x040, 1, 4, [⟨0, 1, .rw, 0⟩, ⟨1, 1, .rws, 0⟩]⟩,
  ⟨0x044, 1, 4, [⟨0, 1, .ro, 0⟩, ⟨1, 1, .ro, 0⟩]⟩,
  ⟨0x048, 1, 4, [⟨0, 4, .rw, 0⟩]⟩,
  ⟨0x04c, 1, 4, [⟨0, 12, .ro, 0⟩]⟩,
  ⟨0x050, 1, 4, [⟨0, 32, .ro, 0⟩]⟩]

/-- LOOP page (R539, spec/16), part 1. -/
def loopRegs1 : List RegSpec := [
  ⟨0x040, 1, 4, [⟨0, 1, .rw, 0⟩, ⟨16, 16, .wo, 0⟩]⟩,
  ⟨0x044, 1, 4, [⟨0, 16, .ro, 0⟩, ⟨16, 16, .ro, 0⟩]⟩,
  ⟨0x048, 1, 4, [⟨0, 1, .ro, 0⟩, ⟨1, 1, .ro, 0⟩, ⟨2, 1, .ro, 0⟩, ⟨3, 1, .ro, 0⟩, ⟨4, 1, .ro, 0⟩, ⟨5, 1, .ro, 0⟩]⟩,
  ⟨0x04c, 1, 4, [⟨0, 2, .rw, 0⟩, ⟨2, 1, .rw, 0⟩]⟩,
  ⟨0x050, 1, 4, [⟨0, 32, .rwt, 0⟩]⟩,
  ⟨0x054, 1, 4, [⟨0, 16, .rws, 0xbb8⟩, ⟨16, 16, .rws, 10⟩]⟩,
  ⟨0x058, 1, 4, [⟨0, 22, .ro, 0⟩, ⟨22, 1, .w1c, 0⟩, ⟨23, 1, .ro, 0⟩]⟩,
  ⟨0x05c, 1, 4, [⟨0, 32, .ro, 0⟩]⟩,
  ⟨0x060, 1, 4, [⟨0, 16, .ro, 0⟩]⟩,
  ⟨0x064, 1, 4, [⟨0, 1, .rws, 0⟩, ⟨1, 2, .rws, 0⟩, ⟨16, 16, .rws, 0⟩]⟩,
  ⟨0x068, 1, 4, [⟨0, 16, .rws, 0⟩, ⟨16, 16, .rws, 0⟩]⟩,
  ⟨0x06c, 1, 4, [⟨0, 16, .rws, 0⟩, ⟨16, 16, .rws, 0⟩]⟩,
  ⟨0x070, 1, 4, [⟨0, 16, .rws, 0⟩, ⟨16, 16, .rws, 0⟩]⟩,
  ⟨0x074, 1, 4, [⟨0, 20, .rws, 0⟩]⟩,
  ⟨0x078, 1, 4, [⟨0, 1, .rws, 0⟩, ⟨1, 1, .rws, 0⟩]⟩,
  ⟨0x07c, 1, 4, [⟨0, 16, .rwt, 0⟩]⟩,
  ⟨0x080, 1, 4, [⟨0, 16, .ro, 0⟩]⟩,
  ⟨0x084, 1, 4, [⟨0, 16, .rwt, 0⟩, ⟨16, 16, .ro, 0⟩]⟩,
  ⟨0x088, 1, 4, [⟨0, 32, .ro, 0⟩]⟩,
  ⟨0x08c, 1, 4, [⟨0, 32, .ro, 0⟩]⟩,
  ⟨0x090, 8, 4, [⟨0, 16, .ro, 0⟩, ⟨16, 1, .ro, 0⟩]⟩,
  ⟨0x0b0, 1, 4, [⟨0, 16, .ro, 0⟩, ⟨16, 16, .ro, 0⟩]⟩,
  ⟨0x0b4, 1, 4, [⟨0, 16, .ro, 0⟩, ⟨16, 1, .ro, 0⟩]⟩,
  ⟨0x0b8, 1, 4, [⟨0, 8, .rwt, 0⟩, ⟨8, 5, .rwt, 8⟩, ⟨13, 1, .rws, 0⟩, ⟨16, 16, .rwt, 0⟩]⟩,
  ⟨0x0bc, 1, 4, [⟨0, 16, .rws, 0⟩]⟩,
  ⟨0x0c0, 1, 4, [⟨0, 32, .ro, 0⟩]⟩,
  ⟨0x0c4, 1, 4, [⟨0, 32, .ro, 0⟩]⟩,
  ⟨0x0c8, 1, 4, [⟨0, 4, .rw, 0⟩, ⟨4, 2, .rw, 0⟩, ⟨6, 2, .rw, 0⟩, ⟨8, 1, .wo, 0⟩, ⟨9, 1, .wo, 0⟩, ⟨10, 1, .ro, 0⟩, ⟨11, 1, .w1c, 0⟩, ⟨16, 8, .rw, 1⟩]⟩,
  ⟨0x0cc, 1, 4, [⟨0, 32, .rw, 0⟩]⟩,
  ⟨0x0d0, 1, 4, [⟨0, 32, .rw, 0⟩]⟩]

/-- LOOP page (R539, spec/16), part 2. -/
def loopRegs2 : List RegSpec := [
  ⟨0x0d4, 1, 4, [⟨0, 32, .rw, 0⟩]⟩,
  ⟨0x0d8, 1, 4, [⟨0, 4, .rw, 0⟩, ⟨4, 7, .rw, 0⟩, ⟨11, 1, .rw, 0⟩, ⟨12, 1, .rw, 0⟩]⟩,
  ⟨0x0dc, 1, 4, [⟨0, 32, .rw, 0⟩]⟩]

/-- All registers of the LOOP page. -/
def loopRegs : List RegSpec := loopRegs1 ++ loopRegs2

/-- LCAP page (R542, spec/16). -/
def lcapRegs : List RegSpec := [
  ⟨0x040, 1, 4, [⟨0, 1, .wo, 0⟩, ⟨1, 1, .wo, 0⟩, ⟨2, 2, .rw, 0⟩, ⟨4, 1, .rw, 0⟩, ⟨8, 4, .rw, 0⟩, ⟨12, 8, .rw, 0⟩]⟩,
  ⟨0x044, 1, 4, [⟨0, 1, .ro, 0⟩, ⟨1, 1, .ro, 0⟩, ⟨2, 1, .w1c, 0⟩, ⟨16, 13, .ro, 0⟩]⟩,
  ⟨0x048, 1, 4, [⟨0, 13, .rw, 0⟩]⟩,
  ⟨0x04c, 1, 4, [⟨0, 32, .rw, 0⟩]⟩,
  ⟨0x050, 4, 4, [⟨0, 4, .rw, 0⟩, ⟨4, 4, .rw, 0⟩]⟩,
  ⟨0x060, 1, 4, [⟨0, 32, .ro, 0⟩]⟩,
  ⟨0x064, 1, 4, [⟨0, 32, .ro, 0⟩]⟩,
  ⟨0x068, 1, 4, [⟨0, 13, .rw, 0⟩, ⟨13, 2, .rw, 0⟩, ⟨15, 1, .rw, 0⟩]⟩,
  ⟨0x06c, 1, 4, [⟨0, 32, .ro, 0⟩]⟩]

/-- LREP page (R543, spec/16). -/
def lrepRegs : List RegSpec := [
  ⟨0x040, 1, 4, [⟨0, 1, .rwt, 0⟩, ⟨1, 1, .rwt, 0⟩, ⟨2, 1, .wo, 0⟩, ⟨3, 1, .wo, 0⟩]⟩,
  ⟨0x044, 1, 4, [⟨0, 16, .rwt, 0⟩, ⟨16, 5, .rwt, 0⟩, ⟨24, 5, .rwt, 0⟩]⟩,
  ⟨0x048, 1, 4, [⟨0, 5, .rwt, 0⟩]⟩,
  ⟨0x04c, 1, 4, [⟨0, 16, .rwt, 0⟩]⟩,
  ⟨0x050, 1, 4, [⟨0, 16, .rwt, 500⟩]⟩,
  ⟨0x054, 1, 4, [⟨0, 1, .ro, 1⟩, ⟨1, 1, .ro, 1⟩]⟩,
  ⟨0x058, 1, 4, [⟨0, 8, .rw, 0⟩, ⟨8, 1, .rw, 0⟩, ⟨9, 1, .rw, 0⟩]⟩,
  ⟨0x05c, 1, 4, [⟨0, 16, .rwt, 0⟩]⟩]

/-- CLU page (R24, spec/01). -/
def cluRegs : List RegSpec := [
  ⟨0x040, 1, 4, [⟨0, 1, .ro, 0⟩, ⟨1, 1, .ro, 0⟩, ⟨2, 4, .ro, 0⟩, ⟨6, 4, .ro, 0⟩]⟩,
  ⟨0x044, 1, 4, [⟨0, 32, .ro, 0⟩]⟩,
  ⟨0x048, 1, 4, [⟨0, 1, .ro, 0⟩, ⟨1, 1, .ro, 0⟩, ⟨2, 4, .ro, 0⟩]⟩]


end RegMap

/-- The header registers' fields (R607): PAGE_ID, PAGE_CAP and PAGE_SEAL are worked out from the page index. -/
def headerRegs : List RegSpec := [
  ⟨0x008, 1, 4, [⟨0, 1, .ro, 1⟩, ⟨1, 1, .ro, 0⟩, ⟨2, 1, .ro, 0⟩]⟩,
  ⟨0x00c, 1, 4, [⟨0, 1, .ro, 1⟩, ⟨1, 1, .ro, 0⟩, ⟨2, 1, .ro, 0⟩, ⟨3, 1, .w1c, 0⟩, ⟨4, 1, .w1c, 0⟩, ⟨5, 1, .ro, 0⟩]⟩,
  ⟨0x010, 1, 4, [⟨0, 32, .w1c, 0⟩]⟩,
  ⟨0x014, 1, 4, [⟨0, 32, .ro, 0⟩]⟩,
  ⟨0x018, 1, 4, [⟨0, 32, .wo, 0⟩]⟩,
  ⟨0x01c, 1, 4, [⟨0, 5, .ro, 0⟩, ⟨7, 1, .ro, 0⟩, ⟨8, 16, .ro, 0⟩, ⟨31, 1, .ro, 0⟩]⟩,
  ⟨0x020, 1, 4, [⟨0, 32, .ro, 0⟩]⟩,
  ⟨0x024, 1, 4, [⟨0, 32, .ro, 0⟩]⟩]

/-- What the page index (R618) and the event bit tables say of a page: type code, instance, fault unit (R25), the event bits its chapter
defines (R612), whether EN is writable, QUIESCE supported, STG/ACT pairs held (R616), windows held (R617), and its block registers. -/
structure PageInfo where
  ty      : Nat
  inst    : Nat
  unit    : Nat
  evts    : Nat
  enCtl   : Bool := false
  quiesce : Bool := false
  staged  : Bool := false
  windows : Bool := false
  regs    : List RegSpec
  deriving DecidableEq, Repr

/-- Bits `0` to `n - 1`: the event bits of a page that records its unit's causes 1 to `n` by number (R612). -/
def causeBits (n : Nat) : Nat := 2 ^ n - 1

/-- Bits 30 and 31, which every page has (R612). -/
def commonBits : Nat := 0xC0000000

/-- How many mailbox slots a mailbox page holds (R21). -/
def mailboxSlots (page : Nat) : Nat :=
  if page = 0x81 ∨ page = 0x82 then 1 else if page = 0x83 ∨ page = 0x88 then 4 else if 0x84 ≤ page ∧ page ≤ 0x87 then 8 else 0

/-- One mailbox slot's registers (R21), at its offset in the page. -/
def mailboxRegs (k : Nat) : List RegSpec := [
  ⟨0x100 + 0x100 * k, 1, 4, [⟨0, 16, .wo, 0⟩, ⟨16, 5, .wo, 0⟩, ⟨24, 8, .wo, 0⟩]⟩,
  ⟨0x104 + 0x100 * k, 1, 4, [⟨0, 1, .ro, 0⟩, ⟨1, 1, .w1c, 0⟩, ⟨2, 1, .w1c, 0⟩, ⟨8, 8, .ro, 0⟩, ⟨16, 8, .ro, 0⟩]⟩,
  ⟨0x108 + 0x100 * k, 1, 4, [⟨0, 32, .ro, 0⟩]⟩,
  ⟨0x110 + 0x100 * k, 16, 4, [⟨0, 32, .rw, 0⟩]⟩,
  ⟨0x150 + 0x100 * k, 16, 4, [⟨0, 32, .ro, 0⟩]⟩]

/-- The registers of a mailbox page: those of each of its slots. -/
def mailboxPageRegs (page : Nat) : List RegSpec := (List.range (mailboxSlots page)).flatMap mailboxRegs

open RegMap in
/-- The page index of R618; `none` on an unallocated page (R604). -/
def pageInfo (p : Nat) : Option PageInfo :=
  if p = 0x00 then some { ty := 0x01, inst := 0, unit := 0x0, evts := causeBits 3, regs := chipRegs }
  else if p = 0x01 then some { ty := 0x02, inst := 0, unit := 0x1, evts := causeBits 4, windows := true, regs := faultRegs }
  else if p = 0x02 then some { ty := 0x03, inst := 0, unit := 0x1, evts := causeBits 4, windows := true, regs := safeRegs }
  else if p = 0x03 then some { ty := 0x04, inst := 0, unit := 0x2, evts := 0xF, windows := true, regs := secRegs }
  else if p = 0x04 then some { ty := 0x05, inst := 0, unit := 0xF, evts := causeBits 9, regs := testRegs }
  else if p = 0x05 then some { ty := 0x06, inst := 0, unit := 0x0, evts := causeBits 3, regs := clkRegs }
  else if p = 0x06 then some { ty := 0x07, inst := 0, unit := 0x0, evts := causeBits 3, regs := pwrRegs }
  else if p = 0x08 then some { ty := 0x08, inst := 0, unit := 0x3, evts := 0x33F, regs := posRegs }
  else if 0x09 ≤ p ∧ p ≤ 0x11 then some { ty := 0x09, inst := p - 0x09, unit := 0x3, evts := causeBits 5, enCtl := true, staged := true, regs := servoRegs }
  else if p = 0x12 then some { ty := 0x0A, inst := 0, unit := 0x5, evts := causeBits 9, regs := fmtRegs }
  else if 0x14 ≤ p ∧ p ≤ 0x1B then some { ty := 0x0B, inst := p - 0x14, unit := 0x5, evts := 0x7F, quiesce := true, windows := true, regs := bseqRegs }
  else if 0x20 ≤ p ∧ p ≤ 0x3F then some { ty := 0x0C, inst := p - 0x20, unit := 0x4, evts := causeBits 5, regs := hfeRegs }
  else if 0x40 ≤ p ∧ p ≤ 0x47 then some { ty := 0x0D, inst := p - 0x40, unit := 0x6, evts := 0x1F, staged := true, windows := true, regs := rchRegs }
  else if p = 0x48 then some { ty := 0x0E, inst := 0, unit := 0x6, evts := causeBits 9, regs := ldpcRegs }
  else if p = 0x49 then some { ty := 0x0F, inst := 0, unit := 0x6, evts := causeBits 9, regs := outerRegs }
  else if p = 0x4A then some { ty := 0x10, inst := 0, unit := 0x7, evts := causeBits 13, regs := verifyRegs }
  else if p = 0x4B then some { ty := 0x11, inst := 0, unit := 0x7, evts := 0x1, quiesce := true, staged := true, windows := true, regs := calRegs }
  else if p = 0x4C then some { ty := 0x12, inst := 0, unit := 0x7, evts := causeBits 13, windows := true, regs := recovRegs }
  else if p = 0x50 then some { ty := 0x13, inst := 0, unit := 0x8, evts := 0x7, quiesce := true, regs := cmpRegs }
  else if p = 0x51 then some { ty := 0x14, inst := 0, unit := 0x9, evts := causeBits 7, quiesce := true, regs := ciphRegs }
  else if p = 0x52 then some { ty := 0x15, inst := 0, unit := 0x9, evts := causeBits 7, windows := true, regs := keysRegs }
  else if 0x58 ≤ p ∧ p ≤ 0x5B then some { ty := 0x16, inst := p - 0x58, unit := 0xA, evts := causeBits 12, regs := ddrRegs }
  else if p = 0x5C then some { ty := 0x17, inst := 0, unit := 0xA, evts := 0xF, windows := true, regs := memeccRegs }
  else if p = 0x5D then some { ty := 0x18, inst := 0, unit := 0xA, evts := causeBits 12, windows := true, regs := srepRegs }
  else if p = 0x60 then some { ty := 0x19, inst := 0, unit := 0xB, evts := 0xF, regs := poolRegs }
  else if p = 0x61 then some { ty := 0x1A, inst := 0, unit := 0xB, evts := 0x1, windows := true, regs := acctRegs }
  else if p = 0x68 then some { ty := 0x1B, inst := 0, unit := 0xC, evts := 0x3F, windows := true, regs := epbxRegs }
  else if p = 0x69 then some { ty := 0x1C, inst := 0, unit := 0xC, evts := causeBits 9, windows := true, regs := queRegs }
  else if p = 0x70 then some { ty := 0x1D, inst := 0, unit := 0xD, evts := causeBits 1, windows := true, regs := tenRegs }
  else if p = 0x71 then some { ty := 0x1E, inst := 0, unit := 0xD, evts := 0x7, regs := meterRegs }
  else if p = 0x78 then some { ty := 0x1F, inst := 0, unit := 0xE, evts := 0xFF, regs := motRegs }
  else if p = 0x79 then some { ty := 0x1F, inst := 1, unit := 0xE, evts := 0xDF, regs := motRegs.filter (fun r => r.off < 0x0C0) }
  else if p = 0x7A then some { ty := 0x20, inst := 0, unit := 0xE, evts := causeBits 19, regs := actRegs }
  else if p = 0x7B then some { ty := 0x21, inst := 0, unit := 0xE, evts := causeBits 19, windows := true, regs := adcRegs }
  else if p = 0x7C then some { ty := 0x22, inst := 0, unit := 0xE, evts := 0x1F, staged := true, windows := true, regs := loopRegs }
  else if p = 0x7D then some { ty := 0x23, inst := 0, unit := 0xE, evts := causeBits 19, enCtl := true, windows := true, regs := lcapRegs }
  else if p = 0x7E then some { ty := 0x24, inst := 0, unit := 0xE, evts := causeBits 19, enCtl := true, windows := true, regs := lrepRegs }
  else if p = 0x80 then some { ty := 0x25, inst := 0, unit := 0x0, evts := causeBits 3, regs := cluRegs }
  else if 0x81 ≤ p ∧ p ≤ 0x88 then
    some { ty := 0x26, inst := p - 0x81, unit := 0x0,
           evts := (2 ^ mailboxSlots p - 1) + 256 * (2 ^ mailboxSlots p - 1), regs := mailboxPageRegs p }
  else none

/-- The event bits a page defines, bits 30 and 31 included (R612): the reset value of EVT_ENABLE and the bits EVT_FORCE answers to. -/
def definedEvents (p : Nat) : Nat :=
  match pageInfo p with
  | some i => i.evts ||| commonBits
  | none => 0

/-- Whether a register specification covers byte offset `off` of its page. -/
def RegSpec.covers (r : RegSpec) (off : Nat) : Bool :=
  r.off ≤ off && off < r.off + r.count * r.stride && (off - r.off) % r.stride == 0

/-- The fields at byte offset `off` of a list of registers; none on a reserved word. -/
def fieldsIn (rs : List RegSpec) (off : Nat) : List FieldSpec :=
  match rs with
  | [] => []
  | r :: t => if r.covers off then r.fields else fieldsIn t off

/-- The fields of a word of register space (R605): the page header's from 0x000, the block's from 0x040; none where nothing is. -/
def fieldsAt (addr : Nat) : List FieldSpec :=
  match pageInfo (addr / 0x1000) with
  | none => []
  | some i => if addr % 0x1000 < 0x40 then fieldsIn headerRegs (addr % 0x1000) else fieldsIn i.regs (addr % 0x1000)

/-- How many digest records a page contributes (R585, R611): one for the header where EN is RWS, one for each register with an RWS field,
and for the soft repair list's window its 512 entries in place of the window register. -/
def digestRecords (p : Nat) : Nat :=
  match pageInfo p with
  | none => 0
  | some i =>
    (if i.enCtl then 1 else 0)
      + (i.regs.filter fun r => r.fields.any fun f => f.acc == .rws).foldl (fun a r => a + (if p = 0x5D ∧ r.off = 0x04C then 512 else r.count)) 0

/-- The value of a list of fields at reset: reserved bits are zero. -/
def resetOf (fs : List FieldSpec) : Nat := fs.foldl (fun a f => a + (f.reset % 2 ^ f.width) * 2 ^ f.lo) 0

/-- The reset value of a word of register space, the header's per-page values included (R607, R618). -/
def resetWord (addr : Nat) : Word :=
  match pageInfo (addr / 0x1000) with
  | none => 0
  | some i =>
    let p := addr / 0x1000
    let off := addr % 0x1000
    if off = 0x000 then BitVec.ofNat 32 (i.ty + i.inst * 2 ^ 8 + 2 ^ 16 + p * 2 ^ 20)
    else if off = 0x004 then
      BitVec.ofNat 32 (1 + (if i.staged then 2 else 0) + (if i.windows then 4 else 0) + (if i.enCtl then 8 else 0) + (if i.quiesce then 16 else 0))
    else if off = 0x014 then BitVec.ofNat 32 (i.evts ||| commonBits)
    else if off = 0x028 then BitVec.ofNat 32 ((if digestRecords p = 0 then 0 else 1) + digestRecords p * 2 ^ 16)
    else BitVec.ofNat 32 (resetOf (if off < 0x40 then fieldsIn headerRegs off else fieldsIn i.regs off))

end Sys2Proof.Machine
end

