-- ==== Sys2Proof/Machine/State.lean ====
section
/-!
DEFINITION. The state of the formatter, as plain data: the registers (one home for each, by word address), and beside them every piece of
state the spec gives the part that no register field holds. Queue of commands waiting, first in, first out. State.reset is the part with
PORST_N low and the rails in range, as the spec leaves it before PORST_N rises.
-/
namespace Sys2Proof.Machine

/-- Reasons a step could stop with a fault. No meaning raises one: the spec gives every command an effect or none at all. The constructor
stands for the day a rule calls for one; stopping would be safe. -/
inductive Fault where
  /-- Raised by nothing. Safe. -/
  | unraised
  deriving DecidableEq, Repr

/-- Reasons a command could be refused. -/
inductive Refusal where
  /-- A command of the table that has no meaning yet; raised by Dispatch alone. Safe. -/
  | notModelled (mnemonic : String)
  deriving DecidableEq, Repr

/-! ## Events and faults (R53, R421, R560–R562, R591) -/

/-- A position stamp (R53): the frame number, and tick, pass, COARSE and STALE. -/
structure Stamp where
  lo : Nat := 0
  hi : Nat := 0x200000
  deriving DecidableEq, Repr

/-- An EVENT packet as it waits in the event FIFO (R421, R425). -/
structure EventPkt where
  page    : Nat
  bit     : Nat
  fault   : Nat
  account : Nat
  stamp   : Stamp
  data    : Nat
  eseq    : Nat
  deriving DecidableEq, Repr

/-- A fault record on its way to SVC3 (R560–R562): its code, owning account (0x1FF if none), stamp, data, page and event bit. -/
structure FaultRec where
  code    : Nat
  account : Nat
  stamp   : Stamp
  data    : Nat
  page    : Nat
  bit     : Nat
  deriving DecidableEq, Repr

/-- An entry of the fault log (R562). -/
structure FaultEntry where
  seq : Nat
  flt : FaultRec
  deriving DecidableEq, Repr

/-- The fault manager and the event FIFO (R425, R560–R562, R591, R612). -/
structure EvtSt where
  /-- Number of the next EVENT packet built since PORST_N (R612). -/
  eseq      : Nat := 0
  /-- EVENT packets waiting, oldest first, at most 256 (R425). -/
  fifo      : List EventPkt := []
  /-- Fault FIFO, oldest first, at most 64 (R560). -/
  faultFifo : List FaultRec := []
  /-- The fault SVC3 handles, then those it pre-empted, innermost first (R560). -/
  handling  : List FaultRec := []
  /-- SAFETY buffer, oldest first, at most 8 (R561). -/
  safetyBuf : List FaultRec := []
  /-- Causes that only PORST_N clears, of those that have brought a safe state since PORST_N, latest first (R555, R556, R558). -/
  latched   : List Nat := []
  /-- The fault log ring, by ring index (R562). -/
  log       : Tbl FaultEntry := []
  /-- SEC faults held until SVC3 runs, at most 8 (R591). -/
  secHeld   : List FaultRec := []
  deriving DecidableEq, Repr

/-! ## Cores, mailboxes, internal FIFOs (R10, R17–R24) -/

/-- A mailbox request in progress (R22): what the write to MB_CMD latched. -/
structure MbReq where
  opcode : Nat
  args   : Nat
  tag    : Nat
  arg    : List Word
  deriving DecidableEq, Repr

/-- An internal FIFO of 2^n entries (R17, R18): its pointers of n + 1 bits, its producer's tokens, and what it holds, oldest first, each
word with its W-code (R13). -/
structure FifoSt where
  n       : Nat := 4
  wr      : Nat := 0
  rd      : Nat := 0
  tokens  : Nat := 16
  entries : List (Word256 × Chk) := []
  deriving DecidableEq, Repr

/-- Core cluster state that no register holds. -/
structure CoreSt where
  /-- Mailbox requests in progress, by page × 16 + slot (R22). -/
  mailbox : Tbl MbReq := []
  /-- The internal FIFOs, by number (R17). -/
  fifos   : Tbl FifoSt := []
  /-- Words corrected at transport hops, by the receiving block's page (R13). -/
  hopCe   : Tbl Nat := []
  deriving DecidableEq, Repr



/-! ## Position and servo (R33–R57) -/

/-- What SERVOn keeps of one reader beyond its registers (R39–R43). -/
structure RdSt where
  /-- A valid identity has been decoded since PORST_N. -/
  hasStripe : Bool := false
  /-- A lateral position has been computed since PORST_N. -/
  hasLat    : Bool := false
  /-- The last computed position was held back as a jump (R42). -/
  held      : Bool := false
  /-- Frames since the last valid identity, saturating at 255 (R43). -/
  sinceId   : Nat := 255
  /-- Amplitude of the clock tone in the last frame (R43). -/
  amp       : Nat := 0
  /-- The last frame gave a lateral position (R41). -/
  latOk     : Bool := false
  /-- That position counts for the servo gains: not held, and |pab| at most 0.5; the position of the frame before, if it counted (R236). -/
  counts    : Bool := false
  past      : Option Int := none
  deriving DecidableEq, Repr

/-- The position unit beyond its registers. -/
structure PosSt where
  /-- Frame and tick of the position count (R44). -/
  frame      : Nat := 0
  tick       : Nat := 0
  /-- The count's place within its tick, in 1/48,828,125 tick: 40 ns at 1 µm/s is 32 of them (R44). -/
  sub        : Nat := 0
  /-- POS has locked since PORST_N (R615). -/
  everLocked : Bool := false
  /-- Valid frame numbers of this frame's identities (R46). -/
  votes      : List Nat := []
  /-- Some reader has delivered a valid identity in this frame (R79). -/
  anyId      : Bool := false
  /-- What the majority of identities last seen makes of the frame number now, and how many consecutive frames have disagreed with the count
  (R46). -/
  majority   : Option Nat := none
  disagree   : Nat := 0
  /-- Consecutive frames without a valid identity from any reader (R79). -/
  noId       : Nat := 0
  /-- CMD has retried once after POS_LOCK_FAIL (R49). -/
  retried    : Bool := false
  /-- A reposition 100 frames back is due to that retry (R49). -/
  retryFrame : Option Nat := none
  /-- Frames counted coarsely above 0.3 m/s since COARSE was set or POS_LOCK_FAIL was raised (R49). -/
  coarseRun  : Nat := 0
  /-- The PLL: mean phase error of the readers that feed it in 2^−8 tick, the clock cycle last judged, clock cycles in a row with an error
  beyond 16 ticks and with too few qualified readers, this frame's sum of squared errors with its count, and those of the last 16 frames,
  newest first (R44, R45). -/
  err        : Int := 0
  cycle      : Nat := 0
  bad        : Nat := 0
  short      : Nat := 0
  sq         : Nat × Nat := (0, 0)
  sqHist     : List (Nat × Nat) := []
  /-- Readers, by 2 × band + reader. -/
  readers    : Tbl RdSt := []
  /-- Servo links: the sample counter expected next, none before the first burst (R70). -/
  expect     : Tbl Nat := []
  /-- Servo links: the samples of the last burst used, block k those of band k; empty when it was discarded (R69, R70). -/
  samples    : Tbl (List (BitVec 64)) := []
  deriving DecidableEq, Repr

/-! ## Carriage links (R58–R79) -/

/-- A management request outstanding or waiting for a token (R71, R72). -/
structure MgmtReq where
  tag   : Nat
  write : Bool
  addr  : Nat
  data  : Nat
  tries : Nat
  deriving DecidableEq, Repr

/-- What waits to be sent to a head front end, in the order issued (R75): a management request, or an APPLY block. -/
inductive HItem where
  | req (r : MgmtReq)
  | apply (block : BitVec 64)
  deriving DecidableEq, Repr

/-- The last burst of an uplink: its SEQ, and the place at which the next one begins (R66, R67). -/
structure UpPlace where
  seq   : Nat
  frame : Nat
  bit   : Nat
  deriving DecidableEq, Repr

/-- One head front end as the formatter sees it. -/
structure HfeSt where
  /-- Management requests outstanding, oldest first, at most 8 (R72). -/
  out      : List MgmtReq := []
  /-- Requests that wait for a management token, and APPLY blocks behind them, oldest first (R72, R75). -/
  wait     : List HItem := []
  /-- Tag of the next new request. -/
  nextTag  : Nat := 0
  /-- Sequence number of the next APPLY that no square names (R74, R173). -/
  applySeq : Nat := 0
  /-- Management and APPLY blocks issued and not yet launched, oldest first (R75). -/
  blocks   : List (BitVec 64) := []
  /-- The blocks of the last launch: what was issued, then the burst (R61). -/
  launched : List (BitVec 64) := []
  /-- Where the next downlink burst begins: frame and bit; none before the first (R61, R173). -/
  nextAt   : Option (Nat × Nat) := none
  /-- The downlink's scrambler, and the line blocks last sent: sync header in bits [1:0], scrambled payload above it (R59). -/
  scr      : Nat := 0
  line     : List (BitVec 66) := []
  /-- The last uplink burst of each module; none after a link start (R67). -/
  last0    : Option UpPlace := none
  last1    : Option UpPlace := none
  deriving DecidableEq, Repr

/-- The carriage and servo links. -/
structure LinkSt where
  /-- Training attempts made in a row: link 3n + l of HFE n (0 down, 1 and 2 the uplinks), 96 + r for servo link r (R77). -/
  attempts : Tbl Nat := []
  hfe      : Tbl HfeSt := []
  deriving DecidableEq, Repr

/-! ## Queues, commands, tenants, meters (R418–R471) -/

/-- What stands in a command queue: a descriptor of 64 bytes, or a MINUTE with its minute number (R420, R435). -/
inductive QBody where
  | cmd (desc : List Byte)
  | minute (n : Nat)
  deriving DecidableEq, Repr

/-- A queue entry: the minute bracket it entered in (stream queue), its place in the count of stream commands accepted, and the DATA_OUT
bytes received for it (R426, R457, R466). -/
structure QEntry where
  body    : QBody
  bracket : Nat := 0
  seq     : Nat := 0
  data    : List Byte := []
  /-- A descriptor with this TAG was incomplete when this one entered (R436). -/
  dupTag  : Bool := false
  deriving DecidableEq, Repr

/-- How far an executing command has come. -/
inductive Phase where
  /-- Checked, awaiting its DATA_OUT. -/
  | data
  /-- The closure of R441 has been made; settlement is awaited. -/
  | settling
  /-- Its own work is under way. -/
  | work
  /-- Its DATA_IN is being sent. -/
  | sending
  deriving DecidableEq, Repr

/-- The granule that a READ is opening (R324, R331, R332): the bytes of its parts, where the next granule begins, the data sets that hold it,
the key slot chosen, whether it is served in cut-through, whether its decryption has begun, and the verdict on its tag. -/
structure RdGran where
  gsn    : Nat
  first  : Nat
  header : List Byte
  map    : List Byte
  body   : List Byte
  tag    : List Byte
  next   : Nat × Nat
  dsns   : List Nat
  slot   : Option Nat := none
  cut    : Bool := false
  begun  : Bool := false
  auth   : Option Bool := none
  deriving DecidableEq, Repr

/-- An executing command. -/
structure ExecSt where
  entry     : QEntry
  phase     : Phase
  /-- Status that it will complete with, once its DATA_IN has been sent. -/
  status    : Nat := 0
  record    : Nat := 0
  count     : Nat := 0
  bytes     : Nat := 0
  detail    : Nat := 0
  /-- The DATA_IN bytes delivered so far. -/
  sent      : Nat := 0
  /-- A data set it reads needed the recovery ladder (R274). -/
  recovered : Bool := false
  /-- How far its own work has come, in the order of its rule; the data sets it has already considered (R113, R278); CIPHER: the
  pages its lists name, the source first (R314). -/
  step      : Nat := 0
  seen      : List Nat := []
  /-- READ: where the next granule begins, as the DSN of its data set and a payload offset; the granule being opened. -/
  cursor    : Option (Nat × Nat) := none
  rd        : Option RdGran := none
  /-- READ: one above the GSN of the last granule header met (R98). -/
  hdr       : Nat := 0
  /-- READ: bytes of a record whose end has not come (held until then), or how many bytes of it have gone out in cut-through (R331, R332). -/
  part      : List Byte := []
  partOfs   : Nat := 0
  /-- READ in cut-through: the last record of which bytes of the granule being opened have gone out, if any (R332). -/
  lastOut   : Option Nat := none
  /-- READ: for each granule begun, its GSN, its FIRST_RECORD, and the records and bytes delivered before it (R360). -/
  marks     : List (Nat × Nat × Nat × Nat) := []
  /-- A RETRACT due before the completion: first and last record, reason (R332, R428). -/
  retract   : Option (Nat × Nat × Nat) := none
  /-- READ: records and bytes delivered of granules before the one being opened (R451). -/
  safeCount : Nat := 0
  safeBytes : Nat := 0
  /-- REFRESH: the pairs of OLD_DSN and NEW_DSN written (R277). -/
  pairs     : List (Nat × Nat) := []
  /-- READ: the granule and the record that the last DATA_IN sent carried bytes of (R360). -/
  sentLast  : Option (Nat × Nat) := none
  /-- READ: granules whose plaintext was lost in the buffer (R359). -/
  lostGrans : List Nat := []
  deriving DecidableEq, Repr

/-- A COMPL or a RETRACT in the completion FIFO (R421, R425, R447). -/
inductive OutPkt where
  | compl (queue tag status record count bytes detail : Nat)
  | retract (queue tag first last reason : Nat)
  deriving DecidableEq, Repr

/-- A DATA_IN packet waiting for its token (R421, R427): bytes of one record, the granule that its last byte came from, and whether a word among
them is poisoned (R360). -/
structure DinPkt where
  queue  : Nat
  tag    : Nat
  offset : Nat
  recOfs : Nat
  recno  : Nat
  bytes  : List Byte
  recEnd : Bool
  gsn    : Nat := 0
  poison : Bool := false
  deriving DecidableEq, Repr

/-- A side queue (R444). -/
structure SideQ where
  queue : List QEntry := []
  exec  : Option ExecSt := none
  deriving DecidableEq, Repr

/-- The stream queue, the side queues and what leaves them. -/
structure QueSt where
  stream  : List QEntry := []
  exec    : Option ExecSt := none
  /-- The status that started the halt, and the fault code behind it (R442, R447). -/
  halt    : Option Nat := none
  haltDet : Nat := 0
  /-- A loss against a command already completed: status, first lost record, detail (R443). -/
  loss    : Option (Nat × Nat × Nat) := none
  sides   : Tbl SideQ := []
  /-- Completion FIFO, oldest first, at most 1,024 (R425). -/
  out     : List OutPkt := []
  /-- DATA_IN packets waiting, oldest first. -/
  din     : List DinPkt := []
  /-- Stream commands accepted since PORST_N (R466). -/
  cmdSeq  : Nat := 0
  deriving DecidableEq, Repr

/-- Usage of one session in one bracket (R458, R460). -/
structure Usage where
  wrPlain    : Nat := 0
  wrTape     : Nat := 0
  wrRecords  : Nat := 0
  wrGranules : Nat := 0
  rdPlain    : Nat := 0
  rdRecords  : Nat := 0
  filemarks  : Nat := 0
  commands   : Nat := 0
  deriving DecidableEq, Repr

/-- A minute bracket (R457, R461): its name, whether the next MINUTE has entered, its usage by session, the commands that name no tenant,
and how many of its commands have not completed. -/
structure Bracket where
  idx      : Nat
  name     : Nat
  closed   : Bool := false
  use      : Tbl Usage := []
  noTenant : Nat := 0
  live     : Nat := 0
  deriving DecidableEq, Repr

/-- A tenant session (R461). -/
structure Session where
  id  : Nat
  ctx : Nat
  tag : Nat
  deriving DecidableEq, Repr

/-- The meters. -/
structure MtrSt where
  /-- Brackets not yet logged, oldest first; the last is the one that entries now entering join. -/
  brackets : List Bracket := [{ idx := 0, name := 0xFFFFFFFFFFFFFFFF }]
  nextIdx  : Nat := 1
  sessions : List Session := []
  nextSess : Nat := 0
  /-- The meter log: 64-byte records by ring index (R462). -/
  log      : Tbl (List Byte) := []
  deriving DecidableEq, Repr

/-- A tenant's chain and the counts that go with it (R464–R466). -/
structure Chain where
  h       : List Byte := List.replicate 64 0
  first   : Nat := 0xFFFFFFFFFFFFFFFF
  last    : Nat := 0xFFFFFFFFFFFFFFFF
  grans   : Nat := 0
  plain   : Nat := 0
  tape    : Nat := 0
  records : Nat := 0
  deriving DecidableEq, Repr

/-- A tenant context (R453): 0 CLOSED, 1 OPEN, 2 CLOSING. -/
structure Tenant where
  state   : Nat := 0
  tag     : Nat := 0
  rcptNo  : Nat := 0
  session : Nat := 0
  chain   : Chain := {}
  /-- The chain after the last granule that the last settled end-of-data map closes (R465). -/
  eod     : Chain := {}
  /-- The chain after each later granule, by GSN, oldest first (R465). -/
  hist    : List (Nat × Chain) := []
  deriving DecidableEq, Repr

/-! ## Granules, data sets, volume (R80–R116, R286–R289, R253–R282) -/

/-- How far a granule has come in the write flow. -/
inductive GStage where
  | cut | compressed | requested | sealed | packed
  deriving DecidableEq, Repr

/-- A granule in the write flow (R100, R286, R637). -/
structure Gran where
  gsn       : Nat := 0
  filemark  : Bool := false
  tenant    : Nat := 0
  session   : Nat := 0
  tenantTag : Nat := 0
  slot      : Nat := 0
  keyTag    : Nat := 0
  profile   : Nat := 0
  enc       : Bool := false
  nonce     : Nat := 0
  startsMid : Bool := false
  endsMid   : Bool := false
  records   : Nat := 0
  first     : Nat := 0
  /-- Pieces of records, in order (R637). -/
  pieces    : List Nat := []
  plain     : List Byte := []
  /-- Plaintext bytes by bracket, in order of arrival (R459). -/
  shares    : List (Nat × Nat) := []
  /-- Bracket of the last record or filemark (R458). -/
  bracket   : Nat := 0
  stage     : GStage := .cut
  /-- The PGC body, then the ciphertext once sealed. -/
  body      : List Byte := []
  tag       : List Byte := []
  /-- The compressor's first decompress-verify of it failed (R302). -/
  dvRetry   : Bool := false
  /-- The data set that holds its last byte, once packed. -/
  dsn       : Nat := 0
  deriving DecidableEq, Repr

/-- What a data set is (R98, R102–R105). -/
inductive DsKind where
  | payload
  | c3
  | eodMap
  | reloc (old : Nat)
  deriving DecidableEq, Repr

/-- A rewritten row placed in an extension slot (R260, R261): track, ordinal, data set, row, rewrite count, and the track that failed. -/
structure ExtRow where
  t     : Nat
  e     : Nat
  m     : Nat
  g     : Nat
  rewr  : Nat
  tFail : Nat
  deriving DecidableEq, Repr

/-- A mount entry (R110). -/
structure Mount where
  nonce    : Nat
  firstDsn : Nat
  endDsn   : Nat
  firstGsn : Nat
  endGsn   : Nat
  deriving DecidableEq, Repr

/-- A volume map (R109). -/
structure VolMap where
  copy     : Nat := 0
  dirty    : Bool := false
  gen      : Nat := 0
  volumeId : List Byte := []
  mounts   : List Mount := []
  relocs   : List (Nat × Nat) := []
  uaEnd    : Nat := 0
  eodDsn   : Nat := 0
  eodFrame : Nat := 0
  eodPass  : Nat := 0
  nextGsn  : Nat := 0
  /-- A map read from tape whose reserved bytes are not zero: its bytes 0 to MAP_LEN − 1 with COPY zero (R111); empty otherwise. -/
  odd      : List Byte := []
  deriving DecidableEq, Repr

/-- A data set of the write flow. -/
structure DataSet where
  dsn       : Nat
  kind      : DsKind := .payload
  pass      : Nat := 0
  origin    : Nat := 0
  /-- Granule stream from payload offset 0x200 (R99), or the whole payload of a C3 or relocated data set. -/
  stream    : List Byte := []
  contBytes : Nat := 0
  granCount : Nat := 0
  firstGran : Nat := 0xFFFFFFFF
  firstGsn  : Nat := 0
  recBefore : Nat := 0
  fmBefore  : Nat := 0
  /-- No more granules go into it: full, or closed with zero fill (R102). -/
  closed    : Bool := false
  /-- The volume map that an end-of-data map data set carries (R104). -/
  map       : Option VolMap := none
  /-- Its payload with DSIT and CRCs, once ready (R180). -/
  payload   : List Byte := []
  ready     : Bool := false
  compiled  : Bool := false
  begun     : Bool := false
  /-- Its DS_START mark has acted (R155). -/
  marked    : Bool := false
  /-- Bands whose board of it has come to its END with NEXT = 1. -/
  ended     : List Nat := []
  k         : Nat := 0
  ext       : List ExtRow := []
  /-- Rows of it that have passed verify, and that are abandoned (R257, R262). -/
  passed    : List Nat := []
  abandoned : List Nat := []
  /-- Rows failing under reason 0x5, rewrites included (R256). -/
  miscomp   : Nat := 0
  /-- Compiled with verify windows for its rows (R638). -/
  verify    : Bool := true
  /-- Main slots whose verify outcome is final: rows seen; and how many outcomes its extension slots have had (R258). -/
  seen      : List Nat := []
  extSeen   : Nat := 0
  storms    : Nat := 0
  settled   : Bool := false
  deriving DecidableEq, Repr

/-- A queued rewrite (R257). -/
structure RwRow where
  m     : Nat
  g     : Nat
  tFail : Nat
  rewr  : Nat
  deriving DecidableEq, Repr

/-- The mounted cartridge (R111–R113, R279–R282, R448). -/
structure VolSt where
  loaded    : Bool := false
  blank     : Bool := false
  nonce     : Option Nat := none
  /-- The mount has made its DIRTY update (R112); the next write makes one again, after SELECT_MAP (R280); the mount has issued a GSN (R101). -/
  wrote     : Bool := false
  dirtyDue  : Bool := false
  issued    : Bool := false
  map       : Option VolMap := none
  /-- Valid housekeeping copies on tape, by COPY, and the end-of-data map read most recently (R280). -/
  copies    : List VolMap := []
  eodMap    : Option VolMap := none
  conflict  : Bool := false
  /-- Highest GENERATION read or written in the mount (R112). -/
  highGen   : Nat := 0
  /-- End of data by the last settled end-of-data map: next DSN, its frame and pass; records, filemarks and granule headers before it. nextGsn is
  the counter of GSNs, which never goes back within a mount (R101). -/
  eodDsn    : Nat := 0
  eodFrame  : Nat := 100000
  eodPass   : Nat := 0
  nextGsn   : Nat := 0
  records   : Nat := 0
  filemarks : Nat := 0
  eodHdr    : Nat := 0
  /-- Logical position: the next record and how many filemarks precede it (R451, R452). -/
  posRecord : Nat := 0
  posFm     : Nat := 0
  atEod     : Bool := true
  /-- records, filemarks and eodHdr are known: the end-of-data map's own data set has been read or written (R98). -/
  eodKnown  : Bool := true
  deriving DecidableEq, Repr

/-- The write flow from granules to tape. -/
structure FmtSt where
  /-- The open granule (R286). -/
  openGran  : Option Gran := none
  /-- Granules cut and not yet settled on tape, in GSN order. -/
  grans     : List Gran := []
  /-- Data sets not yet released, in DSN order (R265). -/
  sets      : List DataSet := []
  /-- Base DSN of the open wrap group, if one is open, and the pass it runs on (R85, R102). -/
  group     : Option Nat := none
  /-- Payloads that the C3 parity of unfinished groups has taken, by DSN (R103). -/
  c3Data    : Tbl (List Byte) := []
  /-- DSN of the next data set to be opened (R102). -/
  nextDsn   : Nat := 0
  /-- Records and filemarks whose granules are packed, and one above the GSN of the last granule header packed (R98). -/
  recDone   : Nat := 0
  fmDone    : Nat := 0
  hdrGsn    : Nat := 0
  /-- A command has called for the closure of R102, made once every accepted granule is packed (R441). -/
  closeReq  : Bool := false
  /-- Frame and pass of the next data set. -/
  nextFrame : Nat := 100000
  nextPass  : Nat := 0
  /-- The rewrite queue, in the order entered (R257). -/
  rewrite   : List RwRow := []
  /-- A write run is in progress, and the data set being written (R161, R182). -/
  running   : Bool := false
  writing   : Option Nat := none
  /-- The data set at whose origin the boards start once the tape has been repositioned, and the run-up frame that the tape is being taken to (R162,
  R182). -/
  repos     : Option Nat := none
  runup     : Option Nat := none
  /-- The board of the data set was refused once already (R165). -/
  refused   : Option Nat := none
  /-- A closure that ends the volume with this status and detail, once settled (R85, R268). -/
  ending    : Option (Nat × Nat) := none
  /-- The closure of R441 has been made and nothing has been accepted since (R441). -/
  closedUp  : Bool := true
  /-- Storm count of the data set that storms now (R267). -/
  stormDsn  : Option Nat := none
  deriving DecidableEq, Repr

/-! ## Boards (R144–R185) -/

/-- A board buffer (R144): its squares word by word, its extension table, whether it is armed and since which position in ticks. -/
structure BufSt where
  words   : Tbl Word := []
  ext     : Tbl Word := []
  armed   : Bool := false
  armedAt : Nat := 0
  /-- The data set CH4b compiled it for; none for a board the host wrote (R155, R185). -/
  dsn     : Option Nat := none
  deriving DecidableEq, Repr

/-- A JUMP loop being repeated (R157): the JUMP's index, repetitions still to come, and the repetition running. -/
structure LoopSt where
  at_   : Nat
  left  : Nat
  j     : Nat
  deriving DecidableEq, Repr

/-- An emission in the band's bit stream (R148, R151): the recording frame it lies in, its first bit and length, and what it emits. For
EMIT_GAP `arg` is the 64-bit gap, for EMIT_ROW the first codeword bit; `dsn` is the data set written, `buf` the board's buffer. -/
structure Emission where
  frame  : Nat
  first  : Nat
  len    : Nat
  op     : Nat
  mask   : Nat
  slot   : Nat
  arg    : Nat
  dsn    : Nat
  buf    : Nat
  deriving DecidableEq, Repr

/-- An open verify or read window (R153, R187): the row's slot and data set, the predicted place of its sync mark and the place of its opening, both
in cells of the recorded stream (R207), the tracks on which it is open, and whether it is read with both modules (R188). -/
structure Window where
  slot   : Nat
  dsn    : Nat
  read   : Bool
  pred   : Int
  opened : Int
  tracks : List Nat
  dual   : Bool
  deriving DecidableEq, Repr

/-- One band's sequencer. -/
structure BandSt where
  a         : BufSt := {}
  b         : BufSt := {}
  running   : Bool := false
  cur       : Nat := 0
  index     : Nat := 0
  tail      : Bool := false
  /-- START has been taken and WAIT_FRAME has not passed yet. -/
  hold      : Bool := false
  /-- This is the board's second attempt (R162). -/
  second    : Bool := false
  loops     : List LoopSt := []
  emissions : List Emission := []
  /-- The running board has emitted (R148). -/
  emitted   : Bool := false
  windows   : List Window := []
  gateOpen  : Bool := false
  /-- The launch offset in force in channel bits, and by how many bits it makes the present frame longer (R52). -/
  ofs       : Int := 0
  stretch   : Int := 0
  /-- The lateral condition has failed and not recovered (R168). -/
  offFail   : Bool := false
  /-- Rows never fully recorded (R254): slots cut by a closed gate, rows recorded as fill (R178), rows whose writer was left out (R175).
  Keys: (data set mod 2^24 × 32 + slot) × 64, plus the track for the latter two. -/
  cut       : List Nat := []
  filled    : List Nat := []
  left      : List Nat := []
  /-- The last three recorded bits of each track, newest in bit 0 (R172). -/
  history   : Tbl Nat := []
  deriving DecidableEq, Repr

/-- A row fetched and encoded (R176): its bytes, its parity, released or not. -/
structure EncRow where
  dsn    : Nat
  g      : Nat
  data   : List Byte
  parity : List Byte
  deriving DecidableEq, Repr

/-- The row encoders (R176–R179). -/
structure EncSt where
  rows   : List EncRow := []
  inject : Bool := false
  deriving DecidableEq, Repr

/-! ## Calibration (R230–R251) -/

/-- What calibration keeps of a writer, a reader, a band's noise predictor, or a group judged as one element (R232, R244–R246). For a writer `base`
is its current base and `pre` its delay trim, both without what is only prepared; for a reader `base` is its DELAY. -/
structure CalElem where
  base    : Int := 0
  pre     : Int := 0
  /-- Values that the ranges of R243 are counted from: writer current and delay. -/
  refCur  : Int := 0
  refPre  : Int := 0
  /-- Current trim that load-time calibration left (R251). -/
  loadCur : Int := 0
  snr     : Int := 0
  /-- Cycles of its rollbacks, newest first, and the cycle from which it may change again. -/
  rolls   : List Nat := []
  hold    : Nat := 0
  /-- The change of the last cycle: its cycle, the metric before it as a fraction, and the values it replaced. -/
  changed : Option (Nat × (Int × Nat) × List (Nat × Int)) := none
  rolled  : Bool := false
  freeze  : Bool := false
  deriving DecidableEq, Repr

/-- A setting that a cycle has computed, on its way to the tape (R231): writer current base, writer delay trim, a loop item of a reader, a
noise predictor tap, a servo gain (KAB or KCD) of a reader, the tilt trim, a current-sense offset. -/
inductive CalSet where
  | cur (w : Nat) (v : Int)
  | pre (w : Nat) (v : Int)
  | seed (t m item : Nat) (v : Int)
  | npred (b tap : Nat) (v : Int)
  | gain (r : Nat) (kcd : Bool) (v : Nat)
  | tilt (v : Int)
  | cso (reel : Nat) (v : Int)
  deriving DecidableEq, Repr

/-- What a reader has measured over the rows of a data set of a cycle's pair (R234–R236): rows of main slots with an accepted alignment, rows in all,
whether any came from a read window, sums (Σt², Σe², ΣPHI, its count, Σe(n)e(n−i) for i = 0, 1, 2), and the sums of the loop items at close. -/
structure CalAcc where
  dsn    : Nat
  track  : Nat
  module : Nat
  main   : Nat := 0
  rows   : Nat := 0
  read   : Bool := false
  sums   : List Int := []
  items  : List Int := []
  deriving DecidableEq, Repr

/-- What the frames of a data set of a cycle's pair have measured (R236): by servo reader ΣΔr·Δ̄ and ΣΔ̄² of the same frames (both times
`deltaScale` squared), by band the sum of the signed lateral errors and their count, the sum of their squares with its count, and by reel the sum of
the zero-vector samples from mid-scale and their count. -/
structure FrameAcc where
  dsn   : Nat
  num   : Tbl Int := []
  den   : Tbl Int := []
  errs  : Tbl Int := []
  errN  : Tbl Nat := []
  sq    : Nat := 0
  sqN   : Nat := 0
  cso   : Tbl Int := []
  csoN  : Tbl Nat := []
  deriving DecidableEq, Repr

/-- Calibration. -/
structure CalSt where
  writers : Tbl CalElem := []
  /-- Readers, by 512 × module + track. -/
  readers : Tbl CalElem := []
  /-- Noise predictors, by band. -/
  bands   : Tbl CalElem := []
  servo   : CalElem := {}
  tilt    : CalElem := {}
  /-- References of R243 by reader and loop item, by band and tap, of the servo gains, of the tilt trim, of the offsets. -/
  refItem : Tbl Int := []
  refTap  : Tbl Int := []
  refGain : Tbl Int := []
  refTilt : Int := 0
  refCso  : Tbl Int := []
  /-- Changes staged, and the data set at whose origin they take effect. -/
  staged  : List CalSet := []
  applyAt : Option Nat := none
  /-- How far they are (R233): 1 once the staged servo values are written in the gap frame, 2 once its closing boundary has passed. -/
  phase   : Nat := 0
  /-- By band, the data set of the last APPLY_STAGED of a write board. -/
  applied : Tbl Nat := []
  /-- What rows and frames of the pair have measured; writers seen with INHIBIT set in a data set of it (R234). -/
  acc     : List CalAcc := []
  frames  : List FrameAcc := []
  out     : List (Nat × Nat) := []
  deriving DecidableEq, Repr

/-! ## Read channel (R187–R228) -/

/-- What a chain remembers of one channel bit, for the loops that update late (R193, R195): its place in the recorded stream (none for the extra bit
of a slip, R196), equaliser input and output, the centre-tap input of the asymmetry loop, PHI, the reference bit (+1 or −1, 0 while undecided),
whether it was flagged, and whether the loops have used it. -/
structure BitRec where
  place : Option Int
  v     : Int
  y     : Int
  x2    : Int
  phi   : Int
  a     : Int
  flag  : Bool
  used  : Bool
  deriving DecidableEq, Repr

/-- What the leading reader gives for a bit (R214): the 5-bit value of the skew store, the equaliser output it stands for, its flag, its PHI. -/
structure LeadBit where
  v    : Int
  y    : Int
  flag : Bool
  phi  : Int
  deriving DecidableEq, Repr

/-- One bit of the row store (R190): its place in the recorded stream, the equalised sample, the quick decision on it, its flag and PHI; for a track
read with both modules the leading reader's bit, and the combined value that the detector works on with its flag (R217, R218). -/
structure RowBit where
  place : Int
  y     : Int
  q     : Bool
  flag  : Bool
  phi   : Int
  lead  : Option LeadBit := none
  z     : Int
  zbad  : Bool
  deriving DecidableEq, Repr

/-- The anchor of a recorded frame (R212): the frame, by how many bits its bits lie late, and whether the peak decisions of it are inverted (R221). -/
structure Anchor where
  frame : Int
  shift : Int
  inv   : Bool
  deriving DecidableEq, Repr

/-- A survivor of the quick detector (R193): its metric and its bits, newest first. -/
structure Survivor where
  metric : Int := 0
  bits   : List Bool := []
  deriving DecidableEq, Repr

/-- The signal chain of one reader (R190–R199, R220). -/
structure ChainSt where
  taps   : List Int := [0, 0, 0, 0, 0, 0, 0, 64, 0, 0, 0, 0, 0, 0, 0, 0]
  gain   : Int := 4096
  off    : Int := 0
  beta   : Int := 0
  omega  : Int := 0
  phi    : Int := 0
  /-- Seed items written through the track window, by item (R227), and whether the next window starts from them. -/
  seeds  : Tbl Int := []
  fresh  : Bool := false
  /-- Consecutive updates on which an item stood at its clamp (R197). -/
  clamped : Nat := 0
  /-- A slip that the interpolator has still to make (R196): +1 a sample without a bit, −1 a bit without a new sample. -/
  slip   : Int := 0
  /-- The last 8 values of stage 3, the last 32 magnitudes, the last 8 of stage 1, newest first. -/
  x3     : List Int := []
  mag    : List Int := []
  x1     : List Int := []
  /-- Running mean of |x3| in 2^−10 units (R198). -/
  mean   : Int := 0
  /-- Bits of guard still to come, and whether a flagged run is in progress. -/
  guard  : Nat := 0
  inRun  : Bool := false
  hist   : List BitRec := []
  surv   : List Survivor := []
  /-- Quick decisions, newest first. -/
  quick  : List Bool := []
  /-- Running peak amplitude, the last accepted peak, the level after it, and the cells with a transition, newest first (R220, R221). -/
  peakA  : Int := 0
  last   : Int := 0
  level  : Bool := false
  trans  : List Int := []
  /-- Windows whose sync mark has been located, by predicted place (R193). -/
  located : List Int := []
  /-- The anchor in force, those of the last frames, newest first, and the last frame searched (R211, R212). -/
  anchor  : Int := 0
  anchors : List Anchor := []
  searched : Option Int := none
  /-- The place of the next sample, and of the first of the unbroken run of samples before it. -/
  next   : Int := 0
  start  : Int := 0
  /-- The row store, or for the leading module the skew store, newest first (R190, R214). -/
  store  : List RowBit := []
  deriving DecidableEq, Repr

/-- The combiner of one track (R214–R218): weights in 2^−15 and the fine skew, the seeds written through the track window (R227), and the place up
to which the row store has been combined. -/
structure CombSt where
  w0    : Int := 16384
  f0    : List Int := [0, 0, 0, 0, 0]
  f1    : List Int := [0, 0, 0, 0, 0]
  skew  : Int := 0
  seeds : Tbl Int := []
  fresh : Bool := false
  done  : Option Int := none
  deriving DecidableEq, Repr

/-- The combining gain of a band (R219): square errors of the better single reader and of z summed over each of the last 64 rows, newest
first, and the consecutive rows with a gain below 0.5 dB. -/
structure GainSt where
  rows : List (Nat × Nat) := []
  low  : Nat := 0
  deriving DecidableEq, Repr

/-- The decoder of one alignment (R203, R204): the detector's last channel LLRs, a posteriori LLRs, messages by layer, check and edge, and
the iterations spent. -/
structure DecSt where
  chan  : List Int
  post  : List Int
  msgs  : List (List (List Int)) := []
  iters : Nat := 0
  ok    : Bool := false
  deriving DecidableEq, Repr

/-- A row context of the LDPC pool (R206), or a row waiting for one in the row store. -/
structure RowCtx where
  band   : Nat
  k      : Nat
  slot   : Nat
  dsn    : Nat
  read   : Bool
  /-- The predicted and the found place of the sync mark, in cells of the recorded stream (R207). -/
  pred   : Int
  found  : Option Int
  /-- Cells of a frame of its board, and the width of a cell in samples (R148, R222); it lies in the housekeeping area (R122); band fill follows it. -/
  cells  : Nat
  width  : Nat
  hk     : Bool
  fill   : Bool
  /-- Read on the recovery ladder (R205); peak mode (R223); detected from one reader (R216, R218); the trailing module, and dual-reader. -/
  ladder : Bool := false
  peak   : Bool := false
  single : Bool := false
  module : Nat
  dual   : Bool
  /-- The row's part of the row store, oldest first, with the anchors of its frames (R190, R212), and the level and transitions of the peak path. -/
  bits   : List RowBit
  anchors : List Anchor
  level  : Bool
  trans  : List Int
  /-- What the detector works with: target, noise predictor, PEAK_LLR, the combiner before the row with its shifts (R192, R200, R217, R223). -/
  t0     : Int
  t1     : Int
  t2     : Int
  p1     : Int
  p2     : Int
  pLlr   : Nat
  comb   : CombSt
  muw    : Nat
  muf    : Nat
  /-- Loop items of the readers at the window's close, by module (R236). -/
  items  : List (Nat × List Int)
  decs   : Tbl DecSt := []
  budget : Nat
  every  : Nat
  scale  : Nat
  /-- It holds one of the 512 contexts. -/
  inPool : Bool
  /-- Frame of its VERIFY_CLOSE (R206). -/
  closed : Nat
  deriving DecidableEq, Repr

/-- A data set as the read path collects it (R136, R270, R271). -/
structure ReadSet where
  dsn    : Nat
  origin : Nat := 0
  pass   : Nat := 0
  k      : Nat := 0
  /-- First GOOD copy of each row, by row number. -/
  rows   : Tbl (List Byte) := []
  /-- Payload after C2 and C3, FAILED columns by SDS and byte, and whether every byte is flagged (R139). -/
  payload : List Byte := []
  failed : List (Nat × Nat) := []
  allBad : Bool := false
  /-- Both CRCs pass, the DSIT included: the data set is resolved, at this level (R274). -/
  done   : Bool := false
  level  : Nat := 0
  /-- No rung resolves it (R274). -/
  lost   : Bool := false
  /-- A read board of it has come to its END (R139). -/
  read   : Bool := false
  deriving DecidableEq, Repr

/-- The rung of the recovery ladder in progress (R270, R273, R284): the passes that it takes, its C2 margin and its lateral offset, as the registers
stood when it started; how often each data set has been read on it, and the data sets of the pass in progress. -/
structure RungSt where
  need   : Nat := 0
  margin : Nat := 0
  ofs    : Nat := 0
  passes : Tbl Nat := []
  ran    : List Nat := []
  deriving DecidableEq, Repr

/-- The read path (R270–R278). -/
structure ReadSt where
  rung   : RungSt := {}
  chains : Tbl ChainSt := []
  comb   : Tbl CombSt := []
  gains  : Tbl GainSt := []
  ctx    : List RowCtx := []
  sets   : List ReadSet := []
  /-- The weak list, in the order added (R276). -/
  weak   : List Nat := []
  deriving DecidableEq, Repr


/-! ## Compression, cipher (R286–R336) -/

/-- The compression engines (R302–R304): the granule each engine holds, by GSN; the engine that took the last granule; an injected mismatch that
waits for the next granule. -/
structure CmpSt where
  busy   : Tbl Nat := []
  last   : Nat := 15
  inject : Bool := false
  deriving DecidableEq, Repr

/-- A data key slot (R322, R325): 0 FREE, 1 LOADED, 2 ERASING; its owner, KEY_TAG and key; while ERASING, how many stream commands had been
accepted when its KEY_ERASE was. -/
structure KeySlot where
  state    : Nat := 0
  tenant   : Nat := 0
  tag      : Nat := 0
  key      : List Byte := []
  eraseSeq : Nat := 0
  deriving DecidableEq, Repr

/-- The key slots: data slots by number, and the KEK slots that hold a key (R322). -/
structure KeySt where
  data : Tbl KeySlot := []
  kek  : Tbl (List Byte) := []
  deriving DecidableEq, Repr

/-- The work of a cipher request (R309, R313): encryption of a granule; decryption of the granule that READ is at; the unwrap of a side queue's
KEY_IMPORT, with the KEK and blob it took; a side queue's CIPHER. -/
inductive CipherWork where
  | enc (gsn : Nat)
  | dec (gsn : Nat)
  | unwrap (queue kek : Nat) (key blob : List Byte)
  | host (queue : Nat)
  deriving DecidableEq, Repr

/-- A request that runs (R310–R312): its lane, or the first lane of its pair; the key it started with; whether this is the second run after a
pair mismatch; whether PAIR_INJECT inverts a bit of it. -/
structure CipherRun where
  lane  : Nat
  pair  : Bool
  work  : CipherWork
  key   : List Byte
  again : Bool := false
  inj   : Bool := false
  deriving DecidableEq, Repr

/-- The cipher engine (R309–R312). -/
structure CiphSt where
  wr     : List CipherWork := []
  rd     : List CipherWork := []
  fw     : List CipherWork := []
  host   : List CipherWork := []
  runs   : List CipherRun := []
  /-- Write-path requests to be run again after a pair mismatch; each keeps the first lane of the pair that failed (R312). -/
  retry  : List CipherRun := []
  /-- Starts from other queues in a row while a host-direct request waited (R310). -/
  skips  : Nat := 0
  inject : Bool := false
  deriving DecidableEq, Repr

/-! ## Reel drives, loops, actuators (R472–R543) -/

/-- One reel drive beyond its registers. Currents in mA, voltages in mV, angles in 2^−16 turn unless a finer unit is named (R476). -/
structure ReelSt where
  id      : Int := 0
  iq      : Int := 0
  /-- Integrators of the current loop. -/
  xd      : Int := 0
  xq      : Int := 0
  /-- Compares of phases U, V and W in force before edge shifts, and the smallest second-half compare of the last period (R474, R481). -/
  cmp     : List Nat := [625, 625, 625]
  last2   : Nat := 625
  /-- What keeps the electrical angle continuous over a change of source (R483). -/
  ofs     : Int := 0
  /-- Halls: angle at the last valid edge, how far it has advanced since in 2^−32 turn, direction of that edge, speed in mrad/s, and valid
  edges since the last sequence error (R484, R485). -/
  hallAt  : Nat := 0
  hallAdv : Nat := 0
  hallDir : Int := 1
  hallOmega : Int := 0
  hallErr : Option Nat := none
  /-- Observer: its angle and speed now, and the electrical angle turned while it was good, in 2^−32 turn; the back-EMF of the last four
  periods, newest first, in mV in the stationary frame (R486); the electrical angle turned since a condition of R487 began to fail. -/
  obsAngle : Nat := 0
  obsOmega : Int := 0
  obsGood : Nat := 0
  emf     : List (Int × Int) := []
  obsBad  : Nat := 0
  /-- The voltages, d and q in mV, that the compares in force apply and those of the next period (R476), and the current of the last period in
  the stationary frame (R486). -/
  vApplied : Int × Int := (0, 0)
  vNext   : Int × Int := (0, 0)
  iStat   : Int × Int := (0, 0)
  /-- Implausible periods in a row, and periods in a row above 1.1 × NMAX; none before the first period (R501, R502). -/
  bad     : Option Nat := none
  speeding : Option Nat := none
  /-- Electrical angle of the tape-coupled estimate and of the start source, and the mechanical angle, in 2^−32 turn (R488, R490). -/
  tape    : Nat := 0
  startAt : Nat := 0
  mech    : Nat := 0
  /-- A start: 0 none, 1 pulses, 2 the start source runs (R489, R490). -/
  start   : Nat := 0
  /-- PWM periods since the pulses of a start (R490). -/
  startAge : Nat := 0
  /-- PWM periods since EVT_STATUS bit 7 was last set, up to one second (R481). -/
  shiftAge : Nat := 40000
  /-- Position in ticks at the end of the last measured revolution, revolutions measured in a row, and whether reel B has been measured since
  the last revolution of reel A (R492, R493). -/
  revAt   : Option Int := none
  revs    : Nat := 0
  measured : Bool := false
  /-- Zero-vector samples of the last 4,096 PWM periods at standstill, newest first (R242). -/
  zeros   : List (Option Nat) := []
  /-- iq of the last 100 ms, newest first, at most 1,000 (R496). -/
  iqHist  : List Int := []
  /-- Speed at the last 10 kHz sample, and the last valid radius (R520). -/
  omega   : Int := 0
  radius  : Nat := 0
  /-- Tape speed when VLIMIT was set, in mm/s (R495, R517). -/
  vClamp  : Nat := 0
  /-- The drive clamps its reference (R478); the repetitive output held for its reel, and its frozen bit (R527, R528). -/
  clamped : Bool := false
  rep     : Int := 0
  frozen  : Bool := true
  deriving DecidableEq, Repr

/-- One loop slot beyond its items (R512–R525): the limited set-point and its rate in 2^−16 units, S, the last measurement, error and output. -/
structure SlotSt where
  sp      : Int := 0
  rate    : Int := 0
  s       : Int := 0
  meas    : Int := 0
  err     : Int := 0
  out     : Int := 0
  /-- 1 saturated at OUT_MAX, −1 at OUT_MIN, 0 not. -/
  sat     : Int := 0
  limited : Bool := false
  loser   : Bool := false
  skipped : Bool := false
  region  : Nat := 0
  /-- A commit waits; a region change waits; a frame boundary has passed since (R522). -/
  commit  : Bool := false
  pend    : Option Nat := none
  due     : Bool := false
  fe      : Nat := 0
  /-- Overruns in a row (R525). -/
  ovr     : Nat := 0
  /-- The signals of CAP_SEL, by number (R542). -/
  signals : List Int := []
  deriving DecidableEq, Repr

/-- The injection generator (R536). -/
structure InjSt where
  phase : Nat := 0
  lfsr  : Nat := 1
  held  : Nat := 0
  left  : Nat := 0
  /-- GO has been taken and the slot has not sampled since. -/
  first : Bool := false
  deriving DecidableEq, Repr

/-- Capture (R538): samples by ring index, each of four channels; samples taken; the count of samples when the trigger came; samples of CLK_SLOT
since the last one taken; channel 0 before; the trigger's stamp. -/
structure CapSt where
  rows  : Tbl (List Int) := []
  taken : Nat := 0
  trig  : Option Nat := none
  skip  : Nat := 0
  prev  : Option Int := none
  stamp : Stamp := {}
  deriving DecidableEq, Repr

/-- Motion state that no register holds. -/
structure MotionSt where
  /-- The tape target that CMD commands, in µm/s (R49, R181, R515). -/
  cmdTarget : Int := 0
  /-- Lateral error of each data band in LU, as the lateral loop last reported it; none while invalid (R168, R529). -/
  latErr    : Tbl (Option Int) := []
  /-- Reel drives A and B. -/
  reels     : Tbl ReelSt := []
  /-- BRAKE_CHOP over the last second, newest first: level and samples of 12.5 µs (R498). -/
  chop      : List (Bool × Nat) := []
  /-- VBUS at the chopper's switch-on and samples since, while it has not fallen below that value (R499), and samples in a row below VBUS_UV while a
  reel runs, none before the first sample (R497). -/
  chopFrom  : Option (Nat × Nat) := none
  lowBus    : Option Nat := none
  /-- Last ADC conversions by channel (R506). -/
  adc       : Tbl Nat := []
  /-- Implausible H-bridge periods in a row, by actuator (R535). -/
  actBad    : Tbl (Option Nat) := []
  slots     : Tbl SlotSt := []
  /-- Staged and active items, by 128 × slot + item (R540). -/
  staged    : Tbl Int := []
  active    : Tbl Int := []
  inj       : InjSt := {}
  cap       : CapSt := {}
  /-- 10 kHz periods since PORST_N; rising edges of SPDREF in the last milliseconds, in 10 ns units, oldest first (R516). -/
  periods   : Nat := 0
  edges     : List Nat := []
  /-- The last rising edge of SPDREF (R516). -/
  edgeAt    : Option Nat := none
  /-- The tension estimate in mN (R520). -/
  tension   : Int := 0
  /-- Samples in a row of over-tension and of slack tape; none before the first sample (R550). -/
  tenHigh   : Option Nat := none
  tenLow    : Option Nat := none
  /-- Smallest STEP that the ceiling has allowed above CEIL without a break, and for how many periods (R496). -/
  ceilRise  : Nat × Nat := (15, 0)
  /-- Bins of the repetitive controller, by 256 × reel + bin (R527). -/
  bins      : Tbl Int := []
  /-- The shared limiter of slots 0 and 1: set-point and rate in 2^−16 units (R515, R518). -/
  vSp       : Int := 0
  vRate     : Int := 0
  /-- d_base of the reader-pair set-point (R531). -/
  dBase     : Int := 0
  deriving DecidableEq, Repr


/-! ## Buffer memory and pool (R337–R398) -/

/-- A pool page's descriptor (R351, R385). -/
structure PageDesc where
  written  : Nat := 0
  poisoned : Bool := false
  quar     : Bool := false
  retired  : Bool := false
  pending  : Bool := false
  alloc    : Bool := false
  owner    : Nat := 0x1FF
  refcnt   : Nat := 0
  refmode  : Bool := false
  gen      : Nat := 0
  use      : PageUse := .host
  deriving DecidableEq, Repr

/-- A retirement log entry (R362). -/
structure RlogEntry where
  seq     : Nat
  page    : Nat
  kind    : Nat
  word    : Nat
  chan    : Nat
  flags   : Nat
  account : Nat
  count   : Nat
  stamp   : Stamp
  syn     : Nat
  deriving DecidableEq, Repr

/-- A training channel (R339, R340): attempts at its step, refresh intervals counted, last oscillator reading and ZQ code. -/
structure DdrSt where
  step     : Nat := 0
  attempts : Nat := 0
  refi     : Nat := 0
  osc      : Nat := 0
  zq       : Nat := 0
  deriving DecidableEq, Repr

/-- SVC1's split-write port, identical to the host's (R370). -/
structure SplitPort where
  arm  : Bool := false
  keep : Bool := false
  acct : Nat := 0
  page : Nat := 0
  word : Nat := 0
  data : Word256 := 0
  chk  : Chk := 0
  syn  : Nat := 0
  verdict : Nat := 0
  done : Bool := false
  deriving DecidableEq, Repr

/-- The buffer memory. -/
structure MemSt where
  /-- The DRAM, a byte by key: channel × 2^33 + channel byte address (R343). Rising, without zeros; an unlisted byte reads 0. -/
  cells  : List Host.Cell := []
  pages  : Tbl PageDesc := []
  ddr    : Tbl DdrSt := []
  /-- Hot list, oldest first, at most 64 (R354). -/
  hot    : List Nat := []
  /-- Slots for which MEM_CE has been raised in this scrub pass (R375). -/
  ceDone : List Nat := []
  /-- The retirement log ring, by index (R362). -/
  rlog   : Tbl RlogEntry := []
  /-- Retired and pending pages, in the order of their RETIRE writes. -/
  retire : List Nat := []
  svc1   : SplitPort := {}
  /-- SRAM rows corrected since PORST_N, by 8,192 × macro + row (R367). -/
  ceRows : List Nat := []
  /-- SRAM candidates, in the layout of R368. -/
  cands  : List Nat := []
  /-- The soft repair list by entry, and the entries in force (R368, R369). -/
  soft   : Tbl Nat := []
  inForce : List Nat := []
  deriving DecidableEq, Repr

/-- An account (R378, R392, R396). -/
structure Acct where
  quota     : Nat := 0
  min       : Nat := 0
  mode      : Bool := false
  used      : Nat := 0
  peak      : Nat := 0
  denyEmpty : Nat := 0
  denyQuota : Nat := 0
  deriving DecidableEq, Repr

/-- A pool request that waits (R391): from the host port or not, its operation, accounts, page, and what an allocated page is for. -/
structure PoolReq where
  host   : Bool
  op     : Nat
  acct   : Nat := 0x1FF
  target : Nat := 0
  page   : Nat := 0
  wait   : Bool := true
  use    : PageUse := .host
  deriving DecidableEq, Repr

/-- A run of the free ring: consecutive entries of pages `page`, `page` + 1, … with one GEN (R386). -/
structure RingRun where
  page : Nat
  gen  : Nat
  len  : Nat
  deriving DecidableEq, Repr

/-- The pool. -/
structure PoolSt where
  accts   : Tbl Acct := []
  /-- Free pages F (R379). -/
  free    : Nat := 0
  /-- The cache, top first: page and GEN (R387). -/
  cache   : List (Nat × Nat) := []
  /-- The ring from head to tail; entries taken from its head since it was built; and those taken, newest first, whose words still stand in it (R386). -/
  ring    : List RingRun := []
  head    : Nat := 0
  taken   : List (Nat × Nat) := []
  building : Bool := false
  waiters : List PoolReq := []
  /-- Internal requests held by their requesters while the list is full (R391), and those made before BUILT (R389). -/
  held    : List PoolReq := []
  early   : List PoolReq := []
  /-- Admitted allocations that wait for a cache fill (R387). -/
  stalled : List PoolReq := []
  /-- The account served last, by 2 × operation + class (R390). -/
  rr      : Tbl Nat := []
  deriving DecidableEq, Repr

/-- A soft repair map of the fuses: entries in the layout of R368, fixed in manufacture (R3, R368). -/
structure FuseRepair where
  entries : List Nat := []
  deriving DecidableEq, Repr


/-! ## Epbex link (R399–R433) -/

/-- A packet held in the retry buffer (R411): its first sequence number, the token it spent (0 none, 1 DATA, 2 MSG of queue 0, 3 MSG of queue 1),
and its flits' bodies, HEAD first. -/
structure HeldPkt where
  seq   : Nat
  cls   : Nat
  words : List Word256
  deriving DecidableEq, Repr

/-- A receive lane (R405, R406, R416): consecutive valid markers, locked, inverted, the lane number it carries, its skew once deskewed, and
markers missed in a row. -/
structure LaneSt where
  valid  : Nat := 0
  locked : Bool := false
  inv    : Bool := false
  id     : Nat := 0
  skew   : Option Nat := none
  missed : Nat := 0
  deriving DecidableEq, Repr

/-- The Epbex link beyond its registers. -/
structure EpbxSt where
  lanes    : Tbl LaneSt := []
  /-- Inside RECOVER: the training state it has come to, and attempts failed in a row (R414, R416). -/
  sub      : Nat := 2
  attempts : Nat := 0
  /-- The link has been ACTIVE since PORST_N: the next bring-up is a link reset (R417). -/
  wasUp    : Bool := false
  /-- Our ACK_SEQ at the last link reset, if its state is kept (R417). -/
  prevAck  : Option Nat := none
  /-- KIND 1 flits in a row that echoed the MODE and VERSION proposed (R414), and the far end's GOOD mask. -/
  echoes   : Nat := 0
  farGood  : Nat := 0
  /-- The mode proposed: width code, HALF, group. -/
  mode     : Nat := 0
  /-- Slot of the next flit since the last marker (R407). -/
  slot     : Nat := 0
  /-- Receiver: expected sequence number, NAK wanted, the packet being assembled, flits discarded up to the next HEAD (R410, R422). -/
  rxSeq    : Nat := 0
  nak      : Bool := false
  rxPkt    : List Word256 := []
  flushing : Bool := false
  /-- Transmitter: next new sequence number, the far end's last full ACK_SEQ, held packets, replays of the oldest flit, ACK_SEQ of the last
  replay on NAK (R408–R413). -/
  txSeq    : Nat := 0
  ackSeq   : Nat := 0
  held     : List HeldPkt := []
  replays  : Nat := 0
  nakAt    : Option Nat := none
  /-- Received time, in UI, since the last replay started (R412). -/
  since    : Nat := 0
  /-- Packets to be sent again whole after a link reset, with their token (R417); packets that need no token and wait for room. -/
  resend   : List HeldPkt := []
  outbox   : List (List Word256) := []
  /-- Tokens: outstanding at the host and to be returned, by 64 × class + queue; held from the host: DATA, MSG 0, MSG 1 (R423, R424). -/
  granted  : Tbl Nat := []
  toReturn : Tbl Nat := []
  held0    : Nat := 0
  heldM0   : Nat := 0
  heldM1   : Nat := 0
  /-- The CMD and DATA classes have been granted (R600). -/
  queGrant : Bool := false
  /-- LNK_CTRL.RESET takes effect once the responses waiting have gone (R417). -/
  resetDue : Bool := false
  retrainDue : Bool := false
  deriving DecidableEq, Repr


/-! ## Fuses, boot, pins (R569–R591, R592–R598, R627) -/

/-- A copy of a fuse block with the CRC-16 fused beside it (R569); 0xF14C is the CRC of 32 zero bytes. -/
structure FuseCopy where
  data : List Byte := List.replicate 32 0
  crc  : Nat := 0xF14C
  deriving DecidableEq, Repr

/-- The security fuses (R569): each block's two copies; lifecycle bits and ID_KILL of both copies; and the trims (R3). -/
structure FuseSt where
  identity0 : FuseCopy := {}
  identity1 : FuseCopy := {}
  vendor0   : FuseCopy := {}
  vendor1   : FuseCopy := {}
  oem0      : FuseCopy := {}
  oem1      : FuseCopy := {}
  lc0       : Nat := 0
  lc1       : Nat := 0
  kill0     : Bool := false
  kill1     : Bool := false
  /-- Trims, fixed in manufacture (R3). -/
  trims     : List Byte := []
  deriving DecidableEq, Repr

/-- Boot and identity beyond the SEC page (R571, R574, R579, R581, R588). -/
structure SecSt where
  fuses     : FuseSt := {}
  /-- The load region, by word (R579). -/
  region    : Tbl Word := []
  /-- VENDOR_PUB of the accepted image (R574). -/
  vendorPub : List Byte := []
  /-- The receipt key's seed, once generated (R581). -/
  rkey      : Option (List Byte) := none
  /-- The receipt key certificate, once signed (R588). -/
  cert      : List Byte := []
  /-- BOOT_ID and LC_CHALLENGE have been drawn (R578, R584). -/
  bootDrawn : Bool := false
  lcDrawn   : Bool := false
  deriving DecidableEq, Repr

/-- Supplies and pins: the part is in reset (R593–R595), the rails in range (R598), CART_PRES_N declared faulty (R627). -/
structure PinSt where
  inReset    : Bool := true
  rails      : Nat := 0x1FF
  cartFaulty : Bool := false
  deriving DecidableEq, Repr

/-! ## The whole -/

/-- The formatter. -/
structure State where
  /-- Register space by word address; a word not listed holds its reset value (R604, R605). -/
  regs : Tbl Word := []
  /-- HI words latched by reads of their LO words, by address (R54, R606). -/
  latch : Tbl Word := []
  evt : EvtSt := {}
  /-- Cores, mailboxes, internal FIFOs. -/
  core : CoreSt := {}
  /-- Position and servo. -/
  pos : PosSt := {}
  /-- Carriage links. -/
  links : LinkSt := {}
  /-- Command queues. -/
  que : QueSt := {}
  /-- Meters. -/
  mtr : MtrSt := {}
  /-- Tenant contexts, by number. -/
  ten : Tbl Tenant := []
  /-- The mounted cartridge. -/
  vol : VolSt := {}
  /-- Format: the write flow. -/
  fmt : FmtSt := {}
  /-- The board sequencers, by band. -/
  band : Tbl BandSt := []
  /-- The row encoders. -/
  enc : EncSt := {}
  /-- Calibration. -/
  cal : CalSt := {}
  /-- Read channel, decoder pool and read path. -/
  rch : ReadSt := {}
  /-- Compression engines. -/
  cmp : CmpSt := {}
  /-- Key slots. -/
  keys : KeySt := {}
  /-- Cipher engine. -/
  ciph : CiphSt := {}
  /-- Reel drives, loops, actuators. -/
  mot : MotionSt := {}
  /-- Buffer memory and SRAM. -/
  mem : MemSt := {}
  /-- Buffer pool and accounts. -/
  pool : PoolSt := {}
  /-- Fuse repair map of the SRAM. -/
  fuseMap : FuseRepair := {}
  /-- The Epbex link. -/
  lnk : EpbxSt := {}
  /-- Fuses, boot and identity. -/
  sec : SecSt := {}
  /-- Supplies and pins. -/
  pins : PinSt := {}
  /-- MODEL's own: how many free values have been taken (Config.freeValue). -/
  freeCount : Nat := 0
  /-- The commands waiting, first in, first out. -/
  pending : List Instr := []
  deriving DecidableEq, Repr

/-- The part in reset with PORST_N low and every rail in range: registers at their reset values, every buffer empty, no command waiting. -/
def State.reset : State := {}

end Sys2Proof.Machine
end

