-- ==== Sys2Proof/Machine/Ops.lean ====
section
/-!
DEFINITION. The operations every chapter shares: reading and writing registers and their fields (R604), position stamps (R53), the
occurrence of an event with its capture and routing (R612–R615), and the fault manager's queues (R560, R561).
-/
namespace Sys2Proof.Machine

/-! ## Registers -/

/-- The word held at an address of register space. -/
def rd (s : State) (a : Nat) : Word := Tbl.get (resetWord a) s.regs a

/-- The state with a word written at an address. -/
def wr (a : Nat) (w : Word) (s : State) : State := { s with regs := Tbl.set s.regs a w }

/-- A field's value. -/
def getF (s : State) (f : Fld) : Nat := slice (rd s f.addr).toNat f.lo f.width

/-- The state with a field's value replaced by the low bits of `v`. -/
def setF (f : Fld) (v : Nat) (s : State) : State :=
  wr f.addr (BitVec.ofNat 32 (setSlice (rd s f.addr).toNat f.lo f.width v)) s

/-- A one-bit field as a truth value. -/
def getB (s : State) (f : Fld) : Bool := getF s f != 0

/-- The state with a one-bit field set or cleared. -/
def setB (f : Fld) (b : Bool) (s : State) : State := setF f (b2n b) s

/-- A field's two's complement value. -/
def getS (s : State) (f : Fld) : Int := toS f.width (getF s f)

/-- The state with a field set to an integer's two's complement bits. -/
def setS (f : Fld) (i : Int) (s : State) : State := setF f (ofS f.width i) s

/-- The state with a saturating counter raised by `n`. -/
def addF (f : Fld) (n : Nat) (s : State) : State := setF f (satAdd f.width (getF s f) n) s

/-- The state with a saturating counter raised by one. -/
def incF (f : Fld) (s : State) : State := addF f 1 s

/-- A 64-bit count kept in a LO and a HI word. -/
def get64 (s : State) (lo hi : Fld) : Nat := getF s lo + 2 ^ 32 * getF s hi

/-- The state with such a count raised by `n`, saturating. -/
def add64 (lo hi : Fld) (n : Nat) (s : State) : State :=
  let v := satAdd 64 (get64 s lo hi) n
  setF hi (v / 2 ^ 32) (setF lo (v % 2 ^ 32) s)

/-- A fresh free value of `w` bits: its value is Config's, which nothing can see. -/
def freeVal (w : Nat) (s : State) : BitVec w := Config.freeValue w s.freeCount

/-- The state after a free value has been taken. -/
def takeFree (s : State) : State := { s with freeCount := s.freeCount + 1 }

/-! ## Page headers (R607) -/

/-- Header fields of a page. -/
def hdrEN (p : Nat) : Fld := ⟨0x1000 * p + 0x008, 0, 1⟩
def hdrQUIESCE (p : Nat) : Fld := ⟨0x1000 * p + 0x008, 1, 1⟩
def hdrLOCK (p : Nat) : Fld := ⟨0x1000 * p + 0x008, 2, 1⟩
def hdrENABLED (p : Nat) : Fld := ⟨0x1000 * p + 0x00c, 0, 1⟩
def hdrQUIESCED (p : Nat) : Fld := ⟨0x1000 * p + 0x00c, 1, 1⟩
def hdrLOCKED (p : Nat) : Fld := ⟨0x1000 * p + 0x00c, 2, 1⟩
def hdrRWS_WR (p : Nat) : Fld := ⟨0x1000 * p + 0x00c, 3, 1⟩
def hdrLOCK_WR (p : Nat) : Fld := ⟨0x1000 * p + 0x00c, 4, 1⟩
def hdrEVT_STATUS (p : Nat) : Fld := ⟨0x1000 * p + 0x010, 0, 32⟩
def hdrEVT_ENABLE (p : Nat) : Fld := ⟨0x1000 * p + 0x014, 0, 32⟩
def hdrEVT_FIRST (p : Nat) : Fld := ⟨0x1000 * p + 0x01c, 0, 32⟩
def hdrEVT_FIRST_VALID (p : Nat) : Fld := ⟨0x1000 * p + 0x01c, 31, 1⟩
def hdrERR_POS_LO (p : Nat) : Fld := ⟨0x1000 * p + 0x020, 0, 32⟩
def hdrERR_POS_HI (p : Nat) : Fld := ⟨0x1000 * p + 0x024, 0, 32⟩

/-- One bit of a page's EVT_STATUS. -/
def evtBit (p bit : Nat) : Fld := ⟨0x1000 * p + 0x010, bit, 1⟩

/-- One bit of a page's EVT_ENABLE. -/
def evtEnBit (p bit : Nat) : Fld := ⟨0x1000 * p + 0x014, bit, 1⟩

/-- The page a block's clocks run on: EN set (R608). -/
def pageRuns (s : State) (p : Nat) : Bool := getB s (hdrEN p)

/-! ## Position stamps (R53, R615) -/

/-- The stamp POS shows now. Until POS has first locked it holds frame 0, tick 0, pass 0 and STALE (R615). -/
def stampNow (s : State) : Stamp :=
  if s.pos.everLocked then
    { lo := s.pos.frame % 2 ^ 32,
      hi := s.pos.tick % 4096 + (getF s Reg.POS_PASS) * 2 ^ 12 + getF s Reg.POS_STATUS_COARSE * 2 ^ 20 + getF s Reg.POS_STATUS_STALE * 2 ^ 21 }
  else {}

/-! ## The fault manager's queues (R559–R561, R601) -/

/-- The severity field of a fault code (R559). -/
def sevOf (code : Nat) : Nat := code / 0x1000

/-- A fault code: severity, unit, cause (R25, R559). -/
def faultCode (sev unit cause : Nat) : Nat := sev * 0x1000 + unit * 0x100 + cause

/-- SVC3, on which the fault manager runs, is running (R601). -/
def svc3Runs (s : State) : Bool := (getF s Reg.CLU_RUN_SVC).testBit 3

/-- CMD is running (R600). -/
def cmdRuns (s : State) : Bool := getB s Reg.CLU_RUN_CMD

/-- The severity SVC3 is handling, 7 if none: SAFETY while its buffer holds a record (R560, R561). -/
def activeSev (s : State) : Nat :=
  if s.evt.safetyBuf ≠ [] then 4 else match s.evt.handling with | r :: _ => sevOf r.code | [] => 7

/-- A fault other than SAFETY reaches the fault manager (R560): handled at once when nothing is, pre-empting a lower severity, otherwise
queued, or lost when the FIFO is full. -/
def toManager (r : FaultRec) (s : State) : State :=
  if s.evt.handling = [] ∧ s.evt.safetyBuf = [] then { s with evt := { s.evt with handling := [r] } }
  else if activeSev s < sevOf r.code then { s with evt := { s.evt with handling := r :: s.evt.handling } }
  else if s.evt.faultFifo.length < 64 then { s with evt := { s.evt with faultFifo := s.evt.faultFifo ++ [r] } }
  else incF Reg.FAULT_LOST s

/-- A SAFETY fault's record reaches the SAFETY buffer (R561). -/
def toSafetyBuf (r : FaultRec) (s : State) : State :=
  if s.evt.safetyBuf.length < 8 then { s with evt := { s.evt with safetyBuf := s.evt.safetyBuf ++ [r] } }
  else incF Reg.FAULT_LOST s

/-! ## Events (R612–R614) -/

/-- The event bit is set and, when nothing is captured yet, the occurrence is captured with its stamp (R612, R614). -/
def markEvent (p bit fault : Nat) (forced : Bool) (s : State) : State :=
  let s1 := setF (evtBit p bit) 1 s
  if getB s (hdrEVT_FIRST_VALID p) then s1
  else
    let st := stampNow s
    setF (hdrERR_POS_HI p) st.hi <| setF (hdrERR_POS_LO p) st.lo <|
      setF (hdrEVT_FIRST p) (bit + b2n forced * 2 ^ 7 + fault * 2 ^ 8 + 2 ^ 31) s1

/-- An EVENT packet is built (R421, R425, R612): it takes the next ESEQ, and waits in the event FIFO or is dropped and counted there. -/
def sendEvent (p bit fault account data : Nat) (st : Stamp) (s : State) : State :=
  let e : EventPkt := { page := p, bit, fault, account, stamp := st, data := data % 2 ^ 32, eseq := s.evt.eseq % 2 ^ 32 }
  let s := { s with evt := { s.evt with eseq := s.evt.eseq + 1 } }
  if s.evt.fifo.length < 256 then { s with evt := { s.evt with fifo := s.evt.fifo ++ [e] } }
  else
    let c := faultCode 0 0xC 0x07
    let s := markEvent 0x68 5 c false (incF Reg.EVT_LOST_CNT s)
    if getB s (evtEnBit 0x68 5) then toManager { code := c, account := 0x1FF, stamp := stampNow s, data := 0, page := 0x68, bit := 5 } s else s

/-- An event without a fault code occurs (R612). -/
def notify (p bit data : Nat) (s : State) : State :=
  let was := getB s (evtBit p bit)
  let st := stampNow s
  let s := markEvent p bit 0 false s
  if getB s (evtEnBit p bit) && !was && svc3Runs s then sendEvent p bit 0 0x1FF data st s else s

/-- An event that carries a fault code occurs (R561, R601, R612). -/
def raise (p bit code account data : Nat) (s : State) : State :=
  let r : FaultRec := { code, account, stamp := stampNow s, data, page := p, bit }
  let s := markEvent p bit code false s
  if sevOf code = 4 then
    let s := incF Reg.SAFETY_CNT (setF Reg.SAFETY_LAST code s)
    if svc3Runs s then toSafetyBuf r s else s
  else if getB s (evtEnBit p bit) then
    if svc3Runs s then toManager r s
    else if p = 0x03 ∧ s.evt.secHeld.length < 8 then { s with evt := { s.evt with secHeld := s.evt.secHeld ++ [r] } }
    else s
  else s

/-- The fault unit of a page (R25). -/
def unitOf (p : Nat) : Nat := match pageInfo p with | some i => i.unit | none => 0

/-- A fault of the page's own unit, recorded in the bit that its cause numbers (R612). -/
def raiseC (p sev cause account data : Nat) (s : State) : State :=
  raise p (cause - 1) (faultCode sev (unitOf p) cause) account data s

/-- A fault of the page's own unit, recorded in a bit that the page's table gives. -/
def raiseB (p bit sev cause account data : Nat) (s : State) : State :=
  raise p bit (faultCode sev (unitOf p) cause) account data s

/-- No owning account (R421, R562). -/
def noAcct : Nat := 0x1FF

/-- A common cause (0xF0–0xF2) of a page, recorded in bit 31 (R612). -/
def raiseCommon (p sev cause data : Nat) (s : State) : State :=
  raise p 31 (faultCode sev (unitOf p) cause) noAcct data s

/-- A host write to a page that acts only while the page is not locked: under LOCK it sets LOCK_WR and nothing else (R610). -/
def lockGate (p : Nat) (act : State → State) (s : State) : State :=
  if getB s (hdrLOCK p) then setF (hdrLOCK_WR p) 1 s else act s

end Sys2Proof.Machine
end

