-- ==== Sys2Proof/Machine/QueueOps.lean ====
section
/-!
DEFINITION. What the command queues share (spec/14): the fields of a descriptor (R435), which commands touch the medium (R442), completing
a command (R440, R443, R447), its counts in the minute brackets (R458), and the start of a halt (R442, R465).
-/
namespace Sys2Proof.Machine

/-! ## Descriptors (R435, R437) -/

/-- The little-endian number of `size` bytes at `off` of a descriptor. -/
def dField (d : List Byte) (off size : Nat) : Nat := fieldAt d off size

def dOpcode (d : List Byte) : Nat := dField d 0x00 1
def dFlags (d : List Byte) : Nat := dField d 0x01 1
def dTag (d : List Byte) : Nat := dField d 0x02 2
def dTenant (d : List Byte) : Nat := dField d 0x04 1
def dAccount (d : List Byte) : Nat := dField d 0x06 2 % 0x200
def dDataLen (d : List Byte) : Nat := dField d 0x08 4

/-- The bytes of an entry's descriptor; none of a MINUTE's. -/
def QEntry.desc (e : QEntry) : List Byte := match e.body with | .cmd d => d | .minute _ => []

/-- The opcodes of R437. -/
def opLOAD : Nat := 0x01
def opUNLOAD : Nat := 0x02
def opFORMAT : Nat := 0x03
def opWRITE : Nat := 0x04
def opFILEMARK : Nat := 0x05
def opFLUSH : Nat := 0x06
def opREAD : Nat := 0x07
def opLOCATE : Nat := 0x08
def opREFRESH : Nat := 0x0A
def opSELECT_MAP : Nat := 0x0B
def opRECEIPT : Nat := 0x0C
def opOPEN_TENANT : Nat := 0x0D
def opCLOSE_TENANT : Nat := 0x0E
def opKEY_IMPORT : Nat := 0x20
def opKEY_ERASE : Nat := 0x21
def opKEK_AGREE : Nat := 0x22
def opKEK_ERASE : Nat := 0x23
def opCIPHER : Nat := 0x24
def opMETER_READ : Nat := 0x25
def opSET_QUOTA : Nat := 0x26
def opATTEST : Nat := 0x27
def opSAFE_CLEAR : Nat := 0x28
def opREG_IMAGE : Nat := 0x29

/-- The stream opcodes (R437). -/
def isStreamOp (op : Nat) : Bool := [0x01, 0x02, 0x03, 0x04, 0x05, 0x06, 0x07, 0x08, 0x0A, 0x0B, 0x0C, 0x0D, 0x0E].contains op

/-- The side opcodes (R437). -/
def isSideOp (op : Nat) : Bool := 0x20 ≤ op && op ≤ 0x29

/-- A stream command that touches the medium: every one but OPEN_TENANT (R442). -/
def touchesMedium (op : Nat) : Bool := isStreamOp op && op != opOPEN_TENANT

/-- The opcodes that use TENANT (R437). -/
def usesTenant (op : Nat) : Bool := [0x04, 0x05, 0x07, 0x0C, 0x0E, 0x20, 0x24].contains op

/-- The opcodes that use ACCOUNT (R437). -/
def usesAccount (op : Nat) : Bool := op == opCIPHER || op == opSET_QUOTA

/-! ## Completion statuses (R446) -/

def stOK : Nat := 0x00
def stOK_RECOVERED : Nat := 0x01
def stTENANT_NOT_OPEN : Nat := 0x10
def stTENANT_TABLE_FULL : Nat := 0x11
def stKEY_NOT_OWNED : Nat := 0x12
def stQUOTA_EXCEEDED : Nat := 0x13
def stPOOL_EMPTY : Nat := 0x14
def stTAG_FAIL : Nat := 0x20
def stGRANULE_CORRUPT : Nat := 0x21
def stBUFFER_DATA_LOST : Nat := 0x22
def stMEDIUM_ERROR : Nat := 0x30
def stREWRITE_STORM : Nat := 0x31
def stVOLUME_MAP_CONFLICT : Nat := 0x32
def stNOT_SEALED : Nat := 0x40
def stMOTION_FAULT : Nat := 0x41
def stSAFE_STATE : Nat := 0x42
def stILLEGAL_COMMAND : Nat := 0x50
def stBAD_DESCRIPTOR : Nat := 0x51
def stEND_OF_MEDIUM : Nat := 0x60
def stFILEMARK : Nat := 0x61
def stEND_OF_DATA : Nat := 0x62
def stBLANK : Nat := 0x63

/-! ## State accessors -/

def setQue (q : QueSt) (s : State) : State := { s with que := q }
def setMtr (m : MtrSt) (s : State) : State := { s with mtr := m }
def setVol (v : VolSt) (s : State) : State := { s with vol := v }
def setFmt (f : FmtSt) (s : State) : State := { s with fmt := f }
def setEnc (e : EncSt) (s : State) : State := { s with enc := e }

/-- A tenant context. -/
def tenant (s : State) (n : Nat) : Tenant := Tbl.get {} s.ten n

def setTenant (n : Nat) (t : Tenant) (s : State) : State := { s with ten := Tbl.set s.ten n t }

/-- A side queue. -/
def side (s : State) (q : Nat) : SideQ := Tbl.get {} s.que.sides q

def setSide (q : Nat) (x : SideQ) (s : State) : State := setQue { s.que with sides := Tbl.set s.que.sides q x } s

/-! ## Brackets (R457–R461) -/

/-- The state with one bracket changed. -/
def onBracket (idx : Nat) (f : Bracket → Bracket) (s : State) : State :=
  setMtr { s.mtr with brackets := s.mtr.brackets.map fun b => if b.idx = idx then f b else b } s

/-- The state with a session's usage in a bracket changed. -/
def onUsage (idx sess : Nat) (f : Usage → Usage) (s : State) : State :=
  onBracket idx (fun b => { b with use := Tbl.set b.use sess (f (Tbl.get {} b.use sess)) }) s

/-- The bracket that entries now entering the stream join. -/
def bracketNow (s : State) : Nat := match s.mtr.brackets.getLast? with | some b => b.idx | none => 0

/-- A command is counted in its bracket when it executes: against its tenant's session, or against none (R458, R461). -/
def countCommand (e : QEntry) (s : State) : State :=
  let d := e.desc
  let t := tenant s (dTenant d)
  if usesTenant (dOpcode d) && t.state != 0 then onUsage e.bracket t.session (fun u => { u with commands := u.commands + 1 }) s
  else onBracket e.bracket (fun b => { b with noTenant := b.noTenant + 1 }) s

/-! ## Completing a command (R425, R440, R443, R447) -/

/-- The completion FIFO is full: no command completes (R425). -/
def outFull (s : State) : Bool := 1024 ≤ s.que.out.length

/-- A packet enters the completion FIFO. -/
def pushOut (p : OutPkt) (s : State) : State := setQue { s.que with out := s.que.out ++ [p] } s

/-- DATA_IN packets of a command are waiting to be sent (R419, R425). -/
def dinWaiting (q tag : Nat) (s : State) : Bool := s.que.din.any fun p => p.queue == q && p.tag == tag

/-- What a refused command counts and raises (R469, R472). -/
def noteReject (status : Nat) (s : State) : State :=
  if status = stBAD_DESCRIPTOR ∨ status = stILLEGAL_COMMAND then raiseC 0x69 0 0x08 noAcct 0 (incF Reg.REJECT_CNT s) else s

/-- The executing stream command is to complete with what its ExecSt holds: it does once its DATA_IN has been sent and there is room for
its COMPL and for a RETRACT before it (R419, R425, R428, R443). A READ's records and bytes count then (R458); a context that CLOSE_TENANT
has not closed returns to OPEN (R455). -/
def tryFinish (s : State) : State :=
  match s.que.exec with
  | none => s
  | some x =>
    let d := x.entry.desc
    if x.phase ≠ .sending ∨ outFull s ∨ dinWaiting 0 (dTag d) s then s
    else if x.retract.isSome ∧ 1023 ≤ s.que.out.length then s
    else
      let s := match x.retract with | some (f, l, r) => pushOut (.retract 0 (dTag d) f l r) s | none => s
      let s := if dOpcode d = opREAD ∧ (tenant s (dTenant d)).state ≠ 0 then
          onUsage x.entry.bracket (tenant s (dTenant d)).session
            (fun u => { u with rdPlain := u.rdPlain + x.bytes, rdRecords := u.rdRecords + x.count }) s
        else s
      let own := if x.status = stOK ∧ x.recovered then stOK_RECOVERED else x.status
      let st := match s.que.loss with | some (l, _, _) => if own ≤ 1 then l else own | none => own
      let rec_ := match s.que.loss with | some (_, r, _) => r | none => x.record
      let det := match s.que.loss with | some (_, _, dt) => if own ≤ 1 then dt else x.detail | none => x.detail
      let s := setQue { s.que with exec := none, loss := none, out := s.que.out ++ [.compl 0 (dTag d) st rec_ x.count x.bytes det] } s
      let back := dOpcode d == opCLOSE_TENANT && (tenant s (dTenant d)).state == 2
      let s := if back then setTenant (dTenant d) { tenant s (dTenant d) with state := 1 } s else s
      noteReject st (onBracket x.entry.bracket (fun b => { b with live := b.live - 1 }) s)

/-- The executing stream command ends with a status. -/
def endExec (status record count bytes detail : Nat) (s : State) : State :=
  match s.que.exec with
  | none => s
  | some x => tryFinish (setQue { s.que with exec := some { x with phase := .sending, status, record, count, bytes, detail } } s)

/-- The executing stream command, if it touches the medium, ends with a status and the fault code behind it (R447). -/
def failExec (status detail : Nat) (s : State) : State :=
  match s.que.exec with
  | none => s
  | some x => if touchesMedium (dOpcode x.entry.desc) then endExec status x.record x.count x.bytes detail s else s

/-- A side command completes at once with a status; its queue goes on (R444). -/
def finishSide (q status record count detail : Nat) (s : State) : State :=
  let z := side s q
  match z.exec with
  | none => s
  | some x =>
    if outFull s ∨ dinWaiting q (dTag x.entry.desc) s then
      setSide q { z with exec := some { x with phase := .sending, status, record, count, detail } } s
    else
      noteReject status (pushOut (.compl q (dTag x.entry.desc) status record count 0 detail) (setSide q { z with exec := none } s))

/-! ## Chains and halts (R442, R465) -/

/-- Every chain returns to its value after the tenant's last granule below a GSN (R465): later history is dropped. -/
def rollChains (gsn : Nat) (s : State) : State :=
  { s with ten := s.ten.map fun e =>
      let h := e.2.hist.filter fun x => x.1 < gsn
      (e.1, { e.2 with hist := h, chain := match h.getLast? with | some x => x.2 | none => e.2.eod }) }

/-- Granules and data sets that are not on tape before data set `m` are dropped, with their queued rewrites; the open granule too. Every
chain returns to its value before the first of those granules (R465). -/
def dropFrom (m : Nat) (s : State) : State :=
  let kept (g : Gran) : Bool := g.stage == .packed && g.dsn < m
  let s := match s.fmt.grans.find? fun g => !kept g with | some g => rollChains g.gsn s | none => s
  setFmt { s.fmt with
    openGran := none
    grans    := s.fmt.grans.filter kept
    sets     := s.fmt.sets.filter fun d => d.dsn < m
    rewrite  := s.fmt.rewrite.filter fun r => r.m < m
    c3Data   := s.fmt.c3Data.filter fun e => e.1 < m
    nextDsn  := m
    closeReq := false
    writing  := (match s.fmt.writing with | some w => if w < m then some w else none | none => none) } s

/-- The stream becomes halted with a status and the fault code behind it (R442). -/
def haltStream (status detail : Nat) (s : State) : State :=
  match s.que.halt with
  | some _ => s
  | none => raiseC 0x69 0 0x09 noAcct status (setQue { s.que with halt := some status, haltDet := detail } s)

/-- Something accepted has not yet been closed by a settled end-of-data map. -/
def unsettled (s : State) : Bool := !s.fmt.grans.isEmpty || s.fmt.openGran.isSome

/-- What is accepted from record `first` on is lost: the next stream command to complete carries the loss (R443). -/
def noteLoss (status first detail : Nat) (s : State) : State :=
  if unsettled s then setQue { s.que with loss := some (status, first, detail) } s else s

/-- The volume ends at the last end-of-data map: everything accepted and not closed by it is outside (R113, R442, R548), every chain
returns to it (R465), the command in progress completes with the status, and the stream is halted with it. -/
def endVolume (status detail : Nat) (s : State) : State :=
  let s := failExec status detail (noteLoss status s.vol.records detail s)
  let s := dropFrom 0 s
  haltStream status detail <| setFmt { s.fmt with
    nextDsn := s.vol.eodDsn, group := none, running := false, writing := none, repos := none, runup := none, nextFrame := s.vol.eodFrame, nextPass := s.vol.eodPass
    recDone := s.vol.records, fmDone := s.vol.filemarks, hdrGsn := s.vol.eodHdr, ending := none, closedUp := true }
    (setVol { s.vol with posRecord := s.vol.records, posFm := s.vol.filemarks, atEod := true } s)

end Sys2Proof.Machine
end

