-- ==== Sys2Proof/Machine/WriteOps.lean ====
section
/-!
DEFINITION. What the write path shares (spec/05, spec/08): the write gates and the conditions that close them (R166–R170), a row that fails
verify, is queued for rewrite or abandoned (R254–R263), rewrite storms (R267–R269), and the abort of the data set being written (R163, R264).
-/
namespace Sys2Proof.Machine

/-- One band's sequencer. -/
def band (s : State) (b : Nat) : BandSt := Tbl.get {} s.band b

def setBand (b : Nat) (x : BandSt) (s : State) : State := { s with band := Tbl.set s.band b x }

/-- The page of a band's sequencer, and of its read channel (R618). -/
def bseqPage (b : Nat) : Nat := 0x14 + b
def rchPage (b : Nat) : Nat := 0x40 + b

/-- A buffer of a sequencer: 0 A, 1 B. -/
def BandSt.buf (x : BandSt) (i : Nat) : BufSt := if i = 0 then x.a else x.b

def BandSt.setBuf (x : BandSt) (i : Nat) (f : BufSt) : BandSt := if i = 0 then { x with a := f } else { x with b := f }

/-- A buffer's origin, pass, READ, ROBUST and length (R144, R184). -/
def brdOrigin (s : State) (b i : Nat) : Nat := if i = 0 then getF s (Reg.BRD_ORIGIN_A b) else getF s (Reg.BRD_ORIGIN_B b)
def brdPass (s : State) (b i : Nat) : Nat := if i = 0 then getF s (Reg.BRD_INFO_A_PASS b) else getF s (Reg.BRD_INFO_B_PASS b)
def brdRead (s : State) (b i : Nat) : Bool := if i = 0 then getB s (Reg.BRD_INFO_A_READ b) else getB s (Reg.BRD_INFO_B_READ b)
def brdRobust (s : State) (b i : Nat) : Bool := if i = 0 then getB s (Reg.BRD_INFO_A_ROBUST b) else getB s (Reg.BRD_INFO_B_ROBUST b)
def brdLen (s : State) (b i : Nat) : Nat := if i = 0 then getF s (Reg.BRD_INFO_A_LEN b) else getF s (Reg.BRD_INFO_B_LEN b)

/-- Channel bits per frame of a board: a quarter in robust mode (R148). -/
def brdBits (s : State) (b i : Nat) : Nat := if brdRobust s b i then bandBits b / 4 else bandBits b

/-- The running board of a band is a write board in its main section (R166). -/
def inMain (s : State) (b : Nat) : Bool :=
  let x := band s b
  x.running && !x.hold && !x.tail && !brdRead s b x.cur

/-- A write board runs in the band (R166). -/
def writeBoardRuns (s : State) (b : Nat) : Bool :=
  let x := band s b
  x.running && !brdRead s b x.cur

/-! ## Safe states and the seal, as conditions -/

def s1InForce (s : State) : Bool := getB s Reg.SAFE_STATUS_S1
def s2InForce (s : State) : Bool := getB s Reg.SAFE_STATUS_S2
def s3InForce (s : State) : Bool := getB s Reg.SAFE_STATUS_S3
def safeInForce (s : State) : Bool := s1InForce s || s2InForce s || s3InForce s

/-- CONFIG_SEAL is set (R586). -/
def isSealed (s : State) : Bool := getB s Reg.SEC_STATUS_SEALED

/-! ## The write gate (R166–R170) -/

/-- POS is locked, and neither STALE nor COARSE (R156, R166). -/
def posGood (s : State) : Bool :=
  getB s Reg.POS_STATUS_LOCKED && !getB s Reg.POS_STATUS_STALE && !getB s Reg.POS_STATUS_COARSE

/-- The speed lies in the write window 1.40–6.30 m/s (R167); POS_SPEED is in µm/s. -/
def speedInWindow (s : State) : Bool :=
  let v := (getS s Reg.POS_SPEED).natAbs
  1400000 ≤ v && v ≤ 6300000

/-- The downlinks of the band's four HFEs are in RUN (R166). -/
def bandLinksRun (s : State) (b : Nat) : Bool := (List.range 4).all fun i => getF s (Reg.CL_STATE_DL (4 * b + i)) == 4

/-- Conditions that keep a band's gate closed, as WG_STATUS shows them (R166). -/
def wgClosedBy (s : State) (b : Nat) : Nat :=
  let x := band s b
  let w := writeBoardRuns s b && !x.hold
  b2n (!isSealed s) + 2 * b2n (safeInForce s) + 4 * b2n (!posGood s) + 8 * b2n (!speedInWindow s)
    + 16 * b2n (w && (getB s Reg.POS_STATUS_REVERSE != passReverse (brdPass s b x.cur)))
    + 32 * b2n (w && x.offFail) + 64 * b2n (!bandLinksRun s b) + 128 * b2n (!inMain s b)

/-- The key of a row in the lists of rows never fully recorded: data set, slot, track of the band (R254). -/
def rowKey (dsn slot k : Nat) : Nat := (dsn % 2 ^ 24 * 32 + slot) * 64 + k

/-- The slot of a row whose emission is under way, by key: the last row emission, unless it ended its row (R152, R169). -/
def openSlot (x : BandSt) : List Nat :=
  match x.emissions.find? fun e => e.op == 1 || e.op == 2 || e.op == 3 with
  | some e => if e.op = 3 ∧ 17408 ≤ e.arg + e.len then [] else [rowKey e.dsn e.slot 0]
  | none => []

/-- A band's open gate closes (R169, R170): the row under way is cut, and what its condition calls for is raised (R186). -/
def closeGate (b : Nat) (s : State) : State :=
  let x := band s b
  if !x.gateOpen then s
  else
    let c := wgClosedBy s b
    let s := notify (bseqPage b) 3 0 (incF (Reg.WG_CLOSE_CNT b) (setBand b { x with gateOpen := false, cut := openSlot x ++ x.cut } s))
    let s := if c.testBit 5 then raise (bseqPage b) 30 (faultCode 0 0x5 0x07) noAcct 0 s else s
    if c.testBit 3 then raise (bseqPage b) 30 (faultCode 0 0x5 0x08) noAcct 0 s else s

/-- The gates of all bands close. -/
def closeAllGates (s : State) : State := forEach (List.range 8) closeGate s

/-! ## Data sets -/

/-- A data set of the write flow. -/
def dataSet (s : State) (n : Nat) : Option DataSet := s.fmt.sets.find? fun d => d.dsn == n

/-! ## Repositioning (R49, R162, R182) -/

/-- The tape target that CMD commands, in µm/s. -/
def setTarget (v : Int) (s : State) : State := { s with mot := { s.mot with cmdTarget := v } }

/-- The frame `FRAMES` before an origin in the direction of a pass (R182). -/
def runupFrame (s : State) (pass origin : Nat) : Nat :=
  if passReverse pass then origin + getF s Reg.SPM_RUNUP else origin - getF s Reg.SPM_RUNUP

/-- The tape speed of a STEP, in µm/s (R181). -/
def stepSpeed (step : Nat) : Int := 1500000 + 300000 * (step : Int)

/-- CMD takes a tape that stands still to the run-up point, at the speed of the current STEP (R182; log entry: repositioning). -/
def travel (s : State) : State :=
  match s.fmt.runup with
  | none => s
  | some f =>
    if !getB s Reg.POS_STATUS_STILL ∨ safeInForce s ∨ (List.range 8).any (fun b => (band s b).running) then s
    else if s.pos.frame = f then setFmt { s.fmt with runup := none } s
    else
      let v := stepSpeed (getF s Reg.SPM_STATUS_STEP)
      setTarget (if s.pos.frame < f then v else -v) s

/-- The tape passes the run-up point on its way there: CMD stops it again (R182). -/
def travelled (s : State) : State :=
  match s.fmt.runup with
  | none => s
  | some f =>
    let there := if s.mot.cmdTarget < 0 then decide (s.pos.frame ≤ f) else decide (0 < s.mot.cmdTarget) && decide (f ≤ s.pos.frame)
    if there ∧ !(List.range 8).any (fun b => (band s b).running) then setTarget 0 (setFmt { s.fmt with runup := none } s) else s

/-- CMD repositions for the boards of data set `n`, of a pass and an origin: the tape is taken to the run-up point (R162, R182). While a band still
runs, the tape goes on until the run has ended. -/
def goBack (n pass origin : Nat) (s : State) : State :=
  let s := setFmt { s.fmt with repos := some n, runup := some (runupFrame s pass origin) } s
  if (List.range 8).any (fun b => (band s b).running) then s else travel (setTarget 0 s)

/-- The state with one data set changed. -/
def onSet (n : Nat) (f : DataSet → DataSet) (s : State) : State :=
  setFmt { s.fmt with sets := s.fmt.sets.map fun d => if d.dsn = n then f d else d } s

/-- What a data set keeps when its writing starts over: its payload, its origin and its storm count (R163, R264, R267). An end-of-data map names
its own place, which the new extensions before it may move: its payload is built again, with a new GENERATION if any of the old one may stand on
tape (R104, R112). -/
def DataSet.restart (d : DataSet) : DataSet :=
  { d with
    ready := d.ready && d.kind != .eodMap, map := if d.begun then none else d.map, compiled := false, begun := false, ended := [], ext := [], k := 0, passed := [], abandoned := [], miscomp := 0, seen := [], extSeen := 0, settled := false }

/-- Notes about the recording of rows of data sets that are written again, or released, no longer count (R169, R175, R178). -/
def dropKeys (ns : List Nat) (s : State) : State :=
  let gone (k : Nat) : Bool := ns.any fun n => n % 2 ^ 24 == k / 2048
  forEach (List.range 8) (fun b s =>
    let x := band s b
    setBand b { x with cut := x.cut.filter (!gone ·), filled := x.filled.filter (!gone ·), left := x.left.filter (!gone ·) } s) s

/-- Writing starts over at data set `m` (R163, R264, R267): it and the data sets behind it are compiled afresh, their verify outcomes and
queued rows discarded; the rewrites of earlier data sets that they were to carry return to the queue. What calibration has measured of them goes
(R234). -/
def restartFrom (m : Nat) (s : State) : State :=
  match dataSet s m with
  | none => s
  | some d =>
    let s := dropKeys (s.fmt.sets.filterMap fun x => if m ≤ x.dsn then some x.dsn else none) s
    let s := { s with rch := { s.rch with ctx := s.rch.ctx.filter fun c => c.read || c.dsn < m } }
    let s := { s with cal := { s.cal with acc := s.cal.acc.filter (fun x => x.read || x.dsn < m), frames := s.cal.frames.filter fun x => x.dsn < m } }
    let pass := if d.compiled then d.pass else s.fmt.nextPass
    let origin := if d.compiled then d.origin else s.fmt.nextFrame
    let back := s.fmt.sets.flatMap fun x => if m ≤ x.dsn then x.ext.filter fun e => e.m < m else []
    let kept := s.fmt.rewrite.filter fun r => r.m < m
    let again := (back.filter fun e => !kept.any fun r => r.m == e.m && r.g == e.g).map fun e => { m := e.m, g := e.g, tFail := e.tFail, rewr := e.rewr }
    goBack m pass origin <| setFmt { s.fmt with
      sets := s.fmt.sets.map (fun x => if m ≤ x.dsn then x.restart else x)
      rewrite := kept ++ again
      nextFrame := origin, nextPass := pass
      writing := none, running := (List.range 8).any (fun b => (band s b).running) } s

/-- The buffers that are armed and not running are disarmed: no board follows the running one (R159, R267). -/
def disarmNext (b : Nat) (s : State) : State :=
  let x := band s b
  forEach [0, 1] (fun i s =>
    if (x.buf i).armed ∧ !(x.running && x.cur == i) then
      notify (bseqPage b) i 0 (setBand b ((band s b).setBuf i { (band s b).buf i with armed := false }) s)
    else s) s

/-- The row that track `t`, slot `p` of data set `n` carries, with its rewrite count: a main row, or the rewrite placed in an extension
slot (R93, R260). -/
def rowAt (s : State) (n t p : Nat) : Option RwRow :=
  match dataSet s n with
  | none => none
  | some d =>
    if !d.compiled then none
    else if p < trackRows t then some { m := n, g := rowOfSlot t p, tFail := t, rewr := 0 }
    else match d.ext.find? fun x => x.t == t && x.e == p - trackRows t with
      | some x => some { m := x.m, g := x.g, tFail := t, rewr := x.rewr }
      | none => none

/-- Abandoned rows of a data set in one SDS (R263). -/
def abandonedIn (d : DataSet) (sds : Nat) : Nat := (d.abandoned.filter fun g => sdsOf g == sds).length

/-- ABANDON_MAX as it acts: a value above 8 is 8 (R283). -/
def abandonMax (s : State) : Nat := min (getF s Reg.RW_CTRL_ABANDON_MAX) 8

/-! ## Storms (R267–R269) -/

/-- The data sets of a closure before data set `m` (R268): the two C3 data sets and the end-of-data map, or, where no payload data set of the
group comes before `m`, the map alone. The counts are those of data set `m`. -/
def closureSets (m : Nat) (d : DataSet) : List DataSet :=
  let base := m / 32 * 32
  let map (n : Nat) : DataSet :=
    { dsn := n, kind := .eodMap, closed := true, firstGsn := d.firstGsn, recBefore := d.recBefore, fmBefore := d.fmBefore }
  if m = base then [map base]
  else [{ dsn := base + 30, kind := .c3, closed := true }, { dsn := base + 31, kind := .c3, closed := true }, map (base + 32)]

/-- The volume is closed before data set `m`, whose place is taken by the closure, and ends with a status once that closure has settled
(R268, R85). What the commands accepted and is not before `m` is lost. -/
def closeBefore (m status detail frame pass : Nat) (s : State) : State :=
  match dataSet s m with
  | none => s
  | some d =>
    let s := noteLoss status d.recBefore detail s
    let c := closureSets m d
    let s := forEach (List.range 8) disarmNext s
    let s := dropFrom m { s with rch := { s.rch with ctx := s.rch.ctx.filter fun c => c.read || c.dsn < m } }
    let s := match c.head? with | some x => goBack x.dsn pass frame s | none => s
    setVol { s.vol with posRecord := d.recBefore, posFm := d.fmBefore, atEod := true } <| setFmt { s.fmt with
      sets := s.fmt.sets ++ c, nextDsn := (match c.getLast? with | some x => x.dsn | none => m)
      recDone := d.recBefore, fmDone := d.fmBefore, hdrGsn := d.firstGsn
      ending := some (status, detail), group := none, running := false, writing := none
      closedUp := true, nextFrame := frame, nextPass := pass } s

/-- Housekeeping copy `c` is written with a map and verified (R112). -/
def writeCopy (m : VolMap) (c : Nat) (s : State) : State :=
  let l := s.vol.copies
  setVol { s.vol with copies := (l.filter fun x => x.copy < c) ++ [{ m with copy := c }] ++ l.filter fun x => c < x.copy } s

/-- The three housekeeping copies are written with a map, in the order 0, 1, 2 (R112). -/
def writeCopies (m : VolMap) (s : State) : State := forEach [0, 1, 2] (writeCopy m) s

/-- The closure of R268 has itself failed: writing in the user area stops, one DIRTY update names its first data set as the end of data, and
the command completes with MEDIUM_ERROR (R269). -/
def closureFailed (s : State) : State :=
  match s.fmt.sets.head? with
  | none => s
  | some d =>
    let s := dropFrom d.dsn s
    let gen := s.vol.highGen + 1
    let mp := s.vol.map.map fun v => { v with dirty := true, odd := [], gen, eodDsn := d.dsn, eodFrame := d.origin, eodPass := d.pass, nextGsn := s.vol.nextGsn }
    let s := setVol { s.vol with eodDsn := d.dsn, eodFrame := d.origin, eodPass := d.pass, highGen := gen, map := mp } s
    let s := match mp with | some v => writeCopies v s | none => s
    let s := setFmt { s.fmt with ending := none, group := none, running := false, writing := none, repos := none, runup := none, nextFrame := d.origin
                                 nextPass := d.pass } s
    haltStream stMEDIUM_ERROR (faultCode 3 0x7 0x0A) (failExec stMEDIUM_ERROR (faultCode 3 0x7 0x0A) s)

/-- A rewrite storm on data set `m` (R267), or the end of the volume before it when its storms are used up (R268). -/
def storm (m : Nat) (s : State) : State :=
  match dataSet s m with
  | none => s
  | some d =>
    if s.fmt.ending.isSome ∧ (d.kind = .c3 ∨ d.kind = .eodMap) then closureFailed s
    else
      if d.storms + 1 > getF s Reg.RW_CTRL_STORM_RETRY then closeBefore m stREWRITE_STORM (faultCode 3 0x7 0x0A) d.origin d.pass s
      else
        let s := raiseC 0x4A 3 0x0A noAcct m s
        let s := setF Reg.RW_STATUS_STORM_COUNT (d.storms + 1) (incF Reg.STORM_CNT s)
        let s := forEach (List.range 8) disarmNext s
        let s := onSet m (fun x => { x with storms := x.storms + 1 }) (restartFrom m s)
        setFmt { s.fmt with stormDsn := some m } s

/-- Row `g` of data set `m` is abandoned; too many in one SDS make a storm (R262, R263). -/
def abandonRow (m g : Nat) (s : State) : State :=
  match dataSet s m with
  | none => s
  | some d =>
    if d.passed.contains g ∨ d.abandoned.contains g then s
    else
      let s := setFmt { s.fmt with rewrite := s.fmt.rewrite.filter fun r => !(r.m == m && r.g == g) } s
      let s := onSet m (fun d => { d with abandoned := g :: d.abandoned }) s
      let s := raiseC 0x4A 2 0x09 noAcct m (incF Reg.RW_ABANDON_CNT s)
      if abandonMax s < abandonedIn d (sdsOf g) + 1 then storm m s else s

/-! ## Verify failures (R254, R257) -/

/-- The copy of a row on track `t`, slot `p` of data set `n` fails verify with a reason: it is counted and recorded, and its row is queued
for rewrite, or abandoned where the data set that carried it was the last that could (R257, R262). -/
def verifyFail (n t p reason : Nat) (s : State) : State :=
  match rowAt s n t p with
  | none => s
  | some r =>
    match dataSet s r.m with
    | none => s
    | some d =>
      let s := incF Reg.VFY_FAIL_CNT (incF Reg.VFY_ROWS_CNT s)
      let s := setF Reg.VFY_LAST_LO r.m s
      let s := setF Reg.VFY_LAST_HI_ROW (rowOf r.g) <| setF Reg.VFY_LAST_HI_SDS (sdsOf r.g) <| setF Reg.VFY_LAST_HI_REASON reason <|
        setF Reg.VFY_LAST_HI_TRACK t s
      let s := onSet n (fun d => if n = r.m then { d with seen := r.g :: d.seen } else { d with extSeen := d.extSeen + 1 }) s
      if d.passed.contains r.g ∨ d.abandoned.contains r.g ∨ s.fmt.rewrite.any (fun x => x.m == r.m && x.g == r.g) then s
      else if r.m + 4 ≤ n then abandonRow r.m r.g s
      else setFmt { s.fmt with rewrite := s.fmt.rewrite ++ [{ r with rewr := min (r.rewr + 1) 7 }] } s

/-- The tracks of a band that a mask selector names: 0 all 64, otherwise the band's TMASKk (R149). -/
def maskTracks (s : State) (b k : Nat) : List Nat :=
  if k = 0 then List.range 64
  else maskList 64 (getF s (Reg.TMASK_LO b (k - 1)) + 2 ^ 32 * getF s (Reg.TMASK_HI b (k - 1)))

/-- A window still open when the sequencer stops counts as a failed verify for its rows (R153, R254). -/
def failWindow (b : Nat) (w : Window) (s : State) : State :=
  if w.read then s else forEach w.tracks (fun k => verifyFail w.dsn (64 * b + k) w.slot 0x6) s

/-! ## Stopping and aborting (R163, R264) -/

/-- How often the data set on the ladder has been read on the rung in progress (R270). -/
def rungPass (s : State) : Nat := Tbl.get 0 s.rch.rung.passes (getF s Reg.RCV_DSN)

/-- A read run stopped before its end starts its rung afresh; the rows kept remain (R271, R273). -/
def rungAgain (s : State) : State := { s with rch := { s.rch with rung := { s.rch.rung with passes := [], ran := [] } } }

/-- A band's sequencer stops and both its buffers are disarmed; its gate closes and its open windows fail (R153, R159). -/
def stopBand (b : Nat) (s : State) : State :=
  let s := if (band s b).running ∧ brdRead s b (band s b).cur then rungAgain s else s
  let s := closeGate b s
  let x := band s b
  let s := x.windows.foldl (fun a w => failWindow b w a) s
  let s := if x.a.armed || (x.running && x.cur == 0) then notify (bseqPage b) 0 0 s else s
  let s := if x.b.armed || (x.running && x.cur == 1) then notify (bseqPage b) 1 0 s else s
  let x := band s b
  setBand b { x with running := false, hold := false, tail := false, second := false, index := 0, loops := [], emissions := [], emitted := false
                     windows := []
                     a := { x.a with armed := false }, b := { x.b with armed := false } } s

/-- A stop of the tape that the speed matcher did not plan, while a write run is in progress (R161). -/
def countStop (s : State) : State := if s.fmt.running then incF Reg.SPM_BACKHITCH_CNT s else s

/-- A band emits a board that the host wrote (R163, R185). -/
def hostEmits (s : State) (b : Nat) : Bool := inMain s b && ((band s b).buf (band s b).cur).dsn.isNone

/-- Some band emits a board that CH4b compiled. -/
def setEmits (s : State) : Bool := (List.range 8).any fun b => inMain s b && ((band s b).buf (band s b).cur).dsn.isSome

/-- The data set being written is aborted (R163, R264): every sequencer stops and disarms, its verify outcomes are discarded and its queued
rows leave the queue; it is written again from the same origin after a reposition. In the tail nothing is aborted any more (R186). Boards that the
host wrote are stopped and disarmed likewise. -/
def abortDataSet (s : State) : State :=
  match (if setEmits s then s.fmt.writing else none) with
  | none => forEach (List.range 8) (fun b s => if hostEmits s b then stopBand b s else s) s
  | some w => restartFrom w (forEach (List.range 8) stopBand (countStop s))

/-- The verify windows that are open count as failed (R153, R186). -/
def failWindows (b : Nat) (s : State) : State :=
  let s := (band s b).windows.foldl (fun a w => failWindow b w a) s
  setBand b { band s b with windows := (band s b).windows.filter fun w => w.read } s

/-- The write gates of all bands close and the data set being written is aborted (R47, R545); in a tail section the open windows count as failed
(R186). -/
def closeAndAbort (s : State) : State :=
  forEach (List.range 8) (fun b s => if (band s b).tail then failWindows b s else s) (abortDataSet (closeAllGates s))

end Sys2Proof.Machine
end

