-- ==== Sys2Proof/Machine/Safe.lean ====
section
/-!
DEFINITION. Entry into the safe states (R545–R548), shared by every cause that brings one.
-/
namespace Sys2Proof.Machine

/-- The causes cleared only by PORST_N (R558): LS_MISMATCH, CLK_FAIL, ISLAND_OSC_FAIL, SAFE_CFG_MISMATCH, MEM_SYS_UE, and WCODE_UE and
FIFO_OVERRUN of any unit. -/
def porstOnly (code : Nat) : Bool :=
  [0x4001, 0x4002, 0x4003, 0x4102, 0x4A06].contains code || code % 0x100 == 0xF1 || code % 0x100 == 0xF2

/-- The latest safe-state cause is recorded, and the entry counted if the state was not yet in force (R567). A running injection stops (R537). -/
def noteSafe (f : Fld) (code : Nat) (s : State) : State :=
  let s := setF Reg.INJ_CTRL_RUN 0 s
  let s := if porstOnly code then { s with evt := { s.evt with latched := code :: s.evt.latched.filter fun c => c != code } } else s
  let s := if getB s f then s else incF Reg.STOP_CNT (setF f 1 s)
  setB Reg.SAFE_CAUSE_PORST_ONLY (porstOnly code) (setF Reg.SAFE_CAUSE_CODE code s)

/-- S1 or S2 ends the stream command in progress with MOTION_FAULT (R503, R526, R547). -/
def motionFault (code : Nat) (s : State) : State := failExec stMOTION_FAULT code s

/-- Entry into S1 (R545): the gates close, the data set being written is aborted, and the tape target becomes 0 (R517 reads S1). -/
def enterS1 (code : Nat) (s : State) : State := motionFault code (closeAndAbort (noteSafe Reg.SAFE_STATUS_S1 code s))

/-- Entry into S2 (R545): STO on both inverters and both H-bridges, the stop recorded as uncontrolled; gates and data set as for S1. -/
def enterS2 (code : Nat) (s : State) : State :=
  let was := s2InForce s
  let s := noteSafe Reg.SAFE_STATUS_S2 code s
  let s := setF Reg.SAFE_STATUS_UNCONTROLLED 1 (setF Reg.SAFE_STATUS_STO_ACT 1 (setF Reg.SAFE_STATUS_STO_REELS 1 s))
  let s := if was then s else incF Reg.UNCTRL_CNT s
  motionFault code (closeAndAbort s)

/-- Entry into S3 (R545, R547, R548): the sequencers stop and disarm; the stream command in progress completes with SAFE_STATE and the
queue is halted with it; data sets not settled lie outside the volume and every chain returns to the last valid end-of-data map. -/
def enterS3 (code : Nat) (s : State) : State :=
  let s := closeAllGates (noteSafe Reg.SAFE_STATUS_S3 code s)
  let s := forEach (List.range 8) stopBand s
  endVolume stSAFE_STATE code s

end Sys2Proof.Machine
end

