-- ==== Sys2Proof/Machine/Position.lean ====
section
/-!
DEFINITION. The position unit and the servo readers (spec/02): decoding a servo frame (R36–R39), the lateral position (R40–R42), which
readers are qualified (R43), lock and its loss (R45–R47), coarse counting (R48, R49) and standstill (R50).
-/
namespace Sys2Proof.Machine

def setPos (p : PosSt) (s : State) : State := { s with pos := p }

/-! ## Servo identity (R36–R39) -/

/-- Symbols `i` to `i + n - 1` of a servo frame, most significant first (R36). -/
def servoField (symbols : BitVec 64) (i n : Nat) : Nat := slice symbols.toNat (64 - i - n) n

/-- The number that a Gray code of 7 bits stands for (R37). -/
def grayDecode (g : Nat) : Nat := g ^^^ (g / 2) ^^^ (g / 4) ^^^ (g / 8) ^^^ (g / 16) ^^^ (g / 32) ^^^ (g / 64)

/-- The stripe and frame number of a valid servo frame of a band (R39); none when it is invalid. -/
def servoIdentity (band : Nat) (symbols : BitVec 64) : Option (Nat × Nat) :=
  let lat := servoField symbols 8 12
  let stripe := grayDecode (lat / 2 % 128)
  let crc := servoCrc (msbBits 44 (servoField symbols 8 44))
  if crc = servoField symbols 52 8 ∧ popCount 12 lat % 2 = 0 ∧ lat / 256 = band ∧ stripe ≤ 95 then some (stripe, servoField symbols 20 32) else none

/-! ## Lateral position (R40, R41) -/

/-- The quotient of R40 in 16 fractional bits, truncated towards zero. -/
def servoRatio (p q : Nat) : Int := tdiv (((p : Int) - q) * 65536) (p + q)

/-- The lateral position of a reader on stripe `s`, in LU (R40); none where R41 computes none. -/
def lateral (s a b c d kab kcd : Nat) : Option Int :=
  if a + b = 0 then none
  else
    let pab := servoRatio a b
    if pab.natAbs ≤ 32768 then some (rdiv ((1024 * s : Nat) * 65536 + kab * pab) 65536)
    else if c + d = 0 then none
    else some (rdiv ((1024 * s : Nat) * 65536 + sgn pab * (512 * 65536 - kcd * servoRatio c d)) 65536)

/-! ## Registers by reader -/

def svRdEn (band r : Nat) : Fld := if r = 0 then Reg.SV_CTRL_RD0_EN band else Reg.SV_CTRL_RD1_EN band
def svRdQual (band r : Nat) : Fld := if r = 0 then Reg.SV_STATUS_RD0_QUAL band else Reg.SV_STATUS_RD1_QUAL band
def svStripe (band r : Nat) : Fld := if r = 0 then Reg.SV_STATUS_RD0_STRIPE band else Reg.SV_STATUS_RD1_STRIPE band
def svLat (band r : Nat) : Fld := if r = 0 then Reg.SV_LAT0 band else Reg.SV_LAT1 band
def svKab (band r : Nat) : Fld := if r = 0 then Reg.SV_KAB_ACT_RD0 band else Reg.SV_KAB_ACT_RD1 band
def svKcd (band r : Nat) : Fld := if r = 0 then Reg.SV_KCD_ACT_RD0 band else Reg.SV_KCD_ACT_RD1 band
def svIdErr (band r : Nat) : Fld := if r = 0 then Reg.SV_IDERR_CNT_RD0 band else Reg.SV_IDERR_CNT_RD1 band
def slState (r : Nat) : Fld := if r = 0 then Reg.SL_STATE_LINK0 else Reg.SL_STATE_LINK1
def slCrc (r : Nat) : Fld := if r = 0 then Reg.SL_CRC_LINK0 else Reg.SL_CRC_LINK1

/-- The page of a servo band. -/
def servoPage (band : Nat) : Nat := 0x09 + band

def reader (s : State) (band r : Nat) : RdSt := Tbl.get {} s.pos.readers (2 * band + r)

def setReader (band r : Nat) (x : RdSt) (s : State) : State := setPos { s.pos with readers := Tbl.set s.pos.readers (2 * band + r) x } s

/-- A reader may be qualified: its page runs, it is enabled, and its servo uplink is in RUN (R43, R79, R608). -/
def readerUp (s : State) (band r : Nat) : Bool := pageRuns s (servoPage band) && getB s (svRdEn band r) && getF s (slState r) == 4

/-- A reader is qualified (R43). -/
def readerQual (s : State) (band r : Nat) : Bool :=
  let x := reader s band r
  readerUp s band r && getF s (Reg.SV_AMP_MIN band) ≤ x.amp && x.sinceId ≤ 15

/-- The qualified readers that feed the position unit (R43, R44, R55). -/
def qualCount (s : State) : Nat := ((List.range 18).filter fun i => readerQual s (i / 2) (i % 2)).length

/-- RDr_QUAL and POS_STATUS.QUAL follow the readers (R43). -/
def requalify (s : State) : State :=
  let s1 := forEach (List.range 18) (fun i a => setB (svRdQual (i / 2) (i % 2)) (readerQual s (i / 2) (i % 2)) a) s
  setF Reg.POS_STATUS_QUAL (qualCount s) s1

/-- MIN_READERS as it acts: 0 and 1 are 2, and a value above 18 is 18 (R55). -/
def minReaders (s : State) : Nat := clampN 2 18 (getF s Reg.POS_CTRL_MIN_READERS)

/-- Qualified readers whose POS_READER_EN bit lets them feed the PLL, by 2 × band + reader (R43, R44, R55). -/
def pllReaders (s : State) : List Nat :=
  (List.range 18).filter fun i => readerQual s (i / 2) (i % 2) && (getF s Reg.POS_READER_EN).testBit i

/-- The symbols of a servo frame in recorded order: in reverse they arrive in the opposite order (R36). -/
def recordedSymbols (s : State) (symbols : BitVec 64) : BitVec 64 :=
  if getB s Reg.POS_STATUS_REVERSE then BitVec.ofNat 64 (natOfMsb (lsbBits 64 symbols.toNat)) else symbols

/-- The reader's lateral position of this frame takes effect, or is held back as a jump (R42). A reader's first position has no previous one and
takes effect; a frame without a position between two that jump leaves the first jump standing (log entry: lateral jumps). -/
def takeLat (band r : Nat) (v : Int) (s : State) : State :=
  let x := reader s band r
  let old := getS s (svLat band r)
  if x.hasLat ∧ 768 < (v - old).natAbs ∧ !x.held then
    raiseC (servoPage band) 0 0x04 noAcct 0 (setF (Reg.SV_STATUS_LAT_JUMP band) 1 (setReader band r { x with held := true, latOk := true } s))
  else setS (svLat band r) v (setReader band r { x with held := false, hasLat := true, latOk := true } s)

/-- A servo reader's frame is decoded (R39–R43). -/
def servoFrame (band r : Nat) (symbols : BitVec 64) (tone a b c d : Nat) (s : State) : State :=
  if band < 9 ∧ r < 2 ∧ pageRuns s (servoPage band) ∧ getF s (slState r) = 4 then
    let x := reader s band r
    let s :=
      match servoIdentity band (recordedSymbols s symbols) with
      | none => incF (svIdErr band r) (setReader band r { x with amp := tone, sinceId := min (x.sinceId + 1) 255 } s)
      | some (stripe, frame) =>
        let s := setF (svStripe band r) stripe (setReader band r { x with amp := tone, sinceId := 0, hasStripe := true } s)
        let s := setPos { s.pos with anyId := true } s
        if readerQual s band r then setPos { s.pos with votes := s.pos.votes ++ [frame] } s else s
    let x := reader s band r
    let s :=
      match (if x.hasStripe then lateral (getF s (svStripe band r)) a b c d (getF s (svKab band r)) (getF s (svKcd band r)) else none) with
      | none => setReader band r { x with latOk := false, counts := false } s
      | some v =>
        let s := takeLat band r v s
        let x := reader s band r
        setReader band r { x with counts := !x.held && decide ((servoRatio a b).natAbs ≤ 32768) } s
    requalify s
  else s

/-! ## Lock, its loss, frame slips (R45–R47) -/

/-- What loss of lock and a frame slip bring (R47): STALE, the gates closed, the data set being written aborted. -/
def posLoss (s : State) : State := closeAndAbort (setF Reg.POS_STATUS_STALE 1 s)

/-- The conditions of R45 for lock: enough qualified readers, and an RMS phase error below 4 ticks over the last 16 frames. -/
def lockOk (s : State) : Bool :=
  decide (minReaders s ≤ qualCount s) && s.pos.sqHist.length == 16 &&
    decide (sumN (s.pos.sqHist.map Prod.fst) < 2 ^ 20 * sumN (s.pos.sqHist.map Prod.snd))

/-- The conditions of R45 for its loss: an error beyond 16 ticks on 4 clock cycles in a row, or too few qualified readers on 2. -/
def lockBad (s : State) : Bool := decide (4 ≤ s.pos.bad) || decide (2 ≤ s.pos.short)

/-- POS loses lock (R45, R47). -/
def posLockLost (s : State) : State :=
  if getB s Reg.POS_STATUS_LOCKED ∧ lockBad s then
    posLoss (raiseB 0x08 0 2 0x01 noAcct 0 (setF Reg.POS_STATUS_LOCKED 0 s))
  else s

/-- The count is reloaded from the identities (R46, R47): a slip, but in COARSE not for a difference of up to 8 frames (R48). -/
def reloadCount (m : Nat) (s : State) : State :=
  let far := 8 < ((m : Int) - s.pos.frame).natAbs
  let coarse := getB s Reg.POS_STATUS_COARSE
  let s := setPos { s.pos with frame := m % 2 ^ 32, disagree := 0, noId := 0 } s
  if coarse ∧ !far then s else posLoss (raiseB 0x08 2 2 0x03 noAcct m (incF Reg.POS_SLIP_CNT s))

/-- After three disagreeing frames the count is reloaded from the majority (R46, R47). -/
def frameSlip (s : State) : State :=
  match (if 3 ≤ s.pos.disagree then s.pos.majority else none) with
  | some m => reloadCount m s
  | none => s

/-- 64 frames without a valid identity from any reader (R79): the gates close as for R47; POS keeps counting. -/
def servoIdLost (s : State) : State :=
  if 64 ≤ s.pos.noId then
    let s := raiseB 0x08 3 2 0x05 noAcct 0 (setPos { s.pos with noId := 0 } s)
    closeAndAbort s
  else s

/-! ## Coarse counting (R48, R49) -/

/-- Below 0.2 m/s POS counts from the tape-coupled estimate (R48). -/
def coarseEnter (speed : Int) (s : State) : State :=
  if getB s Reg.POS_CTRL_EN ∧ !getB s Reg.POS_STATUS_COARSE ∧ speed.natAbs < 200000 then
    notify 0x08 5 1 (setPos { s.pos with coarseRun := 0 } (setF Reg.POS_STATUS_COARSE 1 (setF Reg.POS_STATUS_LOCKED 0 (setS Reg.POS_SPEED speed s))))
  else s

/-- POS gains lock (R45, R47): LOCKED set, STALE cleared, the event recorded if it was not locked. -/
def lockGained (s : State) : State :=
  let was := getB s Reg.POS_STATUS_LOCKED
  let s := setPos { s.pos with everLocked := true, retried := false, retryFrame := none, bad := 0, short := 0 } s
  let s := setF Reg.POS_STATUS_STALE 0 (setF Reg.POS_STATUS_LOCKED 1 s)
  if was then s else notify 0x08 4 0 s

/-- Above 0.3 m/s POS reacquires lock, reconciles the frame count with the identities' majority, and clears COARSE (R45, R48). A difference of
more than 8 frames is a slip. -/
def coarseExit (speed : Int) (s : State) : State :=
  match (if getB s Reg.POS_STATUS_COARSE ∧ 300000 < speed.natAbs ∧ lockOk s then s.pos.majority else none) with
  | none => s
  | some m => notify 0x08 5 0 (setF Reg.POS_STATUS_COARSE 0 (reloadCount m (lockGained (setS Reg.POS_SPEED speed s))))

/-- No relock within POS_RELOCK_FRM coarse frames (R49): CMD stops the tape and retries once from 100 frames back; a second failure ends the
stream command with MEDIUM_ERROR, and during writing the volume too (R442). -/
def posLockFail (s : State) : State :=
  if getB s Reg.POS_STATUS_COARSE ∧ !getB s Reg.POS_STATUS_LOCKED ∧ getF s Reg.POS_RELOCK_FRM ≤ s.pos.coarseRun then
    let s := raiseB 0x08 1 3 0x02 noAcct s.pos.coarseRun (setPos { s.pos with coarseRun := 0 } s)
    if s.pos.retried then
      let writing := s.fmt.running || s.fmt.writing.isSome || s.fmt.repos.isSome
      let s := setPos { s.pos with retried := false, retryFrame := none } s
      if writing then endVolume stMEDIUM_ERROR (faultCode 3 0x3 0x02) s else failExec stMEDIUM_ERROR (faultCode 3 0x3 0x02) s
    else
      let back := if getB s Reg.POS_STATUS_REVERSE then s.pos.frame + 100 else s.pos.frame - 100
      setTarget 0 (setFmt { s.fmt with runup := some back } (setPos { s.pos with retried := true, retryFrame := some back } s))
  else s

/-! ## Standstill (R50) -/

/-- The first counted clock cycle clears STILL (R50). -/
def stillClear (reverse : Bool) (speed : Int) (s : State) : State :=
  if getB s Reg.POS_STATUS_STILL then setF Reg.POS_STATUS_STILL 0 (setB Reg.POS_STATUS_REVERSE reverse (setS Reg.POS_SPEED speed s)) else s

/-! ## The PLL (R28, R44, R45, R47) -/

/-- The count moves by a distance in 1/48,828,125 tick. It does not leave its frame: passing a frame boundary is an event of its own. -/
def advanceTick (d : Int) (p : PosSt) : PosSt :=
  let x := clampI 0 (4096 * 48828125 - 1) ((p.tick * 48828125 + p.sub : Nat) + d)
  { p with tick := x.toNat / 48828125, sub := x.toNat % 48828125 }

/-- The mean phase error of the readers that feed the PLL, with equal weight; none while no reader gives samples (R44, R70). -/
def phaseMean (s : State) : Option Int :=
  let l := (pllReaders s).filterMap fun i =>
    ((Tbl.get [] s.pos.samples (i % 2))[i / 2]?).map fun b => Config.phaseError ((List.range 8).map fun k => BitVec.ofNat 8 (b.toNat / 2 ^ (8 * k))) s.pos.tick
  if l = [] then none else some (tdiv (sumI l) l.length)

/-- 40 ns of tape: the count moves on, steered by the phase error; in STALE by the last speed estimate alone, and in COARSE not here (R44, R47,
R48). When a clock cycle ends, its error and its readers are judged (R45). -/
def pllStep (s : State) : State :=
  if !pageRuns s 0x08 ∨ !getB s Reg.POS_CTRL_EN then s
  else
    let e := phaseMean s
    let steer := match e with | some x => if getB s Reg.POS_STATUS_STALE then 0 else Config.pllSteer x | none => 0
    let p := { s.pos with err := e.getD s.pos.err }
    let p := if getB s Reg.POS_STATUS_COARSE then p else advanceTick (32 * getS s Reg.POS_SPEED + steer) p
    let c := p.tick / 64
    setPos (if c = p.cycle then p
      else { p with
        cycle := c, bad := (if 4096 < p.err.natAbs then p.bad + 1 else 0), short := (if qualCount s < minReaders s then p.short + 1 else 0)
        sq := (p.sq.1 + p.err.natAbs * p.err.natAbs, p.sq.2 + 1) }) s

/-! ## Servo uplink bursts (R60, R69, R70) -/

/-- Bytes of link blocks, byte 0 of each first (R60). -/
def blockBytes (l : List (BitVec 64)) : List Byte := l.flatMap fun b => leBytes 8 b.toNat

/-- The CRC-32 of a burst whose last block is its trailer (R60). -/
def burstCrc (l : List (BitVec 64)) : Nat :=
  crc32 (blockBytes l.dropLast ++ leBytes 4 (l.getLastD 0).toNat)

/-- A burst's CRC holds: its trailer carries the CRC of the rest (R60). -/
def burstCrcOk (l : List (BitVec 64)) : Bool := (l.getLastD 0).toNat / 2 ^ 32 == burstCrc l

/-- The blocks are a servo burst of a link: header type 0xB4 with its link number, 9 data blocks, trailer type 0x5A, and the CRC (R59, R60,
R69). -/
def servoBurstOk (link : Nat) (blocks : List (BitVec 64)) : Bool :=
  blocks.length == 11 && burstCrcOk blocks && (blocks.headD 0).toNat % 2 ^ 9 == 0xB4 + link * 2 ^ 8 && (blocks.getLastD 0).toNat % 2 ^ 8 == 0x5A

/-- A servo burst is received: its samples are used, or discarded (R70). The first burst after RUN may carry any counter; after one that fails,
the counter is expected 8 further on (log entry: burst numbering). -/
def servoSamples (link : Nat) (blocks : List (BitVec 64)) (s : State) : State :=
    let want := Tbl.get none (s.pos.expect.map fun e => (e.1, some e.2)) link
    if servoBurstOk link blocks then
      let ctr := (blocks.headD 0).toNat / 2 ^ 32
      let ok := match want with | some w => ctr == w | none => true
      setPos { s.pos with
        expect  := Tbl.set s.pos.expect link ((ctr + 8) % 2 ^ 32)
        samples := Tbl.set s.pos.samples link (if ok then (blocks.drop 1).take 9 else []) } s
    else
      let s := incF (slCrc link) s
      setPos { s.pos with
        expect  := (match want with | some w => Tbl.set s.pos.expect link ((w + 8) % 2 ^ 32) | none => s.pos.expect)
        samples := Tbl.set s.pos.samples link [] } s

/-- A servo burst covers 40 ns: the PLL takes one step for it. Of two links that run, link 0 sets the pace. -/
def servoBurst (link : Nat) (blocks : List (BitVec 64)) (s : State) : State :=
  if link < 2 ∧ getF s (slState link) = 4 then
    let s := servoSamples link blocks s
    if link = 0 ∨ getF s (slState 0) ≠ 4 then pllStep s else s
  else s

/-! ## Meanings -/

/-- SERVO_FRAME_DECODED. -/
def execServoFrameDecoded (band reader : Nat) (symbols : BitVec 64) (tone a b c d : Nat) (s : State) : Host.Outcome State Fault Refusal :=
  .next (servoFrame band reader symbols tone a b c d s)

/-- POS_LOCK_LOST. -/
def execPosLockLost (s : State) : Host.Outcome State Fault Refusal := .next (posLockLost s)

/-- FRAME_SLIP. -/
def execFrameSlip (s : State) : Host.Outcome State Fault Refusal := .next (frameSlip s)

/-- POS_COARSE_ENTER. -/
def execPosCoarseEnter (speed : Int) (s : State) : Host.Outcome State Fault Refusal := .next (coarseEnter speed s)

/-- POS_COARSE_EXIT. -/
def execPosCoarseExit (speed : Int) (s : State) : Host.Outcome State Fault Refusal := .next (coarseExit speed s)

/-- POS_LOCK_FAIL. -/
def execPosLockFail (s : State) : Host.Outcome State Fault Refusal := .next (posLockFail s)

/-- POS_STILL_CLEAR. -/
def execPosStillClear (reverse : Bool) (speed : Int) (s : State) : Host.Outcome State Fault Refusal := .next (stillClear reverse speed s)

/-- SERVO_ID_LOST. -/
def execServoIdLost (s : State) : Host.Outcome State Fault Refusal := .next (servoIdLost s)

/-- SERVO_BURST_RECEIVED. -/
def execServoBurstReceived (link : Nat) (blocks : List (BitVec 64)) (s : State) : Host.Outcome State Fault Refusal :=
  .next (servoBurst link blocks s)

end Sys2Proof.Machine
end

