-- ==== Sys2Proof/Machine/Carriage.lean ====
section
/-!
DEFINITION. The carriage links (spec/02): link training (R76–R78), management traffic and APPLY (R71–R75), and the downlink bursts with the
write bits, precompensation codes and gate (R61–R63, R166–R172).
-/
namespace Sys2Proof.Machine

def setLinks (l : LinkSt) (s : State) : State := { s with links := l }

def hfeSt (s : State) (n : Nat) : HfeSt := Tbl.get {} s.links.hfe n

def setHfe (n : Nat) (h : HfeSt) (s : State) : State := setLinks { s.links with hfe := Tbl.set s.links.hfe n h } s

/-- The page of an HFE. -/
def hfePage (n : Nat) : Nat := 0x20 + n

/-! ## Blocks (R59, R60, R71, R74) -/

/-- A 64-bit block whose bits [63:56] carry the CRC-8 of its first seven bytes (R60). -/
def withCrc8 (v : Nat) : BitVec 64 := BitVec.ofNat 64 (v % 2 ^ 56 + crc8 (leBytes 7 v) * 2 ^ 56)

/-- A block's CRC-8 holds (R60). -/
def crc8Ok (b : BitVec 64) : Bool := b.toNat / 2 ^ 56 == crc8 (leBytes 7 b.toNat)

/-- A management request block (R71). -/
def mgmtBlock (r : MgmtReq) : BitVec 64 :=
  withCrc8 (0x96 + b2n r.write * 2 ^ 8 + r.tag % 128 * 2 ^ 9 + r.addr % 256 * 2 ^ 16 + r.data % 2 ^ 32 * 2 ^ 24)

/-- An APPLY block (R74). -/
def applyBlock (hfe bit frame seq : Nat) : BitVec 64 :=
  withCrc8 (0xA7 + hfe % 32 * 2 ^ 8 + bit % 2 ^ 13 * 2 ^ 16 + frame % 2 ^ 16 * 2 ^ 32 + seq % 256 * 2 ^ 48)

/-- The idle and the align block (R59). -/
def idleBlock : BitVec 64 := 0x1E
def alignBlock : BitVec 64 := 0xE1

/-- A payload through the self-synchronising scrambler x^58 + x^39 + 1, bit 0 first (R59): what goes out, and the scrambler after it. -/
def scramble (st payload : Nat) : Nat × Nat :=
  (List.range 64).foldl (fun a i =>
    let b := (payload.testBit i != a.2.testBit 38) != a.2.testBit 57
    (a.1 + b2n b * 2 ^ i, (a.2 * 2 + b2n b) % 2 ^ 58)) (0, st)

/-- Blocks go out on an HFE's downlink, each with its sync header: 0b01 before a data block, 0b10 before a control block (R59). -/
def sendLine (n : Nat) (l : List (Bool × BitVec 64)) (s : State) : State :=
  let h := hfeSt s n
  let r := l.foldl (fun (a : List (BitVec 66) × Nat) (e : Bool × BitVec 64) =>
    let x := scramble a.2 e.2.toNat
    (a.1 ++ [BitVec.ofNat 66 (x.1 * 4 + (if e.1 then 2 else 1))], x.2)) ([], h.scr)
  setHfe n { h with line := r.1, scr := r.2 } s

/-! ## Sending in order, under tokens (R72, R75) -/

/-- Sends what may go, oldest first: APPLY blocks at once, requests while fewer than 8 are outstanding (R72, R75). -/
def pumpItems (h : HfeSt) : List HItem → HfeSt
  | [] => { h with wait := [] }
  | .apply b :: t => pumpItems { h with blocks := h.blocks ++ [b] } t
  | .req r :: t =>
    if h.out.length < 8 then pumpItems { h with out := h.out ++ [r], blocks := h.blocks ++ [mgmtBlock r] } t
    else { h with wait := .req r :: t }

/-- An HFE's waiting items are sent as far as its tokens allow. -/
def pumpHfe (n : Nat) (s : State) : State := let h := hfeSt s n; setHfe n (pumpItems h h.wait) s

/-- A management write of an HFE register (R73): its word address is its page offset divided by four. -/
def mgmtWrite (n off data : Nat) (s : State) : State :=
  let h := hfeSt s n
  let r : MgmtReq := { tag := h.nextTag % 128, write := true, addr := off / 4, data, tries := 0 }
  pumpHfe n (setHfe n { h with nextTag := h.nextTag + 1, wait := h.wait ++ [.req r] } s)

/-- A management read of an HFE register (R73). -/
def mgmtRead (n off : Nat) (s : State) : State :=
  let h := hfeSt s n
  let r : MgmtReq := { tag := h.nextTag % 128, write := false, addr := off / 4, data := 0, tries := 0 }
  pumpHfe n (setHfe n { h with nextTag := h.nextTag + 1, wait := h.wait ++ [.req r] } s)

/-- An APPLY for an HFE at a channel bit (R74). -/
def sendApply (n bit frame seq : Nat) (s : State) : State :=
  let h := hfeSt s n
  pumpHfe n (setHfe n { h with wait := h.wait ++ [.apply (applyBlock n bit frame seq)] } s)

/-- A writer or reader register of an HFE page has changed: it is forwarded, and while the band's sequencer is idle an APPLY for the next
burst follows (R73, R173): at the bit at which the next burst begins, or at bit 0 of the present frame before the first burst. -/
def forwardHfe (n off : Nat) (s : State) : State :=
  let s := mgmtWrite n off (rd s (0x1000 * hfePage n + off)).toNat s
  if (band s (n / 4)).running then s
  else
    let h := hfeSt s n
    let place := h.nextAt.getD (s.pos.frame, 0)
    sendApply n place.2 place.1 h.applySeq (setHfe n { h with applySeq := h.applySeq + 1 } s)

/-! ## Link states (R76–R78) -/

/-- The state field of a link: 3n + l of HFE n (l = 0 down, 1 and 2 the uplinks), 96 + r for servo uplink r. -/
def linkState (link : Nat) : Fld :=
  if 96 ≤ link then slState (link - 96)
  else if link % 3 = 0 then Reg.CL_STATE_DL (link / 3) else if link % 3 = 1 then Reg.CL_STATE_UL0 (link / 3) else Reg.CL_STATE_UL1 (link / 3)

def linkAttempts (s : State) (link : Nat) : Nat := Tbl.get 0 s.links.attempts link

def setAttempts (link n : Nat) (s : State) : State := setLinks { s.links with attempts := Tbl.set s.links.attempts link n } s

/-- The permission bit of a carriage link; a servo uplink's is POS_CTRL.EN (R76, R78). Clearing POS_CTRL.EN leaves a servo uplink that has left OFF
in its state (log entry: link permissions). -/
def linkEnable (link : Nat) : Fld :=
  if 96 ≤ link then Reg.POS_CTRL_EN
  else if link % 3 = 0 then Reg.CL_CTRL_DL_EN (link / 3) else if link % 3 = 1 then Reg.CL_CTRL_UL0_EN (link / 3) else Reg.CL_CTRL_UL1_EN (link / 3)

/-- The uplink of the module downstream on a pass: module 1 on even passes, module 0 on odd ones (R68). -/
def downstream (pass link : Nat) : Bool := if passReverse pass then link % 3 == 1 else link % 3 == 2

/-- CHn runs an uplink (R68): in a write run only the one of the downstream module, and the other while that one is not in RUN, so that management
responses have a path; otherwise, turnarounds included, both. A run begins after the last verify window of the pass before it has closed. -/
def linkWanted (s : State) (link : Nat) : Bool :=
  if 96 ≤ link ∨ link % 3 = 0 ∨ !s.fmt.running then true
  else downstream (getF s Reg.POS_PASS) link || (getF s (linkState link) == 4 && getF s (linkState (link + 3 - 2 * (link % 3))) != 4)

/-- A link starts a training attempt from WAKE. -/
def linkWake (link attempt : Nat) (s : State) : State := setAttempts link attempt (setF (linkState link) 1 s)

/-- CHn takes permitted and wanted uplinks out of OFF, and holds the others in OFF (R68). -/
def runUplinks (s : State) : State :=
  forEach (List.range 96) (fun l s =>
    if l % 3 = 0 then s
    else
      let st := getF s (linkState l)
      if linkWanted s l ∧ getB s (linkEnable l) then (if st = 0 then linkWake l 1 s else s)
      else if st = 0 ∨ st = 7 then s else setF (linkState l) 0 s) s

/-- A downlink leaves RUN while a data set is being written: the gates of all bands close and the data set is aborted (R79, R170). -/
def downlinkLost (s : State) : State := if setEmits s then closeAndAbort s else s

/-- A link meets its state's exit condition (R76): OFF to WAKE when enabled, then BLOCK_LOCK, ALIGN, which the echo of the align block ends and
which stores the loop delay, and RUN; a servo uplink skips ALIGN and enters RUN on a servo header. `block` is the block received. -/
def linkAdvance (link delay : Nat) (block : BitVec 64) (s : State) : State :=
  if 98 ≤ link then s
  else
    let st := getF s (linkState link)
    let run (s : State) : State :=
      let s := setAttempts link 0 (setF (linkState link) 4 s)
      if 96 ≤ link then requalify (setPos { s.pos with expect := Tbl.erase s.pos.expect (link - 96) } s)
      else
        let h := hfeSt s (link / 3)
        if link % 3 = 1 then runUplinks (setHfe (link / 3) { h with last0 := none } s)
        else if link % 3 = 2 then runUplinks (setHfe (link / 3) { h with last1 := none } s) else s
    if st = 0 then (if getB s (linkEnable link) ∧ linkWanted s link then linkWake link 1 s else s)
    else if st = 1 then setF (linkState link) 2 s
    else if st = 2 then
      (if 96 ≤ link then (if block.toNat % 256 = 0xB4 then run s else s)
       else sendLine (link / 3) [(true, alignBlock)] (setF (linkState link) 3 s))
    else if st = 3 then (if block.toNat % 256 = 0xE1 then run (setF (Reg.CL_DELAY (link / 3)) delay s) else s)
    else s

/-- Raises a link's cause on its page: an HFE page by cause, a servo uplink in its POS bit, under unit 0x4 (R56). -/
def raiseLink (link sev cause : Nat) (s : State) : State :=
  if 96 ≤ link then raise 0x08 (7 + cause) (faultCode sev 0x4 cause) noAcct (link - 96) s
  else raiseC (hfePage (link / 3)) sev cause noAcct (link % 3) s

/-- A training state passes its timeout: the next attempt starts, and the third failure makes the link FAILED (R77). A failed downlink ends
a writing stream command with MEDIUM_ERROR (R79). -/
def linkTimeout (link : Nat) (s : State) : State :=
  if 98 ≤ link then s
  else
    let st := getF s (linkState link)
    if st = 1 ∨ st = 2 ∨ st = 3 then
      if linkAttempts s link < 3 then linkWake link (linkAttempts s link + 1) s
      else
        let s := raiseLink link 3 0x01 (setF (linkState link) 7 s)
        if link < 96 ∧ link % 3 = 0 ∧ (s.fmt.running ∨ s.fmt.repos.isSome) then failExec stMEDIUM_ERROR (faultCode 3 0x4 0x01) s else s
    else s

/-- A link in RUN sees 16 invalid sync headers within 64 blocks and trains again from BLOCK_LOCK (R77). -/
def linkDown (link : Nat) (s : State) : State :=
  if link < 98 ∧ getF s (linkState link) = 4 then
    let s := raiseLink link 2 0x02 (setAttempts link 1 (setF (linkState link) 2 s))
    if 96 ≤ link then requalify s else if link % 3 = 0 then downlinkLost s else s
  else s

/-- A link is set to a state by the formatter itself: one that leaves RUN so is down (R79). -/
def linkLeave (link : Nat) (act : State → State) (s : State) : State :=
  let was := getF s (linkState link) == 4
  let s := act s
  if was && getF s (linkState link) != 4 then raiseLink link 2 0x02 s else s

/-- Every enabled link of an HFE starts training again (R72, R78); one that is FAILED only on CL_CTRL.RETRAIN (R76). -/
def retrainHfe (n : Nat) (failed : Bool) (s : State) : State :=
  let wasRun := getF s (Reg.CL_STATE_DL n) = 4
  let s := forEach [3 * n, 3 * n + 1, 3 * n + 2] (fun l s =>
    if getB s (linkEnable l) && linkWanted s l && (failed || getF s (linkState l) != 7) then linkLeave l (linkWake l 1) s else s) s
  if wasRun ∧ getF s (Reg.CL_STATE_DL n) ≠ 4 then downlinkLost s else s

/-- A write of CL_CTRL.RETRAIN (R78). -/
def clRetrain (n : Nat) (s : State) : State := if n < 32 then lockGate (hfePage n) (retrainHfe n true) s else s

/-- A write of the enables of CL_CTRL: a link whose enable is cleared goes to OFF at once, FAILED apart (R76); CHn takes an enabled one out of
OFF (R68, R78). The downlink does so as the uplinks do (log entry: link permissions). -/
def clPermission (n : Nat) (dl ul0 ul1 : Bool) (s : State) : State :=
  if n < 32 then
    lockGate (hfePage n) (fun s =>
      let s := setB (Reg.CL_CTRL_UL1_EN n) ul1 (setB (Reg.CL_CTRL_UL0_EN n) ul0 (setB (Reg.CL_CTRL_DL_EN n) dl s))
      let wasRun := getF s (Reg.CL_STATE_DL n) = 4
      let s := forEach [3 * n, 3 * n + 1, 3 * n + 2] (fun l s =>
        let st := getF s (linkState l)
        if getB s (linkEnable l) then (if st = 0 ∧ linkWanted s l then linkWake l 1 s else s)
        else if st = 7 then s else linkLeave l (setF (linkState l) 0) s) s
      if wasRun ∧ !dl then downlinkLost s else s) s
  else s

/-! ## Status of the writers and readers (R73, R175, R225) -/

/-- The data set of a cycle's pair that a band's running board writes or reads (R230). -/
def pairSet (s : State) (b : Nat) : Option Nat :=
  let x := band s b
  if x.running then (match (x.buf x.cur).dsn with | some n => if n % 4 < 2 then some n else none | none => none) else none

/-- A writer with INHIBIT set during a data set of a cycle's pair is noted (R234). -/
def noteOut (w : Nat) (s : State) : State :=
  match pairSet s (w / 64) with
  | some n => if s.cal.out.contains (n, w) then s else { s with cal := { s.cal with out := (n, w) :: s.cal.out } }
  | none => s

/-- What WSTATE read from the HFE brings for writer w (R73, R175): INHIBIT follows the fault bits, and its change goes to the shadow. -/
def writerReport (n w status : Nat) (s : State) : State :=
  let bad := status / 4 % 8 != 0
  let was := getB s (Reg.WSTATE_INHIBIT n w)
  let s := setF (Reg.WSTATE_OPEN n w) (status / 4) (setF (Reg.WSTATE_SHORT n w) (status / 8) (setF (Reg.WSTATE_DRV_FAULT n w) (status / 16) s))
  let s := if bad then incF (Reg.WSTATE_FAULT_CNT n w) s else s
  let s := setB (Reg.WSTATE_INHIBIT n w) bad s
  let s := if bad then noteOut (16 * n + w) s else s
  if bad = was then s else forwardHfe n (0x108 + 0x10 * w) s

/-- What RSTAT read from the HFE brings for reader j: INHIBIT follows OPEN and SHORT, its change goes to the shadow, and setting it raises
READER_FAULT (R73, R225, R229). -/
def readerReport (n j status : Nat) (s : State) : State :=
  let bad := status % 4 != 0
  let was := getB s (Reg.RSTAT_INHIBIT n j)
  let s := setF (Reg.RSTAT_OPEN n j) status (setF (Reg.RSTAT_SHORT n j) (status / 2) (setF (Reg.RSTAT_CLIP n j) (status / 4) s))
  let s := if bad then incF (Reg.RSTAT_FAULT_CNT n j) s else s
  let s := setB (Reg.RSTAT_INHIBIT n j) bad s
  let s := if bad = was then s else forwardHfe n (0x204 + 8 * j) s
  if bad ∧ !was then raise (rchPage (n / 4)) 30 (faultCode 0 0x6 0x09) noAcct (32 * n + j) s else s

/-- The formatter reads WSTATE 0–15 and RSTAT 0–31 of an HFE, unless reads of an earlier refresh still wait (R73). -/
def statusRefresh (n : Nat) (s : State) : State :=
  if n < 32 ∧ !(hfeSt s n).wait.any (fun x => match x with | .req r => !r.write | .apply _ => false) then
    forEach (List.range 32) (fun j s => mgmtRead n (0x204 + 8 * j) s) (forEach (List.range 16) (fun w s => mgmtRead n (0x108 + 0x10 * w) s) s)
  else s

/-- A status register of the HFE has been read, by its page offset. -/
def statusRead (n off data : Nat) (s : State) : State :=
  if 0x100 ≤ off ∧ off < 0x200 ∧ off % 16 = 8 then writerReport n ((off - 0x100) / 16) data s
  else if 0x200 ≤ off ∧ off < 0x300 ∧ off % 8 = 4 then readerReport n ((off - 0x200) / 8) data s
  else s

/-! ## Management responses and timeouts (R71, R72) -/

/-- A valid response, which echoes tag and address of a request, returns its token and lets the next request go; what a read brings is taken
unless the response carries ERR (R71–R73). -/
def mgmtResponse (n : Nat) (b : BitVec 64) (s : State) : State :=
  let h := hfeSt s n
  let v := b.toNat
  match (if n < 32 ∧ v % 256 = 0x69 ∧ crc8Ok b then h.out.find? fun r => r.tag == slice v 9 7 && r.addr % 256 == slice v 16 8 else none) with
  | none => s
  | some r =>
    let s := pumpHfe n (setHfe n { h with out := h.out.erase r } s)
    if r.write ∨ v.testBit 8 then s else statusRead n (4 * r.addr) (slice v 24 32) s

/-- A request is unanswered for 512 line blocks: resent up to twice, and the third timeout retrains the HFE's links (R72). The request is
given up and its token returns. -/
def mgmtTimeout (n tag : Nat) (s : State) : State :=
  let h := hfeSt s n
  match h.out.find? fun r => r.tag == tag with
  | none => s
  | some r =>
    if r.tries < 2 then
      let r' := { r with tries := r.tries + 1 }
      incF (Reg.CL_MGMT_RETRY n) (setHfe n { h with out := h.out.map (fun x => if x.tag = tag then r' else x), blocks := h.blocks ++ [mgmtBlock r] } s)
    else
      let s := setHfe n { h with out := h.out.filter fun x => x.tag != tag } s
      pumpHfe n (retrainHfe n false (raiseC (hfePage n) 2 0x05 noAcct tag (incF (Reg.CL_MGMT_TIMEOUT n) s)))

/-! ## The bits of a band's stream (R148, R151, R158) -/

/-- Channel bits per frame of the board in a buffer. -/
def boardBits (s : State) (b buf : Nat) : Nat := brdBits s b buf

/-- The extension table entry of track k, extension slot p (R158). -/
def extEntry (s : State) (b buf k p : Nat) : Nat :=
  (Tbl.get 0 ((band s b).buf buf).ext (3 * k + (p - bandRows b))).toNat

/-- What a slot of a track holds: data set (24 bits), row number, header KIND and REWR; none for an invalid extension entry (R151, R158). -/
def slotRow (s : State) (b k : Nat) (e : Emission) : Option (Nat × Nat × Nat × Nat) :=
  let t := 64 * b + k
  if brdRobust s b e.buf then some (e.dsn % 2 ^ 24, 32 * (t / 2), 2, 0)
  else if e.slot < bandRows b then some (e.dsn % 2 ^ 24, rowOfSlot t e.slot, 0, 0)
  else
    let x := extEntry s b e.buf k e.slot
    if x % 2 = 0 then none
    else some ((e.dsn + 2 ^ 24 - slice x 1 3) % 2 ^ 24, 32 * slice x 9 8 + slice x 4 5, 1, slice x 17 3)

/-- A row released by the encoders (R176). -/
def encRow (s : State) (dsnLo g : Nat) : Option EncRow := s.enc.rows.find? fun r => r.dsn % 2 ^ 24 == dsnLo && r.g == g

/-- The bit that an emission puts on track k of a band at frame bit x (R151). -/
def emissionBit (s : State) (b k x : Nat) (e : Emission) : Bool :=
  let n := x - e.first
  if e.op = 0x04 then e.arg.testBit (63 - n)
  else if e.op = 0x05 then fillBit x
  else
    let t := 64 * b + k
    let inMask := e.mask = 0 ∨ (maskTracks s b e.mask).contains k
    match (if inMask ∧ !(band s b).filled.contains (rowKey e.dsn e.slot k) then slotRow s b k e else none) with
    | none => fillBit x
    | some (dsn, g, kind, rewr) =>
      match encRow s dsn g with
      | none => fillBit x
      | some r =>
        let seed := rowSeed (b2n (inHk e.frame)) t e.slot
        if e.op = 0x01 then syncMark.testBit (31 - n)
        else if e.op = 0x02 then
          (rowHeader dsn (sdsOf g) (rowOf g) kind rewr (brdPass s b e.buf)).testBit (63 - n) != (scrambleSeq seed (n + 1)).getD n false
        else
          let m := e.arg + n
          (byteBits r.data ++ byteBits r.parity).getD m false != (scrambleSeq seed (64 + m + 1)).getD (64 + m) false

/-- The bit of track k at bit x of a recording frame: of the emission that covers it, if any. -/
def streamBit (s : State) (b k frame x : Nat) : Option Bool :=
  match (band s b).emissions.find? fun e => e.frame == frame && e.first ≤ x && x < e.first + e.len with
  | some e => some (emissionBit s b k x e)
  | none => none

/-! ## Downlink bursts (R61–R63, R171, R172) -/

/-- The precompensation code of a bit after the last three, newest in bit 0 (R172). -/
def preCode (hist : Nat) (b : Bool) : Nat :=
  let b1 := hist.testBit 0
  let b2 := hist.testBit 1
  let b3 := hist.testBit 2
  if b == b1 then 0 else if b1 != b2 then 3 else if b2 != b3 then 2 else 1

/-- A writer's 48-bit field for the bits of a burst, and its history after them (R62, R172). -/
def writerField (bits : List Bool) (hist : Nat) : Nat × Nat :=
  let r := bits.foldl (fun (a : Nat × Nat × Nat) b =>
    let (i, f, h) := a
    (i + 1, f + b2n b * 2 ^ i + preCode h b * 2 ^ (16 + 2 * i), (h * 2 + b2n b) % 8)) (0, 0, hist)
  (r.2.1, r.2.2)

/-- Bit i of a burst that starts at bit x of a frame: a burst may straddle the frame boundary (R61). -/
def burstPlace (rev : Bool) (n frame x i : Nat) : Nat × Nat :=
  if x + i < n then (frame, x + i) else (if rev then frame - 1 else frame + 1, x + i - n)

/-- PERIOD: line UIs per channel bit with 16 fractional bits, from the speed estimate and the phase correction; 0 at standstill (R61, R171). -/
def burstPeriod (s : State) (n : Nat) (correction : Int) : Nat :=
  let v := (getS s Reg.POS_SPEED).natAbs
  if v = 0 then 0 else ofS 26 (rdiv ((2 ^ 16 * 2578125000000 : Nat) : Int) (n * v) + correction)

/-- Writers of an HFE that WMASK names: EN set and INHIBIT clear (R175). -/
def writerMask (s : State) (n : Nat) : Nat :=
  sumN ((List.range 16).map fun w => b2n (getB s (Reg.WSTATE_EN n w) && !getB s (Reg.WSTATE_INHIBIT n w)) * 2 ^ w)

/-- A gate whose condition has failed closes at the next burst launched (R169). A failure of SAFE, POS, DIR or LINK while the main section runs aborts
the data set too, whether or not another condition has closed the gate before (R163, R170). -/
def gateCheck (b : Nat) (s : State) : State :=
  let c := wgClosedBy s b
  let s := if (band s b).gateOpen ∧ c ≠ 0 then closeGate b s else s
  if inMain s b ∧ (c.testBit 1 ∨ c.testBit 2 ∨ c.testBit 4 ∨ c.testBit 6) then
    if hostEmits s b then stopBand b s else abortDataSet s
  else s

/-- The row emission that covers bit `x` of a recording frame. -/
def rowEmission (x : BandSt) (frame bit : Nat) : Option Emission :=
  x.emissions.find? fun e => e.frame == frame && e.first ≤ bit && bit < e.first + e.len && (e.op == 1 || e.op == 2 || e.op == 3)

/-- Rows whose bits lie in a burst but are not recorded: with the gate closed they are cut; on the tracks of writers left out of WMASK they are never
recorded (R169, R175, R254). -/
def noteUnrecorded (b : Nat) (gate : Bool) (outTracks : List Nat) (places : List (Nat × Nat)) (s : State) : State :=
  let x := band s b
  let rows := ((places.filterMap fun p => rowEmission x p.1 p.2).map fun e => (e.dsn, e.slot)).eraseDups
  let add (l : List Nat) (old : List Nat) : List Nat := (l.filter fun k => !old.contains k) ++ old
  let cut := if gate then x.cut else add (rows.map fun r => rowKey r.1 r.2 0) x.cut
  let left := if gate then add (rows.flatMap fun r => outTracks.map (rowKey r.1 r.2)) x.left else x.left
  setBand b { x with cut, left } s

/-- Channel bits of a frame of a band as they are launched: one more or one fewer while the launch offset changes (R52). -/
def frameBits (s : State) (b n frame : Nat) : Nat := if frame = s.pos.frame then (n + (band s b).stretch).toNat else n

/-- The formatter launches a burst to an HFE (R61–R63): a write burst while the band's gate is open and a writer that WMASK names needs bits, a
clock-only burst otherwise, after the management and APPLY blocks issued before it (R75). Idle blocks fill the line after it. -/
def launchBurst (n frame bit : Nat) (correction : Int) (s : State) : State :=
  if n < 32 then
    let b := n / 4
    let s := gateCheck b s
    if getF s (Reg.CL_STATE_DL n) = 4 then
      let x := band s b
      let nb := if writeBoardRuns s b then boardBits s b x.cur else bandBits b
      let rev := passReverse (brdPass s b x.cur)
      let place (i : Nat) : Nat × Nat := burstPlace rev (frameBits s b nb frame) frame bit i
      let wmask := writerMask s n
      let tracks := (List.range 16).map fun w =>
        let k := 16 * (n % 4) + w
        (w, k, (List.range 16).map fun i => let pl := place i; (pl, streamBit s b k pl.1 pl.2))
      let write := x.gateOpen && tracks.any fun t => wmask.testBit t.1 && t.2.2.any fun e => e.2.isSome
      let fields := tracks.map fun t =>
        (t.2.1, writerField (t.2.2.map fun e => e.2.getD (Config.unsentBit (64 * b + t.2.1) e.1.1 e.1.2)) (Tbl.get 0 x.history t.2.1))
      let data := fields.zipIdx.foldl (fun a (f : (Nat × Nat × Nat) × Nat) => a + f.1.2.1 * 2 ^ (48 * f.2)) 0
      let hdr := (if write then 0xC3 else 0xC5) + n * 2 ^ 8 + b2n write * 2 ^ 13 + bit % 2 ^ 13 * 2 ^ 16
        + burstPeriod s nb correction * 2 ^ 32 + frame % 64 * 2 ^ 58
      let body := BitVec.ofNat 64 hdr :: (if write then (List.range 12).map fun k => BitVec.ofNat 64 (data / 2 ^ (64 * k)) else [])
      let tr := 0x3C + (if write then wmask else 0) * 2 ^ 16
      let crc := crc32 (blockBytes body ++ leBytes 4 tr)
      let trailer := BitVec.ofNat 64 (tr + crc * 2 ^ 32)
      let h := hfeSt s n
      let s := setHfe n { h with launched := h.blocks ++ body ++ [trailer], blocks := [], nextAt := some (place 16) } s
      let s := noteUnrecorded b x.gateOpen ((tracks.filter fun t => !wmask.testBit t.1).map fun t => t.2.1) ((List.range 16).map place) s
      let s := sendLine n (h.blocks.map (fun v => (true, v)) ++ body.zipIdx.map (fun v => (v.2 == 0, v.1)) ++ [(true, trailer), (true, idleBlock)]) s
      if tracks.any (fun t => t.2.2.any fun e => e.2.isSome) then
        setBand b { band s b with history := fields.foldl (fun t f => Tbl.set t f.1 f.2.2) x.history } s
      else s
    else s
  else s

/-! ## Meanings -/

/-- DOWNLINK_BURST_LAUNCH. -/
def execDownlinkBurstLaunch (hfe frame bit : Nat) (correction : Int) (s : State) : Host.Outcome State Fault Refusal :=
  .next (launchBurst hfe frame bit correction s)

/-- MGMT_RESPONSE_RECEIVED. -/
def execMgmtResponseReceived (hfe : Nat) (block : BitVec 64) (s : State) : Host.Outcome State Fault Refusal :=
  .next (mgmtResponse hfe block s)

/-- HFE_STATUS_REFRESH. -/
def execHfeStatusRefresh (hfe : Nat) (s : State) : Host.Outcome State Fault Refusal := .next (statusRefresh hfe s)

/-- MGMT_TIMEOUT. -/
def execMgmtTimeout (hfe tag : Nat) (s : State) : Host.Outcome State Fault Refusal := .next (mgmtTimeout hfe tag s)

/-- CL_LINK_STATE_ADVANCE. -/
def execClLinkStateAdvance (link delay : Nat) (block : BitVec 64) (s : State) : Host.Outcome State Fault Refusal := .next (linkAdvance link delay block s)

/-- CL_LINK_TIMEOUT. -/
def execClLinkTimeout (link : Nat) (s : State) : Host.Outcome State Fault Refusal := .next (linkTimeout link s)

/-- CL_LINK_DOWN. -/
def execClLinkDown (link : Nat) (s : State) : Host.Outcome State Fault Refusal := .next (linkDown link s)

/-- CL_RETRAIN. -/
def execClRetrain (hfe : Nat) (s : State) : Host.Outcome State Fault Refusal := .next (clRetrain hfe s)

/-- CL_CTRL_PERMISSION. -/
def execClCtrlPermission (hfe : Nat) (dl ul0 ul1 : Bool) (s : State) : Host.Outcome State Fault Refusal :=
  .next (clPermission hfe dl ul0 ul1 s)

end Sys2Proof.Machine
end

