-- ==== Sys2Proof/Machine/Boards.lean ====
section
/-!
DEFINITION. Boards and their squares (spec/05): the square (R149, R150), the checks at ARM (R164), arming, starting and stopping (R159,
R185), and the squares that emit, repeat and end a board (R151, R156, R157, R160–R162).
-/
namespace Sys2Proof.Machine

/-! ## The square (R149, R150) -/

/-- A square. -/
structure Square where
  frame : Nat
  tick  : Nat
  op    : Nat
  mask  : Nat
  resv  : Nat
  arg0  : Nat
  arg1  : Nat
  arg2  : Nat
  deriving DecidableEq, Repr

/-- Square `i` of a buffer (R149). -/
def squareAt (x : BufSt) (i : Nat) : Square :=
  let w (k : Nat) : Nat := (Tbl.get 0 x.words (4 * i + k)).toNat
  { frame := w 0 / 4096, tick := w 0 % 4096, op := w 1 % 256, mask := slice (w 1) 8 4, resv := slice (w 1) 12 4, arg0 := w 1 / 2 ^ 16
    arg1 := w 2, arg2 := w 3 }

/-- The slot that an emission, VERIFY_OPEN or VERIFY_CLOSE square names. -/
def Square.slot (q : Square) : Nat := q.arg0 % 32

/-- An emission square. -/
def Square.emits (q : Square) : Bool := 1 ≤ q.op && q.op ≤ 5

/-- Bits that an emission square emits at frame bit `first` (R150); BAND_FILL with LEN 0 goes to the end of the frame. -/
def Square.bits (q : Square) (n first : Nat) : Nat :=
  if q.op = 1 then 32 else if q.op = 2 then 64 else if q.op = 3 then q.arg2 % 2 ^ 15 else if q.op = 4 then 64
  else if q.arg1 % 2 ^ 13 = 0 then n - first else q.arg1 % 2 ^ 13

/-- Reserved fields of a square are zero, and its operation is defined (R150, check 0x1). -/
def Square.wellFormed (q : Square) : Bool :=
  q.resv == 0 &&
  match q.op with
  | 0x01 => q.arg0 < 32 && q.arg1 == 0 && q.arg2 == 0
  | 0x02 => q.arg0 < 32 && q.arg1 < 2 ^ 24 && q.arg2 == 0
  | 0x03 => q.arg0 < 32 && q.arg1 < 2 ^ 15 && q.arg2 < 2 ^ 15
  | 0x04 => q.arg0 % 16 == 0 && q.arg1 == 0 && q.arg2 == 0
  | 0x05 => q.arg0 == 0 && q.arg1 < 2 ^ 13 && q.arg2 == 0
  | 0x06 => slice q.arg0 5 10 == 0 && q.arg2 < 2 ^ 13
  | 0x07 => slice q.arg0 5 10 == 0 && q.arg2 == 0
  | 0x08 => q.arg0 < 8 && q.arg2 == 0
  | 0x09 => q.arg2 == 0
  | 0x0A => q.arg0 < 8 && q.arg1 == 0 && q.arg2 == 0
  | 0x0B => q.arg0 < 2 ^ 13 && q.arg1 < 2 ^ 16
  | 0x0C => q.arg0 < 2 && q.arg1 == 0 && q.arg2 == 0
  | _ => false

/-- An active loop adds STRIDE × j to the squares it repeats (R157). -/
def loopOffset (x : BufSt) (loops : List LoopSt) (i : Nat) : Nat :=
  sumN (loops.map fun l =>
    let q := squareAt x l.at_
    if q.arg0 % 2 ^ 13 ≤ i ∧ i < l.at_ then q.arg2 * l.j else 0)

/-- What an active loop adds to the INDEX of a repeated EMIT_GAP (R157). -/
def loopIndex (x : BufSt) (loops : List LoopSt) (i : Nat) : Nat :=
  sumN (loops.map fun l => if (squareAt x l.at_).arg0 % 2 ^ 13 ≤ i ∧ i < l.at_ then l.j else 0)

/-- The effective offset of square `i` in ticks (R157). -/
def effOffset (x : BufSt) (loops : List LoopSt) (i : Nat) : Nat :=
  let q := squareAt x i
  q.frame * 4096 + q.tick + loopOffset x loops i

/-! ## Board checks (R164) -/

/-- The frame of a board's END with NEXT = 1 (R146). -/
def endFrame (x : BufSt) (len : Nat) : Option Nat :=
  ((List.range len).find? fun i => (squareAt x i).op == 0x0C && (squareAt x i).arg0 == 1).map fun i => (squareAt x i).frame

/-- The checks that look at each square by itself, at its index (codes 0x1, 0x6, 0x7, 0x8, 0xA). -/
def checkSquare (x : BufSt) (n rows k : Nat) (robust read : Bool) (i : Nat) : Option Nat :=
  let q := squareAt x i
  let slotOk := if robust then q.slot < 2 else q.slot < rows || extSlot (if n = 5000 then 0 else if n = 5500 then 64 else 128) (q.slot - rows) k
  if !q.wellFormed then some 0x1
  else if (q.op = 1 ∨ q.op = 2 ∨ q.op = 3) ∧ !slotOk then some 0x5
  else if q.op = 3 ∧ (q.arg2 = 0 ∨ 17408 < q.arg1 + q.arg2) then some 0x5
  else if q.op = 5 ∧ n < q.arg1 then some 0x5
  else if q.mask ≠ 0 ∧ !([1, 2, 3, 5, 6, 7].contains q.op) then some 0x6
  else if q.op = 0xB ∧ (i ≤ q.arg0 ∨ q.arg1 = 0 ∨
      (List.range i).any fun j => (squareAt x j).op == 0xB && (squareAt x j).arg0 < q.arg0 && q.arg0 ≤ j) then some 0x7
  else if (i = 0 ∧ (q.op ≠ 0xA ∨ q.frame ≠ 0 ∨ q.tick ≠ 0)) ∨ (i ≠ 0 ∧ q.op = 0xA) then some 0x8
  else if read ∧ q.emits then some 0xA
  else none

/-- What follows a JUMP at index `i` (R157): the active loops, and the next square. A loop that is entered repeats COUNT times; its innermost run is
at the head. -/
def jumpStep (q : Square) (loops : List LoopSt) (i : Nat) : List LoopSt × Nat :=
  match loops with
  | l :: rest =>
    if l.at_ = i then (if l.left = 0 then (rest, i + 1) else ({ l with left := l.left - 1, j := l.j + 1 } :: rest, q.arg0))
    else ({ at_ := i, left := q.arg1 - 1, j := 1 } :: loops, q.arg0)
  | [] => ([{ at_ := i, left := q.arg1 - 1, j := 1 }], q.arg0)

/-- The JUMP at index `i` has acted before in the loop that runs now: it belongs to no repetition of its own, so its own OFFSET counts at its first
visit only (R157; log entry: JUMP offsets). -/
def jumpAgain (loops : List LoopSt) (i : Nat) : Bool := match loops with | l :: _ => l.at_ == i | [] => false

/-- What the walk through a board carries: the last effective offset, the emission cursor (frame and bit), the slot whose row is being
emitted with the codeword bit due (none before its header), the slots whose rows are whole, and the active loops. -/
structure BoardWalk where
  last   : Nat := 0
  cursor : Option (Nat × Nat) := none
  row    : Option (Nat × Option Nat) := none
  done   : List Nat := []
  loops  : List LoopSt := []
  deriving DecidableEq, Repr

/-- The checks along the board's course at square `i` (codes 0x2 to 0x5): the walk after it, or the failing code. -/
def walkSquare (x : BufSt) (n i : Nat) (w : BoardWalk) : Nat ⊕ BoardWalk :=
  let q := squareAt x i
  let off := effOffset x w.loops i
  if off < w.last then .inl 0x2
  else if !q.emits then .inr { w with last := off }
  else
    let f := off / 4096
    let t := off % 4096
    let first := match w.cursor with | some (cf, cb) => if cf = f then cb else 0 | none => 0
    let newFrame : Bool := match w.cursor with | some (cf, _) => cf != f | none => true
    let whole : Bool := match w.cursor with | some (cf, cb) => cf == f || (cf + 1 == f && cb == n) | none => true
    let len := q.bits n first
    if newFrame ∧ (q.op ≠ 4 ∨ t ≠ 0) then .inl 0x4
    else if q.op = 4 ∧ !newFrame then .inl 0x3
    else if !whole ∨ t ≠ first * 4096 / n ∨ n < first + len then .inl 0x3
    else
      let w' := { w with last := off, cursor := some (f, first + len) }
      match q.op, w.row with
      | 4, _ => .inr w'
      | 1, none => if w.done.contains q.slot then .inl 0x5 else .inr { w' with row := some (q.slot, none) }
      | 2, some (sl, none) => if sl = q.slot then .inr { w' with row := some (sl, some 0) } else .inl 0x5
      | 3, some (sl, some c) =>
        if sl ≠ q.slot ∨ c ≠ q.arg1 then .inl 0x5
        else if c + q.arg2 = 17408 then .inr { w' with row := none, done := sl :: w.done }
        else .inr { w' with row := some (sl, some (c + q.arg2)) }
      | 5, none => .inr w'
      | _, _ => .inl 0x5

/-- The walk through the first `len` squares of a board from square `i`, every repetition included (R164). `whole` says that the board ends there,
where no row may stand open. Answers the first failing code and square. -/
def walkBoard (x : BufSt) (n len : Nat) (whole : Bool) : Nat → Nat → BoardWalk → Option (Nat × Nat)
  | 0, _, _ => none
  | fuel + 1, i, w =>
    if len ≤ i then (if whole ∧ w.row.isSome then some (0x5, i - 1) else none)
    else
      let q := squareAt x i
      if q.op = 0xB ∧ jumpAgain w.loops i then
        let r := jumpStep q w.loops i
        walkBoard x n len whole fuel r.2 { w with loops := r.1 }
      else
        match walkSquare x n i w with
        | .inl c => some (c, i)
        | .inr w' =>
          if q.op = 0xB then let r := jumpStep q w'.loops i; walkBoard x n len whole fuel r.2 { w' with loops := r.1 }
          else walkBoard x n len whole fuel (i + 1) w'

/-- More steps than a walk through properly nested loops can take: each square at most once for each combination of repetitions. -/
def boardSteps (x : BufSt) (len : Nat) : Nat :=
  (len + 1) * ((List.range len).foldl (fun a i => if (squareAt x i).op = 0xB then a * ((squareAt x i).arg1 + 1) else a) 1) + 1

/-- The whole check of a board at ARM (R164): none if it passes, else the code and the first failing square. -/
def boardCheck (s : State) (b buf : Nat) : Option (Nat × Nat) :=
  let st := band s b
  let x := st.buf buf
  let len := brdLen s b buf
  let read := brdRead s b buf
  let robust := brdRobust s b buf
  let k := match endFrame x len with | some f => f - 50 | none => 0
  let single := (List.range len).findSome? fun i => (checkSquare x (brdBits s b buf) (bandRows b) k robust read i).map fun c => (c, i)
  let ends := (List.range len).filter fun i => (squareAt x i).op == 0xC
  let endOk := 1 ≤ len && len ≤ 8192 && ends.length == 2 && ends.getLast? == some (len - 1) &&
    (squareAt x (ends.headD 0)).arg0 == 1 && (squareAt x (len - 1)).arg0 == 0
  let other := 1 - buf
  let otherBusy := (st.buf other).armed || (st.running && st.cur == other)
  let contig :=
    match endFrame (st.buf other) (brdLen s b other) with
    | some fo => brdPass s b other == brdPass s b buf && brdOrigin s b buf == frameOn (brdPass s b other) (brdOrigin s b other) fo
    | none => false
  let upto := match single with | some c => c.2 | none => len
  let walk := walkBoard x (brdBits s b buf) upto single.isNone (boardSteps x upto) 0 {}
  if len = 0 ∨ 8192 < len then some (0x9, 0)
  else match (match walk with | some c => some c | none => single) with
    | some c => some c
    | none => if !endOk then some (0x9, len - 1) else if otherBusy ∧ !contig then some (0xB, 0) else none

/-! ## Arming, starting, stopping (R159, R162, R165, R185) -/

/-- The position in ticks. -/
def posTicks (s : State) : Nat := s.pos.frame * 4096 + s.pos.tick

/-- A buffer finishes or is disarmed: it becomes writable, and its event is recorded (R159, R184). -/
def freeBuf (b buf : Nat) (s : State) : State :=
  notify (bseqPage b) buf 0 (setBand b ((band s b).setBuf buf { (band s b).buf buf with armed := false }) s)

/-- ARM of a buffer that neither runs nor is armed: checked whole, then locked; or refused and recorded (R159, R164). -/
def armBuffer (b buf : Nat) (s : State) : State :=
  let st := band s b
  if (st.running ∧ st.cur = buf) ∨ (st.buf buf).armed then s
  else
    match boardCheck s b buf with
    | none => setBand b (st.setBuf buf { st.buf buf with armed := true, armedAt := posTicks s }) s
    | some (code, index) =>
      let s := setF (Reg.BRD_ERR_VALID b) 1 <| setF (Reg.BRD_ERR_INDEX b) index <| setF (Reg.BRD_ERR_BUF b) buf <| setF (Reg.BRD_ERR_CODE b) code s
      raiseB (bseqPage b) 4 0 0x01 noAcct (code + index * 2 ^ 8) s

/-- A write of ARM_A or ARM_B: only while the sequencer is enabled. -/
def brdArm (b buf : Nat) (s : State) : State :=
  if b < 8 ∧ buf < 2 then lockGate (bseqPage b) (fun s => if getB s (Reg.BRD_CTRL_EN b) then armBuffer b buf s else s) s else s

/-- START runs the armed buffer from square 0 (R159): A if both are armed. The sequencer then waits for the origin (R156). A running injection
stops (R537). -/
def startBand (b : Nat) (s : State) : State :=
  let st := band s b
  if st.running ∨ !getB s (Reg.BRD_CTRL_EN b) ∨ getB s (hdrQUIESCE (bseqPage b)) then s
  else if !st.a.armed ∧ !st.b.armed then s
  else setF Reg.INJ_CTRL_RUN 0 (setBand b { st with running := true, cur := if st.a.armed then 0 else 1, index := 0, hold := true, tail := false, loops := [] } s)

/-- A write of START. -/
def brdStart (b : Nat) (s : State) : State := if b < 8 then lockGate (bseqPage b) (startBand b) s else s

/-- Every band has stopped after a run: the write run is over (R161, R182). An unplanned end, one that leaves data sets to write, is counted,
and CMD repositions to the first that has not been written in every band, or to the next origin. -/
def runEnds (s : State) : State :=
  if s.fmt.running ∧ (List.range 8).all (fun b => !(band s b).running) then
    let left := s.fmt.sets.find? fun d => d.ended.eraseDups.length != 8
    let s := if left.isSome ∨ s.fmt.group.isSome then incF Reg.SPM_BACKHITCH_CNT s else s
    let s := setFmt { s.fmt with running := false, writing := none, repos := none } s
    match left with
    | some d => if d.compiled then goBack d.dsn d.pass d.origin s else goBack d.dsn s.fmt.nextPass s.fmt.nextFrame s
    | none => travel (setTarget 0 (setFmt { s.fmt with runup := some (runupFrame s s.fmt.nextPass s.fmt.nextFrame) } s))
  else s

/-- A data set whose board a band has lost without having written it is compiled afresh, with those behind it (log entry: disarmed boards). -/
def reboard (b : Nat) (s : State) : State :=
  let st := band s b
  let has (n : Nat) : Bool := [0, 1].any fun i => (st.buf i).dsn == some n && ((st.buf i).armed || (st.running && st.cur == i))
  match s.fmt.sets.find? fun d => d.compiled && !d.ended.contains b && !has d.dsn with
  | none => s
  | some d =>
    let s := forEach (List.range 8) disarmNext s
    if setEmits s ∧ s.fmt.writing = some d.dsn then abortDataSet s else restartFrom d.dsn s

/-- A write of STOP (R159): the gate closes, the sequencer stops, both buffers are disarmed. While emitting it aborts the data set (R186). -/
def brdStop (b : Nat) (s : State) : State :=
  if b < 8 then
    lockGate (bseqPage b) (fun s =>
      let emitting := inMain s b && ((band s b).buf (band s b).cur).dsn.isSome
      reboard b (runEnds (stopBand b (if emitting then abortDataSet s else s)))) s
  else s

/-- A write of DISARM_A or DISARM_B (R159). -/
def brdDisarm (b buf : Nat) (s : State) : State :=
  if b < 8 ∧ buf < 2 then
    lockGate (bseqPage b) (fun s =>
      let st := band s b
      if (st.buf buf).armed ∧ !(st.running && st.cur == buf) then reboard b (freeBuf b buf s) else s) s
  else s

/-- The stream queue holds a command that touches the medium, the one executing included (R185). -/
def mediumQueued (s : State) : Bool :=
  (s.que.stream.any fun e => touchesMedium (dOpcode e.desc)) || (match s.que.exec with | some x => touchesMedium (dOpcode x.entry.desc) | none => false)

/-- A write that sets BRD_CTRL.HOST (R185): ignored while a board runs or the stream queue holds a command that touches the medium. -/
def brdHostSet (b : Nat) (s : State) : State :=
  if b < 8 then
    lockGate (bseqPage b) (fun s =>
      if (List.range 8).any (fun i => (band s i).running) ∨ mediumQueued s then s else setF (Reg.BRD_CTRL_HOST b) 1 s) s
  else s

/-! ## Running squares (R147) -/

/-- The tape's position can fire squares: it moves, and is neither STALE nor COARSE (R32, R47, R48). -/
def squaresFire (s : State) : Bool :=
  !getB s Reg.POS_STATUS_STALE && !getB s Reg.POS_STATUS_COARSE && !getB s Reg.POS_STATUS_STILL

/-- The square at a running sequencer's index, if its operation is `op` and it may act now. -/
def squareNow (s : State) (b op : Nat) : Option Square :=
  let st := band s b
  let q := squareAt (st.buf st.cur) st.index
  if b < 8 ∧ st.running ∧ !st.hold ∧ squaresFire s ∧ q.op = op then some q else none

/-- The sequencer goes on to the next square. -/
def nextSquare (b : Nat) (s : State) : State := let st := band s b; setBand b { st with index := st.index + 1 } s

/-- The recording frame in which the square at the index acts (R145). -/
def squareFrame (s : State) (b : Nat) : Nat :=
  let st := band s b
  frameOn (brdPass s b st.cur) (brdOrigin s b st.cur) (effOffset (st.buf st.cur) st.loops st.index / 4096)

/-- The position, in ticks, at which the square at the index acts (R84, R145). -/
def squarePos (s : State) (b : Nat) : Int :=
  let st := band s b
  let off := effOffset (st.buf st.cur) st.loops st.index
  if passReverse (brdPass s b st.cur) then ((brdOrigin s b st.cur + 1) * 4096 : Nat) - (off : Int) else (brdOrigin s b st.cur * 4096 + off : Nat)

/-- The bit at which the next emission in a frame begins: after the last one of the same board (R148). -/
def emitFrom (st : BandSt) (frame : Nat) : Nat :=
  match st.emissions.head? with | some e => if st.emitted ∧ e.frame = frame then e.first + e.len else 0 | none => 0

/-- The data set number that the row of a slot belongs to: the board's, or, in a host board, that of the slot's header, which follows its sync mark
(R151, R152). -/
def emitDsn (st : BandSt) (q : Square) : Nat :=
  match (st.buf st.cur).dsn with
  | some n => n
  | none =>
    if q.op = 2 then q.arg1
    else if q.op = 1 then
      match (List.range 64).find? fun i => let h := squareAt (st.buf st.cur) (st.index + i); h.op == 2 && h.slot == q.slot with
      | some i => (squareAt (st.buf st.cur) (st.index + i)).arg1
      | none => 0
    else match st.emissions.find? fun e => e.op == 2 && e.slot == q.slot with | some e => e.dsn | none => 0

/-- How many emissions are held: those of the last frames, enough for bursts not yet launched and for the verify reader's known bits. -/
def emissionsHeld : Nat := 512

/-- An emission square acts (R148, R151): its bits join the band's stream. Rows emitted with the gate closed are cut, and those of writers
left out of WMASK are never recorded (R169, R175, R254). -/
def emit (b : Nat) (q : Square) (arg : Nat) (s : State) : State :=
  let st := band s b
  let frame := squareFrame s b
  let first := emitFrom st frame
  let dsn := emitDsn st q
  let e : Emission := { frame, first, len := q.bits (brdBits s b st.cur) first, op := q.op, mask := q.mask, slot := q.slot, arg, dsn, buf := st.cur }
  let row := q.op = 1 ∨ q.op = 2 ∨ q.op = 3
  let cut := if row ∧ !st.gateOpen then rowKey dsn q.slot 0 :: st.cut else st.cut
  let out := (List.range 64).filter fun k =>
    let h := 4 * b + k / 16
    !getB s (Reg.WSTATE_EN h (k % 16)) || getB s (Reg.WSTATE_INHIBIT h (k % 16))
  let left := if row then out.map (rowKey dsn q.slot) ++ st.left else st.left
  nextSquare b (setBand b { st with emissions := e :: st.emissions.take emissionsHeld, emitted := true, cut, left } s)

/-- EMIT_GAP (R151): the resync pattern and the frame tag. A closed gate reopens here once every condition holds (R169). -/
def emitGap (b : Nat) (s : State) : State :=
  match squareNow s b 0x04 with
  | none => s
  | some q =>
    let st := band s b
    let index := slice q.arg0 8 6 + loopIndex (st.buf st.cur) st.loops st.index
    let gap := resyncPattern * 2 ^ 16 + frameTag (q.arg0 / 2 ^ 14) index (slice q.arg0 4 4)
    let st := if wgClosedBy s b = 0 then { st with gateOpen := true } else st
    emit b q gap (setBand b st s)

/-- EMIT_SYNC, EMIT_HEADER and BAND_FILL (R151). -/
def emitPlain (op b : Nat) (s : State) : State :=
  match squareNow s b op with
  | none => s
  | some q => emit b q q.arg1 s

/-- EMIT_ROW (R151). A track whose row is not released when its first bit is due records fill for the slot, with ROW_LATE (R178). -/
def emitRow (b : Nat) (s : State) : State :=
  match squareNow s b 0x03 with
  | none => s
  | some q =>
    let st := band s b
    let e : Emission := { frame := 0, first := 0, len := 0, op := 3, mask := q.mask, slot := q.slot, arg := 0, dsn := emitDsn st q, buf := st.cur }
    let late := if q.arg1 ≠ 0 then [] else (maskTracks s b q.mask).filter fun k =>
      match slotRow s b k e with | some (d, g, _, _) => (encRow s d g).isNone | none => false
    let s := setBand b { st with filled := late.map (rowKey e.dsn q.slot) ++ st.filled } s
    let s := forEach late (fun k s => raiseC 0x12 2 0x06 noAcct (64 * b + k) (incF Reg.ENC_LATE_CNT s)) s
    emit b q q.arg1 s

/-- JUMP (R157): the squares from TARGET are repeated COUNT more times. -/
def jumpSquare (b : Nat) (s : State) : State :=
  match squareNow s b 0x0B with
  | none => s
  | some q =>
    let st := band s b
    let r := jumpStep q st.loops st.index
    setBand b { st with loops := r.1, index := r.2 } s

/-! ## WAIT_FRAME, hand-over, END (R156, R160–R162) -/

/-- The lateral condition of a band: its error is valid and within the threshold (R156, R168, R529). -/
def lateralOk (s : State) (b : Nat) : Bool :=
  match Tbl.get none s.mot.latErr b with | some e => e.natAbs ≤ getF s (Reg.OFFTRACK b) | none => false

/-- The conditions that the WAIT_FRAME of a buffer sets in ARG0 hold (R156). -/
def waitOk (s : State) (b buf : Nat) : Bool :=
  let c := (squareAt ((band s b).buf buf) 0).arg0
  (!c.testBit 0 || posGood s) && (!c.testBit 1 || speedInWindow s) && (!c.testBit 2 || lateralOk s b)

/-- A board's main section begins: the data set that CH4b compiled it for is now being written. -/
def beginBoard (b : Nat) (s : State) : State :=
  let st := band s b
  match (st.buf st.cur).dsn with
  | some n => if brdRead s b st.cur then s else setFmt { s.fmt with writing := some n, running := true } s
  | none => s

/-- The started board reaches its origin: it runs if its conditions hold, else the sequencer stops before emitting anything, its board still armed, and
CMD repositions once the other bands have stopped too (R156, R162). A second miss ends the stream command with MEDIUM_ERROR and the volume (R162,
R442). -/
def waitFrame (b : Nat) (s : State) : State :=
  let st := band s b
  if b < 8 ∧ st.running ∧ st.hold ∧ !getB s Reg.POS_STATUS_STILL then
    if waitOk s b st.cur then beginBoard b (setBand b { st with hold := false, index := 1, second := false, emitted := false } s)
    else
      let s := raiseB (bseqPage b) 5 2 0x03 noAcct 0 (setBand b { st with running := false, hold := false, second := true } s)
      match (st.buf st.cur).dsn with
      | none => s
      | some n =>
        let w := !brdRead s b st.cur
        if st.second then
          let det := faultCode 2 0x5 0x03
          let s := setBand b { band s b with second := false } s
          if w then endVolume stMEDIUM_ERROR det s else failExec stMEDIUM_ERROR det s
        else
          let s := if w then countStop s else s
          let s := goBack n (brdPass s b st.cur) (brdOrigin s b st.cur) s
          if (List.range 8).all (fun b => !(band s b).running) then setFmt { s.fmt with running := false, writing := none } s else s
  else s

/-- Once every band has written data set `n`, FMT_EXT_LAST shows its extension (R115). -/
def extWritten (n : Nat) (s : State) : State :=
  match dataSet s n with
  | some d => if d.ended.eraseDups.length = 8 then setF Reg.FMT_EXT_LAST_ROWS d.ext.length (setF Reg.FMT_EXT_LAST_FRAMES d.k s) else s
  | none => s

/-- A data set's read board has come to its END in a band: read, for its pass, once it has in band 0 (R139, R270). -/
def readEnds (b n : Nat) (s : State) : State :=
  if b ≠ 0 then s
  else
    let r := s.rch.rung
    { s with rch := { s.rch with sets := s.rch.sets.map (fun d => if d.dsn = n then { d with read := true } else d), rung := { r with ran := n :: r.ran } } }

/-- Loop states start from their seeds in the next window (R197, R270). -/
def freshLoops (s : State) : State :=
  { s with rch := { s.rch with chains := s.rch.chains.map (fun e => (e.1, { e.2 with fresh := true })), comb := s.rch.comb.map fun e => (e.1, { e.2 with fresh := true }) } }

/-- The last band of a read run has stopped: its data sets have been read once more on the rung; on level 2 every re-read starts from the seeds (R270,
R273). -/
def passRead (s : State) : State :=
  if (List.range 8).any (fun b => (band s b).running) then s
  else
    let r := s.rch.rung
    let s := { s with rch := { s.rch with rung := { r with passes := r.ran.eraseDups.foldl (fun t n => Tbl.set t n (Tbl.get 0 t n + 1)) r.passes, ran := [] } } }
    if getB s Reg.RCV_STATUS_ACTIVE ∧ getF s Reg.RCV_STATUS_LEVEL = 2 then freshLoops s else s

/-- END (R160, R161): NEXT = 1 hands over to the other buffer if it was armed in time and its conditions hold, otherwise the tail runs with
the gate closed; NEXT = 0 stops the sequencer. -/
def endSquare (b : Nat) (s : State) : State :=
  match squareNow s b 0x0C with
  | none => s
  | some q =>
    let st := band s b
    let other := 1 - st.cur
    if q.arg0 = 1 then
      let s := match (st.buf st.cur).dsn with
        | some n =>
          if brdRead s b st.cur then readEnds b n s else extWritten n (onSet n (fun d => if d.compiled then { d with ended := b :: d.ended } else d) s)
        | none => s
      let inTime := (st.buf other).armed && 8192 ≤ (squarePos s b - (st.buf other).armedAt).natAbs
      if inTime && waitOk s b other && !getB s (hdrQUIESCE (bseqPage b)) then
        let st := band s b
        let s := setBand b { st with cur := other, index := 1, loops := [], tail := false, emitted := false } s
        beginBoard b (freeBuf b (1 - other) s)
      else
        let s := closeGate b s
        let st := band s b
        setBand b { st with tail := true, gateOpen := false, index := st.index + 1 } s
    else
      let s := failWindows b (closeGate b s)
      let st := band s b
      let read := brdRead s b st.cur
      let s := setBand b { st with running := false, tail := false, index := 0, loops := [], windows := [], gateOpen := false } s
      let s := runEnds (freeBuf b st.cur s)
      if read then passRead s else s

/-! ## The speed matcher (R181) -/

/-- The ready data sets not yet begun (R181, SPM_STATUS.READY). -/
def readyCount (s : State) : Nat := (s.fmt.sets.filter fun d => d.ready && !d.begun).length

/-- The matcher acts at a DS_START mark (R181): STEP rises or falls by one, or follows STEP_FIX; the ceiling limits it. -/
def speedMatch (s : State) : State :=
  let ceil := getF s Reg.SPM_STATUS_CEIL
  let step := getF s Reg.SPM_STATUS_STEP
  let low := getF s Reg.SPM_CTRL_LOW
  let high := if getF s Reg.SPM_CTRL_HIGH ≤ low then low + 1 else getF s Reg.SPM_CTRL_HIGH
  let r := readyCount s
  let step' :=
    if !getB s Reg.SPM_CTRL_EN then getF s Reg.SPM_CTRL_STEP_FIX
    else if high ≤ r ∧ step < getF s Reg.SPM_CTRL_STEP_MAX ∧ step < ceil then step + 1
    else if r ≤ low ∧ 0 < step then step - 1
    else step
  let n := min step' ceil
  let v := if getB s Reg.POS_STATUS_REVERSE then -(stepSpeed n) else stepSpeed n
  setTarget v (setF Reg.SPM_STATUS_STEP n s)

/-! ## Meanings -/

/-- BRD_ARM. -/
def execBrdArm (band buf : Nat) (s : State) : Host.Outcome State Fault Refusal := .next (brdArm band buf s)

/-- BRD_START. -/
def execBrdStart (band : Nat) (s : State) : Host.Outcome State Fault Refusal := .next (brdStart band s)

/-- BRD_STOP. -/
def execBrdStop (band : Nat) (s : State) : Host.Outcome State Fault Refusal := .next (brdStop band s)

/-- BRD_DISARM. -/
def execBrdDisarm (band buf : Nat) (s : State) : Host.Outcome State Fault Refusal := .next (brdDisarm band buf s)

/-- BRD_HOST_SET. -/
def execBrdHostSet (band : Nat) (s : State) : Host.Outcome State Fault Refusal := .next (brdHostSet band s)

/-- WAIT_FRAME. -/
def execWaitFrame (band : Nat) (s : State) : Host.Outcome State Fault Refusal := .next (waitFrame band s)

/-- EMIT_GAP. -/
def execEmitGap (band : Nat) (s : State) : Host.Outcome State Fault Refusal := .next (emitGap band s)

/-- EMIT_SYNC. -/
def execEmitSync (band : Nat) (s : State) : Host.Outcome State Fault Refusal := .next (emitPlain 0x01 band s)

/-- EMIT_HEADER. -/
def execEmitHeader (band : Nat) (s : State) : Host.Outcome State Fault Refusal := .next (emitPlain 0x02 band s)

/-- EMIT_ROW. -/
def execEmitRow (band : Nat) (s : State) : Host.Outcome State Fault Refusal := .next (emitRow band s)

/-- BAND_FILL. -/
def execBandFill (band : Nat) (s : State) : Host.Outcome State Fault Refusal := .next (emitPlain 0x05 band s)

/-- JUMP. -/
def execJump (band : Nat) (s : State) : Host.Outcome State Fault Refusal := .next (jumpSquare band s)

end Sys2Proof.Machine
end

