-- ==== Sys2Proof/Machine/Crypto.lean ====
section
/-!
DEFINITION. The cryptographic functions that spec/08, spec/10, spec/14 and spec/18 name by their standards: SHA-512 (FIPS 180-4), HMAC and
HKDF over it (RFC 2104, RFC 5869), AES-256 (FIPS 197) with GCM (SP 800-38D) and KWP (SP 800-38F), X25519 (RFC 7748) and Ed25519 (RFC 8032).
-/
namespace Sys2Proof.Machine

/-- A byte string cut into pieces of `n` bytes; `fuel` bounds their number. -/
def piecesOf (n : Nat) : Nat → List Byte → List (List Byte)
  | 0, _ => []
  | fuel + 1, l => if l = [] then [] else l.take n :: piecesOf n fuel (l.drop n)

/-- Byte-wise exclusive or, to the shorter length. -/
def xorBytes (a b : List Byte) : List Byte := List.zipWith (fun x y => x ^^^ y) a b

namespace Crypto

/-! ## SHA-512 -/

/-- The largest r below 2^72 with r^k ≤ n. -/
def root (k n : Nat) : Nat :=
  (List.range 72).foldl (fun r i => let c := r + 2 ^ (71 - i); if c ^ k ≤ n then c else r) 0

/-- The primes below 410: the first 80. -/
def primes : List Nat := (List.range 410).filter fun n => 2 ≤ n && (List.range n).all fun d => d < 2 || n % d != 0

/-- Round constants: the fractions of the cube roots of the primes, to 64 bits. -/
def shaK : List (BitVec 64) := primes.map fun p => BitVec.ofNat 64 (root 3 (p * 2 ^ 192))

/-- Initial hash value: the fractions of the square roots of the first eight primes. -/
def shaInit : List (BitVec 64) := (primes.take 8).map fun p => BitVec.ofNat 64 (root 2 (p * 2 ^ 128))

/-- One round on the eight working variables. -/
def shaRound (h : List (BitVec 64)) (kw : BitVec 64) : List (BitVec 64) :=
  match h with
  | [a, b, c, d, e, f, g, hh] =>
    let s1 := e.rotateRight 14 ^^^ e.rotateRight 18 ^^^ e.rotateRight 41
    let ch := (e &&& f) ^^^ (~~~e &&& g)
    let t1 := hh + s1 + ch + kw
    let s0 := a.rotateRight 28 ^^^ a.rotateRight 34 ^^^ a.rotateRight 39
    let maj := (a &&& b) ^^^ (a &&& c) ^^^ (b &&& c)
    [t1 + s0 + maj, a, b, c, d + t1, e, f, g]
  | _ => h

/-- The message schedule, newest word first, from the 16 words of a block. -/
def shaSchedule (w : List (BitVec 64)) : List (BitVec 64) :=
  ((List.range 64).foldl (fun (acc : List (BitVec 64)) _ =>
    let x := acc.getD 14 (0 : BitVec 64)
    let y : BitVec 64 := acc.getD 1 0
    let s0 := x.rotateRight 1 ^^^ x.rotateRight 8 ^^^ (x >>> 7)
    let s1 := y.rotateRight 19 ^^^ y.rotateRight 61 ^^^ (y >>> 6)
    (s1 + acc.getD 6 0 + s0 + acc.getD 15 0) :: acc) w.reverse).reverse

/-- One block of 128 bytes. -/
def shaBlock (h : List (BitVec 64)) (b : List Byte) : List (BitVec 64) :=
  let w := shaSchedule ((List.range 16).map fun i => BitVec.ofNat 64 (beNat (bytesAt b (8 * i) 8)))
  List.zipWith (· + ·) h (((shaK.zip w).map fun x => x.1 + x.2).foldl shaRound h)

/-- SHA-512: 64 bytes. -/
def sha512 (m : List Byte) : List Byte :=
  let len := m.length
  let padded := m ++ [0x80#8] ++ zeros ((128 - (len + 17) % 128) % 128) ++ beBytes 16 (8 * len)
  ((piecesOf 128 (len / 128 + 2) padded).foldl shaBlock shaInit).flatMap fun x => beBytes 8 x.toNat

/-- HMAC-SHA-512. -/
def hmac (key m : List Byte) : List Byte :=
  let k := padTo 128 (if 128 < key.length then sha512 key else key)
  sha512 (k.map (· ^^^ 0x5C#8) ++ sha512 (k.map (· ^^^ 0x36#8) ++ m))

/-- HKDF-SHA-512 of at most 64 bytes. -/
def hkdf (salt ikm info : List Byte) (len : Nat) : List Byte :=
  (hmac (hmac salt ikm) (info ++ [0x01#8])).take len

/-! ## AES-256 -/

/-- Product in the AES field. -/
def aesMul (a b : Nat) : Nat :=
  ((List.range 8).foldl (fun (st : Nat × Nat) i =>
    let acc := if b.testBit i then st.1 ^^^ st.2 else st.1
    let d := st.2 * 2
    (acc, if 256 ≤ d then d ^^^ 0x11B else d)) (0, a)).1

/-- The S-box: inverse in the field, then the affine map. -/
def sboxOf (x : Nat) : Nat :=
  let i := (List.range 254).foldl (fun a _ => aesMul a x) 1
  let r (k : Nat) := (i * 2 ^ k + i / 2 ^ (8 - k)) % 256
  i ^^^ r 1 ^^^ r 2 ^^^ r 3 ^^^ r 4 ^^^ 0x63

def sboxTable : List Nat := (List.range 256).map sboxOf
def invSboxTable : List Nat := (List.range 256).map fun y => sboxTable.findIdx (· == y)
def sub (x : Nat) : Nat := sboxTable.getD x 0
def invSub (x : Nat) : Nat := invSboxTable.getD x 0

/-- The 60 words of the key schedule, newest first. -/
def expandKey (key : List Nat) : List (List Nat) :=
  let w0 := ((List.range 8).map fun i => (key.drop (4 * i)).take 4).reverse
  (List.range 52).foldl (fun acc j =>
    let i := j + 8
    let t := acc.headD []
    let t := if i % 8 = 0 then
        let r := (t.tail ++ t.take 1).map sub
        List.zipWith (· ^^^ ·) r [(List.range (i / 8 - 1)).foldl (fun a _ => aesMul a 2) 1, 0, 0, 0]
      else if i % 8 = 4 then t.map sub else t
    List.zipWith (· ^^^ ·) (acc.getD 7 []) t :: acc) w0

/-- The 15 round keys of 16 bytes. -/
def roundKeys (key : List Byte) : List (List Nat) :=
  let w := (expandKey (key.map BitVec.toNat)).reverse
  (List.range 15).map fun r => ((w.drop (4 * r)).take 4).flatten

def xorN (a b : List Nat) : List Nat := List.zipWith (· ^^^ ·) a b

/-- ShiftRows on 16 bytes in column order, and its inverse. -/
def shiftRows (st : List Nat) : List Nat := (List.range 16).map fun i => st.getD ((i + 4 * (i % 4)) % 16) 0
def invShiftRows (st : List Nat) : List Nat := (List.range 16).map fun i => st.getD ((i + 16 - 4 * (i % 4)) % 16) 0

/-- MixColumns with the coefficients of one row. -/
def mixWith (c : List Nat) (st : List Nat) : List Nat :=
  (List.range 16).map fun i => (List.range 4).foldl (fun a k => a ^^^ aesMul (st.getD (4 * (i / 4) + k) 0) (c.getD ((k + 4 - i % 4) % 4) 0)) 0

/-- AES-256 encryption of a block under its round keys. -/
def aesEnc (rk : List (List Nat)) (b : List Nat) : List Nat :=
  let st := ((rk.drop 1).take 13).foldl (fun st k => xorN (mixWith [2, 3, 1, 1] (shiftRows (st.map sub))) k) (xorN b (rk.getD 0 []))
  xorN (shiftRows (st.map sub)) (rk.getD 14 [])

/-- AES-256 decryption of a block. -/
def aesDec (rk : List (List Nat)) (b : List Nat) : List Nat :=
  let st := ((rk.drop 1).take 13).reverse.foldl (fun st k => mixWith [14, 11, 13, 9] (xorN ((invShiftRows st).map invSub) k)) (xorN b (rk.getD 14 []))
  xorN ((invShiftRows st).map invSub) (rk.getD 0 [])

/-- AES-256 of a 16-byte string. -/
def aes (key blk : List Byte) : List Byte := (aesEnc (roundKeys key) (blk.map BitVec.toNat)).map (BitVec.ofNat 8)

/-! ## GCM -/

/-- Product in GF(2^128) as GCM orders its bits: bit 127 is x^0. -/
def ghMul (x y : Nat) : Nat :=
  ((List.range 128).foldl (fun (st : Nat × Nat) i =>
    (if x.testBit (127 - i) then st.1 ^^^ st.2 else st.1, if st.2 % 2 = 1 then (st.2 / 2) ^^^ (0xE1 * 2 ^ 120) else st.2 / 2)) (0, y)).1

def ghash (h : Nat) (l : List Byte) : Nat :=
  (piecesOf 16 (l.length / 16 + 1) l).foldl (fun a b => ghMul (a ^^^ beNat (padTo 16 b)) h) 0

def pad16 (l : List Byte) : List Byte := l ++ zeros ((16 - l.length % 16) % 16)

/-- The key stream of GCM's counter mode from counter 2, and the data combined with it. -/
def gctr (rk : List (List Nat)) (iv data : List Byte) : List Byte :=
  let bl := piecesOf 16 (data.length / 16 + 1) data
  (bl.zipIdx.map fun x => xorBytes x.1 ((aesEnc rk ((iv ++ beBytes 4 (x.2 + 2)).map BitVec.toNat)).map (BitVec.ofNat 8))).flatten

/-- The 16-byte tag over additional data and ciphertext, with a 96-bit IV. -/
def gcmTag (rk : List (List Nat)) (iv aad ct : List Byte) : List Byte :=
  let h := beNat ((aesEnc rk (List.replicate 16 0)).map (BitVec.ofNat 8))
  let g := ghash h (pad16 aad ++ pad16 ct ++ beBytes 8 (8 * aad.length) ++ beBytes 8 (8 * ct.length))
  xorBytes (beBytes 16 g) ((aesEnc rk ((iv ++ beBytes 4 1).map BitVec.toNat)).map (BitVec.ofNat 8))

/-- GCM encryption: ciphertext and tag. -/
def gcmEnc (key iv aad pt : List Byte) : List Byte × List Byte :=
  let rk := roundKeys key
  let ct := gctr rk iv pt
  (ct, gcmTag rk iv aad ct)

/-- GCM decryption: none if the tag does not match. -/
def gcmDec (key iv aad ct tag : List Byte) : Option (List Byte) :=
  let rk := roundKeys key
  if gcmTag rk iv aad ct = tag then some (gctr rk iv ct) else none

/-! ## KWP -/

/-- One step of the unwrapping of SP 800-38F: index t, over A and the semiblocks R. -/
def kwpStep (rk : List (List Nat)) (n : Nat) (st : List Byte × List (List Byte)) (t : Nat) : List Byte × List (List Byte) :=
  let i := (t - 1) % n
  let a := xorBytes st.1 (beBytes 8 t)
  let b := (aesDec rk ((a ++ st.2.getD i []).map BitVec.toNat)).map (BitVec.ofNat 8)
  (b.take 8, st.2.set i (b.drop 8))

/-- KWP unwrapping: the plaintext, or none if the integrity check fails. -/
def kwpUnwrap (key c : List Byte) : Option (List Byte) :=
  let rk := roundKeys key
  let n := c.length / 8 - 1
  let (a, p) :=
    if c.length = 16 then
      let b := (aesDec rk (c.map BitVec.toNat)).map (BitVec.ofNat 8)
      (b.take 8, b.drop 8)
    else
      let r := piecesOf 8 n (c.drop 8)
      let st := ((List.range (6 * n)).map fun k => 6 * n - k).foldl (kwpStep rk n) (c.take 8, r)
      (st.1, st.2.flatten)
  let len := beNat (a.drop 4)
  if a.take 4 = [0xA6#8, 0x59#8, 0x59#8, 0xA6#8] ∧ len ≤ p.length ∧ p.length < len + 8 ∧ c.length % 8 = 0 ∧ 16 ≤ c.length ∧
      (p.drop len).all (· == 0) then some (p.take len) else none

/-- KWP wrapping (R319): the plaintext padded with zeros to semiblocks, behind the alternative IV and its length. -/
def kwpWrap (key p : List Byte) : List Byte :=
  let rk := roundKeys key
  let n := (p.length + 7) / 8
  let aiv : List Byte := [0xA6#8, 0x59#8, 0x59#8, 0xA6#8] ++ beBytes 4 p.length
  let r := piecesOf 8 n (p ++ zeros (8 * n - p.length))
  let enc (b : List Byte) : List Byte := (aesEnc rk (b.map BitVec.toNat)).map (BitVec.ofNat 8)
  if n = 1 then enc (aiv ++ r.flatten)
  else
    let st := ((List.range (6 * n)).map (· + 1)).foldl (fun (st : List Byte × List (List Byte)) t =>
      let i := (t - 1) % n
      let b := enc (st.1 ++ st.2.getD i [])
      (xorBytes (b.take 8) (beBytes 8 t), st.2.set i (b.drop 8))) (aiv, r)
    st.1 ++ st.2.flatten

/-! ## Curve25519 -/

/-- The field's prime and the group's order. -/
def p25519 : Nat := 2 ^ 255 - 19
def order25519 : Nat := 2 ^ 252 + 27742317777372353535851937790883648493

/-- Power modulo the prime, over the bits of the exponent. -/
def powP (b e : Nat) : Nat :=
  ((List.range 256).foldl (fun (st : Nat × Nat) i => (if e.testBit i then st.1 * st.2 % p25519 else st.1, st.2 * st.2 % p25519)) (1, b % p25519)).1

def invP (a : Nat) : Nat := powP a (p25519 - 2)
def subP (a b : Nat) : Nat := (a + p25519 - b % p25519) % p25519

/-- The Montgomery ladder of RFC 7748: state (x2, z2, x3, z3). -/
def ladderStep (u k : Nat) (st : Nat × Nat × Nat × Nat) (t : Nat) : Nat × Nat × Nat × Nat :=
  let sw := k.testBit t
  let (x2, z2, x3, z3) := if sw then (st.2.2.1, st.2.2.2, st.1, st.2.1) else st
  let a := (x2 + z2) % p25519
  let aa := a * a % p25519
  let b := subP x2 z2
  let bb := b * b % p25519
  let e := subP aa bb
  let da := subP x3 z3 * a % p25519
  let cb := (x3 + z3) * b % p25519
  let x3' := (da + cb) * (da + cb) % p25519
  let d := subP da cb
  let z3' := u * (d * d % p25519) % p25519
  let r := (aa * bb % p25519, e * ((aa + 121665 * e) % p25519) % p25519, x3', z3')
  if sw then (r.2.2.1, r.2.2.2, r.1, r.2.1) else r

/-- X25519. -/
def x25519 (scalar u : List Byte) : List Byte :=
  let k := leNat scalar
  let k := k % 2 ^ 254 / 8 * 8 + 2 ^ 254
  let u := leNat u % 2 ^ 255 % p25519
  let st := ((List.range 255).map fun i => 254 - i).foldl (ladderStep u k) (1, 0, u, 1)
  leBytes 32 (st.1 * invP st.2.1 % p25519)

/-- The u coordinate of the base point. -/
def x25519Base : List Byte := leBytes 32 9

/-! ## Ed25519 -/

/-- A point in extended coordinates. -/
structure Pt where
  x : Nat
  y : Nat
  z : Nat
  t : Nat
  deriving DecidableEq, Repr

def edD : Nat := (p25519 - 121665) * invP 121666 % p25519

def ptAdd (p q : Pt) : Pt :=
  let a := subP p.y p.x * subP q.y q.x % p25519
  let b := (p.y + p.x) * (q.y + q.x) % p25519
  let c := 2 * p.t * q.t * edD % p25519
  let d := 2 * p.z * q.z % p25519
  let e := subP b a
  let f := subP d c
  let g := (d + c) % p25519
  let h := (b + a) % p25519
  { x := e * f % p25519, y := g * h % p25519, z := f * g % p25519, t := e * h % p25519 }

def ptZero : Pt := { x := 0, y := 1, z := 1, t := 0 }

def ptMul (k : Nat) (p : Pt) : Pt :=
  ((List.range 256).foldl (fun (st : Pt × Pt) i => (if k.testBit i then ptAdd st.1 st.2 else st.1, ptAdd st.2 st.2)) (ptZero, p)).1

/-- The x coordinate of a point with its sign bit; none if there is none. -/
def recoverX (y sign : Nat) : Option Nat :=
  if p25519 ≤ y then none
  else
    let x2 := subP (y * y) 1 * invP ((edD * (y * y % p25519) + 1) % p25519) % p25519
    if x2 = 0 then (if sign = 1 then none else some 0)
    else
      let x := powP x2 ((p25519 + 3) / 8)
      let x := if x * x % p25519 = x2 then x else x * powP 2 ((p25519 - 1) / 4) % p25519
      if x * x % p25519 ≠ x2 then none else some (if x % 2 = sign then x else p25519 - x)

def basePt : Pt :=
  let y := 4 * invP 5 % p25519
  let x := match recoverX y 0 with | some v => v | none => 0
  { x, y, z := 1, t := x * y % p25519 }

def compress (p : Pt) : List Byte :=
  let zi := invP p.z
  let x := p.x * zi % p25519
  let y := p.y * zi % p25519
  leBytes 32 (y + x % 2 * 2 ^ 255)

def decompress (l : List Byte) : Option Pt :=
  let n := leNat l
  let y := n % 2 ^ 255
  match recoverX y (n / 2 ^ 255) with
  | some x => if l.length = 32 then some { x, y, z := 1, t := x * y % p25519 } else none
  | none => none

def edScalar (h : List Byte) : Nat := leNat (h.take 32) % 2 ^ 254 / 8 * 8 + 2 ^ 254

/-- The public key of a 32-byte private key. -/
def edPublic (sk : List Byte) : List Byte := compress (ptMul (edScalar (sha512 sk)) basePt)

/-- The 64-byte signature. -/
def edSign (sk m : List Byte) : List Byte :=
  let h := sha512 sk
  let a := edScalar h
  let pub := compress (ptMul a basePt)
  let r := leNat (sha512 (h.drop 32 ++ m)) % order25519
  let rr := compress (ptMul r basePt)
  let k := leNat (sha512 (rr ++ pub ++ m)) % order25519
  rr ++ leBytes 32 ((r + k * a) % order25519)

/-- A signature verifies. -/
def edVerify (pub m sig : List Byte) : Bool :=
  match decompress pub, decompress (sig.take 32) with
  | some a, some r =>
    let sc := leNat (sig.drop 32)
    let k := leNat (sha512 (sig.take 32 ++ pub ++ m)) % order25519
    sig.length == 64 && decide (sc < order25519) && compress (ptMul sc basePt) == compress (ptAdd r (ptMul k a))
  | _, _ => false

end Crypto

end Sys2Proof.Machine
end

