-- ==== Sys2Proof/Machine/Format.lean ====
section
/-!
DEFINITION. The recording format as the formatter writes it (spec/03): granules and their packing into data sets (R99–R102), the data set
information table (R98), C3 data sets (R103), end-of-data maps (R104, R109), C2 rows (R92), passes (R84, R85), settlement and release
(R265, R266), the two encoders (R176–R179), and the starts of boards after repositioning (R182).
-/
namespace Sys2Proof.Machine

/-! ## Granules as recorded (R99, R100, R637) -/

/-- Runs of equal pieces, in order: length and count, a count of 65,535 at most (R637). -/
def rmapRuns (pieces : List Nat) : List (Nat × Nat) :=
  (pieces.foldl (fun acc l =>
    match acc with
    | (l', c) :: rest => if l' = l ∧ c < 65535 then (l, c + 1) :: rest else (l, 1) :: acc
    | [] => [(l, 1)]) []).reverse

/-- The record map of a granule (R637). -/
def rmapBytes (pieces : List Nat) : List Byte := (rmapRuns pieces).flatMap fun r => beBytes 4 r.1 ++ beBytes 2 r.2 ++ zeros 2

/-- The granule header (R100); bodyLen bytes of body follow. -/
def granHeader (g : Gran) (bodyLen : Nat) : List Byte :=
  let h := beBytes 2 0x4752 ++ [1, if g.filemark then 2 else 1] ++ beBytes 1 (b2n g.enc + 2 * b2n g.startsMid + 4 * b2n g.endsMid)
    ++ beBytes 1 g.profile ++ beBytes 2 g.records ++ beBytes 8 g.gsn ++ beBytes 4 g.nonce ++ beBytes 4 (if g.enc then g.keyTag else 0)
    ++ beBytes 8 g.tenantTag ++ beBytes 4 g.plain.length ++ beBytes 4 bodyLen ++ beBytes 8 g.first
    ++ beBytes 4 (8 * (rmapRuns g.pieces).length) ++ zeros 8
  h ++ beBytes 4 (crc32 h)

/-- A granule's additional authenticated data: header bytes 0x00–0x3B and the record map (R101). -/
def granAad (g : Gran) (bodyLen : Nat) : List Byte := (granHeader g bodyLen).take 0x3C ++ rmapBytes g.pieces

/-- The IV of a granule: PASS_NONCE and GSN (R101). -/
def granIv (g : Gran) : List Byte := beBytes 4 g.nonce ++ beBytes 8 g.gsn

/-- A granule as recorded, without padding: header, record map, body, and tag if encrypted (R99, R464). -/
def granBytes (g : Gran) : List Byte :=
  granHeader g g.body.length ++ rmapBytes g.pieces ++ g.body ++ (if g.enc then g.tag else [])

/-- The state with the granule of a GSN changed. -/
def onGran (gsn : Nat) (f : Gran → Gran) (s : State) : State :=
  setFmt { s.fmt with grans := s.fmt.grans.map fun g => if g.gsn = gsn then f g else g } s

/-! ## The volume map (R109, R110) -/

/-- A volume map's bytes 0 to MAP_LEN − 1 (R109, R110). -/
def volMapBody (m : VolMap) : List Byte :=
  beBytes 4 0x50564D31 ++ beBytes 2 1 ++ beBytes 1 m.copy ++ beBytes 1 (b2n m.dirty) ++ beBytes 8 m.gen ++ padTo 16 m.volumeId
    ++ beBytes 4 (256 + 32 * m.mounts.length + 16 * m.relocs.length) ++ beBytes 4 m.mounts.length ++ beBytes 4 m.relocs.length
    ++ beBytes 4 100000 ++ beBytes 4 m.uaEnd ++ beBytes 4 m.eodDsn ++ beBytes 4 m.eodFrame ++ beBytes 1 m.eodPass ++ zeros 3
    ++ beBytes 8 m.nextGsn ++ zeros 184
    ++ (m.mounts.flatMap fun e => beBytes 4 e.nonce ++ beBytes 4 e.firstDsn ++ beBytes 4 e.endDsn ++ zeros 4 ++ beBytes 8 e.firstGsn ++ beBytes 8 e.endGsn)
    ++ (m.relocs.flatMap fun e => beBytes 4 e.1 ++ beBytes 4 e.2 ++ zeros 8)

/-- A volume map with its digest (R109). -/
def volMapBytes (m : VolMap) : List Byte := let b := volMapBody m; b ++ Crypto.sha512 b

/-- Two maps have the same contents: equal but for COPY (R111). -/
def sameMap (a b : VolMap) : Bool := { a with copy := 0 } == { b with copy := 0 }

/-- The mount table with the last entry brought up to date (R110). -/
def endMount (endDsn endGsn : Nat) (l : List Mount) : List Mount :=
  match l.reverse with | m :: r => ({ m with endDsn, endGsn } :: r).reverse | [] => []

/-- What FMT shows of the selected map (R115). -/
def showMap (s : State) : State :=
  match s.vol.map with
  | none => setF Reg.FMT_STATUS_VM_VALID 0 s
  | some m => setF Reg.FMT_EOD_FRAME m.eodFrame <| setF Reg.FMT_VM_GEN_HI (m.gen / 2 ^ 32) <| setF Reg.FMT_VM_GEN_LO m.gen <|
      setF Reg.FMT_STATUS_VM_VALID 1 s

/-! ## Data sets (R92, R98, R102, R103) -/

/-- Bytes of a data set's granule stream (R99). -/
def streamLen : Nat := dsPayload - 0x200

/-- The data set information table with its CRC (R98). -/
def dsit (d : DataSet) (nonce : Nat) (volumeId content : List Byte) : List Byte :=
  let h := beBytes 4 0x50524631 ++ [1, if d.kind = .eodMap then 2 else 1] ++ beBytes 1 (if d.kind = .eodMap then 0 else d.dsn % 32)
    ++ beBytes 1 d.pass ++ beBytes 4 d.dsn ++ beBytes 4 nonce ++ padTo 16 volumeId ++ beBytes 4 d.contBytes ++ beBytes 4 d.granCount
    ++ beBytes 4 d.firstGran ++ beBytes 4 (min (0x200 + content.length) dsPayload) ++ beBytes 8 d.firstGsn ++ beBytes 8 d.recBefore
    ++ beBytes 8 d.fmBefore ++ zeros 424
  h ++ beBytes 8 (crc64 h)

/-- A data set's payload: information table, DS_CRC, contents, zero fill (R98, R99). -/
def payloadOf (d : DataSet) (nonce : Nat) (volumeId content : List Byte) : List Byte :=
  let c := padTo streamLen content
  dsit d nonce volumeId content ++ beBytes 8 (crc64 c) ++ c

/-- The payload of C3 data set B + 30 + j: parity over the payloads taken of the group, absent ones zero (R103, R131). -/
def c3Payload (base j : Nat) (data : Tbl (List Byte)) : List Byte :=
  let cols := (List.range 30).map fun i => Tbl.get [] data (base + i)
  (List.range dsPayload).map fun o => BitVec.ofNat 8 ((c3Parity (cols.map fun c => (c.getD o 0).toNat)).getD j 0)

/-- The 2,048 bytes of row g of a data set: payload, or C2 parity down each byte column of its SDS (R92, R129). -/
def rowData (payload : List Byte) (g : Nat) : List Byte :=
  if g < 6912 then bytesAt payload (2048 * g) 2048
  else (List.range 2048).map fun c =>
    let col := (List.range 216).map fun r => (payload.getD ((32 * r + sdsOf g) * 2048 + c) 0).toNat
    BitVec.ofNat 8 ((c2Parity col).getD (rowOf g - 216) 0)

/-! ## Packing (R99, R102) -/

/-- C3 data sets and, at a closure, the end-of-data map that follow a group (R102–R104). -/
def addTail (base : Nat) (eod : Bool) (s : State) : State :=
  let map : DataSet := { dsn := base + 32, kind := .eodMap, closed := true, firstGsn := s.fmt.hdrGsn, recBefore := s.fmt.recDone, fmBefore := s.fmt.fmDone }
  let c3 : List DataSet := [{ dsn := base + 30, kind := .c3, closed := true }, { dsn := base + 31, kind := .c3, closed := true }]
  setFmt { s.fmt with sets := s.fmt.sets ++ c3 ++ (if eod then [map] else []), group := none, nextDsn := base + 32 } s

/-- The data set that takes the next bytes: the open one, or the next DSN's, which opens a wrap group when it is a multiple of 32 (R102). -/
def openSet (s : State) : State :=
  let fresh (s : State) : State :=
    let n := s.fmt.nextDsn
    let d : DataSet := { dsn := n, firstGsn := s.fmt.hdrGsn, recBefore := s.fmt.recDone, fmBefore := s.fmt.fmDone }
    setFmt { s.fmt with sets := s.fmt.sets ++ [d], nextDsn := n + 1, group := (match s.fmt.group with | some b => some b | none => some (n / 32 * 32)) } s
  match s.fmt.sets.getLast? with
  | some d => if d.closed then fresh s else s
  | none => fresh s

/-- Bytes of a granule enter the granule stream (R99): `start` says that they begin with its header, `gsn` its number. A data set that is
full closes, and the 30th of a group closes the group (R102). -/
def feed (gsn : Nat) : Nat → Bool → List Byte → State → State
  | 0, _, _, s => s
  | fuel + 1, start, bytes, s =>
    if bytes = [] then s
    else
      let s := openSet s
      match s.fmt.sets.getLast? with
      | none => s
      | some d =>
        let room := streamLen - d.stream.length
        let take := bytes.take room
        let d1 : DataSet :=
          if start then { d with granCount := d.granCount + 1, firstGran := (if d.granCount = 0 then 0x200 + d.stream.length else d.firstGran)
                                 firstGsn := (if d.granCount = 0 then gsn else d.firstGsn) }
          else if d.granCount = 0 then { d with contBytes := d.contBytes + take.length } else d
        let full := decide (room ≤ bytes.length)
        let d2 : DataSet := { d1 with stream := d.stream ++ take, closed := full }
        let s := onSet d.dsn (fun _ => d2) s
        let s := if start then setFmt { s.fmt with hdrGsn := gsn + 1 } s else s
        let s := if full ∧ d.dsn % 32 = 29 then addTail (d.dsn / 32 * 32) false s else s
        feed gsn fuel false (bytes.drop room) s

/-- The closure that a command called for (R102, R441): made once every accepted granule is packed. With a group open it closes the data set
with zero fill and adds the C3 data sets; an end-of-data map follows unless nothing was accepted since the last closure. -/
def tryClose (s : State) : State :=
  if !s.fmt.closeReq ∨ s.fmt.openGran.isSome ∨ (s.fmt.grans.any fun g => g.stage != .packed) then s
  else
    let s := setFmt { s.fmt with closeReq := false } s
    if s.fmt.closedUp then s
    else
      let s := setFmt { s.fmt with closedUp := true } s
      match s.fmt.group with
      | some base =>
        let s := setFmt { s.fmt with sets := s.fmt.sets.map fun d => { d with closed := true } } s
        addTail base true s
      | none =>
        let n := s.fmt.nextDsn
        let d : DataSet := { dsn := n, kind := .eodMap, closed := true, firstGsn := s.fmt.hdrGsn, recBefore := s.fmt.recDone, fmBefore := s.fmt.fmDone }
        setFmt { s.fmt with sets := s.fmt.sets ++ [d] } s

/-- A packed granule joins its tenant's chain and the counts that go with it (R464–R466, R458). -/
def foldChain (g : Gran) (s : State) : State :=
  let t := tenant s g.tenant
  let b := granBytes g
  let c : Chain := { h := Crypto.sha512 (t.chain.h ++ b), first := (if t.chain.grans = 0 then g.gsn else t.chain.first), last := g.gsn
                     grans := t.chain.grans + 1, plain := t.chain.plain + g.plain.length, tape := t.chain.tape + (b.length + 7) / 8 * 8
                     records := t.chain.records + g.records }
  setTenant g.tenant { t with chain := c, hist := t.hist ++ [(g.gsn, c)] } s

/-- FMT packs the oldest granule not yet packed, once it is sealed (R99, R101), and SVC2 folds it into its tenant's chain (R464). A filemark granule
counts, as a record does, in the data set that holds its last byte: the spec says only "lie in" (log entry: filemarks across data sets). -/
def packGranule (s : State) : State :=
  match s.fmt.grans.find? fun g => g.stage != .packed with
  | none => s
  | some g =>
    if g.stage ≠ .sealed ∨ !getB s Reg.FMT_CTRL then s
    else
      let b := granBytes g
      let s := feed g.gsn 2 true b s
      let n := match s.fmt.sets.find? fun d => d.kind == .payload && !d.closed with
        | some d => d.dsn
        | none => match (s.fmt.sets.filter fun d => d.kind == .payload).getLast? with | some d => d.dsn | none => 0
      let s := setFmt { s.fmt with recDone := s.fmt.recDone + g.records, fmDone := s.fmt.fmDone + b2n g.filemark } s
      let s := feed g.gsn 2 false (zeros ((8 - b.length % 8) % 8)) s
      let s := onGran g.gsn (fun g => { g with stage := .packed, dsn := n }) s
      tryClose (foldChain g s)

/-! ## Readiness (R180) and passes (R85) -/

/-- Frames that must remain on a pass for a data set to begin there (R85, R104): those of a whole group for its first data set, one longest
pitch for an end-of-data map, none otherwise. -/
def roomNeeded (d : DataSet) (pass : Nat) : Nat :=
  if d.dsn % 32 ≠ 0 then 0 else if d.kind = .eodMap then 58 else if pass = 47 then 1914 else 1856

/-- UA_END of the volume: the map's, or FMT_UA_END where there is none (R116, R282). -/
def uaEnd (s : State) : Nat := match s.vol.map with | some m => m.uaEnd | none => getF s Reg.FMT_UA_END

/-- Too little room remains on the pass for a data set (R85). -/
def passFull (s : State) (d : DataSet) : Bool := framesLeft s.fmt.nextPass s.fmt.nextFrame (uaEnd s) < roomNeeded d s.fmt.nextPass

/-- The end-of-data map that a data set carries: the current map, naming itself as the end of data (R104, R110, R112). -/
def eodMapFor (s : State) (d : DataSet) : VolMap :=
  let m := match s.vol.map with | some m => m | none => {}
  { m with copy := 3, odd := [], gen := (match d.map with | some k => k.gen | none => s.vol.highGen + 1), eodDsn := d.dsn, eodFrame := s.fmt.nextFrame, eodPass := s.fmt.nextPass, nextGsn := s.vol.nextGsn
           mounts := (if s.vol.wrote then endMount d.dsn s.vol.nextGsn m.mounts else m.mounts) }

/-- C2 and C3 are both enabled, as writing data sets needs (R142). -/
def codesOn (s : State) : Bool := getB s Reg.OUT_CTRL_C2_EN && getB s Reg.OUT_CTRL_C3_EN

/-- The oldest data set whose contents are whole becomes ready: its payload, its DSIT with both CRCs, its C2 rows (R180). The first data set
of a group, and an end-of-data map, wait until the frames before them are known and their pass has room for them. FORMAT in a mount without an
accepted nonce writes PASS_NONCE 0, which the spec leaves open (log entry: FORMAT without a nonce). -/
def dataSetReady (s : State) : State :=
  match s.fmt.sets.find? fun d => !d.ready with
  | none => s
  | some d =>
    let before := s.fmt.sets.filter fun x => x.dsn < d.dsn
    let pass := if d.dsn % 32 = 0 then s.fmt.nextPass else match before.getLast? with | some x => x.pass | none => s.fmt.nextPass
    let nonce := s.vol.nonce.getD 0
    let vid := match s.vol.map with | some m => m.volumeId | none => zeros 16
    let base := d.dsn / 32 * 32
    if !d.closed ∨ !codesOn s ∨ !getB s Reg.FMT_CTRL then s
    else if d.dsn % 32 = 0 ∧ (before.any (fun x => !x.compiled) ∨ passFull s d) then s
    else
      let d := { d with pass }
      match d.kind with
      | .payload =>
        let p := payloadOf d nonce vid d.stream
        let s := onSet d.dsn (fun _ => { d with ready := true, payload := p }) s
        setFmt { s.fmt with c3Data := Tbl.set s.fmt.c3Data d.dsn p } s
      | .reloc _ =>
        let s := onSet d.dsn (fun _ => { d with ready := true, payload := d.stream }) s
        setFmt { s.fmt with c3Data := Tbl.set s.fmt.c3Data d.dsn d.stream } s
      | .c3 =>
        let p := c3Payload base (d.dsn - base - 30) s.fmt.c3Data
        let s := onSet d.dsn (fun _ => { d with ready := true, payload := p }) s
        if d.dsn % 32 = 31 then setFmt { s.fmt with c3Data := s.fmt.c3Data.filter fun e => d.dsn < e.1 } s else s
      | .eodMap =>
        let m := eodMapFor s d
        let s := onSet d.dsn (fun _ => { d with ready := true, map := some m, payload := payloadOf d nonce vid (volMapBytes m) }) s
        setVol { s.vol with highGen := max s.vol.highGen m.gen } s

/-- The formatter ends a pass on which too little room remains for the data set that comes next, and goes on at the start of the next one
(R84, R85). After pass 47 the volume ends with the last group's end-of-data map, and END_OF_MEDIUM. -/
def passEnd (s : State) : State :=
  match s.fmt.sets.find? fun d => !d.ready with
  | none => s
  | some d =>
    let before := s.fmt.sets.filter fun x => x.dsn < d.dsn
    if d.dsn % 32 ≠ 0 ∨ before.any (fun x => !x.compiled || !x.begun) ∨ s.fmt.running ∨ !passFull s d then s
    else if 47 ≤ s.fmt.nextPass then closeBefore d.dsn stEND_OF_MEDIUM 0 s.fmt.nextFrame s.fmt.nextPass s
    else
      let p := s.fmt.nextPass + 1
      let s := setFmt { s.fmt with nextPass := p, nextFrame := passStart p (uaEnd s), repos := none, runup := none } s
      runUplinks (setTarget 0 (setF Reg.POS_PASS p s))

/-! ## Settlement and release (R265, R266) -/

/-- A data set is settled: every row has passed or been abandoned, or, compiled without verify windows, every row has been emitted (R265,
R638). -/
def isSettled (d : DataSet) : Bool :=
  if !d.compiled then false
  else if !d.verify then d.ended.eraseDups.length == 8
  else d.passed.length + d.abandoned.length == dsRows

/-- What an end-of-data map that settles changes: the volume ends there, for the map, the chains and the counts (R104, R465). -/
def eodSettled (d : DataSet) (s : State) : State :=
  match d.map with
  | none => s
  | some m =>
    let s := setVol { s.vol with map := some m, eodDsn := d.dsn, eodFrame := d.origin, eodPass := d.pass
                                 records := d.recBefore, filemarks := d.fmBefore, eodHdr := d.firstGsn } s
    let s := { s with ten := s.ten.map fun e =>
      let below := e.2.hist.filter fun x => x.1 < d.firstGsn
      (e.1, { e.2 with eod := (match below.getLast? with | some x => x.2 | none => e.2.eod), hist := e.2.hist.filter fun x => d.firstGsn ≤ x.1 }) }
    let s := setFmt { s.fmt with grans := s.fmt.grans.filter (fun g => !(g.stage == .packed && g.gsn < d.firstGsn)), nextDsn := d.dsn
                                 nextFrame := d.origin, nextPass := d.pass } s
    let s := showMap s
    match s.fmt.ending with
    | none => s
    | some (st, det) => haltStream st det (failExec st det (setFmt { s.fmt with ending := none } s))

/-- Settled data sets are released in DSN order (R265). -/
def releaseSets : Nat → State → State
  | 0, s => s
  | fuel + 1, s =>
    match s.fmt.sets with
    | [] => s
    | d :: rest =>
      if !isSettled d then s
      else
        let s := dropKeys [d.dsn] s
        let s := setEnc { s.enc with rows := s.enc.rows.filter fun r => r.dsn != d.dsn } (setFmt { s.fmt with sets := rest } s)
        let s := if d.kind = .eodMap then eodSettled d s else s
        releaseSets fuel s

/-- A write run that ended at a closure abandons, once all its outcomes are final, each row that has not passed (R262). -/
def abandonRun (s : State) : State :=
  match s.fmt.sets.getLast? with
  | none => s
  | some d =>
    let final := s.fmt.sets.all fun x => x.compiled && x.ended.eraseDups.length == 8 && (!x.verify || x.seen.eraseDups.length == dsRows)
    if d.kind ≠ .eodMap ∨ s.fmt.running ∨ !final then s
    else s.fmt.sets.foldl (fun s x =>
      (s.fmt.rewrite.filter fun r => r.m == x.dsn).foldl (fun s r => abandonRow r.m r.g s) s) s

/-- What follows every verify outcome and every end of a board: rows of a closed run are abandoned, settled data sets are released. -/
def settleCheck (s : State) : State := let s := abandonRun s; releaseSets s.fmt.sets.length s

/-! ## After repositioning (R162, R182) -/

/-- CMD starts the armed boards of a data set on a pass, at the speed of a STEP in the pass's direction (R181, R182). In a write run only the
downstream uplinks stay (R68). -/
def startRun (pass step : Nat) (write : Bool) (s : State) : State :=
  let v := stepSpeed step
  let s := setF Reg.POS_PASS pass (setTarget (if passReverse pass then -v else v) s)
  let s := forEach (List.range 8) startBand (runUplinks (setFmt { s.fmt with running := s.fmt.running || write, runup := none } s))
  if (List.range 8).any (fun b => (band s b).running) then setFmt { s.fmt with repos := none } s else s

/-- CMD's retry after POS_LOCK_FAIL (R49): from the reposition 100 frames back the tape runs again, in the direction of its pass. -/
def retryLock (s : State) : State :=
  let v := stepSpeed (getF s Reg.SPM_STATUS_STEP)
  setTarget (if passReverse (getF s Reg.POS_PASS) then -v else v) (setFmt { s.fmt with runup := none } (setPos { s.pos with retryFrame := none } s))

/-- The tape reaches the run-up point before data set `n`, whose boards are armed: CMD starts them (R162, R182). A read run goes at the
streaming speed, or at STEP 0 on level 2 of the ladder (R270). -/
def repositioned (s : State) : State :=
  if s.pos.retryFrame.isSome then (if safeInForce s then s else retryLock s) else
  match s.fmt.repos with
  | none => s
  | some n =>
    if safeInForce s ∨ (List.range 8).any (fun b => (band s b).running) then s
    else
      let step := getF s Reg.SPM_STATUS_STEP
      match dataSet s n with
      | some d => if d.compiled then startRun d.pass step true s else s
      | none =>
        match s.rch.sets.find? fun d => d.dsn == n with
        | some d => startRun d.pass (if getB s Reg.RCV_STATUS_ACTIVE ∧ getF s Reg.RCV_STATUS_LEVEL = 2 then 0 else step) false s
        | none => s

/-! ## Meanings -/

/-- END. -/
def execEnd (band : Nat) (s : State) : Host.Outcome State Fault Refusal := .next (settleCheck (endSquare band s))

/-- PASS_END. -/
def execPassEnd (s : State) : Host.Outcome State Fault Refusal := .next (passEnd s)

/-- DATA_SET_READY. -/
def execDataSetReady (s : State) : Host.Outcome State Fault Refusal := .next (dataSetReady s)

/-- REPOSITION_COMPLETE. -/
def execRepositionComplete (s : State) : Host.Outcome State Fault Refusal := .next (repositioned s)

/-- GRANULE_PACKED. -/
def execGranulePacked (s : State) : Host.Outcome State Fault Refusal := .next (packGranule s)

end Sys2Proof.Machine
end

