-- ==== Sys2Proof/Machine/Pgc.lean ====
section
/-!
DEFINITION. The PGC format (spec/09): the compressor's parser (R296, R297), its code lengths (R298–R300), its blocks (R291–R295, R301), and
the decompressor with its checks (R305).
-/
namespace Sys2Proof.Machine
namespace Pgc

/-! ## Symbols (R293, R294) -/

/-- A parsed symbol: a literal byte, or a match of a length at a distance. -/
inductive Sym where
  | lit (b : Nat)
  | ref (len dist : Nat)
  deriving DecidableEq, Repr

/-- A length's symbol, extra bits and their count (R293). -/
def lenCode (l : Nat) : Nat × Nat × Nat :=
  let v := l - 4
  if v < 8 then (257 + v, 0, 0)
  else
    let n := Nat.log2 v
    (265 + 4 * (n - 3) + (v >>> (n - 2)) % 4, v % 2 ^ (n - 2), n - 2)

/-- A distance's symbol, extra bits and their count (R294). -/
def distCode (d : Nat) : Nat × Nat × Nat :=
  let v := d - 1
  if v < 4 then (v, 0, 0)
  else
    let n := Nat.log2 v
    (4 + 2 * (n - 2) + (v >>> (n - 1)) % 2, v % 2 ^ (n - 1), n - 1)

/-- Extra bits of a length symbol, and the smallest length it stands for. -/
def lenBase (sym : Nat) : Nat × Nat :=
  if sym < 265 then (0, sym - 257 + 4)
  else
    let n := (sym - 265) / 4 + 3
    (n - 2, 2 ^ n + ((sym - 265) % 4) * 2 ^ (n - 2) + 4)

/-- Extra bits of a distance symbol, and the smallest distance it stands for. -/
def distBase (sym : Nat) : Nat × Nat :=
  if sym < 4 then (0, sym + 1)
  else
    let n := (sym - 4) / 2 + 2
    (n - 1, 2 ^ n + ((sym - 4) % 2) * 2 ^ (n - 1) + 1)

/-! ## The parser (R296, R297) -/

/-- The hash table: 8,192 buckets of two ways. -/
abbrev Table := Array (Option Nat × Option Nat)

/-- The hash of a position. -/
def hashAt (a : Array Nat) (p : Nat) : Nat :=
  ((a.getD p 0 + 2 ^ 8 * a.getD (p + 1) 0 + 2 ^ 16 * a.getD (p + 2) 0 + 2 ^ 24 * a.getD (p + 3) 0) * 0x9E3779B1 % 2 ^ 32) >>> 19

/-- Equal bytes at `q` and `p`, up to a limit. -/
def matchLen (a : Array Nat) (q p : Nat) : Nat → Nat
  | 0 => 0
  | k + 1 => if a.getD q 0 = a.getD p 0 then 1 + matchLen a (q + 1) (p + 1) k else 0

/-- Insert: a position that may be looked up enters way 0 of its bucket. -/
def insertPos (a : Array Nat) (t : Table) (p : Nat) : Table :=
  if a.size < p + 4 then t else let h := hashAt a p; t.setIfInBounds h (some p, (t.getD h (none, none)).1)

def insertRange (a : Array Nat) (t : Table) (lo hi : Nat) : Table := (List.range (hi - lo)).foldl (fun t i => insertPos a t (lo + i)) t

/-- The better of two candidates (length, distance): the longer, then the nearer. -/
def better (x y : Nat × Nat) : Nat × Nat := if x.1 < y.1 ∨ (x.1 = y.1 ∧ y.2 < x.2) then y else x

/-- Lookup then insert of a position, up to its block's end: length 0 if nothing is usable. The window is the 65,536 bytes before it. -/
def findPos (a : Array Nat) (t : Table) (p e : Nat) : Nat × Nat × Table :=
  if a.size < p + 4 then (0, 0, t)
  else
    let way (q : Option Nat) : Nat × Nat :=
      match q with
      | some q => let l := matchLen a q p (min 259 (e - p)); if 4 ≤ l ∧ p - q ≤ 65536 then (l, p - q) else (0, 0)
      | none => (0, 0)
    let b := t.getD (hashAt a p) (none, none)
    let r := better (way b.1) (way b.2)
    (r.1, r.2, insertPos a t p)

/-- The parser's loop (R297): symbols with the block each lies in, newest first. -/
def parseLoop (a : Array Nat) (lazy : Bool) : Nat → Nat → Table → List (Nat × Sym) → List (Nat × Sym)
  | 0, _, _, acc => acc
  | fuel + 1, p, t, acc =>
    if a.size ≤ p then acc
    else
      let blk := p / 65536
      let e := min ((blk + 1) * 65536) a.size
      let (len, dist, t) := findPos a t p e
      if len < 4 then parseLoop a lazy fuel (p + 1) t ((blk, .lit (a.getD p 0)) :: acc)
      else if lazy ∧ p + 1 < e then
        let (len1, dist1, t) := findPos a t (p + 1) e
        if len < len1 then
          parseLoop a lazy fuel (p + 1 + len1) (insertRange a t (p + 2) (p + 1 + len1)) ((blk, .ref len1 dist1) :: (blk, .lit (a.getD p 0)) :: acc)
        else parseLoop a lazy fuel (p + len) (insertRange a t (p + 2) (p + len)) ((blk, .ref len dist) :: acc)
      else parseLoop a lazy fuel (p + len) (insertRange a t (p + 1) (p + len)) ((blk, .ref len dist) :: acc)

/-- The symbols of a granule in order, each with its block. -/
def parse (a : Array Nat) (lazy : Bool) : List (Nat × Sym) := (parseLoop a lazy (a.size + 1) 0 (Array.replicate 8192 (none, none)) []).reverse

/-! ## Code lengths and codes (R298–R300) -/

/-- A node of the tree under construction: weight, 0 for a leaf and 1 for a joined node, its number, and its leaves with their depths. -/
structure Node where
  weight : Nat
  joined : Nat
  num    : Nat
  leaves : List (Nat × Nat)
  deriving DecidableEq, Repr

/-- The order of nodes (R298). -/
def Node.before (x y : Node) : Bool :=
  x.weight < y.weight || (x.weight == y.weight && (x.joined < y.joined || (x.joined == y.joined && x.num < y.num)))

/-- Insertion into a list kept in that order. -/
def insertNode (x : Node) : List Node → List Node
  | [] => [x]
  | y :: t => if x.before y then x :: y :: t else y :: insertNode x t

/-- The two lowest nodes are joined until one is left. -/
def joinNodes : Nat → Nat → List Node → List (Nat × Nat)
  | fuel + 1, k, x :: y :: t =>
    let z : Node := { weight := x.weight + y.weight, joined := 1, num := k, leaves := (x.leaves ++ y.leaves).map fun l => (l.1, l.2 + 1) }
    joinNodes fuel (k + 1) (insertNode z t)
  | _, _, [x] => x.leaves
  | _, _, _ => []

/-- Excess of the Kraft sum over one, in 2^−12 (R299). -/
def kraft (ls : List Nat) : Nat := (ls.map fun l => if l = 0 then 0 else 2 ^ (12 - l)).foldl (· + ·) 0

/-- The symbol that R299 lengthens next: greatest length below 12, then lower count, then higher number. -/
def lengthenNext (counts ls : List Nat) : Option Nat :=
  (List.range ls.length).foldl (fun best i =>
    let l := ls.getD i 0
    if l = 0 ∨ 12 ≤ l then best
    else match best with
      | none => some i
      | some j =>
        let lj := ls.getD j 0
        if lj < l ∨ (lj = l ∧ (counts.getD i 0 < counts.getD j 0 ∨ (counts.getD i 0 = counts.getD j 0 ∧ j < i))) then some i else best) none

/-- Lengthening until the Kraft sum fits (R299). -/
def limitLengths (counts : List Nat) : Nat → List Nat → List Nat
  | 0, ls => ls
  | fuel + 1, ls =>
    if kraft ls ≤ 4096 then ls
    else match lengthenNext counts ls with
      | some i => limitLengths counts fuel (ls.set i (ls.getD i 0 + 1))
      | none => ls

/-- The code lengths of an alphabet from its symbol counts (R298, R299). -/
def codeLengths (counts : List Nat) : List Nat :=
  let used := (List.range counts.length).filter fun i => counts.getD i 0 != 0
  match used with
  | [] => counts.map fun _ => 0
  | [i] => (counts.map fun _ => 0).set i 1
  | _ =>
    let nodes := used.foldl (fun acc i => insertNode { weight := counts.getD i 0, joined := 0, num := i, leaves := [(i, 0)] } acc) []
    let d := joinNodes used.length 0 nodes
    let ls := d.foldl (fun (acc : List Nat) x => acc.set x.1 (min x.2 12)) (counts.map fun _ => 0)
    limitLengths counts (12 * counts.length) ls

/-- Canonical codes (R300): symbol, length, code, ranked by length then symbol. -/
def canonical (ls : List Nat) : List (Nat × Nat × Nat) :=
  let ranked := ((List.range 12).map (· + 1)).flatMap fun l => ((List.range ls.length).filter fun i => ls.getD i 0 == l).map fun i => (i, l)
  (ranked.foldl (fun (st : List (Nat × Nat × Nat) × Nat × Nat) x =>
    let code := if st.1 = [] then 0 else (st.2.2 + 1) * 2 ^ (x.2 - st.2.1)
    ((x.1, x.2, code) :: st.1, x.2, code)) ([], 0, 0)).1.reverse

/-- The code of a symbol as bits, most significant first. -/
def codeBits (codes : List (Nat × Nat × Nat)) (sym : Nat) : List Bool :=
  match codes.find? fun c => c.1 == sym with | some (_, l, c) => msbBits l c | none => []

/-! ## Blocks (R291, R292, R295, R301) -/

/-- The nibbles of a length table (R295): the fold carries the zeros pending and the nibbles so far. -/
def zeroRun : Nat → Nat → List Nat
  | 0, _ => []
  | fuel + 1, z => if z = 0 then [] else if z = 1 then [0] else 15 :: (min z 17 - 2) :: zeroRun fuel (z - min z 17)

def tableNibbles (ls : List Nat) : List Nat :=
  let r := ls.foldl (fun (st : Nat × List Nat) l =>
    if l = 0 then (st.1 + 1, st.2) else (0, st.2 ++ zeroRun (st.1 + 1) st.1 ++ [l])) (0, [])
  r.2 ++ zeroRun (r.1 + 1) r.1

/-- Bits packed into bytes, most significant first, with zero bits to the byte boundary. -/
def packBits : Nat → List Bool → List Byte
  | 0, _ => []
  | fuel + 1, l => if l = [] then [] else BitVec.ofNat 8 (natOfMsb (l.take 8 ++ List.replicate (8 - l.length) false)) :: packBits fuel (l.drop 8)

/-- Counts of the symbols of an alphabet. -/
def countSyms (n : Nat) (l : List Nat) : List Nat := (List.range n).map fun i => (l.filter (· == i)).length

/-- The content of a Huffman block for its symbols (R292). -/
def huffmanContent (syms : List Sym) : List Byte :=
  let lits := syms.map (fun s => match s with | .lit b => b | .ref l _ => (lenCode l).1) ++ [256]
  let dists := syms.filterMap fun s => match s with | .lit _ => none | .ref _ d => some (distCode d).1
  let ll := codeLengths (countSyms 285 lits)
  let dl := codeLengths (countSyms 32 dists)
  let lc := canonical ll
  let dc := canonical dl
  let body := syms.flatMap fun s => match s with
    | .lit b => codeBits lc b
    | .ref l d =>
      let (ls, lx, ln) := lenCode l
      let (ds, dx, dn) := distCode d
      codeBits lc ls ++ msbBits ln lx ++ codeBits dc ds ++ msbBits dn dx
  let bits := (tableNibbles (ll ++ dl)).flatMap (msbBits 4) ++ body ++ codeBits lc 256
  packBits (bits.length + 1) bits

/-- A block's header and content. -/
def block (ty rawLen : Nat) (content : List Byte) : List Byte :=
  [BitVec.ofNat 8 ty, 0#8] ++ beBytes 2 (rawLen - 1) ++ beBytes 4 content.length ++ content

/-- One block of a granule (R301): its bytes, and whether a Huffman profile had to store it. -/
def compressBlock (profile : Nat) (raw : List Byte) (syms : List Sym) : List Byte × Bool :=
  if profile = 0 then (block 0 raw.length raw, false)
  else
    let c := huffmanContent syms
    if 8 + c.length < 8 + raw.length then (block 1 raw.length c, false) else (block 0 raw.length raw, true)

/-- The PGC stream of a granule's plaintext, and how many blocks were stored for want of gain. -/
def compress (profile : Nat) (plain : List Byte) : List Byte × Nat :=
  let a := (plain.map BitVec.toNat).toArray
  let syms := if profile = 0 then [] else parse a (profile == 1)
  let blocks := (List.range ((plain.length + 65535) / 65536)).map fun i =>
    compressBlock profile (bytesAt plain (65536 * i) 65536) ((syms.filter fun x => x.1 == i).map fun x => x.2)
  (blocks.flatMap fun b => b.1, (blocks.filter fun b => b.2).length)

/-! ## The decompressor (R305) -/

/-- Reads a length table: the lengths and the bits left; none if it is not valid (check 0x6). -/
def readTable : Nat → List Nat → List Bool → Option (List Nat × List Bool)
  | 0, _, _ => none
  | fuel + 1, acc, bits =>
    if acc.length = 317 then some (acc.reverse, bits)
    else if bits.length < 4 then none
    else
      let x := natOfMsb (bits.take 4)
      let rest := bits.drop 4
      if x ≤ 12 then readTable fuel (x :: acc) rest
      else if x ≠ 15 ∨ rest.length < 4 then none
      else
        let z := natOfMsb (rest.take 4) + 2
        if 317 < acc.length + z then none else readTable fuel (List.replicate z 0 ++ acc) (rest.drop 4)

/-- Reads one code of an alphabet: its symbol and the bits left (check 0x7). -/
def readCode (codes : List (Nat × Nat × Nat)) (bits : List Bool) : Option (Nat × List Bool) :=
  ((List.range 12).map (· + 1)).findSome? fun l =>
    if bits.length < l then none
    else
      let v := natOfMsb (bits.take l)
      match codes.find? fun c => c.2.1 == l && c.2.2 == v with | some c => some (c.1, bits.drop l) | none => none

def readExtra (n : Nat) (bits : List Bool) : Option (Nat × List Bool) :=
  if bits.length < n then none else some (natOfMsb (bits.take n), bits.drop n)

/-- Copies a match out of what has been produced, byte by byte. -/
def copyMatch (dist : Nat) : Nat → Array Byte → Array Byte
  | 0, out => out
  | k + 1, out => copyMatch dist k (out.push (out.getD (out.size - dist) 0))

/-- Decodes a Huffman block's symbols until EOB: the output so far grows to `goal` bytes; else the failing check. -/
def decodeSyms (lc dc : List (Nat × Nat × Nat)) (goal : Nat) : Nat → Array Byte → List Bool → Nat ⊕ (Array Byte × List Bool)
  | 0, _, _ => .inl 0x7
  | fuel + 1, out, bits =>
    match readCode lc bits with
    | none => .inl 0x7
    | some (sym, bits) =>
      if sym < 256 then
        if goal ≤ out.size then .inl 0x9 else decodeSyms lc dc goal fuel (out.push (BitVec.ofNat 8 sym)) bits
      else if sym = 256 then (if out.size = goal then .inr (out, bits) else .inl 0x9)
      else
        let (ln, lb) := lenBase sym
        match readExtra ln bits with
        | none => .inl 0x7
        | some (lx, bits) =>
          match readCode dc bits with
          | none => .inl 0x7
          | some (ds, bits) =>
            let (dn, db) := distBase ds
            match readExtra dn bits with
            | none => .inl 0x7
            | some (dx, bits) =>
              let len := lb + lx
              let dist := db + dx
              if out.size < dist ∨ goal < out.size + len then .inl 0x8 else decodeSyms lc dc goal fuel (copyMatch dist len out) bits

/-- Decodes the blocks of a stream from block `i`: the failing check (R305, 0x3 to 0xB), 0 for none, and the plaintext of the blocks before it. -/
def decodeBlocks (plainLen : Nat) : Nat → Nat → Array Byte → List Byte → Nat × List Byte
  | 0, _, out, _ => (0xB, out.toList)
  | fuel + 1, i, out, body =>
    if plainLen ≤ 65536 * i then (if body = [] then (0, out.toList) else (0xB, out.toList))
    else
      let raw := min 65536 (plainLen - 65536 * i)
      let ty := (body.getD 0 0).toNat
      let coded := beNat (bytesAt body 4 4)
      if 1 < ty ∨ body.getD 1 0 ≠ 0 then (0x3, out.toList)
      else if 4 ≤ body.length ∧ beNat (bytesAt body 2 2) + 1 ≠ raw then (0x4, out.toList)
      else if body.length < 8 + coded ∨ (ty = 0 ∧ coded ≠ raw) then (0x5, out.toList)
      else
        let content := bytesAt body 8 coded
        let rest := body.drop (8 + coded)
        if ty = 0 then decodeBlocks plainLen fuel (i + 1) (out ++ content.toArray) rest
        else
          let bits := content.flatMap fun b => msbBits 8 b.toNat
          match readTable (bits.length + 1) [] bits with
          | none => (0x6, out.toList)
          | some (ls, bits) =>
            let ll := ls.take 285
            let dl := ls.drop 285
            if 4096 < kraft ll ∨ 4096 < kraft dl ∨ ll.getD 256 0 = 0 then (0x6, out.toList)
            else
              match decodeSyms (canonical ll) (canonical dl) (out.size + raw) (bits.length + 1) out bits with
              | .inl r => (r, out.toList)
              | .inr (out', bits) => if 8 ≤ bits.length ∨ bits.any id then (0xA, out.toList) else decodeBlocks plainLen fuel (i + 1) out' rest

/-- The failing check of a PGC stream, 0 for none, and its plaintext up to there (R305). -/
def decompress (plainLen : Nat) (body : List Byte) : Nat × List Byte := decodeBlocks plainLen (plainLen / 65536 + 2) 0 #[] body

end Pgc
end Sys2Proof.Machine
end

