-- ==== Sys2Proof/Machine/Granules.lean ====
section
/-!
DEFINITION. Granules (spec/09): cutting records into granules (R286–R289), the compression engines with decompress-verify (R302–R304), the
shares of their tape bytes (R459), and the checks of a granule that is read (R305, R306).
-/
namespace Sys2Proof.Machine

def setCmp (c : CmpSt) (s : State) : State := { s with cmp := c }

/-- A granule's plaintext limit (R287). -/
def granMax : Nat := 262144

/-! ## Cutting (R286–R289) -/

/-- What a WRITE says of its granules: tenant and session, key slot and its KEY_TAG, profile, ENC, and the bracket it entered in (R286). -/
structure WrCtx where
  tenant  : Nat
  session : Nat
  tag     : Nat
  slot    : Nat
  keyTag  : Nat
  profile : Nat
  enc     : Bool
  bracket : Nat
  deriving DecidableEq, Repr

/-- A granule that a WRITE opens, with nothing in it. -/
def WrCtx.gran (w : WrCtx) (nonce : Nat) : Gran :=
  { tenant := w.tenant, session := w.session, tenantTag := w.tag, slot := w.slot, keyTag := w.keyTag, profile := w.profile, enc := w.enc, nonce }

/-- The open granule takes records of this WRITE (R286). -/
def WrCtx.fits (w : WrCtx) (g : Gran) : Bool := g.tenant == w.tenant && g.slot == w.slot && g.profile == w.profile && g.enc == w.enc

/-- An enabled engine that holds no granule: the next in turn after `last` (R304). -/
def nextEngine (s : State) (last : Nat) : Option Nat :=
  ((List.range 16).map fun i => (last + 1 + i) % 16).find? fun e => (getF s Reg.CMP_ENG_EN).testBit e

/-- Engines whose granule has been compressed or discarded are free again. -/
def freeEngines (s : State) : State :=
  setCmp { s.cmp with busy := s.cmp.busy.filter fun b => s.fmt.grans.any fun g => g.gsn == b.2 && g.stage == .cut } s

/-- One granule goes to the engine whose turn it is, if that engine is free and the block takes work. -/
def handOne (gsn : Nat) (s : State) : State :=
  match nextEngine s s.cmp.last with
  | none => s
  | some e =>
    if (s.cmp.busy.any fun b => b.1 == e) ∨ !getB s Reg.CMP_CTRL_EN ∨ getB s (hdrQUIESCE 0x50) then s
    else setCmp { s.cmp with busy := Tbl.set s.cmp.busy e gsn, last := e } s

/-- Zero-length pieces before the first byte of a granule that holds bytes: FIRST_RECORD is the record of the first byte, so they stand below it
(R100, R289, R637). -/
def leadPieces (lens : List Nat) : Nat := if lens.all (· == 0) then 0 else (lens.takeWhile (· == 0)).length

/-- CMD hands closed granules to the next enabled engine in turn, while that engine is free (R304); none while the page is quiesced (R609). -/
def handOut (s : State) : State :=
  let s := freeEngines s
  (s.fmt.grans.filter fun g => g.stage == .cut && !s.cmp.busy.any fun b => b.2 == g.gsn).foldl (fun s g => handOne g.gsn s) s

/-- The open granule closes and takes the next GSN (R289); its granule is counted in the bracket of its last record (R458). -/
def closeGranule (s : State) : State :=
  match s.fmt.openGran with
  | none => s
  | some g =>
    let n := s.vol.nextGsn
    let s := setVol { s.vol with nextGsn := n + 1 } s
    let s := setFmt { s.fmt with openGran := none, grans := s.fmt.grans ++ [{ g with gsn := n, stage := .cut }] } s
    handOut (onUsage g.bracket g.session (fun u => { u with wrGranules := u.wrGranules + 1 }) s)

/-- A piece of record `rec` joins the open granule, which is opened if there is none; `starts` and `ends` say that the piece holds the record's
start and its end. The granule closes when it is full (R287, R288). -/
def addPiece (w : WrCtx) (rec : Nat) (bytes : List Byte) (starts ends : Bool) (s : State) : State :=
  let g := match s.fmt.openGran with | some g => g | none => w.gran (s.vol.nonce.getD 0)
  let firstByte := g.plain.isEmpty && !bytes.isEmpty
  let g := { g with
    startsMid := if firstByte then !starts else g.startsMid
    endsMid   := !ends
    first     := if firstByte ∨ g.pieces.isEmpty then rec else g.first
    records   := g.records + b2n ends
    pieces    := g.pieces ++ [bytes.length]
    plain     := g.plain ++ bytes
    shares    := Tbl.set g.shares w.bracket (Tbl.get 0 g.shares w.bracket + bytes.length)
    bracket   := w.bracket }
  let s := setFmt { s.fmt with openGran := some g } s
  if granMax ≤ g.plain.length ∨ 65535 ≤ g.records then closeGranule s else s

/-- The pieces of a record longer than a granule (R287): each full piece a granule of its own, the remainder left open. -/
def addPieces (w : WrCtx) (rec : Nat) : Nat → Bool → List Byte → State → State
  | 0, _, _, s => s
  | fuel + 1, starts, bytes, s =>
    if bytes = [] then s
    else
      let rest := bytes.drop granMax
      addPieces w rec fuel false rest (addPiece w rec (bytes.take granMax) starts rest.isEmpty s)

/-- CMD takes one record of a WRITE (R287). -/
def cutRecord (w : WrCtx) (rec : Nat) (bytes : List Byte) (s : State) : State :=
  let s := match s.fmt.openGran with | some g => if w.fits g then s else closeGranule s | none => s
  if bytes.length ≤ granMax then
    let s := match s.fmt.openGran with | some g => if granMax < g.plain.length + bytes.length then closeGranule s else s | none => s
    addPiece w rec bytes true true s
  else addPieces w rec (bytes.length / granMax + 1) true bytes (closeGranule s)

/-- A filemark granule, written straight after the closed granule (R100, R288, R289): it needs neither engine nor cipher. -/
def cutFilemark (tenant session tag first bracket : Nat) (s : State) : State :=
  let n := s.vol.nextGsn
  let g : Gran := { gsn := n, filemark := true, tenant, session, tenantTag := tag, nonce := s.vol.nonce.getD 0, first, bracket, stage := .sealed }
  let s := setFmt { s.fmt with grans := s.fmt.grans ++ [g] } (setVol { s.vol with nextGsn := n + 1 } s)
  onUsage bracket session (fun u => { u with filemarks := u.filemarks + 1, wrGranules := u.wrGranules + 1, wrTape := u.wrTape + 64 }) s

/-! ## Tape bytes (R459) -/

/-- A granule's tape bytes: header, record map, body and tag, rounded up to a multiple of 8 (R459). -/
def tapeBytes (g : Gran) : Nat := (64 + 8 * (rmapRuns g.pieces).length + g.body.length + (if g.enc then 16 else 0) + 7) / 8 * 8

/-- The brackets that supplied a granule's plaintext share its tape bytes (R459). -/
def shareTape (g : Gran) (s : State) : State :=
  let t := tapeBytes g
  let p := g.plain.length
  let last := match (g.shares.filter fun e => e.2 != 0).getLast? with | some e => e.1 | none => g.bracket
  let give (b n : Nat) (s : State) : State := onUsage b g.session (fun u => { u with wrTape := u.wrTape + n }) s
  if p = 0 then give g.bracket t s
  else
    let parts := (g.shares.filter fun e => e.1 != last).map fun e => (e.1, t * e.2 / p)
    give last (t - sumN (parts.map fun e => e.2)) (parts.foldl (fun s e => give e.1 e.2 s) s)

/-! ## Compression (R302–R304) -/

/-- CMD hands compressed granules to the cipher engine, in GSN order, while its write-path queue has room (R309). Requests of granules that a
halt has dropped leave it. -/
def feedCipher (s : State) : State :=
  let live (n : Nat) : Bool := s.fmt.grans.any fun g => g.gsn == n && g.stage == .requested
  let wr := s.ciph.wr.filter fun w => match w with | .enc n => live n | _ => false
  let due := ((s.fmt.grans.filter fun g => g.stage == .compressed).take (64 - wr.length)).map fun g => g.gsn
  let s := { s with ciph := { s.ciph with wr := wr ++ due.map .enc, retry := s.ciph.retry.filter fun r => match r.work with | .enc n => live n | _ => false } }
  setFmt { s.fmt with grans := s.fmt.grans.map fun g => if due.contains g.gsn then { g with stage := .requested } else g } s

/-- A write of CMP_CTRL.DV_INJECT (R303). -/
def dvInject (s : State) : State := lockGate 0x50 (fun s => setCmp { s.cmp with inject := true } s) s

/-! ## Granules as read (R100, R305, R306) -/

/-- A granule's header as read, by field (R100). -/
structure GranHdr where
  filemark  : Bool
  enc       : Bool
  startsMid : Bool
  endsMid   : Bool
  profile   : Nat
  records   : Nat
  gsn       : Nat
  nonce     : Nat
  keyTag    : Nat
  tenantTag : Nat
  plainLen  : Nat
  bodyLen   : Nat
  first     : Nat
  rmapLen   : Nat
  deriving DecidableEq, Repr

/-- The fields of 64 header bytes (R100). -/
def granHdr (h : List Byte) : GranHdr :=
  let f (off size : Nat) : Nat := beNat (bytesAt h off size)
  let fl := f 4 1
  { filemark := f 3 1 == 2, enc := fl.testBit 0, startsMid := fl.testBit 1, endsMid := fl.testBit 2, profile := f 5 1, records := f 6 2
    gsn := f 8 8, nonce := f 0x10 4, keyTag := f 0x14 4, tenantTag := f 0x18 8, plainLen := f 0x20 4, bodyLen := f 0x24 4, first := f 0x28 8
    rmapLen := f 0x30 4 }

/-- Check 0x1 of a header passes (R305). -/
def headerOk (h : List Byte) : Bool :=
  let f (off size : Nat) : Nat := beNat (bytesAt h off size)
  h.length == 64 && f 0 2 == 0x4752 && f 2 1 == 1 && (f 3 1 == 1 || f 3 1 == 2) && f 4 1 < 8 && f 0x34 8 == 0 && crc32 (h.take 0x3C) == f 0x3C 4

/-- The runs of a record map: length, count and reserved bytes of each entry (R637). -/
def rmapEntries (m : List Byte) : List (Nat × Nat × Nat) :=
  (List.range (m.length / 8)).map fun i => (beNat (bytesAt m (8 * i) 4), beNat (bytesAt m (8 * i + 4) 2), beNat (bytesAt m (8 * i + 6) 2))

/-- Check 0x2 of a header and its record map passes (R305). -/
def fieldsOk (h : GranHdr) (m : List Byte) : Bool :=
  let e := rmapEntries m
  h.plainLen ≤ granMax && h.profile ≤ 2 && h.rmapLen % 8 == 0 && m.length == h.rmapLen
    && (!h.filemark || (h.plainLen == 0 && h.bodyLen == 0 && h.rmapLen == 0 && h.keyTag == 0 && !h.enc && h.records == 0))
    && e.all (fun x => x.2.1 != 0 && x.2.2 == 0) && sumN (e.map fun x => x.1 * x.2.1) == h.plainLen
    && sumN (e.map fun x => x.2.1) == h.records + b2n h.endsMid

/-- The lengths of a granule's pieces, in order (R637). -/
def rmapPieces (m : List Byte) : List Nat := (rmapEntries m).flatMap fun x => List.replicate x.2.1 x.1

/-- A corrupt granule is recorded and GRANULE_CORRUPT raised (R305, R306). -/
def noteCorrupt (gsn reason acct : Nat) (s : State) : State :=
  let s := setF Reg.CORRUPT_LAST_HI_REASON reason (setF Reg.CORRUPT_LAST_HI_GSN (gsn / 2 ^ 32) (setF Reg.CORRUPT_LAST_LO gsn (incF Reg.CORRUPT_CNT s)))
  raiseC 0x50 3 0x03 acct gsn s

/-- A granule's PGC body is decompressed: the failing check, 0 for none, and the plaintext up to there (R305). -/
def openBody (h : GranHdr) (body : List Byte) (s : State) : (Nat × List Byte) × State := (Pgc.decompress h.plainLen body, incF Reg.DEC_GRAN_CNT s)

/-! ## Meanings -/

/-- DV_INJECT. -/
def execDvInject (s : State) : Host.Outcome State Fault Refusal := .next (dvInject s)

end Sys2Proof.Machine
end

