-- ==== Sys2Proof/Machine/Memory.lean ====
section
/-!
DEFINITION. The buffer as memory (spec/11): the DRAM cells in canonical form, slots and their chunks (R341–R343), words with their W-code and
P-code (R347–R352), the P-code repair (R349), the hot list (R354), and the retirement log (R362, R363).
-/
namespace Sys2Proof.Machine

def setMem (m : MemSt) (s : State) : State := { s with mem := m }

/-! ## Cells -/

/-- Cells in canonical form: addresses strictly rising, no entry equal to the 0 that an unlisted cell reads as. -/
def Memory.wf : List Host.Cell → Bool
  | [] => true
  | [c] => c.2 != 0
  | c :: d :: r => c.2 != 0 && decide (c.1 < d.1) && Memory.wf (d :: r)

/-- The byte at a key. -/
def Memory.get : List Host.Cell → Nat → Byte
  | [], _ => 0
  | c :: r, k => if c.1 = k then c.2 else if k < c.1 then 0 else Memory.get r k

/-- The cells with a byte written at a key. -/
def Memory.put : List Host.Cell → Nat → Byte → List Host.Cell
  | [], k, b => if b = 0 then [] else [(k, b)]
  | c :: r, k, b =>
    if c.1 = k then (if b = 0 then r else (k, b) :: r)
    else if k < c.1 then (if b = 0 then c :: r else (k, b) :: c :: r)
    else c :: Memory.put r k b

/-! ## Slots (R337, R341–R343) -/

/-- Pool pages P of the configured size (R337). -/
def poolPages (s : State) : Nat := if getF s Reg.MEM_CFG_SIZE = 0 then 3670016 else 7340032

/-- Slots, pool and system together (R337). -/
def allSlots (s : State) : Nat := if getF s Reg.MEM_CFG_SIZE = 0 then 3670016 + 58254 else 7340032 + 116508

/-- A slot is a pool page (R341). -/
def isPage (s : State) (slot : Nat) : Bool := decide (slot < poolPages s)

/-- The channel of chunk `c` of a slot (R343). -/
def chunkChannel (slot c : Nat) : Nat := (slot + c) % 4

/-- The channel byte address of chunk `c` of a slot (R343). -/
def chunkAddr (slot c : Nat) : Nat := 1152 * slot + 64 * (c / 4)

/-- The key of a slot's byte: its channel and its address there (R343). -/
def slotKey (slot off : Nat) : Nat := chunkChannel slot (off / 64) * 2 ^ 33 + chunkAddr slot (off / 64) + off % 64

def slotByte (s : State) (slot off : Nat) : Byte := Memory.get s.mem.cells (slotKey slot off)

/-- Bytes written into a slot from a byte offset. -/
def putBytes (slot : Nat) : Nat → List Byte → State → State
  | _, [], s => s
  | off, b :: r, s => putBytes slot (off + 1) r (setMem { s.mem with cells := Memory.put s.mem.cells (slotKey slot off) b } s)

/-- Errors that have arisen in a slot's cells (XOR masks by slot byte). -/
def upsetCells (slot : Nat) (l : List (Nat × Byte)) (s : State) : State :=
  l.foldl (fun s e => if e.1 < 4608 then putBytes slot e.1 [slotByte s slot e.1 ^^^ e.2] s else s) s

/-- `n` bytes of a slot from a byte offset, as values. -/
def slotNats (s : State) (slot off n : Nat) : List Nat := (List.range n).map fun i => (slotByte s slot (off + i)).toNat

/-! ## Page descriptors and the formatter's tables (R6, R341, R351, R352, R362, R385, R386) -/

/-- A pool page's descriptor. -/
def page (s : State) (p : Nat) : PageDesc := Tbl.get {} s.mem.pages p

def setPage (p : Nat) (d : PageDesc) (s : State) : State := setMem { s.mem with pages := Tbl.set s.mem.pages p d } s

/-- The 32 bytes of a page's descriptor (R6, R351, R385). -/
def descBytes (d : PageDesc) : List Byte :=
  leBytes 16 d.written ++ leBytes 1 (b2n d.poisoned + 2 * b2n d.quar + 4 * b2n d.retired + 8 * b2n d.pending) ++ leBytes 2 d.owner
    ++ leBytes 1 d.refcnt ++ leBytes 1 (b2n d.refmode) ++ leBytes 2 d.gen ++ zeros 9

/-- A free ring entry (R386). -/
def ringEntry (e : Nat × Nat) : Nat := e.1 % 2 ^ 23 + e.2 % 2 ^ 9 * 2 ^ 23

/-- The 32 bytes of a retirement log entry (R6, R362). -/
def rlogBytes (e : RlogEntry) : List Byte :=
  leBytes 4 e.seq ++ leBytes 4 e.page ++ leBytes 1 e.kind ++ leBytes 1 e.word ++ leBytes 1 e.chan ++ leBytes 1 e.flags ++ leBytes 2 e.account
    ++ leBytes 2 e.count ++ leBytes 4 e.stamp.lo ++ leBytes 4 e.stamp.hi ++ leBytes 4 e.syn ++ zeros 4

/-- Entries of the free ring (R386). -/
def ringSize (s : State) : Nat := if getF s Reg.MEM_CFG_SIZE = 0 then 2 ^ 22 else 2 ^ 23

/-- Entry `i` of a list of runs. -/
def runAt : List RingRun → Nat → Option (Nat × Nat)
  | [], _ => none
  | r :: t, i => if i < r.len then some (r.page + i, r.gen) else runAt t (i - r.len)

/-- What the free ring holds at an index: an entry between head and tail, or one taken and not yet written over; zero where none has been (R386). -/
def ringAt (s : State) (i : Nat) : Nat :=
  let n := ringSize s
  let d := (i + n - s.pool.head % n) % n
  match runAt s.pool.ring d with
  | some e => ringEntry e
  | none => match s.pool.taken[n - 1 - d]? with | some e => ringEntry e | none => 0

/-- The word that the formatter's tables give a slot: from the first system slot on the page descriptors, then the free ring, then the retirement
log, whose places the spec does not give (DESIGN CHOICE, log entry: tables in system slots); zero elsewhere. -/
def tableWord (s : State) (slot w : Nat) : Word256 :=
  let p := poolPages s
  let k := slot - p
  let word (l : List Byte) : Word256 := wordOf (l.map BitVec.toNat)
  if slot < p then 0
  else if k < p / 128 then word (descBytes (page s (128 * k + w)))
  else
    let k := k - p / 128
    if k < ringSize s / 1024 then word ((List.range 8).flatMap fun i => leBytes 4 (ringAt s (1024 * k + 8 * w + i)))
    else match s.mem.rlog.find? fun e => e.1 == 128 * (k - ringSize s / 1024) + w with
      | some e => word (rlogBytes e.2)
      | none => 0

/-- The P words that go with a system slot's table words. -/
def tableP (s : State) (slot : Nat) : List Word256 := pWords ((List.range 128).map fun w => tableWord s slot w)

/-- Word w as stored: its data and its CHK (R342). A system slot's cells hold what differs from the formatter's tables. -/
def rawWord (s : State) (slot w : Nat) : Word256 × Chk :=
  let x : Word256 := wordOf (slotNats s slot (32 * w) 32)
  let c : Chk := match slotNats s slot (4096 + 3 * w) 3 with | [a, b, c] => BitVec.ofNat 24 (a + 256 * b + 65536 * c) | _ => 0
  if isPage s slot then (x, c) else (x ^^^ tableWord s slot w, c ^^^ wChk (tableWord s slot w))

/-- Word w stored, P-code untouched. -/
def putRaw (slot w : Nat) (x : Word256 × Chk) (s : State) : State :=
  let x := if isPage s slot then x else (x.1 ^^^ tableWord s slot w, x.2 ^^^ wChk (tableWord s slot w))
  putBytes slot (4096 + 3 * w) (leBytes 3 x.2.toNat) (putBytes slot (32 * w) (leBytes 32 x.1.toNat) s)

/-- P word k as stored (R342). -/
def pWord (s : State) (slot k : Nat) : Word256 :=
  let x : Word256 := wordOf (slotNats s slot (4480 + 32 * k) 32)
  if isPage s slot then x else x ^^^ (tableP s slot).getD k 0

def putP (slot : Nat) (ps : List Word256) (s : State) : State :=
  let ps := if isPage s slot then ps else List.zipWith (· ^^^ ·) ps (tableP s slot)
  forEach (List.range 4) (fun k s => putBytes slot (4480 + 32 * k) (leBytes 32 (ps.getD k 0).toNat) s) s

/-! ## Words that count as written (R351, R352) -/

/-- Word w of a slot counts as written (R351, R357). -/
def isWritten (s : State) (slot w : Nat) : Bool := if isPage s slot then (page s slot).written.testBit w else true

/-- The account that an event at a slot names: the page's owner, or none (R26, R359). -/
def slotOwner (s : State) (slot : Nat) : Nat := if isPage s slot then (if (page s slot).alloc then (page s slot).owner else noAcct) else noAcct

/-- The P words of a slot as the formatter trusts them: zero while a page's WRITTEN mask is empty (R348). -/
def trustedP (s : State) (slot : Nat) : List Word256 :=
  if isPage s slot ∧ (page s slot).written = 0 then [0, 0, 0, 0] else (List.range 4).map fun k => pWord s slot k

/-- The data of a word as a decoder trusts it: corrected where a single byte is in error, zero where unwritten (R349, R352). -/
def trustedData (s : State) (slot w : Nat) : Word256 :=
  if isWritten s slot w then
    let x := rawWord s slot w
    match wDecode x.1 x.2 with | .single y _ => y | _ => x.1
  else 0

/-- A word is stored with its CHK, its WRITTEN bit set and the P-code brought up to date with old XOR new (R348, R352). -/
def storeWord (slot w : Nat) (x : Word256 × Chk) (s : State) : State :=
  let diff := trustedData s slot w ^^^ x.1
  let d := pWords ((List.range 128).map fun i => if i = w then diff else 0)
  let ps := List.zipWith (· ^^^ ·) (trustedP s slot) d
  let s := putP slot ps (putRaw slot w x s)
  if isPage s slot then let p := page s slot; setPage slot { p with written := p.written ||| 2 ^ w } s else s

/-! ## The retirement log (R362, R363) -/

/-- An event enters the retirement log: a new entry, or one more of the newest (R362, R363). -/
def logMem (slot kind word chan flags syn : Nat) (s : State) : State :=
  let head := getF s Reg.RLOG_HEAD
  let acct := slotOwner s slot
  let fl := flags + (if isPage s slot ∧ (page s slot).alloc then 2 else 0)
  let idx := (head + 4095) % 4096
  let newest := if head = 0 then none else (s.mem.rlog.find? fun e => e.1 == idx).map Prod.snd
  match newest with
  | some e =>
    if e.page = slot ∧ e.word = word ∧ e.kind = kind then
      setMem { s.mem with rlog := Tbl.set s.mem.rlog idx { e with count := min (e.count + 1) 0xFFFF } } s
    else fresh head acct fl s
  | none => fresh head acct fl s
where
  /-- A new entry, over the oldest when the ring is full. -/
  fresh (head acct fl : Nat) (s : State) : State :=
    let e : RlogEntry := { seq := head, page := slot, kind, word, chan, flags := fl, account := acct, count := 1, stamp := stampNow s, syn }
    let lost := 4096 ≤ head - getF s Reg.RLOG_TAIL
    let s := setMem { s.mem with rlog := Tbl.set s.mem.rlog (head % 4096) e } (setF Reg.RLOG_HEAD (head + 1) s)
    let s := notify 0x5C 0 0 s
    if lost then raiseB 0x5C 30 0 0x0A noAcct 0 (setF Reg.MEM_STATUS_RLOG_LOST 1 (incF Reg.RLOG_LOST_CNT s)) else s

/-- A write of RLOG_TAIL acknowledges every entry below it (R363). -/
def rlogTail (v : Nat) (s : State) : State := setF Reg.RLOG_TAIL v s

/-! ## Errors found (R353–R357, R372, R375) -/

/-- The chunk that holds slot byte `off`, as a channel mask. -/
def chanMask (slot off : Nat) : Nat := 2 ^ chunkChannel slot (off / 64)

/-- A slot joins the hot list, or is dropped and counted (R354). -/
def hotAdd (slot : Nat) (s : State) : State :=
  if s.mem.hot.contains slot then s
  else if 64 ≤ s.mem.hot.length then incF Reg.HOT_DROP_CNT s
  else setMem { s.mem with hot := s.mem.hot ++ [slot] } s

/-- The slot byte at which a single-byte error lies: the byte that correction changes. -/
def errorByte (w : Nat) (x y : Word256 × Chk) : Nat :=
  match (List.range 32).find? fun i => (x.1.toNat >>> (8 * i)) % 256 != (y.1.toNat >>> (8 * i)) % 256 with
  | some i => 32 * w + i
  | none => match (List.range 3).find? fun i => (x.2.toNat >>> (8 * i)) % 256 != (y.2.toNat >>> (8 * i)) % 256 with
    | some i => 4096 + 3 * w + i
    | none => 32 * w

/-- A single-byte error is counted against its channel, and MEM_CE raised once per slot for each scrub pass (R372, R375). -/
def noteCe (slot off : Nat) (cnt : Fld) (s : State) : State :=
  let s := incF (Reg.DDR_CE_CNT (chunkChannel slot (off / 64))) (incF cnt s)
  if s.mem.ceDone.contains slot then s
  else raiseB 0x5C 30 1 0x01 (slotOwner s slot) slot (setMem { s.mem with ceDone := slot :: s.mem.ceDone } s)

/-- An uncorrectable word is counted (R372, R373). -/
def noteUe (slot w : Nat) (s : State) : State := incF (Reg.DDR_UE_CNT (chunkChannel slot (w / 2))) (incF Reg.UE_CNT s)

/-! ## Repair (R349, R350) -/

/-- What the W-code says of a slot's word; clean where unwritten. -/
def wordState (s : State) (slot w : Nat) : WResult :=
  if isWritten s slot w then let x := rawWord s slot w; wDecode x.1 x.2 else .clean

/-- Words of a slot that are uncorrectable, and those that are poisoned. -/
def badWords (s : State) (slot : Nat) : List Nat := (List.range 128).filter fun w => wordState s slot w == .uncorrectable
def poisonedWords (s : State) (slot : Nat) : List Nat := (List.range 128).filter fun w => wordState s slot w == .poisoned

/-- The outcome of a repair: words repaired, whether P-code bytes were corrected, or the words poisoned. -/
inductive Repair where
  | ok (words : List Nat) (parity : Bool)
  | failed (words : List Nat)
  deriving DecidableEq, Repr

/-- A slot is repaired from its P-code, or its flagged words are poisoned (R349). -/
def repairSlot (slot : Nat) (s : State) : Repair × State :=
  let bad := badWords s slot
  let poi := poisonedWords s slot
  let ws := (List.range 128).map fun w => trustedData s slot w
  let ps := trustedP s slot
  let rewrite (l : List Nat) (f : Nat → Word256) (s : State) : State := forEach l (fun w s => putRaw slot w (f w, wChk (f w)) s) s
  if pClean ws ps then (.ok bad false, rewrite bad (fun w => ws.getD w 0) s)
  else
    match pDecode (bad ++ poi) ws ps with
    | some (ws', ps') =>
      let fixed := (List.range 128).filter fun w => !poi.contains w && (bad.contains w || ws'.getD w 0 != ws.getD w 0) && isWritten s slot w
      let s := rewrite fixed (fun w => ws'.getD w 0) s
      if ps' = ps then (.ok fixed false, s) else (.ok fixed true, putP slot ps' s)
    | none =>
      let s := forEach bad (fun w s => putRaw slot w poisonWord s) s
      let s := if isPage s slot ∧ bad ≠ [] then setPage slot { page s slot with poisoned := true } s else s
      (.failed bad, s)

/-- Channels whose chunks held a word's data or its checks in error. -/
def wordChan (slot w : Nat) (dataBad : Bool) : Nat := if dataBad then chanMask slot (32 * w) else chanMask slot (4096 + 3 * w)

/-- The outcome of a repair is recorded, word by word, against what the slot held before it in `s0`: counters, log entries, MEM_UE_REPAIRED
(R353, R357, R375); and the words it poisoned. -/
def logRepair (slot : Nat) (s0 : State) (r : Repair × State) : List Nat × State :=
  let syn (w : Nat) : Nat := let x := rawWord s0 slot w; wSyn x.1 x.2
  match r.1 with
  | .ok words _ =>
    let s := incF Reg.PREPAIR_CNT r.2
    let s := words.foldl (fun a w => logMem slot 0x02 w (wordChan slot w (trustedData s0 slot w != (rawWord a slot w).1)) 0 (syn w) a) s
    ([], if words = [] then s else raiseB 0x5C 30 1 0x02 (slotOwner s slot) slot s)
  | .failed words =>
    let s := addF Reg.POISON_CNT words.length r.2
    (words, words.foldl (fun a w => logMem slot 0x03 w (wordChan slot w true) 0 (syn w) a) s)

/-- A repair is run at a slot and recorded (R349, R372). The words it poisoned are returned, for the consequences of R359. -/
def repairAndLog (slot : Nat) (s : State) : List Nat × State :=
  logRepair slot s (repairSlot slot ((badWords s slot).foldl (fun s w => noteUe slot w s) s))

end Sys2Proof.Machine
end

