-- ==== Sys2Proof/Machine/Pool.lean ====
section
/-!
DEFINITION. The buffer pool and its accounts (spec/12): admission (R379–R381), the operations (R383–R385, R392, R393), the free ring and its
cache (R386–R389), waiting requests (R390, R391), the host port (R394, R395), and account items (R378, R396).
-/
namespace Sys2Proof.Machine

def setPool (p : PoolSt) (s : State) : State := { s with pool := p }

def acct (s : State) (a : Nat) : Acct := Tbl.get {} s.pool.accts a
def setAcct (a : Nat) (x : Acct) (s : State) : State := setPool { s.pool with accts := Tbl.set s.pool.accts a x } s

/-! ## Accounts (R376–R382) -/

/-- unmet of an account (R378). -/
def Acct.unmet (x : Acct) : Nat := x.min - x.used

/-- Sums over all accounts. -/
def minSum (s : State) : Nat := sumN (s.pool.accts.map fun e => e.2.min)
def unmetSum (s : State) : Nat := sumN (s.pool.accts.map fun e => e.2.unmet)

/-- Retired, pending and quarantined pages. -/
def retiredCount (s : State) : Nat := (s.mem.pages.filter fun e => e.2.retired).length
def pendingCount (s : State) : Nat := (s.mem.pages.filter fun e => e.2.pending).length
def quarCount (s : State) : Nat := (s.mem.pages.filter fun e => e.2.quar).length

/-- P as POOL_SLOTS shows it: valid when READY (R373). -/
def slotsReady (s : State) : Nat := if getB s Reg.MEM_STATUS_READY then poolPages s else 0

/-- The capacity C (R378). -/
def capacity (s : State) : Nat := slotsReady s - (retiredCount s + quarCount s)

/-- The floors of S0 to S7 (R382). -/
def floors : List Nat := [30720, 15360, 30720, 3840, 2048, 1024, 64, 16]

/-- A system minimum lies below its floor (R382). -/
def floorLow (s : State) : Bool := (List.range 8).any fun i => decide ((acct s (256 + i)).min < floors.getD i 0)

/-- MIN_SHORT follows C and the sum of MIN (R381). -/
def checkShort (s : State) : State :=
  if capacity s < minSum s then
    if getB s Reg.POOL_STATUS_MIN_SHORT then s else raiseB 0x60 2 2 0x03 noAcct 0 (setF Reg.POOL_STATUS_MIN_SHORT 1 s)
  else setF Reg.POOL_STATUS_MIN_SHORT 0 s

/-- USED of an account rises by one, PEAK with it. -/
def charge (a : Nat) (s : State) : State :=
  let x := acct s a
  setAcct a { x with used := x.used + 1, peak := max x.peak (x.used + 1) } s

/-- USED of an account falls by one. -/
def discharge (a : Nat) (s : State) : State := let x := acct s a; setAcct a { x with used := x.used - 1 } s

/-! ## Statuses (R383) -/

def psOK : Nat := 0x0
def psEMPTY : Nat := 0x1
def psQUOTA : Nat := 0x2
def psDOUBLE_FREE : Nat := 0x3
def psNOT_OWNER : Nat := 0x4
def psBAD_PAGE : Nat := 0x5
def psBAD_ACCOUNT : Nat := 0x6
def psMODE : Nat := 0x7
def psREF_SAT : Nat := 0x8
def psCANCELLED : Nat := 0x9
def psNOT_READY : Nat := 0xA
def psBAD_OP : Nat := 0xB

/-! ## The free store (R386–R388) -/

/-- A run joins the ring's tail. -/
def ringPush (page gen : Nat) (s : State) : State := setPool { s.pool with ring := s.pool.ring ++ [{ page, gen, len := 1 }] } s

/-- Entries in the ring, stale ones included. -/
def ringCount (s : State) : Nat := sumN (s.pool.ring.map fun r => r.len)

/-- Up to `n` entries from the ring's head, and the ring that remains. -/
def ringTake : Nat → List RingRun → List (Nat × Nat) × List RingRun
  | _, [] => ([], [])
  | n, r :: rest =>
    if n = 0 then ([], r :: rest)
    else if n < r.len then ((List.range n).map (fun i => (r.page + i, r.gen)), { r with page := r.page + n, len := r.len - n } :: rest)
    else
      let x := ringTake (n - r.len) rest
      ((List.range r.len).map (fun i => (r.page + i, r.gen)) ++ x.1, x.2)

/-- A cache of more than 3,072 entries moves its 1,024 bottom entries to the ring tail (R387); the bottom-most goes first. -/
def spill (s : State) : State :=
  let c := s.pool.cache
  if 3072 < c.length then
    let keep := c.length - 1024
    let s := setPool { s.pool with cache := c.take keep } (incF Reg.SPILL_CNT s)
    (c.drop keep).reverse.foldl (fun s e => ringPush e.1 e.2 s) s
  else s

/-- A free entry is pushed onto the cache (R384, R387). -/
def cachePush (p gen : Nat) (s : State) : State := spill (setPool { s.pool with cache := (p, gen) :: s.pool.cache } s)

/-- The cache's top entries whose GEN is stale are discarded and counted; then the top page, if any (R388). -/
def cachePop : Nat → State → Option Nat × State
  | 0, s => (none, s)
  | fuel + 1, s =>
    match s.pool.cache with
    | [] => (none, s)
    | (p, g) :: rest =>
      let s := setPool { s.pool with cache := rest } s
      if (page s p).gen = g then (some p, s) else cachePop fuel (incF Reg.STALE_CNT s)

/-! ## Freeing (R384) -/

/-- A page that is freed: mask cleared, GEN incremented, USED down; then retired, quarantined, or back in the free store (R364, R366, R384). -/
def freePage (p : Nat) (s : State) : State :=
  let d := page s p
  let s := incF Reg.FREE_CNT (discharge d.owner s)
  let d1 : PageDesc := { d with written := 0, gen := (d.gen + 1) % 512, alloc := false, owner := 0x1FF, refcnt := 0, refmode := false, use := .host }
  if d.pending then checkShort (setPage p { d1 with pending := false, retired := true, gen := (d1.gen + 1) % 512 } s)
  else if d.poisoned then checkShort (notify 0x5C 3 p (hotAdd p (setPage p { d1 with quar := true } s)))
  else
    let s := setPage p d1 s
    cachePush p d1.gen (setPool { s.pool with free := s.pool.free + 1 } s)

/-! ## Admission (R379, R380) -/

/-- The sum of unmet over the other accounts. -/
def unmetOthers (s : State) (a : Nat) : Nat := unmetSum s - (acct s a).unmet

/-- ALLOC by an account is admitted, or refused with a status (R379). -/
def admitAlloc (s : State) (a : Nat) : Nat :=
  let x := acct s a
  if x.quota ≤ x.used then psQUOTA
  else if x.used < x.min then (if 0 < s.pool.free then psOK else psEMPTY)
  else if unmetOthers s a < s.pool.free then psOK
  else psEMPTY

/-- HANDOFF from account `a` to account `t` is admitted, or refused with a status (R380). -/
def admitHandoff (s : State) (a t : Nat) : Nat :=
  if (acct s t).quota ≤ (acct s t).used then psQUOTA
  else if unmetSum (charge t (discharge a s)) ≤ s.pool.free then psOK
  else psEMPTY

/-- A refusal is counted (R396, R397). -/
def noteDeny (a st : Nat) (s : State) : State :=
  let x := acct s a
  if st = psEMPTY then incF Reg.EMPTY_CNT (setAcct a { x with denyEmpty := satAdd 32 x.denyEmpty 1 } s)
  else if st = psQUOTA then incF Reg.QUOTA_CNT (setAcct a { x with denyQuota := satAdd 32 x.denyQuota 1 } s)
  else s

/-! ## Answers (R394) -/

/-- The host port's request ends: STATUS, OWNER, REFCNT and the page, BUSY cleared, DONE set (R394). -/
def portDone (st p : Nat) (s : State) : State :=
  let d := page s p
  let known := p < slotsReady s
  let s := setF Reg.POOL_RESP_OWNER (if known then d.owner else 0x1FF) <| setF Reg.POOL_RESP_REFCNT (if known then d.refcnt else 0) <|
    setF Reg.POOL_RESP_STATUS st (setF Reg.POOL_RESP_PAGE p s)
  notify 0x60 0 0 (setF Reg.POOL_RESP_DONE 1 (setF Reg.POOL_RESP_BUSY 0 s))

/-- A request is answered: at the host port's registers, or to the engine that made it. -/
def answer (r : PoolReq) (st p : Nat) (s : State) : State := if r.host then portDone st p s else s

/-- A misuse is recorded and raised: INFO from the host port, DEGRADED from within (R393). -/
def misuse (r : PoolReq) (st : Nat) (s : State) : State :=
  let owner := (page s r.page).owner
  let s := incF Reg.MISUSE_CNT (setF Reg.ERR_LAST_PAGE r.page s)
  let s := setF Reg.ERR_LAST_ACCT_VALID 1 <| setB Reg.ERR_LAST_ACCT_HOST r.host <| setF Reg.ERR_LAST_ACCT_STATUS st <|
    setF Reg.ERR_LAST_ACCT_OWNER owner (setF Reg.ERR_LAST_ACCT_REQUESTER r.acct s)
  raiseB 0x60 1 (if r.host then 0 else 2) (if st = psDOUBLE_FREE then 1 else 2) r.acct r.page s

/-- A page number that names no pool page in use: P or above, retired or quarantined (R383). -/
def badPage (s : State) (p : Nat) : Bool := !(decide (p < slotsReady s)) || (page s p).retired || (page s p).quar

/-! ## One request against the state (R383, R392) -/

/-- An account number that the requester may name (R376, R395). -/
def acctOk (r : PoolReq) (a : Nat) : Bool := if r.host then decide (a < 256) || (decide (264 ≤ a) && decide (a < 272)) else decide (a < 272)

/-- An ALLOC that is admitted takes a page from the cache; with the cache empty it waits for a fill (R387). -/
def takePage (r : PoolReq) (s : State) : State :=
  let c := cachePop (s.pool.cache.length + 1) s
  let s := c.2
  match c.1 with
  | none => setPool { s.pool with stalled := s.pool.stalled ++ [r] } s
  | some p =>
    let x := acct s r.acct
    let d := page s p
    let s := setPage p { d with alloc := true, owner := r.acct, refcnt := b2n x.mode, refmode := x.mode, use := r.use } s
    let s := incF Reg.ALLOC_CNT (charge r.acct (setPool { s.pool with free := s.pool.free - 1 } s))
    answer r psOK p s

/-- A request refused for want of pages joins the waiter list if it sets WAIT; internal requests always wait (R391). -/
def refuseOrWait (r : PoolReq) (st : Nat) (s : State) : State :=
  let s := noteDeny (if r.op = 3 then r.target else r.acct) st s
  if !r.wait then answer r st r.page s
  else if s.pool.waiters.length < 256 then setPool { s.pool with waiters := s.pool.waiters ++ [r] } s
  else if r.host then answer r st r.page (incF Reg.WAIT_FULL_CNT s)
  else setPool { s.pool with held := s.pool.held ++ [r] } s

/-- The check of a HANDOFF before admission (R383, R392). -/
def handoffCheck (r : PoolReq) (s : State) : Nat :=
  let d := page s r.page
  if !acctOk r r.acct ∨ !acctOk r r.target then psBAD_ACCOUNT
  else if badPage s r.page then psBAD_PAGE
  else if !d.alloc then psDOUBLE_FREE
  else if d.owner ≠ r.acct then psNOT_OWNER
  else if d.refmode ∨ (acct s r.acct).mode ∨ (acct s r.target).mode then psMODE
  else psOK

/-- The page moves to the target account (R380, R383). -/
def doHandoff (r : PoolReq) (s : State) : State :=
  let d := page s r.page
  let s := incF Reg.HANDOFF_CNT (setPage r.page { d with owner := r.target, use := r.use } (charge r.target (discharge r.acct s)))
  answer r psOK r.page s

/-- One waiter is offered again; it leaves the list when admitted, or when its page no longer allows it. -/
def retryOne (r : PoolReq) (s : State) : State × Bool :=
  let drop (s : State) : State := setPool { s.pool with waiters := s.pool.waiters.erase r, rr := Tbl.set s.pool.rr (2 * r.op + b2n (decide (r.acct < 256))) r.acct } s
  if r.op = 1 then
    if admitAlloc s r.acct = psOK then (takePage r (drop s), true) else (s, false)
  else
    match handoffCheck r s with
    | 0 => if admitHandoff s r.acct r.target = psOK then (doHandoff r (drop s), true) else (s, false)
    | st => (answer r st r.page (if st = psDOUBLE_FREE ∨ st = psNOT_OWNER then misuse r st (drop s) else drop s), true)

/-- The waiter to be offered first among some: handoffs before allocations, system accounts before tenants, then round-robin (R390). -/
def firstOf (s : State) (l : List PoolReq) : Option PoolReq :=
  let key (r : PoolReq) : Nat :=
    let cls := b2n (decide (r.acct < 256))
    let last := Tbl.get 511 s.pool.rr (2 * r.op + cls)
    (if r.op = 3 then 0 else 2048) + cls * 1024 + (r.acct + 511 - last) % 512
  l.foldl (fun best r => match best with | none => some r | some b => if key r < key b then some r else some b) none

/-- One cycle's round over waiters not yet offered in it. -/
def retryRound : Nat → List PoolReq → Bool → State → State × Bool
  | 0, _, hit, s => (s, hit)
  | fuel + 1, l, hit, s =>
    match firstOf s l with
    | none => (s, hit)
    | some r => let x := retryOne r s; retryRound fuel (l.erase r) (hit || x.2) x.1

/-- Held requests enter the waiter list as entries of it are freed (R391). -/
def admitHeld (s : State) : State :=
  let n := 256 - s.pool.waiters.length
  setPool { s.pool with waiters := s.pool.waiters ++ s.pool.held.take n, held := s.pool.held.drop n } s

/-- Waiters are retried until none more is admitted: a handoff admitted may let others in (R391). -/
def retryWaiters : Nat → State → State
  | 0, s => s
  | fuel + 1, s =>
    let x := retryRound s.pool.waiters.length s.pool.waiters false s
    if x.2 then retryWaiters fuel (admitHeld x.1) else x.1

/-- What follows a free, a release, a handoff or an account write (R391). -/
def poolEvent (s : State) : State := retryWaiters (s.pool.waiters.length + s.pool.held.length + 1) s

/-- A request that fails: misuse is recorded for DOUBLE_FREE and NOT_OWNER (R393). -/
def refuse (r : PoolReq) (st : Nat) (s : State) : State :=
  answer r st r.page (if st = psDOUBLE_FREE ∨ st = psNOT_OWNER then misuse r st s else s)

/-- While S3 is in force POOL frees no page of S0 to S3 (R545). -/
def keptInS3 (s : State) (owner : Nat) : Bool := getB s Reg.SAFE_STATUS_S3 && decide (256 ≤ owner) && decide (owner < 260)

/-- FREE, and RELEASE on a reference-count page (R383, R392). A page that S3 keeps stays as it is. -/
def doFree (r : PoolReq) (s : State) : State :=
  let d := page s r.page
  if badPage s r.page then refuse r psBAD_PAGE s
  else if !d.alloc then refuse r psDOUBLE_FREE s
  else if d.refmode then
    if 1 < d.refcnt then answer r psOK r.page (poolEvent (setPage r.page { d with refcnt := d.refcnt - 1 } s))
    else answer r psOK r.page (poolEvent (freePage r.page s))
  else if r.op = 5 then refuse r psMODE s
  else if d.owner ≠ r.acct then refuse r psNOT_OWNER s
  else if keptInS3 s d.owner then s
  else answer r psOK r.page (poolEvent (freePage r.page s))

/-- POOL serves a request (R383). -/
def serve (r : PoolReq) (s : State) : State :=
  let d := page s r.page
  match r.op with
  | 1 =>
    if !acctOk r r.acct then refuse r psBAD_ACCOUNT s
    else
      let st := admitAlloc s r.acct
      if st = psOK then takePage r s else refuseOrWait r st s
  | 2 => if !acctOk r r.acct then refuse r psBAD_ACCOUNT s else doFree r s
  | 3 =>
    match handoffCheck r s with
    | 0 =>
      let st := admitHandoff s r.acct r.target
      if st = psOK then poolEvent (doHandoff r s) else refuseOrWait r st s
    | st => refuse r st s
  | 4 =>
    if badPage s r.page then refuse r psBAD_PAGE s
    else if !d.alloc then refuse r psDOUBLE_FREE s
    else if !d.refmode then refuse r psMODE s
    else if 255 ≤ d.refcnt then refuse r psREF_SAT s
    else answer r psOK r.page (setPage r.page { d with refcnt := d.refcnt + 1 } s)
  | 5 => doFree r s
  | 6 => if badPage s r.page then refuse r psBAD_PAGE s else answer r psOK r.page s
  | _ => refuse r psBAD_OP s

/-- A request arrives: before BUILT the host's completes with NOT_READY and an internal one waits (R389). -/
def request (r : PoolReq) (s : State) : State :=
  if r.op = 0 ∨ 7 ≤ r.op then refuse r psBAD_OP s
  else if getB s Reg.POOL_STATUS_BUILT then serve r s
  else if r.host then refuse r psNOT_READY s
  else setPool { s.pool with early := s.pool.early ++ [r] } s

/-- GO at the host port (R394): ignored while BUSY. -/
def portGo (s : State) : State :=
  if getB s Reg.POOL_RESP_BUSY then s
  else
    let r : PoolReq := { host := true, op := getF s Reg.POOL_REQ_OP, acct := getF s Reg.POOL_REQ_ACCOUNT, target := getF s Reg.POOL_REQ_TARGET
                         page := getF s Reg.POOL_REQ_PAGE, wait := getB s Reg.POOL_REQ_WAIT }
    request r (setF Reg.POOL_RESP_BUSY 1 s)

/-- A request of one of the six operations: from the port, as a write of POOL_REQ with GO (R394), or from within the formatter. -/
def poolOp (src : PoolFrom) (op page account target : Nat) (s : State) : State :=
  match src with
  | .core use => request { host := false, op, acct := account, target, page, wait := true, use } s
  | .port wait =>
    lockGate 0x60 (fun s =>
      portGo <| setF Reg.POOL_REQ_PAGE page <| setF Reg.POOL_REQ_TARGET target <| setF Reg.POOL_REQ_ACCOUNT account <|
        setB Reg.POOL_REQ_WAIT wait (setF Reg.POOL_REQ_OP op s)) s

/-- The account that a request without one shows as its requester: what POOL_REQ holds, or none. -/
def requester (src : PoolFrom) (s : State) : Nat := match src with | .port _ => getF s Reg.POOL_REQ_ACCOUNT | .core _ => noAcct

/-- A write of POOL_REQ.CANCEL ends the waiting host request (R391). -/
def portCancel (s : State) : State :=
  match s.pool.waiters.find? fun r => r.host with
  | none => s
  | some r => admitHeld (answer r psCANCELLED r.page (setPool { s.pool with waiters := s.pool.waiters.erase r } s))

/-- A cache of fewer than 1,024 entries takes up to 1,024 from the ring's head to its bottom (R387); allocations that waited for it go on. -/
def cacheFill (s : State) : State :=
  if s.pool.cache.length < 1024 ∧ s.pool.ring ≠ [] then
    let x := ringTake 1024 s.pool.ring
    let s := setPool { s.pool with cache := s.pool.cache ++ x.1, ring := x.2, head := s.pool.head + x.1.length, taken := x.1.reverse ++ s.pool.taken } (incF Reg.FILL_CNT s)
    let l := s.pool.stalled
    l.foldl (fun s r => serve r s) (setPool { s.pool with stalled := [] } s)
  else s

/-! ## Building (R389) -/

/-- Setting POOL_CTRL.EN (R389): ignored until the memory is READY, and once it runs. -/
def buildStart (s : State) : State :=
  if getB s Reg.MEM_STATUS_READY ∧ !getB s Reg.POOL_CTRL then setPool { s.pool with building := true } (setF Reg.POOL_CTRL 1 s) else s

/-- Runs of page numbers `lo` to `hi` − 1 that skip some pages. -/
def runsSkipping (skip : List Nat) (lo hi : Nat) : List RingRun :=
  let cuts := (skip.filter fun p => lo ≤ p && p < hi).mergeSort (fun a b => decide (a ≤ b))
  let x := cuts.foldl (fun (acc : List RingRun × Nat) p =>
    (if acc.2 < p then acc.1 ++ [{ page := acc.2, gen := 0, len := p - acc.2 }] else acc.1, p + 1)) ([], lo)
  if x.2 < hi then x.1 ++ [{ page := x.2, gen := 0, len := hi - x.2 }] else x.1

/-- The free store is built (R389). -/
def buildDone (s : State) : State :=
  if !s.pool.building then s
  else
    let gone := (s.mem.pages.filter fun e => e.2.retired || e.2.quar).map Prod.fst
    let all := runsSkipping gone 0 (poolPages s)
    let x := ringTake 2048 all
    let pages := (s.mem.pages.filter fun e => e.2.retired || e.2.quar || e.2.pending || e.2.poisoned).map fun e => (e.1, { e.2 with gen := 0, owner := 0x1FF, alloc := false })
    let s := setMem { s.mem with pages } s
    let l := s.pool.early
    let accts := s.pool.accts.map fun e => (e.1, { e.2 with used := 0 })
    let s := setPool { s.pool with building := false, cache := x.1, ring := x.2, head := 0, taken := [], free := capacity s, early := [], accts } s
    let s := checkShort (notify 0x60 3 0 (setF Reg.POOL_STATUS_BUILT 1 s))
    l.foldl (fun s r => serve r s) s

/-! ## Account items (R378, R392, R396) -/

/-- Why a write of QUOTA or MIN would be ignored; 0 if it would not (R378). -/
def setBounds (a quota min : Nat) (s : State) : Nat :=
  let t := setAcct a { acct s a with quota, min } s
  if quota < min then 1 else if capacity t < minSum t then 2 else if t.pool.free < unmetSum t then 3 else 0

/-- An ignored write of an account item is recorded (R378). -/
def acctErr (a item reason : Nat) (s : State) : State :=
  notify 0x61 0 0 <| setF Reg.ACCT_ERR_VALID 1 <| setF Reg.ACCT_ERR_REASON reason <| setF Reg.ACCT_ERR_ITEM item (setF Reg.ACCT_ERR_ACCOUNT a s)

/-- QUOTA and MIN of an account are set together, or the write is ignored and recorded; the reason is returned (R378). -/
def writeBounds (a quota min item : Nat) (s : State) : Nat × State :=
  match setBounds a quota min s with
  | 0 => (0, poolEvent (checkShort (setAcct a { acct s a with quota, min } s)))
  | r => (r, acctErr a item r s)

/-- A write of an account item (R378, R392, R396). -/
def acctItem (a item v : Nat) (s : State) : State :=
  let x := acct s a
  match item with
  | 0 => (writeBounds a (v % 2 ^ 23) x.min 0 s).2
  | 1 => (writeBounds a x.quota (v % 2 ^ 23) 1 s).2
  | 2 =>
    if x.used ≠ 0 then acctErr a 2 4 s
    else if v.testBit 0 ∧ 256 ≤ a ∧ a < 264 then acctErr a 2 5 s
    else poolEvent (setAcct a { x with mode := v.testBit 0 } s)
  | 4 => setAcct a { x with peak := x.used } s
  | i => acctErr a i 6 s

/-- The account window moves on after a data access, if AUTOINC is set (R396, R617). -/
def acctNext (s : State) : State :=
  if !getB s Reg.ACCT_WIN_ADDR_AUTOINC then s
  else
    let i := getF s Reg.ACCT_WIN_ADDR_ITEM
    let a := getF s Reg.ACCT_WIN_ADDR_ACCOUNT
    if i < 7 then setF Reg.ACCT_WIN_ADDR_ITEM (i + 1) s
    else setF Reg.ACCT_WIN_ADDR_ACCOUNT (if a = 271 then 0 else a + 1) (setF Reg.ACCT_WIN_ADDR_ITEM 0 s)

/-- A write of ACCT_WIN_DATA (R396): above account 271 it is ignored. -/
def acctWinWrite (v : Nat) (s : State) : State :=
  let a := getF s Reg.ACCT_WIN_ADDR_ACCOUNT
  acctNext (if a < 272 then acctItem a (getF s Reg.ACCT_WIN_ADDR_ITEM) v s else s)

/-- What ACCT_WIN_DATA reads (R396). -/
def acctWinData (s : State) : Nat :=
  let a := getF s Reg.ACCT_WIN_ADDR_ACCOUNT
  let x := acct s a
  if 272 ≤ a then 0
  else match getF s Reg.ACCT_WIN_ADDR_ITEM with
    | 0 => x.quota
    | 1 => x.min
    | 2 => b2n x.mode
    | 3 => x.used
    | 4 => x.peak
    | 5 => x.denyEmpty
    | 6 => x.denyQuota
    | _ => (s.pool.waiters.filter fun r => r.acct == a).length

/-! ## Meanings -/

/-- ALLOC. -/
def execAlloc (src : PoolFrom) (account : Nat) (s : State) : Host.Outcome State Fault Refusal :=
  .next (poolOp src 1 (getF s Reg.POOL_REQ_PAGE) account (getF s Reg.POOL_REQ_TARGET) s)

/-- FREE. -/
def execFree (src : PoolFrom) (page account : Nat) (s : State) : Host.Outcome State Fault Refusal := .next (poolOp src 2 page account (getF s Reg.POOL_REQ_TARGET) s)

/-- HANDOFF. -/
def execHandoff (src : PoolFrom) (page account target : Nat) (s : State) : Host.Outcome State Fault Refusal :=
  .next (poolOp src 3 page account target s)

/-- ADDREF. -/
def execAddref (src : PoolFrom) (page : Nat) (s : State) : Host.Outcome State Fault Refusal := .next (poolOp src 4 page (requester src s) (getF s Reg.POOL_REQ_TARGET) s)

/-- POOL_RELEASE. -/
def execPoolRelease (src : PoolFrom) (page : Nat) (s : State) : Host.Outcome State Fault Refusal := .next (poolOp src 5 page (requester src s) (getF s Reg.POOL_REQ_TARGET) s)

/-- QUERY. -/
def execQuery (src : PoolFrom) (page : Nat) (s : State) : Host.Outcome State Fault Refusal := .next (poolOp src 6 page (requester src s) (getF s Reg.POOL_REQ_TARGET) s)

/-- POOL_BAD_OP: GO with OP 0 or 7. -/
def execPoolBadOp (op : Nat) (s : State) : Host.Outcome State Fault Refusal :=
  .next (if op = 0 ∨ op = 7 then poolOp (.port false) op (getF s Reg.POOL_REQ_PAGE) (getF s Reg.POOL_REQ_ACCOUNT) (getF s Reg.POOL_REQ_TARGET) s else s)

/-- POOL_CANCEL. -/
def execPoolCancel (s : State) : Host.Outcome State Fault Refusal := .next (lockGate 0x60 portCancel s)

/-- CACHE_FILL. -/
def execCacheFill (s : State) : Host.Outcome State Fault Refusal := .next (cacheFill s)

/-- POOL_BUILD. -/
def execPoolBuild (s : State) : Host.Outcome State Fault Refusal := .next (lockGate 0x60 buildStart s)

/-- POOL_BUILD_DONE. -/
def execPoolBuildDone (s : State) : Host.Outcome State Fault Refusal := .next (buildDone s)

/-- ACCT_WIN_WRITE. -/
def execAcctWinWrite (value : Nat) (s : State) : Host.Outcome State Fault Refusal := .next (lockGate 0x61 (acctWinWrite value) s)

end Sys2Proof.Machine
end

