-- ==== Sys2Proof/Machine/Sram.lean ====
section
/-!
DEFINITION. A word read from an on-chip SRAM macro, and the candidate list (R13, R367, R368).
-/
namespace Sys2Proof.Machine

/-- A row of a macro enters the candidate list (R367, R368). -/
def addCandidate (unit row : Nat) (s : State) : State :=
  let e := unit + row * 2 ^ 10 + 2 ^ 31
  if s.mem.cands.contains e then s
  else if 64 ≤ s.mem.cands.length then incF Reg.SREP_CAND_CNT_DROPPED s
  else setMem { s.mem with cands := s.mem.cands ++ [e] } s

/-- An SRAM row is read (R367). -/
def sramRead (unit row : Nat) (w : Word256) (c : Chk) (s : State) : State :=
  if 288 ≤ unit ∨ 8192 ≤ row then s
  else
    match wDecode w c with
    | .clean => s
    | .poisoned => s
    | .single _ _ =>
      let k := 8192 * unit + row
      let s := incF Reg.SREP_CE_CNT s
      if s.mem.ceRows.contains k then addCandidate unit row s else setMem { s.mem with ceRows := k :: s.mem.ceRows } s
    | .uncorrectable =>
      let code := faultCode 4 0xA 0x07
      enterS3 code (raiseC 0x5D 4 0x07 noAcct (unit + row * 2 ^ 10) (addCandidate unit row s))

end Sys2Proof.Machine
end

