-- ==== Sys2Proof/Machine/Buffer.lean ====
section
/-!
DEFINITION. The buffer memory at work (spec/11): training (R339, R340), demand reads and writes (R353–R355), what a poisoned word costs
(R359–R361), the scrubber (R356–R358), retirement (R364–R366), on-chip SRAM and its repair (R367–R369), split writes (R370).
-/
namespace Sys2Proof.Machine

def keySlot (s : State) (n : Nat) : KeySlot := Tbl.get {} s.keys.data n
def setKeys (k : KeySt) (s : State) : State := { s with keys := k }

/-! ## The WRITE that supplies records (R286, R437) -/

def wKEY_SLOT (d : List Byte) : Nat := dField d 0x10 2
def wPROFILE (d : List Byte) : Nat := dField d 0x12 1
def wREC_LEN (d : List Byte) : Nat := dField d 0x14 4
def wREC_COUNT (d : List Byte) : Nat := dField d 0x18 4
def wENC (d : List Byte) : Bool := (dFlags d).testBit 0

/-- What a WRITE says of its granules. -/
def wrCtx (s : State) (e : QEntry) : WrCtx :=
  let d := e.desc
  let t := tenant s (dTenant d)
  { tenant := dTenant d, session := t.session, tag := t.tag, slot := wKEY_SLOT d, keyTag := (keySlot s (wKEY_SLOT d)).tag
    profile := wPROFILE d, enc := wENC d, bracket := e.bracket }

/-! ## Losing granules (R361) -/

/-- The volume ends before a granule (R361): it and everything accepted after it is lost; the group is closed, and once its end-of-data map has
settled the stream is halted with the status. -/
def loseFrom (gsn first status detail : Nat) (s : State) : State :=
  if s.fmt.ending.isSome then s
  else
    let s := noteLoss status first detail (rollChains gsn s)
    let kept := s.fmt.grans.filter fun g => g.gsn < gsn
    let unpacked := kept.filter fun g => g.stage != .packed
    let fms := s.fmt.fmDone + (unpacked.filter fun g => g.filemark).length
    let s := setVol { s.vol with posRecord := first, posFm := fms, atEod := true } s
    let s := setFmt { s.fmt with grans := kept, openGran := none, ending := some (status, detail), closeReq := true
                                 closedUp := s.fmt.closedUp || (s.fmt.group.isNone && unpacked.isEmpty) } s
    let s := tryClose s
    if s.fmt.sets.isEmpty ∧ !s.fmt.closeReq then haltStream status detail (failExec status detail (setFmt { s.fmt with ending := none } s)) else s

/-- The fault code behind BUFFER_DATA_LOST. -/
def codePoison : Nat := faultCode 3 0xA 0x05

/-- Records before record `r` of the executing WRITE, and the full pieces of record `r` before its piece `j`, are cut; then the volume ends before
the granule that would take what follows (R361). -/
def loseRecord (offset : Nat) (s : State) : State :=
  match s.que.exec with
  | none => s
  | some x =>
    let d := x.entry.desc
    let len := wREC_LEN d
    if dOpcode d ≠ opWRITE ∨ len = 0 ∨ x.phase ≠ .data then s
    else
      let w := wrCtx s x.entry
      let r := offset / len
      let j := offset % len / granMax
      let p := s.vol.posRecord
      let s := forEach (List.range r) (fun i s => cutRecord w (p + i) (bytesAt x.entry.data (len * i) len) s) s
      let s := if granMax < len then
          forEach (List.range j) (fun k s => addPiece w (p + r) (bytesAt x.entry.data (len * r + granMax * k) granMax) (k == 0) false s) (closeGranule s)
        else s
      match s.fmt.openGran with
      | some g =>
        if w.fits g && decide (g.plain.length + len ≤ granMax) then loseFrom s.vol.nextGsn (g.first - leadPieces g.pieces) stBUFFER_DATA_LOST codePoison s
        else let s := closeGranule s; loseFrom s.vol.nextGsn (p + r) stBUFFER_DATA_LOST codePoison s
      | none => loseFrom s.vol.nextGsn (p + r) stBUFFER_DATA_LOST codePoison s

/-! ## What a poisoned word costs (R359) -/

/-- MEM_POISON for an account (R355, R359). -/
def raisePoison (account slot : Nat) (s : State) : State := raiseB 0x5C 30 3 0x05 account slot s

/-- A lost word of a system slot, or of a page that stands as one: MEM_SYS_UE and safe state S3 (R359). -/
def systemLoss (slot : Nat) (s : State) : State :=
  let code := faultCode 4 0xA 0x06
  enterS3 code (raiseB 0x5C 30 4 0x06 noAcct slot s)

/-- A row of a data set being written has lost a word: it is rebuilt by C2 into a new page, unless its SDS has lost more than 24 rows (R359). The
lost page is freed, and quarantined (R366). -/
def lostRow (slot dsn g : Nat) (s : State) : State :=
  let rows := (s.mem.pages.filter fun e => e.2.alloc && e.2.poisoned && (match e.2.use with | .payload n h => n == dsn && sdsOf h == sdsOf g | _ => false)).length
  if 24 < rows then
    match dataSet s dsn with
    | some d => closeBefore dsn stBUFFER_DATA_LOST codePoison (if d.compiled then d.origin else s.fmt.nextFrame) d.pass s
    | none => s
  else
    let a := (page s slot).owner
    let s := request { host := false, op := 1, acct := a, use := .payload dsn g } s
    request { host := false, op := 2, acct := a, page := slot } s

/-- The other copy of a block of C3 parity has lost the same word (R359). -/
def copyLost (s : State) (slot w dsn i : Nat) : Bool :=
  s.mem.pages.any fun e => e.1 != slot && (match e.2.use with | .c3 n k _ => n == dsn && k == i | _ => false) && wordState s e.1 w == .poisoned

/-- KEY_IMPORT of a side queue completes with BUFFER_DATA_LOST: the blob is not retried (R328, R359). -/
def blobLost (q : Nat) (s : State) : State :=
  let s := { s with ciph := { s.ciph with fw := s.ciph.fw.filter (fun w => match w with | .unwrap k _ _ _ => k != q | _ => true)
                                          runs := s.ciph.runs.filter (fun r => match r.work with | .unwrap k _ _ _ => k != q | _ => true) } }
  match (side s q).exec with
  | some x => if dOpcode x.entry.desc = opKEY_IMPORT then finishSide q stBUFFER_DATA_LOST 0 0 codePoison s else s
  | none => s

/-- The plaintext of a read granule is lost: the granule counts as failing its tag, and packets that carry it will not be sent (R359, R360). -/
def plainLost (gsn : Nat) (s : State) : State :=
  let mark (x : ExecSt) : ExecSt := { x with lostGrans := gsn :: x.lostGrans }
  setQue { s.que with exec := s.que.exec.map mark, din := s.que.din.map fun p => if p.gsn = gsn ∧ p.queue = 0 then { p with poison := true } else p } s

/-- The consequence of a poisoned word, by the use of its page (R359). -/
def poisonCost (slot w : Nat) (s : State) : State :=
  if !isPage s slot then systemLoss slot s
  else
    let d := page s slot
    if !d.alloc then s
    else
      match d.use with
      | .host => raisePoison d.owner slot s
      | .record o => loseRecord o (raisePoison d.owner slot s)
      | .granule gsn =>
        let first := match s.fmt.grans.find? fun g => g.gsn == gsn with | some g => g.first - leadPieces g.pieces | none => s.vol.posRecord
        let s := raisePoison d.owner slot s
        if s.fmt.grans.any (fun g => g.gsn == gsn && g.stage != .packed) then loseFrom gsn first stBUFFER_DATA_LOST codePoison s else s
      | .payload dsn g => lostRow slot dsn g (raisePoison d.owner slot s)
      | .c3 dsn i _ => if copyLost s slot w dsn i then systemLoss slot s else raisePoison d.owner slot s
      | .readPlain gsn => plainLost gsn (raisePoison d.owner slot s)
      | .ladder dsn g =>
        let drop (x : ReadSet) : ReadSet := if x.dsn = dsn ∧ !x.done then { x with rows := Tbl.erase x.rows g } else x
        { raisePoison d.owner slot s with rch := { s.rch with sets := s.rch.sets.map drop } }
      | .volumeMap => systemLoss slot s
      | .staging => systemLoss slot s
      | .test => request { host := false, op := 2, acct := d.owner, page := slot } (raisePoison d.owner slot s)
      | .vector => raisePoison d.owner slot s
      | .blob q => blobLost q (raisePoison d.owner slot s)
      | .readSet _ => raisePoison d.owner slot s

/-- A poisoned word is met: the event is logged with the page's account, a candidate where the page is free, and has its consequence (R353, R359,
R362). -/
def poisonMet (slot w : Nat) (s : State) : State :=
  let x := rawWord s slot w
  poisonCost slot w (logMem slot 0x03 w (wordChan slot w true) (b2n (isPage s slot && !(page s slot).alloc)) (wSyn x.1 x.2) s)

/-- A repair at a slot with the consequences of every word that it poisons (R349, R359). -/
def repairWithCost (slot : Nat) (s : State) : State :=
  let x := repairAndLog slot s
  x.1.foldl (fun s w => poisonCost slot w s) x.2

/-! ## Demand accesses (R352–R355) -/

/-- A demand read of a word (R352, R353): what is delivered, and what it changes. -/
def demandRead (slot w : Nat) (s : State) : (Word256 × Chk) × State :=
  if !isWritten s slot w then ((0, 0), s)
  else
    let x := rawWord s slot w
    match wDecode x.1 x.2 with
    | .clean => (x, s)
    | .single y c => ((y, c), hotAdd slot (noteCe slot (errorByte w x (y, c)) Reg.CE_RD_CNT s))
    | .poisoned => (x, poisonMet slot w s)
    | .uncorrectable => let s := repairWithCost slot s; (rawWord s slot w, s)

/-- New bytes merged into a word at a byte offset. -/
def mergeBytes (old : Word256) (off : Nat) (bytes : List Byte) : Word256 :=
  wordOf ((wordBytes old).zipIdx.map fun e => if off ≤ e.2 ∧ e.2 < off + bytes.length then (bytes.getD (e.2 - off) 0).toNat else e.1)

/-- A write of bytes into a word for an account: directly, or by reading first (R355). -/
def demandWrite (slot w off : Nat) (bytes : List Byte) (account : Nat) (s : State) : State :=
  let put (old : Word256) (s : State) : State := let n := mergeBytes old off bytes; storeWord slot w (n, wChk n) s
  if 32 ≤ bytes.length ∧ off = 0 ∧ !(isPage s slot && (page s slot).poisoned) then put 0 s
  else if !isWritten s slot w then put 0 s
  else
    let x := rawWord s slot w
    match wDecode x.1 x.2 with
    | .clean => put x.1 s
    | .single y c => put y (noteCe slot (errorByte w x (y, c)) Reg.CE_RD_CNT s)
    | .poisoned => raisePoison account slot s
    | .uncorrectable =>
      let s := repairWithCost slot s
      let x := rawWord s slot w
      match wDecode x.1 x.2 with
      | .poisoned => raisePoison account slot s
      | _ => put x.1 s

/-- A buffer access: within the slots, while the memory is READY, and not of a retired page (R365). -/
def accessible (s : State) (slot w : Nat) : Bool :=
  getB s Reg.MEM_STATUS_READY && decide (slot < allSlots s) && decide (w < 128) && !(isPage s slot && (page s slot).retired)

/-! ## Training (R339, R340) -/

def ddr (s : State) (n : Nat) : DdrSt := Tbl.get {} s.mem.ddr n
def setDdr (n : Nat) (d : DdrSt) (s : State) : State := setMem { s.mem with ddr := Tbl.set s.mem.ddr n d } s

/-- A write of MEM_CTRL.TRAIN (R339). -/
def trainStart (s : State) : State :=
  let due := (List.range 4).filter fun n => getF s (Reg.DDR_STATUS_STATE n) != 3
  if !getB s Reg.MEM_CTRL_EN ∨ getB s Reg.MEM_STATUS_TRAIN_BUSY ∨ due = [] then s
  else
    let s := forEach due (fun n s => setDdr n { ddr s n with step := 0, attempts := 0 } (setF (Reg.DDR_STATUS_TRAINED n) 0 (setF (Reg.DDR_STATUS_STATE n) 1 s))) s
    setF Reg.MEM_STATUS_TRAIN_BUSY 1 s

/-- TRAIN_BUSY and READY after a channel has ended its training (R340). -/
def trainCheck (s : State) : State :=
  let st (n : Nat) : Nat := getF s (Reg.DDR_STATUS_STATE n)
  let s := if (List.range 4).all (fun n => st n == 3 || st n == 7) then setF Reg.MEM_STATUS_TRAIN_BUSY 0 s else s
  if (List.range 4).all (fun n => st n == 3) then setF Reg.POOL_SLOTS (poolPages s) (setF Reg.MEM_STATUS_READY 1 s) else s

/-- A channel's training fails at a step (R340). -/
def trainFail (n step lane : Nat) (s : State) : State :=
  let s := setF (Reg.DDR_TRAIN_ERR_VALID n) 1 (setF (Reg.DDR_TRAIN_ERR_LANE n) lane (setF (Reg.DDR_TRAIN_ERR_STEP n) step s))
  trainCheck (raiseC (0x58 + n) 3 0x08 noAcct step (setF (Reg.DDR_STATUS_STATE n) 7 s))

/-- A step of a channel's training ends (R339, R340). -/
def trainStep (n : Nat) (r : TrainResult) (s : State) : State :=
  let d := ddr s n
  let st := getF s (Reg.DDR_STATUS_STATE n)
  if 4 ≤ n ∨ (st ≠ 1 ∧ st ≠ 2) then s
  else
    match r with
    | .pass =>
      let s := setF (Reg.DDR_STATUS_TRAINED n) (getF s (Reg.DDR_STATUS_TRAINED n) ||| 2 ^ d.step) s
      if d.step = 7 then trainCheck (setF (Reg.DDR_STATUS_STATE n) 3 s)
      else setDdr n { d with step := d.step + 1, attempts := 0 } (setF (Reg.DDR_STATUS_STATE n) 2 s)
    | .fail lane =>
      if d.attempts = 2 then trainFail n d.step (lane % 4) s
      else incF (Reg.DDR_RETRAIN_CNT n) (setDdr n { d with attempts := d.attempts + 1 } s)
    | .density => if d.step = 0 then trainFail n 0 0 s else s

/-- A refresh interval of a channel: the refresh is issued at the rate that MR4 asks for (R338, R356, R372, R375). -/
def refresh (n rate : Nat) (hot : Bool) (s : State) : State :=
  if 4 ≤ n ∨ getF s (Reg.DDR_STATUS_STATE n) ≠ 3 then s
  else
    let s := setDdr n { ddr s n with refi := (ddr s n).refi + 1 } (setF (Reg.DDR_STATUS_REF_RATE n) rate s)
    if hot then raiseC (0x58 + n) 0 0x0B noAcct rate s else s

/-- Every 256 intervals the oscillators are read and the delays follow them (R339). -/
def oscTrack (n reading : Nat) (s : State) : State :=
  let d := ddr s n
  if 4 ≤ n ∨ getF s (Reg.DDR_STATUS_STATE n) ≠ 3 ∨ d.refi % 256 ≠ 0 then s else setDdr n { d with osc := reading } s

/-- Every 32,768 intervals the ZQ calibration is latched (R338). -/
def zqLatch (n code : Nat) (s : State) : State :=
  let d := ddr s n
  if 4 ≤ n ∨ getF s (Reg.DDR_STATUS_STATE n) ≠ 3 ∨ d.refi % 32768 ≠ 0 then s else setDdr n { d with zq := code } s

/-! ## The scrubber (R356–R358, R370) -/

/-- The scrubber passes a slot over: a retired page, or a page of the account of an armed split port (R356, R370). -/
def scrubSkips (s : State) (slot : Nat) : Bool :=
  isPage s slot && ((page s slot).retired
    || ((page s slot).alloc && ((getB s Reg.SPLIT_CTRL_ARM && (page s slot).owner == getF s Reg.SPLIT_CTRL_ACCT)
        || (s.mem.svc1.arm && (page s slot).owner == s.mem.svc1.acct))))

/-- The errors of a slot's cells that come back after a write. -/
def stuckAt (l : List (Nat × Byte)) (slot : Nat) (offs : List Nat) (s : State) : State := upsetCells slot (l.filter fun e => offs.contains e.1) s

/-- Slot bytes of a word and of its CHK. -/
def wordBytesAt (w : Nat) : List Nat := (List.range 32).map (32 * w + ·) ++ (List.range 3).map (4096 + 3 * w + ·)

/-- One word of an allocated page or system slot (R357): a single-byte error is written back, and read again. -/
def scrubWord (slot : Nat) (stuck : List (Nat × Byte)) (w : Nat) (s : State) : State :=
  let x := rawWord s slot w
  match wordState s slot w with
  | .single y c =>
    let off := errorByte w x (y, c)
    let s := noteCe slot off Reg.CE_SCRUB_CNT s
    let s := stuckAt stuck slot (wordBytesAt w) (putRaw slot w (y, c) s)
    let again := rawWord s slot w
    match wDecode again.1 again.2 with
    | .single y' c' =>
      if errorByte w again (y', c') = off then
        let s := logMem slot 0x01 w (chanMask slot off) (b2n (isPage s slot)) (wSyn again.1 again.2) (incF Reg.CE_REPEAT_CNT s)
        raiseB 0x5C 30 2 0x03 (slotOwner s slot) slot s
      else s
    | _ => s
  | _ => s

/-- The scrubber at an allocated pool page or a system slot (R357). Words that were poisoned before it came are met like any other (log entry:
poison met by the scrubber). -/
def scrubUsed (slot : Nat) (stuck : List (Nat × Byte)) (s : State) : State :=
  let s := forEach (List.range 128) (scrubWord slot stuck) s
  let dirty := badWords s slot != [] || !pClean ((List.range 128).map fun w => trustedData s slot w) (trustedP s slot)
  let known := poisonedWords s slot
  let s := if !dirty ∨ (badWords s slot = [] ∧ known ≠ []) then s else repairWithCost slot s
  forEach known (poisonMet slot) s

/-- A word of a free page that the pattern test found with one byte in error is recorded. -/
def stuckByte (slot w : Nat) (x : Word256 × Chk) (v : WResult) (s : State) : State :=
  match v with
  | .single y c =>
    let off := errorByte w x (y, c)
    raiseB 0x5C 30 2 0x03 noAcct slot (logMem slot 0x01 w (chanMask slot off) 1 (wSyn x.1 x.2) (noteCe slot off Reg.CE_SCRUB_CNT s))
  | _ => s

/-- The scrubber at a free or quarantined page (R358). -/
def scrubFree (slot : Nat) (stuck : List (Nat × Byte)) (s : State) : State :=
  let pat (w : Nat) : Word256 := wordOf (List.replicate 32 ((slot + w) % 256))
  let ws := (List.range 128).map pat
  let s := putP slot (pWords ws) (forEach (List.range 128) (fun w s => putRaw slot w (pat w, wChk (pat w)) s) s)
  let s := upsetCells slot stuck s
  let res := (List.range 128).map fun w => let x := rawWord s slot w; (w, x, wDecode x.1 x.2)
  let bad := res.filter fun r => r.2.2 == .uncorrectable || r.2.2 == .poisoned
  let one := res.filter fun r => match r.2.2 with | .single _ _ => true | _ => false
  let data := (List.range 128).map fun w => let x := rawWord s slot w; match wDecode x.1 x.2 with | .single y _ => y | _ => x.1
  let pBad := !pClean data ((List.range 4).map fun k => pWord s slot k)
  let s := bad.foldl (fun s r => logMem slot 0x04 r.1 (wordChan slot r.1 true) 1 (wSyn r.2.1.1 r.2.1.2) (noteUe slot r.1 s)) s
  let s := if pBad ∧ bad = [] then logMem slot 0x04 0xFF 0 1 0 s else s
  let s := if pBad ∨ bad ≠ [] then raiseB 0x5C 30 2 0x04 noAcct slot s else s
  let s := one.foldl (fun s r => stuckByte slot r.1 r.2.1 r.2.2 s) s
  let d := page s slot
  if d.quar ∧ bad = [] ∧ one = [] ∧ !pBad then setPage slot { d with poisoned := false } s else s

/-- The scrubber visits the next slot: the hot list first, then its walk (R354, R356). -/
def scrubVisit (upset stuck : List (Nat × Byte)) (s : State) : State :=
  if !getB s Reg.MEM_STATUS_READY ∨ !getB s Reg.MEM_CTRL_SCRUB_EN ∨ !(getF s Reg.CLU_RUN_SVC).testBit 0 then s
  else
    let visit (slot : Nat) (s : State) : State :=
      if scrubSkips s slot then s
      else
        let s := upsetCells slot upset s
        if isPage s slot ∧ !(page s slot).alloc then scrubFree slot stuck s else scrubUsed slot stuck s
    match s.mem.hot with
    | slot :: rest => visit slot (setMem { s.mem with hot := rest } s)
    | [] =>
      let slot := getF s Reg.SCRUB_POS
      let s := visit slot s
      if slot + 1 < allSlots s then setF Reg.SCRUB_POS (slot + 1) s
      else setMem { s.mem with ceDone := [] } (incF Reg.SCRUB_PASS_CNT (setF Reg.SCRUB_POS 0 s))

/-! ## Retiring and releasing pages (R364–R366, R388) -/

/-- A write of RETIRE or RELEASE that is ignored (R364, R366). -/
def retireIgnored (s : State) : State := notify 0x5C 1 0 s

/-- A write of RETIRE (R364). -/
def retirePage (p : Nat) (s : State) : State :=
  let d := page s p
  if poolPages s ≤ p ∨ d.retired ∨ d.pending then retireIgnored s
  else if 32768 ≤ retiredCount s + pendingCount s then raiseB 0x5C 30 0 0x09 noAcct p (setF Reg.MEM_STATUS_RETIRE_FULL 1 s)
  else
    let s := setMem { s.mem with retire := s.mem.retire ++ [p], hot := s.mem.hot.filter (· != p) } s
    if d.alloc then setPage p { d with pending := true } s
    else
      let gone : PageDesc := { d with retired := true, quar := false, gen := (d.gen + 1) % 512 }
      let s := if getB s Reg.POOL_STATUS_BUILT ∧ !d.quar then setPool { s.pool with free := s.pool.free - 1 } s else s
      checkShort (setPage p gone s)

/-- A write of RELEASE (R366). -/
def releasePage (p : Nat) (s : State) : State :=
  let d := page s p
  if poolPages s ≤ p ∨ !d.quar ∨ d.poisoned then retireIgnored s
  else
    let s := setPage p { d with quar := false } s
    let s := if getB s Reg.POOL_STATUS_BUILT then ringPush p d.gen (setPool { s.pool with free := s.pool.free + 1 } s) else s
    poolEvent (checkShort s)

/-! ## SRAM repair (R368, R369) -/

/-- The parts of a repair entry (R368). -/
def repMacro (e : Nat) : Nat := slice e 0 9
def repColumn (e : Nat) : Bool := e.testBit 9
def repAddr (e : Nat) : Nat := slice e 10 13

/-- Spare rows, and whether the spare column, that some entries use of a macro. -/
def repRows (l : List Nat) (m : Nat) : Nat := (l.filter fun e => repMacro e == m && !repColumn e).length
def repCol (l : List Nat) (m : Nat) : Bool := l.any fun e => repMacro e == m && repColumn e

/-- The code of a soft repair entry against the fuses and the entries already applied; 0 if it is applied (R369). -/
def repCheck (fuse done : List Nat) (e : Nat) : Nat :=
  let m := repMacro e
  let same (x : Nat) : Bool := repMacro x == m && repColumn x == repColumn e && repAddr x == repAddr e
  if 287 < m then 1
  else if (repColumn e && decide (279 < repAddr e)) || (!repColumn e && decide (8191 < repAddr e)) then 4
  else if (fuse ++ done).any same then 5
  else if !repColumn e ∧ 4 ≤ repRows (fuse ++ done) m then 2
  else if repColumn e ∧ repCol (fuse ++ done) m then 3
  else 0

/-- A write of SREP_CTRL.APPLY (R369). -/
def srepApply (s : State) : State :=
  if isSealed s ∨ rd s Reg.CLU_RUN_CMD.addr ≠ 0 ∨ rd s Reg.CLU_CH_RUN.addr ≠ 0 then
    setF Reg.SREP_ERR_VALID 1 (setF Reg.SREP_ERR_CODE 6 (setF Reg.SREP_ERR_INDEX 0 s))
  else
    let step (acc : List Nat × List (Nat × Nat × Nat)) (x : Nat × Nat) : List Nat × List (Nat × Nat × Nat) :=
      if !x.2.testBit 31 then acc
      else match repCheck s.fuseMap.entries acc.1 x.2 with
        | 0 => (acc.1 ++ [x.2], acc.2)
        | c => (acc.1, acc.2 ++ [(x.1, c, x.2)])
    let r := s.mem.soft.foldl step ([], [])
    let s := if s.mem.inForce = r.1 then s
      else setF Reg.IMG_RCVD 0 (setF Reg.IMG_WIN_ADDR 0 { s with sec := { s.sec with region := [] } })
    let s := setMem { s.mem with inForce := r.1 } s
    let s := setF Reg.SREP_STATUS_APPLIED 1 (setF Reg.SREP_STATUS_ENTRIES r.1.length s)
    let s := match r.2 with
      | (i, c, _) :: _ => setF Reg.SREP_ERR_VALID 1 (setF Reg.SREP_ERR_CODE c (setF Reg.SREP_ERR_INDEX i s))
      | [] => s
    r.2.foldl (fun s x => raiseC 0x5D 0 0x0C noAcct x.2.2 s) s

/-! ## Split writes (R370) -/

/-- The settings of a split port: the host's registers, or SVC1's own. -/
def splitPort (internal : Bool) (s : State) : SplitPort :=
  if internal then s.mem.svc1
  else { arm := getB s Reg.SPLIT_CTRL_ARM, keep := getB s Reg.SPLIT_CTRL_PCODE_KEEP, acct := getF s Reg.SPLIT_CTRL_ACCT
         page := getF s Reg.SPLIT_ADDR_PAGE, word := getF s Reg.SPLIT_ADDR_WORD
         data := wordOf ((List.range 8).flatMap fun i => (leBytes 4 (getF s (Reg.SPLIT_DATA i))).map BitVec.toNat), chk := BitVec.ofNat 24 (getF s Reg.SPLIT_CHK) }

/-- The operation may act: ARM set, the page allocated to the system account named, which the host names among S8–S15 only (R370, R395). -/
def splitOk (internal : Bool) (s : State) : Bool :=
  let p := splitPort internal s
  let d := page s p.page
  p.arm && decide (p.page < slotsReady s) && d.alloc && d.owner == p.acct && decide (256 ≤ p.acct) && decide (p.acct < 272) && (internal || decide (264 ≤ p.acct))

/-- A split operation's result; DONE and its event. -/
def splitDone (internal : Bool) (syn verdict : Nat) (s : State) : State :=
  if internal then setMem { s.mem with svc1 := { s.mem.svc1 with syn, verdict, done := true } } s
  else notify 0x5C 2 0 <| setF Reg.SPLIT_RESULT_DONE 1 <| setF Reg.SPLIT_RESULT_VERDICT verdict (setF Reg.SPLIT_RESULT_SYN syn s)

/-- A refused operation (R370). -/
def splitRefused (internal : Bool) (s : State) : State := splitDone internal 0 7 s

/-- SYN and VERDICT as they stand. -/
def splitKept (internal : Bool) (s : State) : Nat × Nat :=
  if internal then (s.mem.svc1.syn, s.mem.svc1.verdict) else (getF s Reg.SPLIT_RESULT_SYN, getF s Reg.SPLIT_RESULT_VERDICT)

/-- WRITE (R370): data and check bytes stored unchanged; the P-code follows the data unless PCODE_KEEP. -/
def splitWrite (internal : Bool) (s : State) : State :=
  if !splitOk internal s then splitRefused internal s
  else
    let p := splitPort internal s
    let s := if p.keep then
        let d := page s p.page
        setPage p.page { d with written := d.written ||| 2 ^ p.word } (putRaw p.page p.word (p.data, p.chk) s)
      else storeWord p.page p.word (p.data, p.chk) s
    let k := splitKept internal s
    splitDone internal k.1 k.2 s

/-- READ (R370): raw data and CHK, SYN and verdict; nothing is corrected or logged. -/
def splitRead (internal : Bool) (s : State) : State :=
  if !splitOk internal s then splitRefused internal s
  else
    let p := splitPort internal s
    let x : Word256 × Chk := if isWritten s p.page p.word then rawWord s p.page p.word else (0, 0)
    let v := match wDecode x.1 x.2 with | .clean => 0 | .single _ _ => 1 | .uncorrectable => 2 | .poisoned => 3
    let s := if internal then setMem { s.mem with svc1 := { s.mem.svc1 with data := x.1, chk := x.2 } } s
      else setF Reg.SPLIT_CHK x.2.toNat (forEach (List.range 8) (fun i s => setF (Reg.SPLIT_DATA i) (slice x.1.toNat (32 * i) 32) s) s)
    splitDone internal (wSyn x.1 x.2) v s

/-- PCHECK (R370): the page's P-code syndromes, and what a repair could do about them. -/
def splitPcheck (internal : Bool) (s : State) : State :=
  if !splitOk internal s then splitRefused internal s
  else
    let p := splitPort internal s
    let ws := (List.range 128).map fun w => if isWritten s p.page w then (rawWord s p.page w).1 else 0
    let ps := trustedP s p.page
    let v := if pClean ws ps then 4
      else match pDecode (badWords s p.page ++ poisonedWords s p.page) ((List.range 128).map fun w => trustedData s p.page w) ps with
        | some _ => 5
        | none => 6
    splitDone internal (splitKept internal s).1 v s

/-! ## Meanings -/

/-- MEM_TRAIN. -/
def execMemTrain (s : State) : Host.Outcome State Fault Refusal := .next (lockGate 0x5C trainStart s)

/-- DDR_TRAIN_STEP_DONE. -/
def execDdrTrainStepDone (channel : Nat) (result : TrainResult) (s : State) : Host.Outcome State Fault Refusal := .next (trainStep channel result s)

/-- DDR_REFRESH. -/
def execDdrRefresh (channel rate : Nat) (hot : Bool) (s : State) : Host.Outcome State Fault Refusal := .next (refresh channel rate hot s)

/-- DDR_OSC_TRACK. -/
def execDdrOscTrack (channel reading : Nat) (s : State) : Host.Outcome State Fault Refusal := .next (oscTrack channel reading s)

/-- DDR_ZQ_LATCH. -/
def execDdrZqLatch (channel code : Nat) (s : State) : Host.Outcome State Fault Refusal := .next (zqLatch channel code s)

/-- BUFFER_READ. -/
def execBufferRead (slot word : Nat) (upset : List (Nat × Byte)) (s : State) : Host.Outcome State Fault Refusal :=
  .next (if accessible s slot word then (demandRead slot word (upsetCells slot upset s)).2 else s)

/-- BUFFER_WRITE. -/
def execBufferWrite (slot word offset : Nat) (bytes : List Byte) (account : Nat) (upset : List (Nat × Byte)) (s : State) :
    Host.Outcome State Fault Refusal :=
  .next (if accessible s slot word ∧ bytes ≠ [] ∧ offset + bytes.length ≤ 32 then demandWrite slot word offset bytes account (upsetCells slot upset s) else s)

/-- SCRUB_VISIT. -/
def execScrubVisit (upset stuck : List (Nat × Byte)) (s : State) : Host.Outcome State Fault Refusal := .next (scrubVisit upset stuck s)

/-- RLOG_TAIL_WRITE. -/
def execRlogTailWrite (value : Nat) (s : State) : Host.Outcome State Fault Refusal := .next (lockGate 0x5C (rlogTail value) s)

/-- RETIRE. -/
def execRetire (page : Nat) (s : State) : Host.Outcome State Fault Refusal := .next (lockGate 0x5C (retirePage page) s)

/-- MEM_RELEASE. -/
def execMemRelease (page : Nat) (s : State) : Host.Outcome State Fault Refusal := .next (lockGate 0x5C (releasePage page) s)

/-- SRAM_WORD_READ. -/
def execSramWordRead (unit row : Nat) (word : Word256) (chk : Chk) (s : State) : Host.Outcome State Fault Refusal := .next (sramRead unit row word chk s)

/-- SREP_APPLY. -/
def execSrepApply (s : State) : Host.Outcome State Fault Refusal := .next (lockGate 0x5D srepApply s)

/-- SPLIT_WRITE. -/
def execSplitWrite (internal : Bool) (s : State) : Host.Outcome State Fault Refusal :=
  .next (if internal then splitWrite true s else lockGate 0x5C (splitWrite false) s)

/-- SPLIT_READ. -/
def execSplitRead (internal : Bool) (s : State) : Host.Outcome State Fault Refusal :=
  .next (if internal then splitRead true s else lockGate 0x5C (splitRead false) s)

/-- SPLIT_PCHECK. -/
def execSplitPcheck (internal : Bool) (s : State) : Host.Outcome State Fault Refusal :=
  .next (if internal then splitPcheck true s else lockGate 0x5C (splitPcheck false) s)

end Sys2Proof.Machine
end

