-- ==== Sys2Proof/Machine/Chain.lean ====
section
/-!
DEFINITION. The signal chain of a reader (spec/06): offset, asymmetry, gain, interpolation and equaliser (R191), the adaptation loops (R195),
slips and resets (R196, R197), defects (R198, R199), quick decisions (R193), peak detection (R220, R221), the frame locator (R211, R212). Places
in the recorded stream count channel bits along the direction of travel.
-/
namespace Sys2Proof.Machine

/-! ## Settings -/

/-- A robust read board runs in the band (R222). -/
def readRobust (s : State) (b : Nat) : Bool := let x := band s b; x.running && brdRead s b x.cur && brdRobust s b x.cur

/-- Samples that readers give in a frame: a quarter as many behind a robust write board (R148, R222). -/
def frameSamples (s : State) (b : Nat) : Nat := if writeBoardRuns s b then brdBits s b (band s b).cur else bandBits b

/-- Samples of a bit cell: four in a robust read board (R222). -/
def cellWidth (s : State) (b : Nat) : Nat := if readRobust s b then 4 else 1

/-- Bit cells in a frame. -/
def frameCells (s : State) (b : Nat) : Nat := frameSamples s b / cellWidth s b

/-- Peak mode: the board that runs is robust, the ladder's salvage rung reads, or PEAK_FORCE is set (R223, R270). -/
def peakMode (s : State) (b : Nat) : Bool :=
  let x := band s b
  getB s (Reg.RCH_CTRL_PEAK_FORCE b) || (x.running && brdRobust s b x.cur) ||
    (x.running && brdRead s b x.cur && getB s Reg.RCV_STATUS_ACTIVE && getF s Reg.RCV_STATUS_LEVEL == 5)

/-- What a chain takes from its band. -/
structure ChainCfg where
  kp : Nat
  ki : Nat
  g  : Nat
  o  : Nat
  a  : Nat
  mu : Nat
  freeze : Bool
  t0 : Int
  t1 : Int
  t2 : Int
  drop  : Nat
  ta    : Nat
  guard : Nat
  thr   : Nat
  peak  : Bool
  width : Nat
  cells : Nat
  deriving DecidableEq, Repr

/-- The settings in force in a band (R192, R195, R198, R220). -/
def chainCfg (s : State) (b : Nat) : ChainCfg :=
  { kp := getF s (Reg.LOOP_ACT_KP_SH b), ki := getF s (Reg.LOOP_ACT_KI_SH b), g := getF s (Reg.LOOP_ACT_G_SH b), o := getF s (Reg.LOOP_ACT_O_SH b)
    a := getF s (Reg.LOOP_ACT_A_SH b), mu := getF s (Reg.EQ_ACT_MU_SH b), freeze := getB s (Reg.EQ_ACT_FREEZE b)
    t0 := getS s (Reg.TARGET_T0 b), t1 := getS s (Reg.TARGET_T1 b), t2 := getS s (Reg.TARGET_T2 b)
    drop := getF s (Reg.DEFECT_DROP_PCT b), ta := getF s (Reg.DEFECT_TA_LEVEL b), guard := getF s (Reg.DEFECT_GUARD b)
    thr := getF s (Reg.PEAK_THR_PCT b), peak := peakMode s b, width := cellWidth s b, cells := frameCells s b }

/-- ±1 for a recorded bit (R192). -/
def plusMinus (b : Bool) : Int := if b then 1 else -1

/-- The target response (R192). -/
def ChainCfg.target (c : ChainCfg) (a0 a1 a2 : Int) : Int := c.t0 * a0 + c.t1 * a1 + c.t2 * a2

/-! ## Defects (R198, R199) -/

/-- The drop-out and thermal asperity conditions of R198. -/
def defect (cfg : ChainCfg) (c : ChainSt) : Bool :=
  decide (sumI c.mag * 102400 < cfg.drop * c.mean * 32) || decide ((8 * cfg.ta : Nat) < (sumI c.x1).natAbs)

/-! ## Quick decisions (R193) -/

/-- The better of two survivors. -/
def betterSurvivor (i : Nat) (x y : Survivor) : Survivor :=
  if x.metric < y.metric then x else if y.metric < x.metric then y else if Config.tieBreak i then x else y

/-- One step of the 4-state Viterbi detector: state 2·a(n) + a(n−1) as bits. -/
def quickStep (cfg : ChainCfg) (y : Int) (sv : List Survivor) : List Survivor :=
  (List.range 4).map fun st =>
    let a0 := plusMinus (decide (2 ≤ st))
    let a1 := plusMinus (decide (st % 2 = 1))
    let path (b : Nat) : Survivor :=
      let old := sv.getD (2 * (st % 2) + b) {}
      let e := y - cfg.target a0 a1 (plusMinus (decide (b = 1)))
      { metric := old.metric + e * e, bits := (decide (2 ≤ st)) :: old.bits.take 15 }
    betterSurvivor st (path 0) (path 1)

/-- The best survivor. -/
def bestSurvivor (sv : List Survivor) : Survivor := sv.foldl (fun a b => betterSurvivor 4 a b) (sv.headD {})

/-- The decision of the detector on the bit 12 back. -/
def quickBit (sv : List Survivor) : Bool := (bestSurvivor sv).bits.getD 12 false

/-- The quick decisions on a run of equalised values, oldest first; the last 12 as the survivor that is best at the end gives them. -/
def quickList (cfg : ChainCfg) (ys : List Int) : List Bool :=
  let r := ys.foldl (fun (a : List Survivor × List Bool × Nat) y =>
    let sv := quickStep cfg y a.1
    (sv, (if 12 ≤ a.2.2 then quickBit sv :: a.2.1 else a.2.1), a.2.2 + 1)) (List.replicate 4 {}, [], 0)
  r.2.1.reverse ++ ((bestSurvivor r.1).bits.take (min 12 ys.length)).reverse

/-! ## Slips (R196) -/

/-- PHI at ±1.0 bit comes back by 1.0, and the interpolator has a sample to slip; answers the slips, 0 or 1. -/
def slipPhi (c : ChainSt) : ChainSt × Nat :=
  if 65536 ≤ c.phi then ({ c with phi := c.phi - 65536, slip := c.slip + 1 }, 1)
  else if c.phi ≤ -65536 then ({ c with phi := c.phi + 65536, slip := c.slip - 1 }, 1)
  else (c, 0)

/-! ## The adaptation loops (R195) -/

/-- One update of the loops from the bits whose records begin with `h` (newest of them first). In peak mode the timing follows the peaks, and PHI
only advances (R221). -/
def adapt (cfg : ChainCfg) (h : List BitRec) (c : ChainSt) : ChainSt :=
  match h with
  | r0 :: r1 :: r2 :: r3 :: _ =>
    let t := cfg.target r0.a r1.a r2.a
    let tp := cfg.target r1.a r2.a r3.a
    let e := r0.y - t
    let te := if cfg.peak then 0 else r0.y * tp - r1.y * t
    let omega := c.omega + asr te cfg.ki
    let phi := c.phi + omega + asr te cfg.kp
    let gain := c.gain - asr (e * t) cfg.g
    let off := c.off + asr (e * 256) cfg.o
    let x := (h.getD 7 r0).x2
    let beta := c.beta + asr (e * x * x) cfg.a
    let tap (k : Nat) : Int := c.taps.getD k 0 - asr (e * (h.getD k r0).v) cfg.mu
    let taps := if cfg.freeze then c.taps else (List.range 16).map fun k => if k = 7 then 64 else tap k
    let atClamp := taps.any (fun v => 511 ≤ v.natAbs) || decide (gain ≤ 1024) || decide (16384 ≤ gain) || decide (off ≤ -32768) || decide (32767 ≤ off)
      || decide (beta ≤ -8191) || decide (8191 ≤ beta)
    { c with omega, phi, gain := clampI 1024 16384 gain, off := clampI (-32768) 32767 off, beta := clampI (-8191) 8191 beta
             taps := taps.map (clampI (-511) 511), clamped := if atClamp then c.clamped + 1 else 0 }
  | _ => c

/-- The loops update for the record `d` bits back, if its reference bits are known, it is not flagged and they have not used it; whether they have. -/
def adaptAt (cfg : ChainCfg) (d : Nat) (c : ChainSt) : ChainSt × Bool :=
  let h := c.hist.drop d
  match h with
  | r :: _ =>
    if r.used ∨ r.flag ∨ h.length < 4 ∨ (h.take 4).any (fun x => x.a == 0) then (c, false)
    else
      let c := adapt cfg h c
      ({ c with hist := c.hist.take d ++ (match c.hist.drop d with | r :: t => { r with used := true } :: t | [] => []) }, true)
  | [] => (c, false)

/-- The loops in the time of one channel bit (R193, R195, R199): on a known bit at once, otherwise 12 bits late; none of them while the bit is
flagged, and none but the timing in cells four samples wide. PHI advances by OMEGA whatever happens. -/
def loopsBit (cfg : ChainCfg) (known flag : Bool) (c : ChainSt) : ChainSt × Nat :=
  let coast (c : ChainSt) : ChainSt := { c with phi := c.phi + c.omega }
  if flag ∨ cfg.width ≠ 1 then slipPhi (coast c)
  else
    let (c, x) := if known then adaptAt cfg 0 c else (c, false)
    let (c, y) := adaptAt cfg 12 c
    slipPhi (if x || y then c else coast c)

/-! ## Peaks (R220, R221) -/

/-- The cell that contains sample `n`: PHI shifts the cells against the samples (R221, R222). -/
def cellOf (cfg : ChainCfg) (phi n : Int) : Int := fdiv (n * 65536 + 32768 - phi) (cfg.width * 65536)

/-- The offset of sample `n` from the centre of its cell, in 2^−16 sample (R221). -/
def cellOffset (cfg : ChainCfg) (phi n : Int) : Int :=
  n * 65536 + 32768 - phi - cellOf cfg phi n * (cfg.width * 65536 : Nat) - (cfg.width * 32768 : Nat)

/-- The peak detector judges sample `n`, the one before the newest (R220). An accepted peak marks a transition in its cell; one that replaces the
peak before it moves that transition (R221). In peak mode the timing loop takes its offset from the cell's centre. -/
def peakStep (cfg : ChainCfg) (n : Int) (flag : Bool) (c : ChainSt) : ChainSt :=
  let n1 := c.x3.getD 0 0
  let v := c.x3.getD 1 0
  let p := c.x3.getD 2 0
  let isPeak := decide (p.natAbs ≤ v.natAbs ∧ n1.natAbs < v.natAbs) && decide (cfg.thr * c.peakA ≤ 100 * v.natAbs)
  let same := decide (0 < v * c.last)
  if !isPeak ∨ (same ∧ v.natAbs ≤ c.last.natAbs) then c
  else
    let cell := cellOf cfg c.phi n
    let trans := if same then cell :: c.trans.drop 1 else cell :: c.trans
    let te := if cfg.peak && !flag then cellOffset cfg c.phi n else 0
    { c with last := v, level := (if same then c.level else !c.level), trans, peakA := c.peakA + asr (v.natAbs - c.peakA) 4
             omega := c.omega + asr te (cfg.ki + 2), phi := c.phi + asr te (cfg.kp + 2) }

/-- The peak path's decision on a cell: the level after the transitions up to it. -/
def levelAt (level : Bool) (trans : List Int) (cell : Int) : Bool := level != ((trans.filter fun j => decide (cell < j)).length % 2 == 1)

/-! ## One sample (R189–R199) -/

/-- A sample passes stages 1 to 3, the defect detector and the peak detector; whether a flagged run begins with it. -/
def pushSample (cfg : ChainCfg) (n : Int) (sample : Int) (erased : Bool) (c : ChainSt) : ChainSt × Bool :=
  let x1 := (if erased then 0 else sample) - asr c.off 8
  let x2 := x1 - asr (c.beta * x1 * x1) 14
  let x3 := asr (c.gain * x2) 12
  let c := { c with x1 := (x1 :: c.x1).take 8, x3 := (x3 :: c.x3).take 8, mag := ((x3.natAbs : Int) :: c.mag).take 32 }
  let bad := erased || defect cfg c
  let flag := bad || decide (0 < c.guard)
  let newRun := flag && !c.inRun
  let c := { c with guard := (if bad then cfg.guard else c.guard - 1), mean := (if flag then c.mean else c.mean + x3.natAbs - asr c.mean 10), inRun := flag }
  (peakStep cfg (n - 1) flag c, newRun)

/-- The sync mark, when the newest 32 quick decisions are it but for at most 3, is that of a window that predicts it within 96 bits (R193, R207);
the mark's bits are known from then on. `top` is the place of the newest decision. -/
def locate (wins : List Int) (top : Int) (c : ChainSt) : ChainSt :=
  let diff := ((List.range 32).filter fun j => c.quick.getD j false != syncMark.testBit j).length
  if 3 < diff then c
  else
    match wins.find? fun p => !c.located.contains p && decide ((top - 31 - p).natAbs ≤ 96) with
    | none => c
    | some p =>
      { c with located := (p :: c.located).take 4
               hist := c.hist.take 12 ++ (c.hist.drop 12).zipIdx.map fun e => { e.1 with a := plusMinus (syncMark.testBit e.2) } }

/-- One bit leaves the interpolator at a place of the recorded stream (none for the extra bit of a slip): equaliser, quick decision, row store, loops.
`wins` are the predicted places of the track's windows. Answers the slips. -/
def outBit (cfg : ChainCfg) (wins : List Int) (place : Option Int) (known : Option Bool) (c : ChainSt) : ChainSt × Nat :=
  let v := Config.interpolate (slice (ofS 32 c.phi) 10 6) c.x3
  let y := asr (sumI ((List.range 16).map fun k =>
    c.taps.getD k 0 * (if k = 0 then v else match c.hist[k - 1]? with | some r => r.v | none => 0))) 6
  let surv := quickStep cfg y (if c.surv = [] then List.replicate 4 {} else c.surv)
  let q := quickBit surv
  let a : Int := match known with | some b => plusMinus b | none => 0
  let x2 := (c.x1.headD 0) - asr (c.beta * c.x1.headD 0 * c.x1.headD 0) 14
  let hist := ({ place, v, y, x2, phi := c.phi, a, flag := c.inRun, used := false } :: c.hist : List BitRec).take 48
  let (hist, store) := match hist.drop 12 with
    | r :: t =>
      let r' : BitRec := if r.a = 0 then { r with a := plusMinus q } else r
      (hist.take 12 ++ r' :: t, match r.place with
        | some p => ({ place := p, y := r.y, q, flag := r.flag, phi := r.phi, z := r.y, zbad := r.flag } :: c.store : List RowBit)
        | none => c.store)
    | [] => (hist, c.store)
  let c := { c with hist, surv, quick := (q :: c.quick).take 80, store }
  let c := match place with | some p => if cfg.width = 1 then locate wins (p - 12) c else c | none => c
  loopsBit cfg known.isSome c.inRun c

/-- One sample at place `n` of one reader through the whole chain, with the recorded bit where it is known (R193), and the slip that stands (R196).
Answers the slips and whether a flagged run begins. -/
def chainBit (cfg : ChainCfg) (wins : List Int) (n : Int) (sample : Int) (erased : Bool) (known : Option Bool) (c : ChainSt) : ChainSt × Nat × Bool :=
  let (c, k) := if c.slip < 0 then outBit cfg wins none none { c with slip := c.slip + 1 } else (c, 0)
  let (c, run) := pushSample cfg n sample erased c
  if 0 < c.slip then ({ c with slip := c.slip - 1 }, k, run)
  else let (c, m) := outBit cfg wins (some n) known c; (c, k + m, run)

/-- The row store with the bits whose quick decisions are still to come, as the best survivor decides them, oldest first. -/
def flushStore (c : ChainSt) : List RowBit :=
  let best := (bestSurvivor c.surv).bits
  c.store.reverse ++ ((c.hist.take 12).zipIdx.filterMap fun e => e.1.place.map fun p =>
    ({ place := p, y := e.1.y, q := best.getD e.2 false, flag := e.1.flag, phi := e.1.phi, z := e.1.y, zbad := e.1.flag } : RowBit)).reverse

/-! ## The frame locator (R211, R212) -/

/-- The locator: the last 24 bits of the resync pattern. -/
def locator : Nat := 0x1E7A4B

/-- Differing bits between the locator and the decisions from frame bit `p` on. -/
def locatorDiff (bit : Nat → Bool) (p : Nat) : Nat := ((List.range 24).filter fun i => bit (p + i) != locator.testBit (23 - i)).length

/-- The start of the locator in a path of decisions, within 8 bits of bit 24: the position nearest bit 24. -/
def findLocator (bit : Nat → Bool) (eitherSign : Bool) : Option Nat :=
  let ok (p : Nat) : Bool := let d := locatorDiff bit p; decide (d ≤ 2) || (eitherSign && decide (22 ≤ d))
  [24, 23, 25, 22, 26, 21, 27, 20, 28, 19, 29, 18, 30, 17, 31, 16, 32].find? ok

/-- The nearer to bit 24 of what the two paths find (R211). -/
def nearerLocator (x y : Option Nat) : Option Nat :=
  match x, y with
  | some p, some q => if ((q : Int) - 24).natAbs < ((p : Int) - 24).natAbs then some q else some p
  | some p, none => some p
  | none, y => y

/-- The locator search of a frame, when the bits it needs are decided: the gap has been received from bit 16 on, and the newest sample lies in cell 68
of the frame or shortly after it (R211). A found locator re-anchors the frame; a missed one leaves its anchor as it was (R212). The sign in which the
peak path shows the locator gives its polarity in the frame (R221). Answers whether it was missed. -/
def anchorStep (cfg : ChainCfg) (n : Int) (c : ChainSt) : ChainSt × Bool :=
  let place := fdiv n cfg.width - c.anchor
  let f := fdiv place cfg.cells
  let x := (place - f * cfg.cells).toNat
  if x < 68 ∨ 76 < x ∨ c.searched = some f ∨ (f * cfg.cells + 16 + c.anchor) * cfg.width < c.start then (c, false)
  else
    let peakBit (i : Nat) : Bool := levelAt c.level c.trans (f * cfg.cells + c.anchor + i)
    let found := nearerLocator (if cfg.width = 1 then findLocator (fun i => c.quick.getD (x - 12 - i) false) false else none) (findLocator peakBit true)
    let p := found.getD 24
    let inv := if 12 ≤ locatorDiff peakBit p then true else false
    let anchor := c.anchor + ((p : Int) - 24)
    ({ c with anchor, anchors := ({ frame := f, shift := anchor, inv } :: c.anchors).take 40, searched := some f }, found.isNone)

/-- The anchor of a frame among those of the last frames: its own, or that of the last frame before it. -/
def anchorOf (l : List Anchor) (f : Int) : Anchor := (l.find? fun a => decide (a.frame ≤ f)).getD { frame := f, shift := 0, inv := false }

end Sys2Proof.Machine
end

