-- ==== Sys2Proof/Machine/Ldpc.lean ====
section
/-!
DEFINITION. The LDPC decoder (R203, R204): layered normalised min-sum over the code of R124–R126, one iteration a sweep of its four layers.
-/
namespace Sys2Proof.Machine.Ldpc

/-- A quotient whose rounding the spec leaves open: one of its two neighbours (R203). -/
def scaled (a b : Nat) : Nat := a / b + b2n (a % b != 0 && Config.roundsUp a b)

/-- The blocks of layer `j`: column and shift (R124–R126). -/
def layer (j : Nat) : List (Nat × Nat) :=
  ((List.range 64).filterMap fun i => (c1Shift j i).map fun s => (i, s)) ++
    (if j = 0 then [(64, 1), (65, 0)] else if j = 1 then [(64, 0), (65, 0), (66, 0)] else if j = 2 then [(66, 0), (67, 0)] else [(64, 1), (67, 0)])

/-- The codeword bits of check `r` of a layer. -/
def checkBits (l : List (Nat × Nat)) (r : Nat) : List Nat := l.map fun b => 256 * b.1 + (r + b.2) % 256

/-- The hard decision on an LLR (a positive value is a 1). -/
def hard (i : Nat) (x : Int) : Bool := if 0 < x then true else if x < 0 then false else Config.tieBreak i

/-- One check's update: its variables lose its old messages and gain the new ones. Signs multiply over zeros as the hard decision of 0 does
not matter there: the magnitude is 0. -/
def checkStep (scale : Nat) (bits : List Nat) (old : List Int) (post : Array Int) : Array Int × List Int :=
  let q := (bits.zip (old ++ List.replicate bits.length 0)).map fun x => post.getD x.1 0 - x.2
  let neg := (q.filter fun x => decide (x < 0)).length
  let ones := bits.length - neg
  let msg (i : Nat) : Int :=
    let rest := (q.take i ++ q.drop (i + 1)).map Int.natAbs
    let m := rest.foldl min (rest.headD 0)
    let mine := q.getD i 0
    -- an even number of ones satisfies the check: the message speaks for 1 when the others hold an odd number of them
    let others := ones - b2n (decide (0 ≤ mine))
    let mag : Int := scaled (scale * m) 16
    if others % 2 = 1 then mag else -mag
  let new := (List.range bits.length).map msg
  let post := (bits.zip (q.zip new)).foldl (fun p x => p.setIfInBounds x.1 (x.2.1 + x.2.2)) post
  (post, new)

/-- One layer. -/
def layerStep (scale j : Nat) (old : List (List Int)) (post : Array Int) : Array Int × List (List Int) :=
  let l := layer j
  let r := (List.range 256).foldl (fun acc r =>
    let (post, new) := checkStep scale (checkBits l r) (old.getD r []) acc.1
    (post, new :: acc.2)) (post, ([] : List (List Int)))
  (r.1, r.2.reverse)

/-- Every check is satisfied by the hard decisions. -/
def satisfied (post : Array Int) : Bool :=
  (List.range 4).all fun j => (List.range 256).all fun r =>
    (((checkBits (layer j) r).filter fun i => hard i (post.getD i 0)).length) % 2 == 0

/-- The layers of one iteration from `j` on, stopping as soon as all checks are satisfied after a completed layer (R203). -/
def sweep (scale : Nat) : List Nat → Array Int → List (List (List Int)) → Array Int × List (List (List Int)) × Bool
  | [], p, m => (p, m, false)
  | j :: t, p, m =>
    let (p, new) := layerStep scale j (m.getD j []) p
    let m := (List.range 4).map fun i => if i = j then new else m.getD i []
    if satisfied p then (p, m, true) else sweep scale t p m

/-- `n` iterations at most. -/
def run (scale : Nat) : Nat → DecSt → DecSt
  | 0, d => d
  | n + 1, d =>
    if d.ok then d
    else
      let (p, m, ok) := sweep scale [0, 1, 2, 3] d.post.toArray d.msgs
      run scale n { d with post := p.toList, msgs := m, iters := d.iters + 1, ok }

/-- The decoder as it starts on the detector's LLRs. -/
def start (llr : List Int) : DecSt := { chan := llr, post := llr }

/-- A further detector pass gives new channel LLRs; the decoder continues from its messages (R204). -/
def rechannel (llr : List Int) (d : DecSt) : DecSt :=
  { d with chan := llr, post := (List.range d.post.length).map fun i => d.post.getD i 0 - d.chan.getD i 0 + llr.getD i 0 }

/-- The decided bits. -/
def bits (d : DecSt) : List Bool := (List.range 17408).map fun i => hard i (d.post.getD i 0)

end Sys2Proof.Machine.Ldpc
end

