-- ==== Sys2Proof/Machine/Detector.lean ====
section
/-!
DEFINITION. Rows out of the row store (spec/06): the search for the sync mark (R207), the combiner of two readers (R214–R218), the detector with
its pinned bits and frame tags (R200, R201), alignments placed by their frames' anchors (R208, R213), detector passes with a priori values
(R204), peak mode (R221–R223), and ratios of sums of squares in decibel (R219, R235).
-/
namespace Sys2Proof.Machine

/-! ## The row store by place -/

/-- A bit that the store does not hold: no sample gave it. -/
def noBit (place : Int) : RowBit := { place, y := 0, q := false, flag := true, phi := 0, z := 0, zbad := true }

/-- Bits in rising order of place, with the missing ones from `next` on put in. -/
def fillGaps : Int → List RowBit → List RowBit
  | _, [] => []
  | next, b :: t =>
    ((List.range (min (b.place - next).toNat 20000)).map fun (i : Nat) => noBit (next + i)) ++ b :: fillGaps (b.place + 1) t

/-- `len` bits from place `a` on, of bits that begin at their first one's place without a gap. -/
def bitsFrom (l : List RowBit) (a : Int) (len : Nat) : List RowBit :=
  let base := match l with | b :: _ => b.place | [] => a
  let before := min len (base - a).toNat
  let got := (l.drop (a - base).toNat).take (len - before)
  ((List.range before).map fun (i : Nat) => noBit (a + i)) ++ got ++ (List.range (len - before - got.length)).map fun (i : Nat) => noBit (a + before + got.length + i)

/-! ## The sync mark (R207) -/

/-- The place of the sync mark among decisions `q`, the first of them at place `pred` − 96: at most 3 bits differ, the fewest do; a tie goes to the
place nearer `pred`, an equal distance to the earlier one (R207). Bits not received differ. -/
def findMark (pred : Int) (q : List (Option Bool)) : Option Int :=
  let diff (i : Nat) : Nat := (((q.drop i).take 32).zipIdx.filter fun e => e.1 != some (syncMark.testBit (31 - e.2))).length
  let cand := (List.range 193).filterMap fun i => if (q.drop i).length < 32 then none else let d := diff i; if d ≤ 3 then some (i, d) else none
  let better (a b : Nat × Nat) : Bool :=
    decide (b.2 < a.2) || (b.2 == a.2 && decide (((b.1 : Int) - 96).natAbs < ((a.1 : Int) - 96).natAbs))
  match cand with
  | [] => none
  | x :: t => let best := t.foldl (fun a b => if better a b then b else a) x; some (pred - 96 + best.1)

/-- The decisions that the search of R207 covers, from a list of bits without gaps. -/
def searchBits (pred : Int) (l : List RowBit) (q : RowBit → Bool) : List (Option Bool) :=
  (bitsFrom l (pred - 96) 224).map fun b => if b.flag && b.y == 0 then none else some (q b)

/-! ## The combiner (R214–R218) -/

/-- An equaliser output as the skew store gives it back: 5 bits (R214). -/
def skewStored (y : Int) : Int := clampI (-16) 15 (Config.skewValue y)

/-- The leading reader's bits beside the trailing reader's, `skew` places further on (R214, R216). Both lists rise. -/
def pairLead (skew : Int) : List RowBit → List RowBit → List RowBit
  | [], _ => []
  | b :: t, lead =>
    let rest := lead.dropWhile fun x => decide (x.place < b.place + skew)
    let l : Option LeadBit := match rest with
      | x :: _ => if x.place = b.place + skew then some { v := skewStored x.y, y := x.y, flag := x.flag, phi := x.phi } else none
      | [] => none
    { b with lead := l } :: pairLead skew t rest

/-- What the combiner takes from a bit: the outputs of module 0 and module 1 with their flags, and the target response. -/
structure CombBit where
  y0   : Int
  y1   : Int
  bad0 : Bool
  bad1 : Bool
  t    : Int
  deriving DecidableEq, Repr

/-- The bits of a row for the combiner: `lead` is the leading module, `a` the current decisions, from two bits before the first (R217). -/
def combBits (cfg : ChainCfg) (lead : Nat) : List RowBit → Int → Int → List Int → List CombBit
  | b :: bs, a2, a1, a0 :: as =>
    let t := cfg.target a0 a1 a2
    let ly : Int := match b.lead with | some x => x.v | none => 0
    let lf : Bool := match b.lead with | some x => x.flag | none => true
    (if lead = 0 then { y0 := ly, y1 := b.y, bad0 := lf, bad1 := b.flag, t } else { y0 := b.y, y1 := ly, bad0 := b.flag, bad1 := lf, t })
      :: combBits cfg lead bs a1 a0 as
  | _, _, _, _ => []

/-- The combiner over a run of bits, two of their residuals back and two ahead (R217): z with its flag, bit by bit, and the combiner after it. Where one
reader is flagged z is the other's output, and the combiner is held (R218). `p1`, `p2` are the bits before. -/
def combineRun (muw muf : Nat) : Option CombBit → Option CombBit → List CombBit → CombSt → List (Int × Bool) × CombSt
  | _, _, [], c => ([], c)
  | p2, p1, b :: t, c =>
    let eps (f : CombBit → Int) : List Int :=
      [t[1]?, t[0]?, some b, p1, p2].map fun x => match x with | some x => f x | none => 0
    let e0 := eps fun x => if x.bad0 then 0 else x.y0 - x.t
    let e1 := eps fun x => if x.bad1 then 0 else x.y1 - x.t
    if b.bad0 ∨ b.bad1 then
      let r := combineRun muw muf p1 (some b) t c
      ((if b.bad0 then b.y1 else b.y0, b.bad0 && b.bad1) :: r.1, r.2)
    else
      let cancel := sumI ((List.range 5).map fun k => c.f0.getD k 0 * e1.getD k 0 + c.f1.getD k 0 * e0.getD k 0)
      let z := asr (c.w0 * b.y0 + (32768 - c.w0) * b.y1 - cancel) 15
      let e := z - b.t
      let c := { c with
        w0 := clampI 0 32768 (c.w0 - asr (e * (b.y0 - b.y1)) muw)
        f0 := (List.range 5).map fun k => clampI (-16384) 16384 (c.f0.getD k 0 + asr (e * e1.getD k 0) muf)
        f1 := (List.range 5).map fun k => clampI (-16384) 16384 (c.f1.getD k 0 + asr (e * e0.getD k 0) muf) }
      let r := combineRun muw muf p1 (some b) t c
      ((z, false) :: r.1, r.2)

/-- A run of bits combined, by decisions `a` (±1) on them (R217). -/
def combineBits (cfg : ChainCfg) (lead muw muf : Nat) (l : List RowBit) (a : List Int) (c : CombSt) : List RowBit × CombSt :=
  let r := combineRun muw muf none none (combBits cfg lead l 0 0 a) c
  ((l.zip r.1).map fun e => { e.1 with z := e.2.1, zbad := e.2.2 }, r.2)

/-! ## The detector (R200, R201) -/

/-- What the detector takes for one bit: the value, its flag, the bit it is pinned to, and its a priori LLR. -/
structure DetIn where
  y     : Int
  flag  : Bool
  pin   : Option Bool := none
  prior : Int := 0
  deriving DecidableEq, Repr

/-- What the detector is set to: target and noise predictor (R192, R200). -/
structure DetCfg where
  t0 : Int
  t1 : Int
  t2 : Int
  p1 : Int
  p2 : Int
  deriving DecidableEq, Repr

/-- The metric of a step of the 16-state trellis: from state `st` (the last four bits, newest in bit 3) on bit `a`, with the two bits before (R200). The
residual, less what the predictor makes of the two residuals before it; a flagged bit adds nothing, a pinned bit excludes the other value. -/
def branchCost (c : DetCfg) (st : Nat) (a : Bool) (x x1 x2 : DetIn) : Int :=
  let b (i : Nat) : Int := plusMinus (st.testBit (4 - i))
  let tgt (u v w : Int) : Int := c.t0 * u + c.t1 * v + c.t2 * w
  let e0 := x.y - tgt (plusMinus a) (b 1) (b 2)
  let e1 := if x1.flag then 0 else x1.y - tgt (b 1) (b 2) (b 3)
  let e2 := if x2.flag then 0 else x2.y - tgt (b 2) (b 3) (b 4)
  let d := 64 * e0 - c.p1 * e1 - c.p2 * e2
  (if x.flag then 0 else d * d) + (if a && x.prior != 0 then - Config.priorMetric x.prior else 0)
    + (match x.pin with | some p => if p = a then 0 else 2 ^ 80 | none => 0)

/-- The smaller of two metrics. -/
def minI (a b : Int) : Int := if b < a then b else a

/-- Forward metrics one bit further. -/
def forwardStep (c : DetCfg) (x x1 x2 : DetIn) (al : List Int) : List Int :=
  (List.range 16).map fun st =>
    let a := st.testBit 3
    let p0 := st % 8 * 2
    minI (al.getD p0 0 + branchCost c p0 a x x1 x2) (al.getD (p0 + 1) 0 + branchCost c (p0 + 1) a x x1 x2)

/-- The bits with the two before each of them. -/
def withPast : List DetIn → DetIn → DetIn → List (DetIn × DetIn × DetIn)
  | [], _, _ => []
  | x :: t, x1, x2 => (x, x1, x2) :: withPast t x x1

/-- The channel LLR for a difference of metrics, less the a priori value: 6 bits, positive for a 1, zero for a flagged bit (R199, R200). -/
def llrOf (x : DetIn) (delta : Int) : Int :=
  if x.flag then 0
  else
    let m : Int := min 31 (Config.llrSize delta.natAbs)
    clampI (-31) 31 ((if delta < 0 then -m else if delta = 0 then 0 else m) - x.prior)

/-- The detector: max-log-MAP over a run of bits, its LLRs in order (R200). -/
def detectBits (c : DetCfg) (l : List DetIn) : List Int :=
  let none_ : DetIn := { y := 0, flag := true }
  let steps := withPast l none_ none_
  let zero : List Int := List.replicate 16 0
  let fwd := steps.foldl (fun (a : List (List Int) × List Int) s => (a.2 :: a.1, forwardStep c s.1 s.2.1 s.2.2 a.2)) ([], zero)
  let r := (steps.reverse.zip fwd.1).foldl (fun (a : List Int × List Int) e =>
    let (x, x1, x2) := e.1
    let al := e.2
    let cost (st : Nat) (b : Bool) : Int := branchCost c st b x x1 x2 + a.1.getD ((if b then 8 else 0) + st / 2) 0
    let best (b : Bool) : Int := (List.range 16).foldl (fun m st => minI m (al.getD st 0 + cost st b)) (al.getD 0 0 + cost 0 b)
    let be := (List.range 16).map fun st => minI (cost st false) (cost st true)
    (be, llrOf x (best false - best true) :: a.2)) (zero, [])
  r.2

/-! ## A row along the tape (R91, R213) -/

/-- The pieces of a row whose sync mark begins at bit `x` of its frame: frames on, first frame bit, first row bit, length. -/
def rowPieces (cells : Nat) : Nat → Nat → Nat → Nat → List (Nat × Nat × Nat × Nat)
  | 0, _, _, _ => []
  | fuel + 1, m, x, j =>
    if rowBits ≤ j then []
    else let len := min (cells - x) (rowBits - j); (m, x, j, len) :: rowPieces cells fuel (m + 1) 64 (j + len)

/-- The recorded frame and the frame bit of a row's sync mark, as its board predicts them (R91, R153). -/
def RowCtx.frame (c : RowCtx) : Int := fdiv c.pred c.cells
def RowCtx.bit (c : RowCtx) : Nat := (c.pred - c.frame * c.cells).toNat

/-- A stretch of the row along the tape at an alignment: a gap or fill with what is known of its bits, or row bits. -/
structure Stretch where
  place : Int
  len   : Nat
  /-- The pinned bits; the others are detected. -/
  pin   : List (Option Bool)
  /-- The first row bit, for a piece of the row. -/
  row   : Option Nat
  frame : Int
  deriving DecidableEq, Repr

/-- A frame gap: 48 pinned bits, and the 16 of the tag, which are detected (R201). -/
def gapStretch (place frame : Int) (len : Nat) : Stretch :=
  { place, len, pin := (List.range len).map fun i => if i < 48 then some (resyncPattern.testBit (47 - i)) else none, row := none, frame }

/-- The stretches of a row at alignment `d` (R201, R208, R213): the piece with the sync mark lies `d` from the centre of the search, every later piece
where its own frame's anchor puts it. A gap before the mark's first bit, the gaps between, and the gap or fill after the row run along. -/
def stretches (c : RowCtx) (d : Int) : List Stretch :=
  let start := c.found.getD c.pred + d
  let f := c.frame
  let pcs := rowPieces c.cells 32 0 c.bit 0
  let base (m : Nat) : Int := (f + m) * c.cells + (anchorOf c.anchors (f + m)).shift
  let body := pcs.flatMap fun p =>
    let (m, x, j, len) := p
    let piece (place : Int) : Stretch := { place, len, pin := List.replicate len none, row := some j, frame := f + m }
    if m = 0 then [piece start] else [gapStretch (base m) (f + m) 64, piece (base m + x)]
  let before := if c.bit = 64 then [gapStretch (start - 64) f 64] else []
  let after := match pcs.getLast? with
    | some (m, x, _, len) =>
      if c.cells ≤ x + len then [gapStretch (base (m + 1)) (f + m + 1) 48]
      else if c.fill then
        let at_ := if m = 0 then start + len else base m + x + len
        let n := min 16 (c.cells - (x + len))
        [{ place := at_, len := n, pin := (List.range n).map fun i => some (fillBit (x + len + i)), row := none, frame := f + m }]
      else []
    | none => []
  before ++ body ++ after

/-- What the detector gives for one alignment of a row (R200, R201, R208): the channel LLRs of the 64 header bits and the 17,408 codeword bits as
recorded, and the frame tags that pass their CHECK. -/
structure Trial where
  d      : Int
  header : List Int
  code   : List Int
  tags   : List Nat
  deriving DecidableEq, Repr

/-- What comes out of the stretches, LLR by LLR, cut into the row's bits and the tags. -/
def cutTrial (d : Int) (l : List Stretch) (llr : List Int) : Trial :=
  let r := l.foldl (fun (a : List Int × List Nat × List Int) s =>
    let mine := a.2.2.take s.len
    let rest := a.2.2.drop s.len
    match s.row with
    | some _ => (a.1 ++ mine, a.2.1, rest)
    | none =>
      let tag := natOfMsb (((mine.drop 48).take 16).zipIdx.map fun e => Ldpc.hard e.2 e.1)
      (a.1, (if s.len = 64 ∧ frameTagOk tag then a.2.1 ++ [tag] else a.2.1), rest)) ([], [], llr)
  { d, header := (r.1.drop 32).take 64, code := r.1.drop 96, tags := r.2.1 }

/-- The bits of a row that stand at the places of a stretch. -/
def stretchBits (c : RowCtx) (l : List RowBit) (s : Stretch) : List RowBit :=
  if c.width = 1 then bitsFrom l s.place s.len
  else
    ((List.range s.len).map fun (i : Nat) =>
      let cell := bitsFrom l ((s.place + i) * c.width) c.width
      { noBit (s.place + i) with flag := cell.any (·.flag), zbad := cell.any (·.zbad) })

/-- The peak path's hard decisions on a stretch, with the polarity of its frame; ±PEAK_LLR, and 0 where flagged (R221, R223). -/
def peakLlrs (c : RowCtx) (s : Stretch) : List Int :=
  let inv := (anchorOf c.anchors s.frame).inv
  ((stretchBits c c.bits s).zipIdx).map fun e =>
    if e.1.zbad then 0 else if levelAt c.level c.trans (s.place + e.2) != inv then (c.pLlr : Int) else -(c.pLlr : Int)

/-- The trial of an alignment: by peak detection in peak mode, else by the detector on `bits` with a priori LLRs of the codeword bits as recorded (R200,
R204, R223). -/
def trialOf (c : RowCtx) (bits : List RowBit) (prior : List Int) (d : Int) : Trial :=
  let l := stretches c d
  if c.peak then cutTrial d l (l.flatMap (peakLlrs c))
  else
    let det : DetCfg := { t0 := c.t0, t1 := c.t1, t2 := c.t2, p1 := c.p1, p2 := c.p2 }
    let ins := l.flatMap fun s =>
      let pr : List Int := match s.row with
        | some j => if prior = [] then List.replicate s.len 0 else (List.replicate (96 - j) (0 : Int) ++ prior.drop (j - 96)).take s.len
        | none => List.replicate s.len 0
      (((stretchBits c bits s).zip s.pin).zip pr).map fun e => { y := e.1.1.z, flag := e.1.1.zbad, pin := e.1.2, prior := e.2 : DetIn }
    cutTrial d l (detectBits det ins)

/-! ## Decoding an alignment (R202–R204) -/

/-- The track of a row. -/
def RowCtx.track (c : RowCtx) : Nat := 64 * c.band + c.k

/-- The row's scrambling sequence, header and codeword (R121, R122). -/
def RowCtx.scr (c : RowCtx) : List Bool := scrambleSeq (rowSeed (b2n c.hk) c.track c.slot) (64 + 17408)

/-- A row's header as its alignment's hard decisions give it, descrambled (R202). -/
def trialHeader (c : RowCtx) (x : Trial) : Nat :=
  let sc := c.scr
  natOfMsb ((List.range 64).map fun i => Ldpc.hard i (x.header.getD i 0) != sc.getD i false)

/-- LLRs of codeword bits with the scrambling taken off, or put on. -/
def flipCode (c : RowCtx) (l : List Int) : List Int := (l.zip (c.scr.drop 64)).map fun e => if e.2 then -e.1 else e.1

/-- The codeword's channel LLRs, descrambled. -/
def trialLlr (c : RowCtx) (x : Trial) : List Int := flipCode c x.code

/-- The decisions on the row's bits that the decoder's a posteriori LLRs give, as recorded: sync mark, header of the trial, codeword (R217). -/
def decidedRow (c : RowCtx) (x : Trial) (d : DecSt) : List Bool :=
  msbBits 32 syncMark ++ (x.header.zipIdx.map fun e => Ldpc.hard e.2 e.1) ++ ((Ldpc.bits d).zip (c.scr.drop 64)).map fun e => e.1 != e.2

/-- Reference bits of a row's part of the store: `row` where the alignment places the row's bits, the quick decisions elsewhere (R193, R217). -/
def rowRefs (c : RowCtx) (d : Int) (row : List Bool) : List Int :=
  (stretches c d).foldl (fun (refs : List Int) s =>
    match s.row with
    | none => refs
    | some j =>
      let base := match c.bits with | b :: _ => b.place | [] => s.place
      let skip := (base - s.place).toNat
      let i := (s.place - base).toNat
      let mine := (((row.drop j).take s.len).drop skip).map plusMinus
      let mine := mine.take (refs.length - i)
      refs.take i ++ mine ++ refs.drop (i + mine.length)) (c.bits.map fun b => plusMinus b.q)

/-- The row's bits for a detector pass: the store's own, or, for a row of two readers on a later pass, combined afresh by the decoder's decisions
(R204, R217). -/
def passBits (c : RowCtx) (x : Trial) (d : DecSt) : List RowBit :=
  if c.dual && !c.single then
    let cfg : ChainCfg := { kp := 0, ki := 0, g := 0, o := 0, a := 0, mu := 0, freeze := true, t0 := c.t0, t1 := c.t1, t2 := c.t2
                            drop := 0, ta := 0, guard := 0, thr := 0, peak := false, width := 1, cells := c.cells }
    (combineBits cfg (1 - c.module) c.muw c.muf c.bits (rowRefs c x.d (decidedRow c x d)) c.comb).1
  else c.bits

/-- A detector pass with the decoder's extrinsic values as a priori values, and the decoder continued from its messages (R204). -/
def nextPass (c : RowCtx) (x : Trial) (d : DecSt) : DecSt :=
  let prior := flipCode c ((d.post.zip d.chan).map fun e => e.1 - e.2)
  Ldpc.rechannel (trialLlr c (trialOf c (passBits c x d) prior x.d)) d

/-- GLOBAL_EVERY iterations of an alignment's decoder, with a detector pass after them if it has not converged and its budget is not spent; not in peak
mode (R204, R223). -/
def decodeRound (c : RowCtx) (x : Trial) (d : DecSt) : DecSt :=
  let d := Ldpc.run c.scale (min c.every (c.budget - d.iters)) d
  if d.ok || decide (c.budget ≤ d.iters) || c.peak then d else nextPass c x d

/-- An alignment's decoder as far as it has come. -/
def decoderOf (c : RowCtx) (x : Trial) : DecSt :=
  match c.decs.find? fun e => (e.1 : Int) == x.d + 4 with
  | some e => e.2
  | none => Ldpc.start (trialLlr c x)

/-- The decoder of one alignment after all the iterations the budget leaves it. -/
def finish (c : RowCtx) (x : Trial) : DecSt :=
  (List.range 40).foldl (fun d _ => if d.ok || decide (c.budget ≤ d.iters) then d else decodeRound c x d) (decoderOf c x)

/-! ## Ratios in decibel (R219, R235) -/

/-- The largest `n` below `2 ^ bits` with 10^n·b^k ≤ a^k, by bisection from `lo`. -/
def logSearch (a b k : Nat) : Nat → Nat → Nat
  | 0, lo => lo
  | bits + 1, lo =>
    let mid := lo + 2 ^ bits
    if 10 ^ mid * b ^ k ≤ a ^ k then logSearch a b k bits mid else logSearch a b k bits lo

/-- k·log10(a/b) for a ratio of at least 1, one of its two neighbours where it is no whole number; 0 below that. Free where b is zero. -/
def logRatio (k a b : Nat) : Nat :=
  if b = 0 then Config.ratioFree a
  else if a < b then 0
  else
    let n := logSearch a b k 14 0
    n + b2n (10 ^ n * b ^ k != a ^ k && Config.roundsUp a b)

/-- The same as a signed value: a ratio below 1 counts negative (R235). -/
def logRatioI (k a b : Nat) : Int := if a < b then -(logRatio k b a : Int) else logRatio k a b

end Sys2Proof.Machine
end

