-- ==== Sys2Proof/Machine/ReadChannel.lean ====
section
/-!
DEFINITION. The read channel's commands (spec/06, spec/08): uplink bursts and the chains they feed (R66, R67, R187–R199), status reports (R73,
R225), windows (R153, R187), the alignment search and decoding of rows (R203–R210), the verdict on a verified row (R253–R257), and the track
window (R227).
-/
namespace Sys2Proof.Machine

def setRch (r : ReadSt) (s : State) : State := { s with rch := r }

/-- The chain of a track's reader of module `m`; the track counts 0–511. -/
def chainSt (s : State) (t m : Nat) : ChainSt := Tbl.get {} s.rch.chains (2 * t + m)
def setChain (t m : Nat) (c : ChainSt) (s : State) : State := setRch { s.rch with chains := Tbl.set s.rch.chains (2 * t + m) c } s

/-- The combiner of a track. -/
def combSt (s : State) (t : Nat) : CombSt := Tbl.get {} s.rch.comb t
def setComb (t : Nat) (c : CombSt) (s : State) : State := setRch { s.rch with comb := Tbl.set s.rch.comb t c } s

/-! ## Windows (R153, R187, R188) -/

/-- The windows open on track `k` of a band. -/
def windowsOn (s : State) (b k : Nat) : List Window := (band s b).windows.filter fun w => w.tracks.contains k

/-- Windows open in a band, counted by track (RCH_STATUS.WINDOWS). -/
def windowCount (s : State) (b : Nat) : Nat := sumN ((band s b).windows.map fun w => w.tracks.length)

/-- Dual-reader detection runs (RCH_STATUS.MRD_ACTIVE, R229). -/
def mrdActive (s : State) (b : Nat) : Bool := (band s b).windows.any (·.dual)

/-- The separation of the modules in bits exceeds the skew store in some zone (R214, R215). -/
def skewOver (s : State) (b : Nat) : Bool := 152000 < getF s (Reg.MRD_SEP b) * 6000 / 4096

/-- Module 1 trails on forward passes, module 0 on reverse passes (R187). -/
def trailing (pass : Nat) : Nat := if passReverse pass then 0 else 1

/-- The trailing module now. -/
def trailNow (s : State) : Nat := trailing (getF s Reg.POS_PASS)

/-- The module that a pass of the ladder's salvage rung reads alone: module 0 first, then module 1 (R270). -/
def soloModule (s : State) : Option Nat :=
  if getB s Reg.RCV_STATUS_ACTIVE ∧ getF s Reg.RCV_STATUS_LEVEL = 5 then some (min 1 (rungPass s)) else none

/-- The module whose readers every window reads. -/
def ownModule (s : State) : Nat := (soloModule s).getD (trailNow s)

/-- The leading reader's bits go to the skew store: a read board runs in the band with both modules, or with the leading one alone (R188, R214, R270).
The leading module meets a row before its window opens (log entry: leading reader). -/
def leadRuns (s : State) (b : Nat) : Bool :=
  let x := band s b
  mrdActive s b || (x.running && brdRead s b x.cur &&
    match soloModule s with | some m => m != trailNow s | none => getB s (Reg.RCH_CTRL_MRD_EN b) && !skewOver s b)

/-- A module's reader of a track is needed (R187, R188). -/
def readerNeeded (s : State) (b k m : Nat) : Bool :=
  if m = trailNow s then ownModule s == m && !(windowsOn s b k).isEmpty else leadRuns s b

/-- A reader of a track has a window open (R227). -/
def readerBusy (s : State) (b k m : Nat) : Bool :=
  let w := windowsOn s b k
  if m = ownModule s then !w.isEmpty else w.any (·.dual)

/-! ## Uplink bursts (R66, R67, R189–R199, R211, R212) -/

/-- The place in the recorded stream, in samples, that a module's reader meets at a frame and bit (R153, R214): the trailing module runs VFY_DIST behind
the writer, the leading one D nearer to it. -/
def placeAt (s : State) (b m frame bit : Nat) : Int :=
  let n := frameSamples s b
  let f : Int := if getB s Reg.POS_STATUS_REVERSE then -(frame : Int) else frame
  f * n + bit - (getF s (Reg.VFY_DIST b) * n / 4096 : Nat) + (if m = trailNow s then 0 else getF s (Reg.MRD_SEP b) * n / 4096 : Nat)

/-- The recorded frame and bit of a place. -/
def recordedAt (s : State) (b : Nat) (place : Int) : Int × Nat :=
  let n := frameSamples s b
  let f := fdiv place n
  ((if getB s Reg.POS_STATUS_REVERSE then -f else f), (place - f * n).toNat)

/-- Band fill that lies in a data set being read: after its last slot, and in the frame after its last main frame (R88, R91, R94). -/
def readFill (s : State) (b : Nat) (frame : Int) (x : Nat) : Bool :=
  s.rch.sets.any fun d =>
    let r := if passReverse d.pass then (d.origin : Int) - frame else frame - d.origin
    d.pass == getF s Reg.POS_PASS && decide (0 ≤ r ∧ r < 50 + d.k) &&
      (decide (r = 49 + d.k) || decide (rowBits * (bandRows b + extSlots b d.k) ≤ r.toNat * (bandBits b - 64) + (x - 64)))

/-- The recorded bit, where the formatter knows it (R193): the resync pattern of a gap; the band fill; in a verify window every bit of the row once its
mark is located. `located` are the windows located so far, `wins` those open. -/
def knownBit (s : State) (b k : Nat) (wins : List Window) (located : List Int) (place : Int) : Option Bool :=
  let (f, x) := recordedAt s b place
  if x < 48 then some (resyncPattern.testBit (47 - x))
  else if x < 64 then none
  else if wins.any (!·.read) then
    match (band s b).emissions.find? fun e => (e.frame : Int) == f && e.first ≤ x && x < e.first + e.len with
    | some e =>
      let mine := (e.op == 1 || e.op == 2 || e.op == 3) && wins.any fun w => !w.read && w.slot == e.slot && w.dsn == e.dsn && located.contains w.pred
      if e.op = 5 ∨ mine then some (emissionBit s b k x e) else none
    | none => none
  else if readFill s b f x then some (fillBit x) else none

/-- Sixteen samples of one reader, the first at place `n`, pass its chain. A break in the samples starts the frame's index afresh. -/
def feedChain (s : State) (b k : Nat) (n : Int) (erased : Bool) (samples : List Int) (c : ChainSt) : ChainSt × Nat × Nat × Nat :=
  let cfg := chainCfg s b
  let wins := windowsOn s b k
  let preds := wins.map (·.pred)
  let c := if c.next = n then c else { c with start := n, anchor := 0, searched := none }
  let r := (List.range 16).foldl (fun (acc : ChainSt × Nat × Nat × Nat) (i : Nat) =>
    let (c, slips, runs, misses) := acc
    let p := n + i
    let known := if cfg.width = 1 then knownBit s b k wins c.located (p - c.anchor) else none
    let (c, sl, run) := chainBit cfg preds p (samples.getD i 0) erased known c
    let (c, miss) := anchorStep cfg p c
    (c, slips + sl, runs + b2n run, misses + b2n miss)) (c, 0, 0, 0)
  ({ r.1 with next := n + 16 }, r.2)

/-- The samples of reader `k` in a burst (R66). -/
def readerSamples (blocks : List (BitVec 64)) (k : Nat) : List Int :=
  (List.range 16).map fun i => toS 8 (slice ((blocks.getD (1 + 2 * k + i / 8) 0).toNat) (8 * (i % 8)) 8)

/-- The bits that the skew store holds for each track (R214). -/
def skewBits : Nat := 152000

/-- One reader of a burst: its samples go to its chain while a window needs them (R187–R189), and its counts are kept. The leading reader keeps no more
than the skew store holds. -/
def feedReader (hfe module frame bit : Nat) (erased : Bool) (blocks : List (BitVec 64)) (r : Nat) (s : State) : State :=
  let b := hfe / 4
  let k := 16 * (hfe % 4) + r
  if !getB s (Reg.RCH_CTRL_EN b) ∨ !readerNeeded s b k module then s
  else
    let j := 16 * module + r
    let erased := erased || getB s (Reg.RSTAT_INHIBIT hfe j) || !getB s (Reg.RCFG_EN hfe j)
    let n := placeAt s b module frame bit
    let (c, slips, runs, misses) := feedChain s b k n erased (readerSamples blocks r) (chainSt s (64 * b + k) module)
    let c := if module = trailNow s then c else { c with store := c.store.takeWhile fun x => decide (n - skewBits ≤ x.place) }
    let s := setChain (64 * b + k) module c s
    addF (Reg.TSLIP_CNT b) slips (addF (Reg.DEFECT_CNT b) runs (addF (Reg.RESYNC_MISS_CNT b) misses s))

/-- A burst's CRC over header, data blocks and the trailer's low word (R60). -/
def uplinkCrcOk (blocks : List (BitVec 64)) : Bool :=
  let tr := (blocks.getD 33 0).toNat
  crc32 (((blocks.take 33).flatMap fun b => leBytes 8 b.toNat) ++ leBytes 4 (tr % 2 ^ 32)) == tr / 2 ^ 32

/-- The frame number whose low 16 bits are given and which lies nearest to POS's count (R66). -/
def nearFrame (count low : Nat) : Nat :=
  let d := (low + 65536 - count % 65536) % 65536
  if d < 32768 then count + d else count + d - 65536

/-- The blocks are a sample burst of a module of an HFE: header type 0xA5, HFE and MODULE, trailer type 0x5A (R59, R66). -/
def uplinkOwn (hfe module : Nat) (blocks : List (BitVec 64)) : Bool :=
  (blocks.getD 0 0).toNat % 2 ^ 14 == 0xA5 + hfe * 2 ^ 8 + module * 2 ^ 13 && (blocks.getD 33 0).toNat % 2 ^ 8 == 0x5A

/-- An uplink burst arrives (R66, R67): checked, its trailer's reports counted (R74, R79), its samples fed to the chains. The first burst after RUN
may carry any SEQ; a burst whose CRC fails is taken for the one that was due, and the next SEQ expected is one further on (log entry: burst
numbering). -/
def uplinkBurst (hfe module : Nat) (blocks : List (BitVec 64)) (lockLost : Bool) (s : State) : State :=
  let ok := blocks.length == 34 && uplinkCrcOk blocks
  if 32 ≤ hfe ∨ 2 ≤ module ∨ getF s (linkState (3 * hfe + 1 + module)) ≠ 4 ∨ (ok ∧ !uplinkOwn hfe module blocks) then s
  else
    let hd := (blocks.getD 0 0).toNat
    let tr := (blocks.getD 33 0).toNat
    let h := hfeSt s hfe
    let last := if module = 0 then h.last0 else h.last1
    let inSeq := match last with | some l => slice hd 48 8 == (l.seq + 1) % 256 | none => true
    let now : UpPlace := match ok, last with
      | false, some l => { l with seq := (l.seq + 1) % 256 }
      | _, _ => { seq := slice hd 48 8, frame := nearFrame s.pos.frame (slice hd 32 16), bit := slice hd 16 13 }
    let next := burstPlace (getB s Reg.POS_STATUS_REVERSE) (frameSamples s (hfe / 4)) now.frame now.bit 16
    let keep := if ok ∨ last.isSome then some { now with frame := next.1, bit := next.2 } else none
    let s := setHfe hfe (if module = 0 then { h with last0 := keep } else { h with last1 := keep }) s
    let s := if ok then s else incF (if module = 0 then Reg.CL_UL_CRC_UL0 hfe else Reg.CL_UL_CRC_UL1 hfe) s
    let s := if ok ∧ tr.testBit 8 then raiseC (hfePage hfe) 1 0x03 noAcct 0 (incF (Reg.CL_DL_DROP_DLCRC hfe) s) else s
    let s := if ok ∧ tr.testBit 10 then raiseC (hfePage hfe) 0 0x04 noAcct 0 (incF (Reg.CL_DL_DROP_LATE hfe) s) else s
    let erased := !ok || !inSeq || lockLost
    forEach (List.range 16) (feedReader hfe module now.frame now.bit erased blocks) s

/-- A reader's loop state starts from its seeds, or the reset values (R197, R227). -/
def seedChain (c : ChainSt) : ChainSt :=
  let sd (i : Nat) (d : Int) : Int := Tbl.get d c.seeds i
  { c with taps := (List.range 16).map fun k => if k = 7 then 64 else sd k 0
           gain := sd 16 4096, off := sd 17 0, beta := sd 18 0, omega := 0, phi := 0, clamped := 0, fresh := false }

/-- A track's combiner starts from the seeds written for items 21 to 32 (R227). -/
def seedComb (c : CombSt) : CombSt :=
  let sd (i : Nat) (d : Int) : Int := Tbl.get d c.seeds i
  { c with w0 := sd 21 c.w0, f0 := (List.range 5).map (fun k => sd (22 + k) (c.f0.getD k 0)), f1 := (List.range 5).map (fun k => sd (27 + k) (c.f1.getD k 0))
           skew := sd 32 c.skew, fresh := false }

/-- A loop state that has stood at its clamp for 4,096 updates is reloaded (R197). -/
def loopReset (b k m : Nat) (s : State) : State :=
  let c := chainSt s (64 * b + k) m
  if b < 8 ∧ k < 64 ∧ m < 2 ∧ 4096 ≤ c.clamped then
    raiseB (rchPage b) 1 0 0x05 noAcct (k + 64 * m) (incF (Reg.LOOP_RESET_CNT b) (setChain (64 * b + k) m (seedChain c) s))
  else s

/-! ## VERIFY_OPEN and VERIFY_CLOSE (R153, R187, R188, R215) -/

/-- A window opens on a reader: OMEGA starts at zero (R191), and a reader without a window starts from its seeds, with an empty row store. -/
def openReader (b k m : Nat) (s : State) : State :=
  let c := chainSt s (64 * b + k) m
  let busy := readerBusy s b k m
  let c := if c.fresh ∧ !busy then seedChain c else c
  let c := if busy ∨ m ≠ trailNow s then c else { c with store := [], located := [] }
  setChain (64 * b + k) m { c with omega := 0 } s

/-- A window opens on a track. -/
def openTrack (b k : Nat) (dual : Bool) (s : State) : State :=
  let z := combSt s (64 * b + k)
  let s := if dual ∧ z.fresh ∧ (windowsOn s b k).isEmpty then setComb (64 * b + k) (seedComb z) s else s
  let s := openReader b k (ownModule s) s
  if dual then openReader b k (1 - ownModule s) s else s

/-- VERIFY_OPEN: the window opens on the masked tracks that hold fewer than two; on one that holds two it does not (log entry: third window). A read
window reads both modules while MRD_EN is set, unless the skew store is too small for their separation, which leaves the trailing module alone to
every window (R188, R215). PRED_BIT lies in the frame of the square or in the next (R153). -/
def verifyOpen (b : Nat) (s : State) : State :=
  match squareNow s b 0x06 with
  | none => s
  | some q =>
    let st := band s b
    let tick := effOffset (st.buf st.cur) st.loops st.index % 4096
    let frame := squareFrame s b
    let n := frameCells s b
    let cell (bit : Nat) : Int := (if getB s Reg.POS_STATUS_REVERSE then -(frame : Int) else frame) * n + bit - (getF s (Reg.VFY_DIST b) * n / 4096 : Nat)
    let now := tick * n / 4096
    let p := q.arg2 % 2 ^ 13
    let pred := cell p + (if p < now then (n : Int) else 0)
    let read := q.arg0.testBit 15
    let want := read && getB s (Reg.RCH_CTRL_MRD_EN b) && (soloModule s).isNone
    let tooFar := want && skewOver s b
    let dual := want && !tooFar
    let tracks := (maskTracks s b q.mask).filter fun k => (windowsOn s b k).length < 2
    let s := nextSquare b s
    let s := forEach tracks (fun k s => openTrack b k dual s) s
    let st := band s b
    let old := if tooFar then st.windows.map fun w => { w with dual := false } else st.windows
    let w : Window := { slot := q.slot, dsn := q.arg1, read, pred, opened := cell now, tracks, dual }
    let s := setBand b { st with windows := if tracks.isEmpty then old else w :: old } s
    if tooFar then raiseB (rchPage b) 2 2 0x07 noAcct 0 (setF (Reg.RCH_STATUS_SKEW_OVF b) 1 s)
    else if dual then setF (Reg.RCH_STATUS_SKEW_OVF b) 0 s
    else s

/-- Row contexts in use (R206). -/
def poolUsed (s : State) : Nat := (s.rch.ctx.filter (·.inPool)).length

/-- A band's sums of square errors over its last rows take one row more, and GAIN follows (R219). -/
def gainRow (b : Nat) (x : Nat × Nat) (s : State) : State :=
  let g := Tbl.get {} s.rch.gains b
  let rows := (x :: g.rows).take 64
  let v := logRatio 100 (sumN (rows.map Prod.fst)) (sumN (rows.map Prod.snd))
  let s := setF (Reg.MRD_STATUS_GAIN b) v s
  setRch { s.rch with gains := Tbl.set s.rch.gains b { rows, low := if v < 5 then g.low + 1 else 0 } } s

/-- The items of the track window as they read (R227). -/
def trackItem (s : State) (b k m item : Nat) : Nat :=
  let c := chainSt s (64 * b + k) m
  let z := combSt s (64 * b + k)
  let v : Int :=
    if item < 16 then c.taps.getD item 0 else if item = 16 then c.gain else if item = 17 then c.off else if item = 18 then c.beta
    else if item = 19 then c.omega else if item = 20 then c.phi else if item = 21 then z.w0 else if item ≤ 26 then z.f0.getD (item - 22) 0
    else if item ≤ 31 then z.f1.getD (item - 27) 0 else if item = 32 then z.skew else 0
  ofS 32 v

/-- A row that enters the pool takes its budget, GLOBAL_EVERY and SCALE from LDPC_CTRL as it stands (R205, R228). -/
def enterPool (s : State) (c : RowCtx) : RowCtx :=
  { c with
    budget := (if c.ladder then clampN 1 40 (getF s Reg.LDPC_CTRL_ITER_RECOV) else clampN 1 12 (getF s Reg.LDPC_CTRL_ITER_STREAM))
    every := max 1 (getF s Reg.LDPC_CTRL_GLOBAL_EVERY), scale := getF s Reg.LDPC_CTRL_SCALE, inPool := true }

/-- A reader gives no usable samples: inhibited, disabled, or its uplink is not in RUN (R67, R189, R229). -/
def readerOut (s : State) (t m : Nat) : Bool :=
  let hfe := t / 16
  let j := 16 * m + t % 16
  getB s (Reg.RSTAT_INHIBIT hfe j) || !getB s (Reg.RCFG_EN hfe j) || getF s (linkState (3 * hfe + 1 + m)) != 4

/-- What the two readers' marks give for the fine skew (R216): the correction, if both are found. -/
def markShift (pred skew : Int) (own lead : List RowBit) : Option Int :=
  match findMark pred (searchBits pred own (·.q)), findMark pred (searchBits pred (lead.map fun b => { b with place := b.place - skew }) (·.q)) with
  | some a, some b => some (b - a)
  | _, _ => none

/-- The part of a track's row store that two readers give is combined as far as it has come, from where the combiner stands (R214–R217): the whole store
of the trailing reader, with z. -/
def combineStore (s : State) (b : Nat) (own lead : List RowBit) (z : CombSt) : List RowBit × CombSt :=
  let old (x : RowBit) : Bool := match z.done with | some d => decide (x.place ≤ d) | none => false
  let kept := own.filter old
  let fresh := pairLead z.skew (own.filter fun x => !old x) lead
  let r := combineBits (chainCfg s b) (1 - trailNow s) (getF s (Reg.EQ_ACT_MUW_SH b)) (getF s (Reg.EQ_ACT_MUF_SH b)) fresh
    (fresh.map fun x => plusMinus x.q) z
  (kept ++ r.1, { r.2 with done := (match fresh.getLast? with | some x => some x.place | none => z.done) })

/-- What stands in the trailing reader's store after a window has closed: what the windows still open need. -/
def keepStore (s : State) (b k : Nat) (l : List RowBit) : List RowBit :=
  let w := cellWidth s b
  match windowsOn s b k with
  | [] => []
  | x :: t => let first := t.foldl (fun a y => if y.opened < a then y.opened else a) x.opened; l.filter fun x => decide (first * w ≤ x.place)

/-- The windows that have closed leave the row store and the located marks. -/
def trimTrack (b k : Nat) (s : State) : State :=
  let m := ownModule s
  let c := chainSt s (64 * b + k) m
  let preds := (windowsOn s b k).map (·.pred)
  setChain (64 * b + k) m { c with store := if m = trailNow s then keepStore s b k c.store else c.store, located := c.located.filter (preds.contains ·) } s

/-- Band fill follows the row of a slot: the band has no further slot in the data set (R88, R94). -/
def lastSlot (s : State) (b : Nat) (w : Window) : Bool :=
  let k := match dataSet s w.dsn with
    | some d => some d.k
    | none => (s.rch.sets.find? fun d => d.dsn == w.dsn).map (·.k)
  match k with | some k => w.slot + 1 == bandRows b + extSlots b k | none => false

/-- A row of a closed window waits for its decoding (R190, R206): its bits are taken from the row store; of two readers the fine skew is corrected and
the streams are combined (R216, R217); its search is made and counted (R207, R210). -/
def queueRow (b k : Nat) (w : Window) (s : State) : State :=
  let t := 64 * b + k
  let m := ownModule s
  let own := chainSt s t m
  let lead := chainSt s t (1 - m)
  let z := combSt s t
  let width := cellWidth s b
  let all := flushStore own
  let sk := if w.dual then markShift w.pred z.skew all (flushStore lead) else none
  let wide := match sk with | some v => decide (8 < v.natAbs) | none => false
  let z := match sk with | some v => if wide then z else { z with skew := clampI (-8) 8 (z.skew + v) } | none => z
  let (all', z') := if w.dual && !wide then combineStore s b all (flushStore lead) z else (all, z)
  let s := if w.dual then setComb t z' (setChain t m { own with store := (all'.take own.store.length).reverse } s) else s
  let mine := match all'.filter fun x => decide (w.opened * width ≤ x.place) with | [] => [] | x :: l => fillGaps x.place (x :: l)
  let cfg := chainCfg s b
  let peakBit (j : Int) : Bool := levelAt own.level own.trans j != (anchorOf own.anchors (fdiv j cfg.cells)).inv
  let qs : List (Option Bool) :=
    if width ≠ 1 then (List.range 224).map fun (i : Nat) => some (peakBit (w.pred - 96 + i))
    else if w.dual && !wide then
      let span := bitsFrom mine (w.pred - 96) 240
      (((span.map (·.z)) |> quickList cfg).zip span).map (fun e => if e.2.zbad && e.2.z == 0 then none else some e.1) |>.take 224
    else searchBits w.pred mine (·.q)
  let found := if getB s (Reg.RCH_CTRL_EN b) then findMark w.pred qs else none
  let s := match found with | some _ => incF (Reg.SYNC_FOUND_CNT b) s | none => incF (Reg.SYNC_MISS_CNT b) s
  let single := w.read && (!w.dual || wide || readerOut s t 0 || readerOut s t 1)
  let s := if single then incF (Reg.MRD_STATUS_SINGLE b) s else s
  let ctx : RowCtx :=
    { band := b, k, slot := w.slot, dsn := w.dsn, read := w.read, pred := w.pred, found, cells := cfg.cells, width
      hk := inHk (recordedAt s b (w.pred * width)).1.toNat, fill := lastSlot s b w
      ladder := w.read && getB s Reg.RCV_STATUS_ACTIVE, peak := peakMode s b, single, module := m, dual := w.dual && !wide
      bits := mine, anchors := own.anchors, level := own.level, trans := own.trans
      t0 := cfg.t0, t1 := cfg.t1, t2 := cfg.t2, p1 := getS s (Reg.NPRED_P1 b), p2 := getS s (Reg.NPRED_P2 b), pLlr := getF s (Reg.PEAK_PEAK_LLR b)
      comb := z, muw := getF s (Reg.EQ_ACT_MUW_SH b), muf := getF s (Reg.EQ_ACT_MUF_SH b)
      items := (if w.dual then [m, 1 - m] else [m]).map fun j => (j, (List.range 33).map fun i => toS 32 (trackItem s b k j i))
      budget := 1, every := 1, scale := 0, inPool := false, closed := s.pos.frame }
  setRch { s.rch with ctx := s.rch.ctx ++ [if poolUsed s < 512 then enterPool s ctx else ctx] } s

/-- A window closes on a track: its row enters the pool, or, never fully recorded, fails verify at once (R153, R254). On the ladder a row that is already
GOOD is not decoded again (R271). -/
def closeTrack (b k : Nat) (w : Window) (s : State) : State :=
  let st := band s b
  let rest := (st.windows.map fun x => if x = w then { x with tracks := x.tracks.filter (· != k) } else x).filter fun x => !x.tracks.isEmpty
  let torn := st.cut.contains (rowKey w.dsn w.slot 0) || st.filled.contains (rowKey w.dsn w.slot k) || st.left.contains (rowKey w.dsn w.slot k)
  let done (s : State) : State := trimTrack b k (setBand b { band s b with windows := rest } s)
  let held := w.read && getB s Reg.RCV_STATUS_ACTIVE && decide (w.slot < bandRows b) &&
    s.rch.sets.any fun d => d.dsn == w.dsn && d.rows.any fun e => e.1 == rowOfSlot (64 * b + k) w.slot
  if held ∨ (!w.read ∧ (rowAt s w.dsn (64 * b + k) w.slot).isNone) then done s
  else if !w.read ∧ torn then verifyFail w.dsn (64 * b + k) w.slot 0x7 (done s)
  else done (queueRow b k w s)

/-- The window that a VERIFY_CLOSE square names closes on one of its tracks (R153). -/
def closeNamed (b : Nat) (q : Square) (k : Nat) (s : State) : State :=
  match (windowsOn s b k).find? fun w => w.slot == q.slot && w.dsn == q.arg1 && w.read == q.arg0.testBit 15 with
  | some w => closeTrack b k w s
  | none => s

/-- VERIFY_CLOSE: the window of the slot and data set closes on the masked tracks (R153). -/
def verifyClose (b : Nat) (s : State) : State :=
  match squareNow s b 0x07 with
  | none => s
  | some q =>
    let s := nextSquare b s
    settleCheck (forEach (maskTracks s b q.mask) (closeNamed b q) s)

/-! ## Decoding a row (R202–R210) -/

/-- The bytes that decided codeword bits make. -/
def decidedBytes (d : DecSt) : List Byte :=
  let b := Ldpc.bits d
  (List.range 2048).map fun i => BitVec.ofNat 8 (natOfMsb ((b.drop (8 * i)).take 8))

/-- What the alignment search ends with: the alignment taken, its decoder, whether two passed, and the iterations spent. -/
structure Search where
  taken : Option (Trial × DecSt) := none
  ambig : Bool := false
  iters : Nat := 0
  deriving DecidableEq, Repr

/-- The alignments of a round (R208). -/
def roundOf (r : Nat) : List Int := if r = 0 then [0] else [-(r : Int), r]

/-- The rounds of the search from |d| = `r` on (R208, R209); `pos` is the centre's distance from PRED_BIT. An alignment whose header CRC fails is
dropped without decoding. -/
def searchRounds (c : RowCtx) (pos : Int) : Nat → Nat → Nat → Search
  | 0, _, it => { iters := it }
  | fuel + 1, r, it =>
    let two := (((roundOf r).map (trialOf c c.bits [])).filter fun x => headerCrcOk (trialHeader c x)).map fun x => (x, finish c x)
    let it := it + sumN (two.map fun x => x.2.iters)
    match two.filter fun x => x.2.ok with
    | [] => searchRounds c pos fuel (r + 1) it
    | [x] => { taken := some x, iters := it }
    | x :: y :: _ =>
      let dx := (pos + x.1.d).natAbs
      let dy := (pos + y.1.d).natAbs
      { taken := some (if dx < dy then x else if dy < dx then y else if x.1.d < y.1.d then x else y), ambig := true, iters := it }

/-- Raw errors of a taken alignment: first-pass signs against the written bits, LLRs of zero apart (R253). -/
def rawErrors (c : RowCtx) (x : Trial) (header : Nat) (data : List Byte) : Nat :=
  let written := (rowOnTape (rowSeed (b2n c.hk) c.track c.slot) header (codewordBits (c1Codeword data))).drop 32
  (((x.header ++ x.code).zip written).filter fun e => (decide (0 < e.1) && !e.2) || (decide (e.1 < 0) && e.2)).length

/-- The reason for which a verified row fails, none if it passes (R253). -/
def verdict (s : State) (c : RowCtx) (r : RwRow) (sr : Search) : Option Nat :=
  match sr.taken, dataSet s r.m, dataSet s c.dsn with
  | some (x, d), some m, some n =>
    let data := rowData m.payload r.g
    let kind := if r.m = c.dsn then 0 else 1
    let header := rowHeader r.m (sdsOf r.g) (rowOf r.g) kind r.rewr n.pass
    let got := trialHeader c x
    if !headerValid got ∨ got ≠ header then some 0x2
    else if clampN 1 12 (getF s Reg.VFY_CTRL_ITER_MAX) < d.iters then some 0x3
    else if getF s Reg.VFY_CTRL_RAW_MAX < rawErrors c x header data then some 0x4
    else if decidedBytes d ≠ data then some 0x5
    else none
  | _, _, _ => some 0x1

/-- A row passes verify (R257): counted once, whichever copy it is. -/
def verifyPass (n : Nat) (r : RwRow) (s : State) : State :=
  let s := incF Reg.VFY_ROWS_CNT s
  let s := setFmt { s.fmt with rewrite := s.fmt.rewrite.filter fun x => !(x.m == r.m && x.g == r.g) } s
  let s := onSet r.m (fun d => if d.passed.contains r.g ∨ d.abandoned.contains r.g then d else { d with passed := r.g :: d.passed }) s
  onSet n (fun d => if n = r.m then { d with seen := r.g :: d.seen } else { d with extSeen := d.extSeen + 1 }) s

/-- A miscompare (R256): the second of a data set is VFY_CORRUPT and safe state S3. -/
def miscompare (m : Nat) (s : State) : State :=
  let s := raiseC 0x4A 2 0x07 noAcct m (incF Reg.VFY_MISCMP_CNT (onSet m (fun d => { d with miscomp := d.miscomp + 1 }) s))
  match dataSet s m with
  | some d => if 2 ≤ d.miscomp then let c := faultCode 4 0x7 0x08; enterS3 c (raise 0x4A 7 c noAcct m s) else s
  | none => s

/-- The read set of a data set. -/
def readSet (s : State) (n : Nat) : Option ReadSet := s.rch.sets.find? fun d => d.dsn == n
def onReadSet (n : Nat) (f : ReadSet → ReadSet) (s : State) : State :=
  setRch { s.rch with sets := s.rch.sets.map fun d => if d.dsn = n then f d else d } s

/-- A converged row of a read window goes to the data set its header names, if the header is consistent with the slot or with another row of
the same data set, or names a rewrite within the window of R96; the first GOOD copy stays (R135, R136). -/
def deliverRow (c : RowCtx) (header : Nat) (data : List Byte) (s : State) : State :=
  let lo := header / 2 ^ 40
  let kind := slice header 25 2
  let g := 32 * slice header 27 8 + slice header 35 5
  let m? : Option Nat :=
    if kind = 0 then (if lo = c.dsn % 2 ^ 24 then some c.dsn else none)
    else if kind = 1 then [1, 2, 3, 4].findSome? fun k => if k ≤ c.dsn ∧ (c.dsn - k) % 2 ^ 24 = lo then some (c.dsn - k) else none
    else none
  match m? with
  | none => s
  | some m =>
    match readSet s m with
    | none => s
    | some d =>
      if header % 2 ^ 22 / 2 ^ 16 ≠ d.pass then s
      else match d.rows.find? fun e => e.1 == g with
        | none => onReadSet m (fun d => { d with rows := Tbl.set d.rows g data }) s
        | some e => addF Reg.C1_MISCORR_CNT ((e.2.zip data).filter fun x => x.1 != x.2).length s

/-- A context ends: its place goes to the row that has waited longest (R206). -/
def endCtx (c : RowCtx) (s : State) : State :=
  let l := s.rch.ctx.erase c
  let l := match l.find? fun x => !x.inPool with
    | some w => if c.inPool then l.map fun x => if x == w then enterPool s x else x else l
    | none => l
  setRch { s.rch with ctx := l } s

/-- The context of a row. -/
def ctxOf (s : State) (b k slot dsn : Nat) : Option RowCtx := s.rch.ctx.find? fun c => c.band == b && c.k == k && c.slot == slot && c.dsn == dsn

/-- The decoder of an alignment has made GLOBAL_EVERY iterations without convergence: the detector runs again over the row's stored samples, and the
decoder goes on (R204). Not in peak mode (R223). -/
def repass (b k slot dsn : Nat) (d : Int) (s : State) : State :=
  match ctxOf s b k slot dsn with
  | none => s
  | some c =>
    if !c.inPool ∨ c.peak ∨ 4 < d.natAbs then s
    else
      let x := trialOf c c.bits [] d
      if !headerCrcOk (trialHeader c x) then s
      else
        let e := decodeRound c x (decoderOf c x)
        setRch { s.rch with ctx := s.rch.ctx.map fun z => if z == c then { c with decs := Tbl.set c.decs (d + 4).toNat e } else z } s

/-! ## What a row measures (R219, R235, R236) -/

/-- A row's bits with their places in the row, of its header and codeword, as the taken alignment puts them (R235). -/
def rowWithIndex (c : RowCtx) (d : Int) : List (Nat × RowBit) :=
  (stretches c d).flatMap fun s =>
    match s.row with
    | some j => ((bitsFrom c.bits s.place s.len).zipIdx.map fun e => (j + e.2, e.1)).filter fun e => 32 ≤ e.1
    | none => []

/-- The residuals of a row against reference bits, bit by bit where the bit and the two before it belong to one unbroken piece: row bit, t, e of the
trailing reader with its flag, e of the leading one with its flag, e of z with its flag, and the PHI of both. -/
structure RowErr where
  j    : Nat
  t    : Int
  own  : Option Int
  lead : Option Int
  z    : Option Int
  phi  : Int
  phiL : Int
  deriving DecidableEq, Repr

/-- The residuals of a row whose recorded bits from its sync mark on are `row` (R192, R235). -/
def rowErrors (c : RowCtx) (d : Int) (row : List Bool) : List RowErr :=
  let a (j : Nat) : Int := plusMinus (row.getD j false)
  let refs := (c.bits.zip (rowRefs c d row))
  let past (p : Int) (back : Nat) : Int := match (refs.drop ((p - (match c.bits with | x :: _ => x.place | [] => p)).toNat - back)).head? with | some e => e.2 | none => 0
  (rowWithIndex c d).map fun e =>
    let t := c.t0 * a e.1 + c.t1 * past e.2.place 1 + c.t2 * past e.2.place 2
    { j := e.1, t, own := (if e.2.flag then none else some (e.2.y - t))
      lead := (match e.2.lead with | some l => if l.flag then none else some (l.y - t) | none => none)
      z := (if e.2.zbad then none else some (e.2.z - t)), phi := e.2.phi, phiL := (match e.2.lead with | some l => l.phi | none => 0) }

/-- Mean squares of the better single reader and of z over a row, each over the bits on which no reader is flagged, scaled by their count (R219). -/
def gainOf (l : List RowErr) : Nat × Nat :=
  let use := l.filter fun e => e.own.isSome && e.lead.isSome && e.z.isSome
  let sq (f : RowErr → Option Int) : Nat := sumN (use.map fun e => ((f e).getD 0).natAbs ^ 2)
  (min (sq RowErr.own) (sq RowErr.lead), sq RowErr.z)

/-- A reader's sums over a row (R235, R236): Σt², Σe² over its unflagged bits, ΣPHI over the codeword bits with their count, and Σe(n)e(n−i) for i = 0,
1, 2. -/
def readerSums (l : List RowErr) (lead : Bool) : List Int :=
  let e (x : RowErr) : Option Int := if lead then x.lead else x.own
  let use := l.filter fun x => (e x).isSome
  let code := l.filter fun x => 96 ≤ x.j && (!lead || x.lead.isSome)
  let es := l.map e
  let corr (i : Nat) : Int := sumI ((es.zip (es.drop i)).filterMap fun p => match p with | (some u, some v) => some (u * v) | _ => none)
  [sumI (use.map fun x => x.t * x.t), sumI (use.map fun x => (e x).getD 0 * (e x).getD 0), sumI (code.map fun x => if lead then x.phiL else x.phi), code.length,
   corr 0, corr 1, corr 2]

/-- The sums of a reader over the rows of a data set (R234–R236), changed. -/
def onAcc (n t m : Nat) (f : CalAcc → CalAcc) (s : State) : State :=
  let is (x : CalAcc) : Bool := x.dsn == n && x.track == t && x.module == m
  let l := s.cal.acc
  { s with cal := { s.cal with acc := (if l.any is then l.map fun x => if is x then f x else x else l ++ [f { dsn := n, track := t, module := m }]) } }

/-- A row with an accepted alignment is measured, in the data sets of a cycle's pair (R230, R234–R236): not one that the ladder reads, and in a read
window only one that has converged. `row` are its recorded bits. -/
def measureRow (c : RowCtx) (d : Int) (row : List Bool) (s : State) : State :=
  if 2 ≤ c.dsn % 4 ∨ c.ladder ∨ c.peak then s
  else
    let l := rowErrors c d row
    let one (m : Nat) (s : State) : State :=
      let v := readerSums l (m != c.module)
      let items := match c.items.find? fun e => e.1 == m with | some e => e.2 | none => []
      onAcc c.dsn c.track m (fun x => { x with
        main := x.main + b2n (decide (c.slot < trackRows c.track)), rows := x.rows + 1, read := x.read || c.read
        sums := (List.range 7).map fun i => x.sums.getD i 0 + v.getD i 0
        items := (List.range 33).map fun i => x.items.getD i 0 + items.getD i 0 }) s
    if c.dual && !c.single then one (1 - c.module) (one c.module s) else one c.module s

/-- A row's decoding ends (R203–R210): the search is decided and counted, a verify row gets its verdict (R253–R257), a read row goes to its
data set (R135). What the row measures is kept (R219, R235). -/
def rowDone (b k slot dsn : Nat) (s : State) : State :=
  match ctxOf s b k slot dsn with
  | none => s
  | some c =>
    if !c.inPool then s
    else
      let t := 64 * b + k
      let sr := searchRounds c (match c.found with | some f => f - c.pred | none => 0) 5 0 0
      let s := endCtx c s
      let s := addF Reg.DEC_ITER_SUM sr.iters s
      let s := match sr.taken with
        | some (x, _) => if x.d = 0 then incF Reg.DEC_ROWS_CNT s else incF (Reg.SYNC_SHIFT_CNT b) (incF Reg.DEC_ROWS_CNT s)
        | none => incF Reg.DEC_FAIL_CNT s
      let s := if sr.ambig then raiseB (rchPage b) 0 0 0x04 noAcct t (incF (Reg.SYNC_AMBIG_CNT b) s) else s
      if c.read then
        match sr.taken with
        | some (x, d) =>
          let row := decidedRow c x d
          let s := if c.dual && !c.single then gainRow b (gainOf (rowErrors c x.d row)) s else s
          let s := measureRow c x.d row s
          let h := trialHeader c x
          if headerValid h then deliverRow c h (decidedBytes d) s else s
        | none => s
      else
        match rowAt s dsn t slot with
        | none => s
        | some r =>
          let s := match sr.taken, dataSet s r.m, dataSet s dsn with
            | some (x, _), some m, some n =>
              let header := rowHeader r.m (sdsOf r.g) (rowOf r.g) (if r.m = dsn then 0 else 1) r.rewr n.pass
              measureRow c x.d (rowOnTape (rowSeed (b2n c.hk) t slot) header (codewordBits (c1Codeword (rowData m.payload r.g)))) s
            | _, _, _ => s
          match verdict s c r sr with
          | none => settleCheck (verifyPass dsn r s)
          | some reason =>
            let s := verifyFail dsn t slot reason s
            settleCheck (if reason = 5 then miscompare r.m s else s)

/-- A row whose decoding has not ended 6 frames after its window closed is stopped and FAILED (R206); a row on the ladder has no such limit. -/
def decLate (b k slot dsn : Nat) (s : State) : State :=
  match ctxOf s b k slot dsn with
  | none => s
  | some c =>
    if c.ladder ∨ ((s.pos.frame : Int) - c.closed).natAbs < 6 then s
    else
      let s := raiseC 0x48 2 0x06 noAcct dsn (incF Reg.DEC_LATE_CNT (endCtx c s))
      if c.read then s else settleCheck (verifyFail dsn (64 * b + k) slot 0x6 s)

/-- A gain below 0.5 dB over 1,024 consecutive rows (R219). -/
def mrdLowGain (b : Nat) (s : State) : State :=
  let g := Tbl.get {} s.rch.gains b
  if b < 8 ∧ 1024 ≤ g.low then
    raiseB (rchPage b) 3 0 0x08 noAcct (getF s (Reg.MRD_STATUS_GAIN b)) (setRch { s.rch with gains := Tbl.set s.rch.gains b { g with low := 0 } } s)
  else s

/-! ## The track window (R227) -/

/-- An item as a seed, held to its range. -/
def itemValue (item : Nat) (x : Int) : Int :=
  if item = 21 then clampI 0 32768 x else if item = 32 then clampI (-8) 8 x else if item < 21 then x else clampI (-16384) 16384 x

/-- The seed of a loop item is set: the next window of the reader starts from it (R227, R239). -/
def setSeed (t m item : Nat) (v : Int) (s : State) : State :=
  if item < 21 then let c := chainSt s t m; setChain t m { c with seeds := Tbl.set c.seeds item v, fresh := true } s
  else let z := combSt s t; setComb t { z with seeds := Tbl.set z.seeds item v, fresh := true } s

/-- The place of a loop item among the references of R243. -/
def itemKey (t m i : Nat) : Nat := (512 * m + t) * 64 + i

/-- A write of the track window's data: the seed of the next window, or ignored with event bit 4. The items of the combiner are the track's. The
range of R243 is counted from it (log entry: calibration ranges). -/
def trackWrite (b v : Nat) (s : State) : State :=
  let k := getF s (Reg.TRK_WIN_ADDR_TRACK b)
  let m := getF s (Reg.TRK_WIN_ADDR_MODULE b)
  let item := getF s (Reg.TRK_WIN_ADDR_ITEM b)
  let s := if getB s (Reg.TRK_WIN_ADDR_AUTOINC b) then setF (Reg.TRK_WIN_ADDR_ITEM b) (if 32 ≤ item then 0 else item + 1) s else s
  if item = 7 ∨ item = 19 ∨ item = 20 ∨ 32 < item ∨ readerBusy s b k m then notify (rchPage b) 4 0 s
  else
    let s := { s with cal := { s.cal with refItem := Tbl.erase s.cal.refItem (itemKey (64 * b + k) m item) } }
    setSeed (64 * b + k) m item (itemValue item (toS 32 v)) s

/-! ## Meanings -/

/-- UPLINK_BURST_RECEIVED. -/
def execUplinkBurstReceived (hfe module : Nat) (blocks : List (BitVec 64)) (lockLost : Bool) (s : State) : Host.Outcome State Fault Refusal :=
  .next (uplinkBurst hfe module blocks lockLost s)

/-- LOOP_RESET. -/
def execLoopReset (band track module : Nat) (s : State) : Host.Outcome State Fault Refusal := .next (loopReset band track module s)

/-- VERIFY_OPEN. -/
def execVerifyOpen (band : Nat) (s : State) : Host.Outcome State Fault Refusal := .next (verifyOpen band s)

/-- VERIFY_CLOSE. -/
def execVerifyClose (band : Nat) (s : State) : Host.Outcome State Fault Refusal := .next (verifyClose band s)

/-- DETECTOR_REPASS. -/
def execDetectorRepass (band track slot dsn : Nat) (d : Int) (s : State) : Host.Outcome State Fault Refusal := .next (repass band track slot dsn d s)

/-- ROW_DECODE_DONE. -/
def execRowDecodeDone (band track slot dsn : Nat) (s : State) : Host.Outcome State Fault Refusal := .next (rowDone band track slot dsn s)

/-- DEC_LATE. -/
def execDecLate (band track slot dsn : Nat) (s : State) : Host.Outcome State Fault Refusal := .next (decLate band track slot dsn s)

/-- MRD_LOW_GAIN. -/
def execMrdLowGain (band : Nat) (s : State) : Host.Outcome State Fault Refusal := .next (mrdLowGain band s)

/-- TRK_WIN_WRITE. -/
def execTrkWinWrite (band value : Nat) (s : State) : Host.Outcome State Fault Refusal :=
  .next (if band < 8 then lockGate (rchPage band) (trackWrite band value) s else s)

end Sys2Proof.Machine
end

