-- ==== Sys2Proof/Machine/Calibration.lean ====
section
/-!
DEFINITION. Calibration from live traffic (spec/07): what rows and frames measure (R234–R236), the cycle and its groups (R230–R233), the updates of each
group with their steps and ranges (R237–R243), rollback and freezing (R244–R246), load-time calibration (R247–R249), and host writes of calibration
values (R250, R251).
-/
namespace Sys2Proof.Machine

def setCal (c : CalSt) (s : State) : State := { s with cal := c }

def calWriter (s : State) (w : Nat) : CalElem := Tbl.get {} s.cal.writers w
def setCalWriter (w : Nat) (e : CalElem) (s : State) : State := setCal { s.cal with writers := Tbl.set s.cal.writers w e } s
def calReader (s : State) (t m : Nat) : CalElem := Tbl.get {} s.cal.readers (512 * m + t)
def setCalReader (t m : Nat) (e : CalElem) (s : State) : State := setCal { s.cal with readers := Tbl.set s.cal.readers (512 * m + t) e } s
def calBand (s : State) (b : Nat) : CalElem := Tbl.get {} s.cal.bands b
def setCalBand (b : Nat) (e : CalElem) (s : State) : State := setCal { s.cal with bands := Tbl.set s.cal.bands b e } s

/-- The HFE and writer of a writer element (R80). -/
def curTrim (w : Nat) : Fld := Reg.WCAL_CUR_TRIM (w / 16) (w % 16)
def preTrim (w : Nat) : Fld := Reg.WCAL_PRE_TRIM (w / 16) (w % 16)

/-- The offset register of a reel. -/
def csoFld (reel : Nat) : Fld := if reel = 0 then Reg.CAL_CSO_REEL_A else Reg.CAL_CSO_REEL_B

/-- The staged gain of servo reader `r` (2 × band + reader). -/
def gainFld (r : Nat) (kcd : Bool) : Fld :=
  if kcd then (if r % 2 = 0 then Reg.SV_KCD_STG_RD0 (r / 2) else Reg.SV_KCD_STG_RD1 (r / 2))
  else (if r % 2 = 0 then Reg.SV_KAB_STG_RD0 (r / 2) else Reg.SV_KAB_STG_RD1 (r / 2))

/-- A change joins what the cycle stages (R231). -/
def stage (x : CalSet) (s : State) : State := incF Reg.CAL_CHANGE_CNT (setCal { s.cal with staged := s.cal.staged ++ [x] } s)

/-- An update held to a range: its value, counted and raised when it is cut short (R243). -/
def bounded (lo hi v : Int) (s : State) : Int × State :=
  if v < lo then (lo, raise 0x4B 30 (faultCode 0 0x7 0x02) noAcct 0 (incF Reg.CAL_LIMIT_CNT s))
  else if hi < v then (hi, raise 0x4B 30 (faultCode 0 0x7 0x02) noAcct 0 (incF Reg.CAL_LIMIT_CNT s))
  else (v, s)

/-- One step of at most `step` from a value towards another. -/
def towards (step cur goal : Int) : Int := cur + clampI (-step) step (goal - cur)

/-! ## What frames measure (R236) -/

/-- The scale of the sums of lateral changes: every count of readers up to 18 divides it, so that products with a mean stay whole. -/
def deltaScale : Nat := 12252240

/-- What the frames of data set `n` have measured, changed. -/
def onFrames (n : Nat) (f : FrameAcc → FrameAcc) (s : State) : State :=
  let l := s.cal.frames
  setCal { s.cal with frames := (if l.any (·.dsn == n) then l.map fun x => if x.dsn = n then f x else x else l ++ [f { dsn := n }]) } s

/-- The lateral change of a servo reader from the frame before, if its position counts in both (R236, R240). -/
def latDelta (s : State) (r : Nat) : Option Int :=
  let x := reader s (r / 2) (r % 2)
  match x.past with
  | some v => if x.counts ∧ readerQual s (r / 2) (r % 2) then some (getS s (svLat (r / 2) (r % 2)) - v) else none
  | none => none

/-- A frame's lateral changes and lateral errors join the sums of a data set (R236): Δr·Δ̄ and Δ̄² for the readers that have a change, and the valid
errors of the bands. -/
def addFrame (deltas : List (Nat × Int)) (errs : List (Nat × Int)) (a : FrameAcc) : FrameAcc :=
  let sum := sumI (deltas.map Prod.snd)
  let part : Nat := deltaScale / deltas.length
  let a := deltas.foldl (fun (a : FrameAcc) d =>
    { a with num := Tbl.set a.num d.1 (Tbl.get 0 a.num d.1 + d.2 * sum * (part * deltaScale : Nat))
             den := Tbl.set a.den d.1 (Tbl.get 0 a.den d.1 + sum * sum * (part * part : Nat)) }) a
  errs.foldl (fun (a : FrameAcc) e =>
    { a with errs := Tbl.set a.errs e.1 (Tbl.get 0 a.errs e.1 + e.2), errN := Tbl.set a.errN e.1 (Tbl.get 0 a.errN e.1 + 1)
             sq := a.sq + e.2.natAbs ^ 2, sqN := a.sqN + 1 }) a

/-- The positions that count in this frame are those before the next one's. -/
def keepPast (s : State) : State :=
  forEach (List.range 18) (fun r s =>
    let x := reader s (r / 2) (r % 2)
    setReader (r / 2) (r % 2) { x with past := (if x.counts then some (getS s (svLat (r / 2) (r % 2))) else none), counts := false } s) s

/-- A servo frame has ended: what it measures counts for the data set of a pair that is written or read (R236). -/
def measureFrame (s : State) : State :=
  let deltas := (List.range 18).filterMap fun r => (latDelta s r).map fun v => (r, v)
  let errs := (List.range 8).filterMap fun b => (Tbl.get none s.mot.latErr b).map fun v => (b, v)
  keepPast (match pairSet s 0 with | some n => onFrames n (addFrame deltas errs) s | none => s)

/-- What the frames of cycle `c`'s pair have measured. -/
def pairFrames (s : State) (c : Nat) : List FrameAcc := s.cal.frames.filter fun x => x.dsn / 4 == c

/-- The mean square of the lateral errors over all bands and the pair, as a fraction; its denominator is 0 without a sample (R244). -/
def latSquare (s : State) (c : Nat) : Int × Nat :=
  let l := pairFrames s c
  ((sumN (l.map (·.sq)) : Nat), sumN (l.map (·.sqN)))

/-! ## What rows measure (R234–R236) -/

/-- What the rows of data set `n` on track `t` have measured in verify windows, by module. -/
def verifyAccs (s : State) (n t : Nat) : List CalAcc := s.cal.acc.filter fun x => x.dsn == n && x.track == t && !x.read

/-- What a reader's rows of data set `n` have measured. -/
def readerAccs (s : State) (n t m : Nat) : List CalAcc := s.cal.acc.filter fun x => x.dsn == n && x.track == t && x.module == m

/-- A sum over measures. -/
def accSum (i : Nat) (l : List CalAcc) : Int := sumI (l.map fun x => x.sums.getD i 0)

/-- At least half of a track's main rows in a data set had an accepted alignment (R234). -/
def enoughRows (t : Nat) (l : List CalAcc) : Bool := !l.isEmpty && decide (trackRows t ≤ 2 * sumN (l.map (·.main)))

/-- The SNR over rows in 0.01 dB: 10·log10 of the ratio of the summed Σt² to the summed Σe² (R235). -/
def accSnr (l : List CalAcc) : Int := logRatioI 1000 (accSum 0 l).toNat (accSum 1 l).toNat

/-- The tracks with rows measured in a cycle's pair. -/
def measuredTracks (s : State) (c : Nat) : List Nat := (List.range 512).filter fun t => s.cal.acc.any fun x => x.track == t && x.dsn / 4 == c

/-! ## Rollback (R244–R246) -/

/-- Rollbacks of an element in the 64 cycles up to `c`. -/
def recentRolls (c : Nat) (e : CalElem) : Nat := (e.rolls.filter fun x => c < x + 64).length

/-- An element after a rollback in cycle `c` (R245, R246): held, and frozen after the fourth within 64 cycles. -/
def rollElem (c hold : Nat) (e : CalElem) : CalElem :=
  let e := { e with rolls := c :: e.rolls, hold := c + 1 + hold, changed := none, rolled := true }
  { e with freeze := e.freeze || decide (4 ≤ recentRolls c e) }

/-- The values a change of the cycle before replaced, if it is to be rolled back: it made a change, and the metric has fallen by more than
the margin (R244). Metrics are fractions. -/
def toRollBack (c : Nat) (margin : Int) (after : Int × Nat) (e : CalElem) : Option (List (Nat × Int)) :=
  match e.changed with
  | some (k, before, old) => if k + 1 = c ∧ after.1 * before.2 < before.1 * after.2 - margin * (before.2 * after.2 : Nat) then some old else none
  | none => none

/-- The values that a group's change replaced, if it is to be rolled back: the lateral RMS error over all bands has risen by more than RB_LAT_PCT percent,
its square by more than the square of that (R244). -/
def toRollBackLat (c : Nat) (s : State) (e : CalElem) : Option (List (Nat × Int)) :=
  let after := latSquare s c
  match e.changed with
  | some (k, before, old) =>
    if k + 1 = c ∧ after.2 ≠ 0 ∧ before.1 * after.2 * ((100 + getF s Reg.CAL_RB_RB_LAT_PCT) ^ 2 : Nat) < after.1 * before.2 * 10000 then some old else none
  | none => none

/-- A rollback is counted; one that freezes its element raises CAL_FROZEN (R245, R246). -/
def noteRollback (frozen : Bool) (data : Nat) (s : State) : State :=
  let s := incF Reg.CAL_RB_CNT s
  if frozen then raise 0x4B 30 (faultCode 0 0x7 0x03) noAcct data s else s

/-! ## Writers (R237, R238) -/

/-- The dither and slope limits as they act (R250). -/
def dither (s : State) : Int := let d := getF s Reg.CAL_WCUR_DITHER; if d = 0 then 1 else min d 4
def slopeHi (s : State) : Int := getF s Reg.CAL_WCUR_SLOPE_HI
def slopeLo (s : State) : Int := let l : Int := getF s Reg.CAL_WCUR_SLOPE_LO; if slopeHi s ≤ l then slopeHi s - 1 else l

/-- Mean PHI of a writer's rows less the delay of the readers that verified them, in 1/128 bit: a sum and its count (R236, R238). -/
def writerPhi (s : State) (l : List CalAcc) : Int × Nat :=
  (sumI (l.map fun x => x.sums.getD 2 0 - 512 * (calReader s x.track x.module).base * x.sums.getD 3 0), (512 * accSum 3 l).toNat)

/-- A writer in cycle `c`: rollback of the cycle before, or this cycle's change of its current or its delay. -/
def writerCycle (c w : Nat) (s : State) : State :=
  let e := calWriter s w
  let n := w / 16
  let i := w % 16
  let frozen := getB s (Reg.WCAL_FREEZE n i)
  let l0 := verifyAccs s (4 * c) w
  let l1 := verifyAccs s (4 * c + 1) w
  if !enoughRows w l0 ∨ !enoughRows w l1 ∨ getB s (Reg.WSTATE_INHIBIT n i) ∨ s.cal.out.contains (4 * c, w) ∨ s.cal.out.contains (4 * c + 1, w) then s
  else
    let m : Int × Nat := (accSnr l0 + accSnr l1, 2)
    let e := { e with snr := accSnr l1 }
    match (if frozen then none else toRollBack c (getF s Reg.CAL_RB_RB_DB) m e) with
    | some old =>
      let e' := rollElem c (getF s Reg.CAL_RB_HOLD) { e with freeze := false }
      let s := old.foldl (fun s v => stage (if v.1 = 0 then .cur w v.2 else .pre w v.2) s) s
      let s := setF (Reg.WCAL_ROLLED_BACK n i) 1 (setCalWriter w { e' with freeze := false } s)
      noteRollback e'.freeze w (if e'.freeze then setF (Reg.WCAL_FREEZE n i) 1 s else s)
    | none =>
      let e := { e with changed := none }
      if frozen ∨ c < e.hold then setCalWriter w e s
      else if c % 3 = 0 ∧ getB s Reg.CAL_CTRL_WCUR_EN then
        let g := accSnr l0 - accSnr l1
        let d : Int := if slopeHi s * (2 * dither s) ≤ g then 1 else if g ≤ slopeLo s * (2 * dither s) then -1 else 0
        let level : Int := getF s (Reg.WCUR_LEVEL n i)
        let (v, s) := bounded (max (e.refCur - 16) (-level)) (min (e.refCur + 16) (255 - level)) (e.base + d) s
        if v = e.base then setCalWriter w e s
        else stage (.cur w v) (setCalWriter w { e with changed := some (c, m, [(0, e.base)]) } s)
      else if c % 3 = 1 ∧ getB s Reg.CAL_CTRL_WDLY_EN then
        let d := writerPhi s (l0 ++ l1)
        let (v, s) := bounded (e.refPre - 16) (e.refPre + 16) (e.pre - clampI (-2) 2 (rdiv d.1 d.2)) s
        if v = e.pre then setCalWriter w e s
        else stage (.pre w v) (setCalWriter w { e with changed := some (c, m, [(1, e.pre)]) } s)
      else setCalWriter w e s

/-! ## Readers (R239) -/

/-- The step of a loop item and its absolute limits (R243). -/
def itemStep (i : Nat) : Int := if i < 16 then 8 else if i = 16 then 128 else if i = 17 then 256 else if i = 18 then 64 else if i = 32 then 1 else 512
def itemRange (i : Nat) : Int := if i < 16 then 64 else if i = 16 then 1024 else if i = 17 then 4096 else if i = 18 then 1024 else if i = 32 then 8 else 4096
def itemLimits (i : Nat) : Int × Int :=
  if i < 16 then (-511, 511) else if i = 16 then (1024, 16384) else if i = 17 then (-32768, 32767) else if i = 18 then (-8191, 8191)
  else if i = 21 then (0, 32768) else if i = 32 then (-8, 8) else (-16384, 16384)

/-- The seed of a loop item: written, or the reset value; of the combiner, where none has been written, its value now (R197, R227). -/
def seedOf (s : State) (t m i : Nat) : Int :=
  if i < 21 then Tbl.get (if i = 16 then 4096 else 0) (chainSt s t m).seeds i
  else
    let z := combSt s t
    Tbl.get (if i = 21 then z.w0 else if i ≤ 26 then z.f0.getD (i - 22) 0 else if i ≤ 31 then z.f1.getD (i - 27) 0 else z.skew) z.seeds i

/-- An item that calibration moves: not the centre tap, not the timing state; the combiner's only from read windows (R239). -/
def itemMoves (i : Nat) (read : Bool) : Bool := (i < 19 && i != 7) || (21 ≤ i && i ≤ 32 && read)

/-- The new values of a reader's loop items, with what they replace (R239, R243): towards the pair's mean at window close. The range of an item
is counted from its reference, the seed in force when there is none yet. -/
def moveItems (t m : Nat) (l : List CalAcc) (s : State) : List (Nat × Int × Int) × State :=
  let rows := sumN (l.map (·.rows))
  ((List.range 33).filter fun i => itemMoves i (l.all (·.read))).foldl (fun acc i =>
    let s := acc.2
    let cur := seedOf s t m i
    let ref := Tbl.get cur s.cal.refItem (itemKey t m i)
    let s := setCal { s.cal with refItem := Tbl.set s.cal.refItem (itemKey t m i) ref } s
    let goal := rdiv (sumI (l.map fun x => x.items.getD i 0)) rows
    let r := bounded (max (ref - itemRange i) (itemLimits i).1) (min (ref + itemRange i) (itemLimits i).2) (towards (itemStep i) cur goal) s
    (if r.1 = cur then acc.1 else acc.1 ++ [(i, r.1, cur)], r.2)) ([], s)

/-- A reader in cycle `c`. -/
def readerCycle (c t m : Nat) (s : State) : State :=
  let e := calReader s t m
  let l0 := readerAccs s (4 * c) t m
  let l1 := readerAccs s (4 * c + 1) t m
  if !enoughRows t l0 ∨ !enoughRows t l1 then s
  else
    let v : Int × Nat := (accSnr l0 + accSnr l1, 2)
    let e := { e with snr := accSnr l1 }
    match (if e.freeze then none else toRollBack c (getF s Reg.CAL_RB_RB_DB) v e) with
    | some old =>
      let e' := rollElem c (getF s Reg.CAL_RB_HOLD) e
      let s := old.foldl (fun s v => stage (.seed t m v.1 v.2) s) s
      noteRollback e'.freeze (512 * m + t) (setCalReader t m e' s)
    | none =>
      let e := { e with changed := none }
      if e.freeze ∨ c < e.hold ∨ c % 3 ≠ 2 ∨ !getB s Reg.CAL_CTRL_RSEED_EN then setCalReader t m e s
      else
        let (l, s) := moveItems t m (l0 ++ l1) s
        let s := l.foldl (fun s v => stage (.seed t m v.1 v.2.1) s) s
        setCalReader t m (if l = [] then e else { e with changed := some (c, v, l.map fun v => (v.1, v.2.2)) }) s

/-- A tap of a band's noise predictor, with its new value: towards the goal by at most 2, in its range (R239, R243). -/
def moveTap (b tap : Nat) (goal : Int) (s : State) : Option (Int × Int) × State :=
  let cur := getS s (if tap = 0 then Reg.NPRED_P1 b else Reg.NPRED_P2 b)
  let ref := Tbl.get cur s.cal.refTap (2 * b + tap)
  let r := bounded (ref - 32) (ref + 32) (towards 2 cur goal) (setCal { s.cal with refTap := Tbl.set s.cal.refTap (2 * b + tap) ref } s)
  (if r.1 = cur then none else some (r.1, cur), r.2)

/-- The noise predictor of a band in cycle `c`: it moves towards the solution of its two equations for the residuals of the band's rows (R239), judged by
the SNR over the band's rows (log entry: noise predictor). It has no FREEZE bit. -/
def noiseCycle (c b : Nat) (s : State) : State :=
  let of (n : Nat) : List CalAcc := s.cal.acc.filter fun x => x.dsn == n && bandOf x.track == b
  let l0 := of (4 * c)
  let l1 := of (4 * c + 1)
  if l0.isEmpty ∨ l1.isEmpty then s
  else
    let e := calBand s b
    let v : Int × Nat := (accSnr l0 + accSnr l1, 2)
    match toRollBack c (getF s Reg.CAL_RB_RB_DB) v e with
    | some old =>
      let s := old.foldl (fun s v => stage (.npred b v.1 v.2) s) s
      noteRollback false b (setCalBand b { rollElem c (getF s Reg.CAL_RB_HOLD) e with freeze := false } s)
    | none =>
      let e := { e with changed := none }
      let r (i : Nat) : Int := accSum (4 + i) (l0 ++ l1)
      let det := r 0 * r 0 - r 1 * r 1
      if c < e.hold ∨ c % 3 ≠ 2 ∨ !getB s Reg.CAL_CTRL_RSEED_EN ∨ det = 0 then setCalBand b e s
      else
        let goal (num : Int) : Int := if 0 < det then rdiv (64 * num) det.toNat else rdiv (-64 * num) (-det).toNat
        let x := moveTap b 0 (goal (r 1 * r 0 - r 1 * r 2)) s
        let y := moveTap b 1 (goal (r 0 * r 2 - r 1 * r 1)) x.2
        let l : List (Nat × Int × Int) := (match x.1 with | some p => [(0, p)] | none => []) ++ (match y.1 with | some p => [(1, p)] | none => [])
        let s := l.foldl (fun s v => stage (.npred b v.1 v.2.1) s) y.2
        setCalBand b (if l = [] then e else { e with changed := some (c, v, l.map fun v => (v.1, v.2.2)) }) s

/-! ## Servo gains, tilt, offsets (R240–R242) -/

/-- The reference of a gain: what load-time calibration left or the host wrote, else the reset value of 384 (R57, R243). -/
def gainRef (s : State) (r : Nat) (kcd : Bool) : Int := Tbl.get 384 s.cal.refGain (2 * r + b2n kcd)

/-- Nearest integer to a fraction. -/
def roundQ (q : Rat) : Int := rdiv q.num q.den

/-- A fraction held within `step` of an integer. -/
def nearQ (step cur : Int) (q : Rat) : Rat := max ((cur - step : Int) : Rat) (min ((cur + step : Int) : Rat) q)

/-- New gains of the qualified servo readers that the pair measures (R240): each moves towards KAB / ρ by at most 4 LU. A ρ of zero gives no
direction (free). -/
def movedGains (s : State) (c : Nat) : List (Nat × Rat) :=
  let l := pairFrames s c
  let sum (f : FrameAcc → Tbl Int) (r : Nat) : Int := sumI (l.map fun x => Tbl.get 0 (f x) r)
  ((List.range 18).filter fun r => readerQual s (r / 2) (r % 2) && 0 < sum FrameAcc.den r).map fun r =>
    let kab : Int := getF s (gainFld r false)
    let num := sum FrameAcc.num r
    (r, if num = 0 then ((if Config.tieBreak r then kab + 4 else kab - 4 : Int) : Rat)
        else nearQ 4 kab (mkRat (kab * sum FrameAcc.den r) 1 / mkRat num 1))

/-- The SERVO group's change (R240): the moved gains with one common correction, so that their mean is that of load-time calibration; KCD moves by
the same ratio. No gain moves by more than 4 LU nor leaves its range (R243). -/
def servoChange (c : Nat) (s : State) : List (CalSet × CalSet) × State :=
  let l := movedGains s c
  if l = [] then ([], s)
  else
    let corr : Rat := ((l.map fun x => (gainRef s x.1 false : Rat) - x.2).foldl (· + ·) 0) / (l.length : Rat)
    l.foldl (fun acc x =>
      let s := acc.2
      let old := getF s (gainFld x.1 false)
      let oldC := getF s (gainFld x.1 true)
      let lim (kcd : Bool) (v : Int) (s : State) : Int × State :=
        bounded (max (gainRef s x.1 kcd - 96) 192) (min (gainRef s x.1 kcd + 96) 768) v s
      let r := lim false (towards 4 old (roundQ (x.2 + corr))) s
      let v := r.1
      let rc := lim true (towards 4 oldC (if old = 0 then (oldC : Int) else rdiv ((oldC : Int) * v) old)) r.2
      let one (kcd : Bool) (o : Nat) (v : Int) : List (CalSet × CalSet) :=
        if v = o then [] else [(.gain x.1 kcd v.toNat, .gain x.1 kcd o)]
      (acc.1 ++ one false old v ++ one true oldC rc.1, rc.2)) ([], s)

/-- What rolled-back group values are kept as: a key and a value. -/
def packSet : CalSet → Nat × Int
  | .gain r kcd v => (2 * r + b2n kcd, v)
  | .tilt v => (0, v)
  | .cur _ v => (0, v)
  | .pre _ v => (0, v)
  | .seed _ _ i v => (i, v)
  | .npred b tap v => (2 * b + tap, v)
  | .cso r v => (r, v)

/-- The SERVO group in cycle `c` (R240, R244): one element, judged by the lateral RMS error. -/
def servoCycle (c : Nat) (s : State) : State :=
  let e := s.cal.servo
  let frozen := getB s Reg.CAL_STATUS_SERVO_FREEZE
  match (if frozen then none else toRollBackLat c s e) with
  | some old =>
      let e' := rollElem c (getF s Reg.CAL_RB_HOLD) { e with freeze := false }
      let s := old.foldl (fun s v => stage (.gain (v.1 / 2) (v.1 % 2 == 1) v.2.toNat) s) s
      let s := setF Reg.CAL_STATUS_SERVO_RB 1 (setCal { s.cal with servo := { e' with freeze := false } } s)
      noteRollback e'.freeze 0x400 (if e'.freeze then setF Reg.CAL_STATUS_SERVO_FREEZE 1 s else s)
  | none =>
    let s := setCal { s.cal with servo := { e with changed := none } } s
    if frozen ∨ c < e.hold ∨ c % 2 ≠ 0 ∨ !getB s Reg.CAL_CTRL_SERVO_EN then s
    else
      let (l, s) := servoChange c s
      let s := l.foldl (fun s x => stage x.1 s) s
      if l = [] then s else setCal { s.cal with servo := { e with changed := some (c, latSquare s c, l.map fun x => packSet x.2) } } s

/-- The mean lateral errors of the bands over the pair in LU; none if a band has none (R241). -/
def meanErrors (s : State) (c : Nat) : Option (List Rat) :=
  let l := pairFrames s c
  (List.range 8).mapM fun b =>
    let n := sumN (l.map fun x => Tbl.get 0 x.errN b)
    if n = 0 then none else some (mkRat (sumI (l.map fun x => Tbl.get 0 x.errs b)) n)

/-- The TILT group in cycle `c` (R241, R244). A pair in which some data band has no valid lateral error changes no trim. -/
def tiltCycle (c : Nat) (s : State) : State :=
  let e := s.cal.tilt
  let frozen := getB s Reg.CAL_STATUS_TILT_FREEZE
  match (if frozen then none else toRollBackLat c s e) with
  | some old =>
      let e' := rollElem c (getF s Reg.CAL_RB_HOLD) { e with freeze := false }
      let s := old.foldl (fun s v => stage (.tilt v.2) s) s
      let s := setF Reg.CAL_STATUS_TILT_RB 1 (setCal { s.cal with tilt := { e' with freeze := false } } s)
      noteRollback e'.freeze 0x401 (if e'.freeze then setF Reg.CAL_STATUS_TILT_FREEZE 1 s else s)
  | none =>
    let s := setCal { s.cal with tilt := { e with changed := none } } s
    match (if frozen ∨ c < e.hold ∨ c % 2 ≠ 1 ∨ !getB s Reg.CAL_CTRL_TILT_EN then none else meanErrors s c) with
    | none => s
    | some errs =>
      let sum : Rat := (errs.zipIdx.map fun x => ((2 * (x.2 : Int) - 7 : Int) : Rat) * x.1).foldl (· + ·) 0
      let d := clampI (-4) 4 (roundQ (sum * (getF s Reg.CAL_TILT_STG_TILT_K : Rat) / 1344))
      let cur := getS s Reg.CAL_TILT_STG_TRIM
      let (v, s) := bounded (s.cal.refTilt - 512) (s.cal.refTilt + 512) (cur - d) s
      if v = cur then s
      else stage (.tilt v) (setCal { s.cal with tilt := { e with changed := some (c, latSquare s c, [(0, cur)]) } } s)

/-- A reel's new current-sense offset towards an estimate, a sum over a count (R242): none when it is more than 64 counts away, which is raised. -/
def csoMove (reel : Nat) (sum : Int) (n : Nat) (s : State) : Option Int × State :=
  let cur := getS s (csoFld reel)
  if 64 * n < (sum - n * cur).natAbs then (none, raise 0x4B 30 (faultCode 2 0x7 0x04) noAcct reel s)
  else
    let ref := Tbl.get 0 s.cal.refCso reel
    let r := bounded (ref - 64) (ref + 64) (towards 2 cur (rdiv sum n)) s
    (if r.1 = cur then none else some r.1, r.2)

/-- A reel's offset moves by `put`, if there is an estimate and it is to move. -/
def csoOne (put : Int → State → State) (reel : Nat) (sum : Int) (n : Nat) (s : State) : State :=
  if n = 0 then s
  else
    let r := csoMove reel sum n s
    match r.1 with
    | some v => put v r.2
    | none => r.2

/-- The CSO group in cycle `c`: the mean zero-vector sample over the pair's PWM periods. -/
def csoCycle (c : Nat) (s : State) : State :=
  if !getB s Reg.CAL_CTRL_CSO_EN then s
  else forEach [0, 1] (fun x s =>
    let l := pairFrames s c
    csoOne (fun v s => stage (.cso x v) s) x (sumI (l.map fun a => Tbl.get 0 a.cso x)) (sumN (l.map fun a => Tbl.get 0 a.csoN x)) s) s

/-! ## The places of a cycle (R230–R233) -/

/-- Origin, k and pass of a data set that is being written or read. -/
def setPlace (s : State) (n : Nat) : Option (Nat × Nat × Nat) :=
  match dataSet s n with
  | some d => if d.compiled then some (d.origin, d.k, d.pass) else none
  | none => (s.rch.sets.find? fun d => d.dsn == n).map fun d => (d.origin, d.k, d.pass)

/-- The frame of a data set that the tape is in, counted from its origin along its pass; none on another pass, or where its place is not known. -/
def setFrame (s : State) (n : Nat) : Option Int :=
  match setPlace s n with
  | some (o, _, p) =>
    if p ≠ getF s Reg.POS_PASS then none
    else some (if passReverse p then (o : Int) - s.pos.frame else (s.pos.frame : Int) - o)
  | none => none

/-- The gap frame before data set `n` has begun (R233): the inter-data-set gap frame of the data set before it. -/
def gapReached (s : State) (n : Nat) : Bool :=
  match setFrame s n with
  | some r => decide (-1 ≤ r)
  | none => match setPlace s (n - 1), setFrame s (n - 1) with
    | some (_, k, _), some r => decide ((49 + k : Nat) ≤ r)
    | _, _ => false

/-- A write of a writer's trims has not reached the shadow of some HFE (R233). -/
def trimsUnderway (s : State) : Bool :=
  let is (r : MgmtReq) : Bool := r.write && r.addr % 4 == 3 && decide (0x40 ≤ r.addr ∧ r.addr < 0x80)
  (List.range 32).any fun n =>
    let h := hfeSt s n
    h.out.any is || h.wait.any fun x => match x with | .req r => is r | .apply _ => false

/-- The last verify or read window of cycle `c`'s pair has been decoded (R231): the pair has been measured; none of its windows is open and none of
its rows waits; and the readers have passed its last main frame. -/
def pairDecoded (s : State) (c : Nat) : Bool :=
  let mine (n : Nat) : Bool := n / 4 == c && n % 4 < 2
  let passed (n : Nat) : Bool :=
    match setPlace s n, setFrame s n with
    | some (_, k, _), some r => (List.range 8).all fun b => decide (((49 + k) * 4096 + getF s (Reg.VFY_DIST b) : Nat) ≤ r * 4096 + (s.pos.tick : Nat))
    | _, _ => true
  (s.cal.acc.any (fun x => x.dsn == 4 * c + 1) || s.cal.frames.any fun x => x.dsn == 4 * c + 1) &&
    !(s.rch.ctx.any fun x => mine x.dsn) && !((List.range 8).any fun b => (band s b).windows.any fun w => mine w.dsn) && passed (4 * c) && passed (4 * c + 1)

/-! ## Writer trims on their way (R231, R233, R237) -/

/-- Staged values are on their way to data set `n`, and in time (R233). -/
def stagedFor (s : State) (n : Nat) : Bool := s.cal.applyAt == some n && (decide (1 ≤ s.cal.phase) || !gapReached s n)

/-- The current trim for data set `n` (R237): the base, or its staged value from the data set at whose origin it takes effect, with the dither in the pair
of a W-CUR cycle. -/
def trimFor (s : State) (w n : Nat) : Int :=
  let due (x : CalSet) : Option Int := match x with | .cur v t => if v = w ∧ stagedFor s n then some t else none | _ => none
  let base := (s.cal.staged.findSome? due).getD (calWriter s w).base
  let on := getB s Reg.CAL_CTRL_EN && getB s Reg.CAL_CTRL_WCUR_EN && !getB s (Reg.WCAL_FREEZE (w / 16) (w % 16)) && n / 4 % 3 == 0
  if on ∧ n % 4 = 0 then base + dither s else if on ∧ n % 4 = 1 then base - dither s else base

/-- The delay trim for data set `n`. -/
def delayFor (s : State) (w n : Nat) : Int :=
  let due (x : CalSet) : Option Int := match x with | .pre v t => if v = w ∧ stagedFor s n then some t else none | _ => none
  (s.cal.staged.findSome? due).getD (calWriter s w).pre

/-- A band's writers get the trims of data set `n`: what differs is written to WCAL and forwarded to the shadow (R73, R233). -/
def prepare (b n : Nat) (s : State) : State :=
  forEach (List.range 64) (fun k s =>
    let w := 64 * b + k
    let v := trimFor s w n
    let p := delayFor s w n
    if getS s (curTrim w) = v ∧ getS s (preTrim w) = p then s
    else forwardHfe (w / 16) (0x10C + 0x10 * (w % 16)) (setS (preTrim w) p (setS (curTrim w) v s))) s

/-- The bands whose last APPLY_STAGED was that of data set `n` get the trims of the next one. -/
def prepareAfter (n : Nat) (s : State) : State :=
  forEach (List.range 8) (fun b s => if s.cal.applied.any (fun e => e.1 == b && e.2 == n) then prepare b (n + 1) s else s) s

/-! ## The cycle (R230–R233) -/

/-- Nothing of this cycle's change is to be compared later. -/
def forget (s : State) : State :=
  let clear (e : CalElem) : CalElem := { e with changed := none }
  setCal { s.cal with writers := s.cal.writers.map (fun e => (e.1, clear e.2)), readers := s.cal.readers.map (fun e => (e.1, clear e.2))
                      bands := s.cal.bands.map (fun e => (e.1, clear e.2)), servo := clear s.cal.servo, tilt := clear s.cal.tilt } s

/-- A cycle's change is discarded whole (R233): counted and raised; trims already forwarded go back. -/
def discardCycle (c : Nat) (s : State) : State :=
  let s := setCal { (forget s).cal with staged := [], applyAt := none, phase := 0 } s
  let s := raise 0x4B 30 (faultCode 0 0x7 0x01) noAcct c (incF Reg.CAL_LATE_CNT (setF Reg.CAL_STATUS_ACTIVE 0 s))
  prepareAfter (4 * c + 2) s

/-- What cycles up to `c` have measured is used up. -/
def dropMeasures (c : Nat) (s : State) : State :=
  setCal { s.cal with acc := s.cal.acc.filter (fun x => decide (4 * c + 4 ≤ x.dsn)), frames := s.cal.frames.filter (fun x => decide (4 * c + 4 ≤ x.dsn))
                      out := s.cal.out.filter fun x => decide (4 * c + 4 ≤ x.1) } s

/-- The measurement pair of cycle `c` is decoded (R231): the change before is checked, this cycle's is computed and staged for the origin of
data set 4c + 3. After the gap frame before that has begun it is too late (R233). -/
def calCycle (c : Nat) (s : State) : State :=
  if !getB s Reg.CAL_CTRL_EN ∨ getB s (hdrQUIESCE 0x4B) ∨ s.cal.applyAt.isSome ∨ !pairDecoded s c then s
  else if gapReached s (4 * c + 3) then dropMeasures c (discardCycle c s)
  else
    let ts := measuredTracks s c
    let s := forEach ts (writerCycle c) s
    let s := forEach [0, 1] (fun m s => forEach ts (fun t s => readerCycle c t m s) s) s
    let s := forEach (List.range 8) (noiseCycle c) s
    let s := csoCycle c (tiltCycle c (servoCycle c s))
    let s := setF Reg.CAL_STATUS_ACTIVE 1 (setCal { s.cal with applyAt := some (4 * c + 3), phase := 0 } s)
    prepareAfter (4 * c + 2) (dropMeasures c s)

/-- A cycle has missed its staging deadline: the gap frame has begun and its values are not where they must be (R233). -/
def calLate (s : State) : State :=
  match s.cal.applyAt with
  | none => s
  | some n => if gapReached s n ∧ s.cal.phase = 0 then discardCycle (n / 4) s else s

/-- A staged value is put in place (R231): a loop item as a seed, a servo gain and the tilt trim in their staged registers. -/
def applyCal (x : CalSet) (s : State) : State :=
  match x with
  | .cur w v => setCalWriter w { calWriter s w with base := v } s
  | .pre w v => setCalWriter w { calWriter s w with pre := v } s
  | .seed t m i v => setSeed t m i v s
  | .npred b tap v => setS (if tap = 0 then Reg.NPRED_P1 b else Reg.NPRED_P2 b) v s
  | .gain r kcd v => setF (gainFld r kcd) v s
  | .tilt v => setS Reg.CAL_TILT_STG_TRIM v s
  | .cso r v => setS (csoFld r) v s

/-- The staged values of a kind are put in place. -/
def applyKind (mine : CalSet → Bool) (s : State) : State :=
  let now := s.cal.staged.filter mine
  now.foldl (fun s x => applyCal x s) (setCal { s.cal with staged := s.cal.staged.filter fun x => !mine x } s)

/-- Servo values are written in the gap frame, offsets applied at its closing boundary, the others by each band's APPLY_STAGED (R231, R233). -/
def inGapFrame : CalSet → Bool
  | .gain _ _ _ => true | .tilt _ => true | .cur _ _ => false | .pre _ _ => false | .seed _ _ _ _ => false | .npred _ _ _ => false | .cso _ _ => false
def atClosing : CalSet → Bool
  | .cso _ _ => true | .gain _ _ _ => false | .tilt _ => false | .cur _ _ => false | .pre _ _ => false | .seed _ _ _ _ => false | .npred _ _ _ => false
def ofBand (b : Nat) : CalSet → Bool
  | .cur w _ => bandOf w == b | .pre w _ => bandOf w == b | .seed t _ _ _ => bandOf t == b | .npred k _ _ => k == b
  | .gain _ _ _ => false | .tilt _ => false | .cso _ _ => false

/-- A cycle all of whose values are in place is over. -/
def calDone (s : State) : State :=
  if s.cal.applyAt.isSome ∧ s.cal.phase = 2 ∧ s.cal.staged = [] then
    incF Reg.CAL_CYCLE_CNT (setF Reg.CAL_STATUS_ACTIVE 0 (setCal { s.cal with applyAt := none, phase := 0 } s))
  else s

/-- A frame boundary along the pass (R231, R233): the one that opens the gap frame before the data set of a staged change lets the servo values be
written, if the writers' have reached the shadows; the one that closes it applies the offsets. -/
def calFrame (s : State) : State :=
  match s.cal.applyAt with
  | none => s
  | some n =>
    match (if getB s Reg.POS_STATUS_REVERSE = passReverse (getF s Reg.POS_PASS) then setFrame s n else none) with
    | some r =>
      if r = -1 ∧ s.cal.phase = 0 ∧ !trimsUnderway s then applyKind inGapFrame (setCal { s.cal with phase := 1 } s)
      else if r = 0 ∧ s.cal.phase = 1 then calDone (applyKind atClosing (setCal { s.cal with phase := 2 } s))
      else s
    | none => s

/-- The origin of data set `n` in a band: its writers' and readers' values take effect through that board's APPLY_STAGED (R231), the trims of the
data set are seen to (R237), and writers that are inhibited in a data set of a pair are noted (R234). -/
def calAtOrigin (b n : Nat) (writing : Bool) (s : State) : State :=
  let s := if s.cal.applyAt = some n ∧ 1 ≤ s.cal.phase then calDone (applyKind (ofBand b) s) else s
  let s := if getB s Reg.CAL_CTRL_EN ∧ n % 4 < 2 then setF Reg.CAL_STATUS_ACTIVE 1 s else s
  if !writing then s
  else
    let s := forEach (List.range 64) (fun k s =>
      let w := 64 * b + k
      if n % 4 < 2 ∧ getB s (Reg.WSTATE_INHIBIT (w / 16) (w % 16)) then noteOut w s else s) s
    prepare b n s

/-- After the APPLY blocks of data set `n` in a band, the shadows get the trims of the next data set (R233). -/
def calNext (b n : Nat) (s : State) : State := prepare b (n + 1) (setCal { s.cal with applied := Tbl.set s.cal.applied b n } s)

/-- At standstill the offsets follow their estimates over 4,096 PWM periods every 100 ms (R242). `zeros` are the samples of a reel. -/
def csoStandstillOne (reel : Nat) (zeros : List (Option Nat)) (s : State) : State :=
  let l := zeros.filterMap fun z => z.map fun v => ((v % 4096 : Nat) : Int) - 2048
  if zeros.length < 4096 then s else csoOne (setS (csoFld reel)) reel (sumI l) l.length s

def csoStandstill (s : State) : State :=
  if getB s Reg.POS_STATUS_STILL ∧ getB s Reg.CAL_CTRL_EN ∧ getB s Reg.CAL_CTRL_CSO_EN ∧ !getB s (hdrQUIESCE 0x4B) then
    let z (x : Nat) : List (Option Nat) := (Tbl.get {} s.mot.reels x).zeros
    csoStandstillOne 1 (z 1) (csoStandstillOne 0 (z 0) s)
  else s

/-! ## Host writes (R250, R251) -/

/-- A host write of a calibration value replaces it, and the element's pair history goes (R250): staged changes of it are dropped, and the
ranges are counted from it. -/
def calWritten (addr : Nat) (s : State) : State :=
  let drop (p : CalSet → Bool) (s : State) : State := setCal { s.cal with staged := s.cal.staged.filter fun x => !p x } s
  let p := addr / 0x1000
  let off := addr % 0x1000
  if 0x20 ≤ p ∧ p < 0x40 ∧ 0x100 ≤ off ∧ off < 0x200 ∧ off % 0x10 = 0xC then
    let w := 16 * (p - 0x20) + (off - 0x100) / 0x10
    let e := calWriter s w
    let cur := getS s (curTrim w)
    let s := setCalWriter w { e with base := cur, refCur := cur, pre := getS s (preTrim w), refPre := getS s (preTrim w), changed := none } s
    forwardHfe (p - 0x20) off (drop (fun x => match x with | .cur v _ => v == w | .pre v _ => v == w | _ => false) s)
  else if addr = Reg.CAL_TILT_STG_TRIM.addr then
    let s := drop (fun x => match x with | .tilt _ => true | _ => false) s
    setCal { s.cal with refTilt := getS s Reg.CAL_TILT_STG_TRIM, tilt := { s.cal.tilt with changed := none } } s
  else if addr = Reg.CAL_CSO_REEL_A.addr then
    let s := drop (fun x => match x with | .cso _ _ => true | _ => false) s
    setCal { s.cal with refCso := Tbl.set (Tbl.set s.cal.refCso 0 (getS s Reg.CAL_CSO_REEL_A)) 1 (getS s Reg.CAL_CSO_REEL_B) } s
  else if 0x09 ≤ p ∧ p < 0x12 ∧ (off = 0x50 ∨ off = 0x58) then
    let kcd := off == 0x58
    let s := drop (fun x => match x with | .gain r k _ => r / 2 == p - 9 && k == kcd | _ => false) s
    let g (r : Nat) (t : Tbl Int) : Tbl Int := Tbl.set t (2 * r + b2n kcd) (getF s (gainFld r kcd))
    setCal { s.cal with refGain := g (2 * (p - 9) + 1) (g (2 * (p - 9)) s.cal.refGain), servo := { s.cal.servo with changed := none } } s
  else s

/-- A gain outside 192–768 is clamped to the nearer limit, and the write sets K_CLAMP (R57). -/
def clampGains (p : Nat) (kcd : Bool) (s : State) : State :=
  forEach [0, 1] (fun r s =>
    let f := gainFld (2 * (p - 9) + r) kcd
    let v := getF s f
    if v < 192 then setF (Reg.SV_STATUS_K_CLAMP (p - 9)) 1 (setF f 192 s)
    else if 768 < v then setF (Reg.SV_STATUS_K_CLAMP (p - 9)) 1 (setF f 768 s) else s) s

/-- Before the seal a staged copy reaches its active copy at once (R616). -/
def copyGains (p : Nat) (s : State) : State := wr (0x1000 * p + 0x5C) (rd s (0x1000 * p + 0x58)) (wr (0x1000 * p + 0x54) (rd s (0x1000 * p + 0x50)) s)

/-- A host write of a calibration register: what it stores, and what R250 makes of it. -/
def calValueWrite (addr value : Nat) (s : State) : State :=
  let p := addr / 0x1000
  let off := addr % 0x1000
  let writer := 0x20 ≤ p && p < 0x40 && 0x100 ≤ off && off < 0x200 && off % 0x10 == 0xC
  let servo := 0x09 ≤ p && p < 0x12 && (off == 0x50 || off == 0x58)
  lockGate p (fun s =>
    if writer then
      let n := p - 0x20
      let i := (off - 0x100) / 0x10
      let s := setF (Reg.WCAL_PRE_TRIM n i) (value / 2 ^ 8) (setF (Reg.WCAL_CUR_TRIM n i) value s)
      let was := getB s (Reg.WCAL_FREEZE n i)
      let s := setF (Reg.WCAL_FREEZE n i) (value / 2 ^ 16) s
      let s := if value.testBit 17 then setF (Reg.WCAL_ROLLED_BACK n i) 0 s else s
      let w := 16 * n + i
      let s := if was ∧ !value.testBit 16 then setCalWriter w { calWriter s w with rolls := [], hold := 0 } s else s
      calWritten addr s
    else if addr = Reg.CAL_TILT_STG_TRIM.addr then
      let s := setF Reg.CAL_TILT_STG_TILT_K (value / 2 ^ 16) (setF Reg.CAL_TILT_STG_TRIM value s)
      calWritten addr (if isSealed s then s else setF Reg.CAL_TILT_ACT value s)
    else if addr = Reg.CAL_CSO_REEL_A.addr then
      calWritten addr (setF Reg.CAL_CSO_REEL_B (value / 2 ^ 16) (setF Reg.CAL_CSO_REEL_A value s))
    else if servo then
      let s := clampGains p (off == 0x58) (wr addr (BitVec.ofNat 32 value) s)
      calWritten addr (if isSealed s then s else copyGains p s)
    else s) s

/-- An item of the calibration window as it reads (R251). -/
def calItem (s : State) : Nat :=
  let e := getF s Reg.CAL_WIN_ADDR_ELEMENT
  let kind := getF s Reg.CAL_WIN_ADDR_KIND
  let rolls (x : CalElem) : Nat := match x.rolls with | c :: _ => recentRolls c x | [] => 0
  if 512 ≤ e then 0
  else match kind, getF s Reg.CAL_WIN_ADDR_ITEM with
    | 0, 0 => ofS 32 (calWriter s e).base
    | 0, 1 => ofS 32 (calWriter s e).snr
    | 0, 2 => ofS 32 (calWriter s e).loadCur
    | 0, 3 => rolls (calWriter s e)
    | 3, _ => 0
    | k, 0 => ofS 32 (calReader s e (k - 1)).base
    | k, 1 => ofS 32 (calReader s e (k - 1)).snr
    | k, 2 => rolls (calReader s e (k - 1))
    | k, 3 => let x := calReader s e (k - 1); b2n x.rolled + 2 * b2n x.freeze
    | _, _ => 0

/-- A write of the calibration window (R251); what is not writable is ignored, with event bit 0. -/
def calWinWrite (value : Nat) (s : State) : State :=
  let e := getF s Reg.CAL_WIN_ADDR_ELEMENT
  let kind := getF s Reg.CAL_WIN_ADDR_KIND
  let item := getF s Reg.CAL_WIN_ADDR_ITEM
  let s := if getB s Reg.CAL_WIN_ADDR_AUTOINC then setF Reg.CAL_WIN_ADDR_ITEM (if 3 ≤ item then 0 else item + 1) s else s
  if 512 ≤ e ∨ kind = 3 then notify 0x4B 0 0 s
  else if kind = 0 ∧ item = 0 then
    let v := toS 8 value
    let s := setCalWriter e { calWriter s e with base := v, refCur := v, changed := none } s
    setCal { s.cal with staged := s.cal.staged.filter fun x => match x with | .cur w _ => w != e | _ => true }
      (forwardHfe (e / 16) (0x10C + 0x10 * (e % 16)) (setS (curTrim e) v s))
  else if kind ≠ 0 ∧ item = 0 then
    setCalReader e (kind - 1) { calReader s e (kind - 1) with base := toS 32 value, changed := none } s
  else if kind ≠ 0 ∧ item = 3 then
    let x := calReader s e (kind - 1)
    let fz := value.testBit 1
    setCalReader e (kind - 1) { x with rolled := x.rolled && !value.testBit 0, freeze := fz
                                       rolls := if x.freeze && !fz then [] else x.rolls, hold := if x.freeze && !fz then 0 else x.hold } s
  else notify 0x4B 0 0 s

/-! ## Load-time calibration (R247–R249) -/

/-- The current trim that the sweep chooses: the smallest whose SNR is within KNEE of the best (R247). -/
def sweepTrim (knee : Int) (snr : List Int) : Int :=
  let best := snr.foldl max (snr.headD 0)
  match (List.range 8).find? fun i => best - knee ≤ snr.getD i (best - knee - 1) with
  | some i => -8 + 2 * (i : Int)
  | none => 0

/-- One writer's sweep: its trim, and whether it is weak (R247, R249). -/
def loadWriter (x : Nat × List Int) (s : State) : State :=
  let w := x.1
  if 512 ≤ w then s
  else
    let d := sweepTrim (getF s Reg.CAL_WCUR_KNEE) x.2
    let s := setCalWriter w { calWriter s w with base := d, refCur := d, loadCur := d, changed := none } s
    let s := forwardHfe (w / 16) (0x10C + 0x10 * (w % 16)) (setS (curTrim w) d s)
    if x.2.foldl max (x.2.headD 0) < 10 * (getF s Reg.CAL_LOAD_SNR_MIN : Int) then
      raise 0x4B 30 (faultCode 0 0x7 0x06) noAcct w (incF Reg.CAL_STATUS_WEAK_WRITERS s)
    else s

/-- One track's delays from its mean phases (R247), in 2^−8 of 1/128 bit. -/
def loadDelay (x : Nat × Int × Int × Int) (s : State) : State :=
  let (w, f, r1, r0) := x
  if 512 ≤ w then s
  else
    let half := fdiv (f - r1) 2
    let pre := -(clampI (-16) 16 (rdiv half 256))
    let s := setCalReader w 1 { calReader s w 1 with base := rdiv (fdiv (f + r1) 2) 256, changed := none } s
    let s := setCalReader w 0 { calReader s w 0 with base := rdiv (r0 + half) 256, changed := none } s
    let s := setCalWriter w { calWriter s w with pre, refPre := pre } s
    forwardHfe (w / 16) (0x10C + 0x10 * (w % 16)) (setS (preTrim w) pre s)

/-- The groups that converge at load: values and the references of R243 together. -/
def loadGroups (x : LoadCal) (s : State) : State :=
  let s := x.items.foldl (fun s y =>
    let (t, m, i, v) := y
    if t < 512 ∧ m < 2 ∧ itemMoves i true then
      applyCal (.seed t m i v) (setCal { s.cal with refItem := Tbl.set s.cal.refItem (itemKey t m i) v } s) else s) s
  let s := x.taps.foldl (fun s y =>
    let (b, k, v) := y
    if b < 8 ∧ k < 2 then applyCal (.npred b k v) (setCal { s.cal with refTap := Tbl.set s.cal.refTap (2 * b + k) v } s) else s) s
  let s := x.gains.foldl (fun s y =>
    let (r, kab, kcd) := y
    if r < 18 then
      let kab := clampN 192 768 kab
      let kcd := clampN 192 768 kcd
      let s := setCal { s.cal with refGain := Tbl.set (Tbl.set s.cal.refGain (2 * r) kab) (2 * r + 1) kcd } s
      let act (k : Bool) : Fld :=
        if k then (if r % 2 = 0 then Reg.SV_KCD_ACT_RD0 (r / 2) else Reg.SV_KCD_ACT_RD1 (r / 2))
        else (if r % 2 = 0 then Reg.SV_KAB_ACT_RD0 (r / 2) else Reg.SV_KAB_ACT_RD1 (r / 2))
      setF (act true) kcd (setF (act false) kab (applyCal (.gain r true kcd) (applyCal (.gain r false kab) s))) else s) s
  let s := match x.tilt with | some v => setS Reg.CAL_TILT_ACT v (applyCal (.tilt v) (setCal { s.cal with refTilt := v } s)) | none => s
  x.cso.foldl (fun s y => if y.1 < 2 then applyCal (.cso y.1 y.2) (setCal { s.cal with refCso := Tbl.set s.cal.refCso y.1 y.2 } s) else s) s

/-- Load-time calibration (R247–R249), run at a load while LOAD_EN is set: without LOAD_WR the writers are left alone; a failure keeps every
setting and lets the load proceed. -/
def loadCalibrate (x : LoadCal) (s : State) : State :=
  if !getB s Reg.CAL_CTRL_LOAD_EN then s
  else
    let s := setF Reg.CAL_STATUS_WEAK_WRITERS 0 (setF Reg.CAL_STATUS_LOAD_DONE 0 (setF Reg.CAL_STATUS_LOAD_SEEDS 0 s))
    if !x.ok then raise 0x4B 30 (faultCode 2 0x7 0x05) noAcct 0 (setF Reg.CAL_STATUS_LOAD_SEEDS 1 s)
    else
      let s := if getB s Reg.CAL_CTRL_LOAD_WR then x.phi.foldl (fun s y => loadDelay y s) (x.snr.foldl (fun s y => loadWriter y s) s) else s
      setF Reg.CAL_STATUS_LOAD_DONE 1 (loadGroups x s)

/-! ## Meanings -/

/-- CAL_CYCLE_COMPUTE. -/
def execCalCycleCompute (cycle : Nat) (s : State) : Host.Outcome State Fault Refusal := .next (calCycle cycle s)

/-- CAL_LATE. -/
def execCalLate (s : State) : Host.Outcome State Fault Refusal := .next (calLate s)

/-- CSO_STANDSTILL_UPDATE. -/
def execCsoStandstillUpdate (s : State) : Host.Outcome State Fault Refusal := .next (csoStandstill s)

/-- CAL_VALUE_WRITE. -/
def execCalValueWrite (addr value : Nat) (s : State) : Host.Outcome State Fault Refusal := .next (calValueWrite addr value s)

/-- CAL_WIN_WRITE. -/
def execCalWinWrite (value : Nat) (s : State) : Host.Outcome State Fault Refusal := .next (lockGate 0x4B (calWinWrite value) s)

end Sys2Proof.Machine
end

