-- ==== Sys2Proof/Machine/Recovery.lean ====
section
/-!
DEFINITION. A data set as it is read back: C2, the CRCs and C3 (R136–R140), the recovery ladder (R270–R275) and the weak list (R276).
-/
namespace Sys2Proof.Machine

/-! ## C2 (R136–R138) -/

/-- One byte column of an SDS after C2: its 240 symbols, whether it FAILED, and the rows in which a symbol changed. -/
structure Column where
  word    : List Nat
  failed  : Bool
  changed : List Nat
  deriving DecidableEq, Repr

/-- Column `c` of an SDS decoded under a margin; rows without a GOOD copy are flagged (R136, R137). -/
def decodeColumn (margin sds c : Nat) (rows : Tbl (List Byte)) : Column :=
  let row (r : Nat) : Option (List Byte) := (rows.find? fun e => e.1 == 32 * r + sds).map Prod.snd
  let flagged := (List.range 240).filter fun r => (row r).isNone
  let col := (List.range 240).map fun r => match row r with | some l => (l.getD c 0).toNat | none => 0
  match c2Decode margin flagged col with
  | some (out, _) => { word := out, failed := false, changed := (List.range 240).filter fun r => out.getD r 0 != col.getD r 0 }
  | none => { word := col, failed := true, changed := [] }

/-- All columns of a data set, by SDS. -/
def decodeC2 (margin : Nat) (rows : Tbl (List Byte)) : List (List Column) :=
  (List.range 32).map fun sds => (List.range 2048).map fun c => decodeColumn margin sds c rows

/-- The payload that decoded columns make (R92). -/
def columnsPayload (cols : List (List Column)) : List Byte :=
  (List.range dsPayload).map fun o =>
    let g := o / 2048
    BitVec.ofNat 8 ((((cols.getD (sdsOf g) []).getD (o % 2048) ⟨[], true, []⟩).word).getD (rowOf g) 0)

/-- FAILED columns, by SDS and byte. -/
def failedColumns (cols : List (List Column)) : List (Nat × Nat) :=
  (List.range 32).flatMap fun sds => ((List.range 2048).filter fun c => ((cols.getD sds []).getD c ⟨[], true, []⟩).failed).map fun c => (sds, c)

/-- Both CRCs of a payload pass (R139). -/
def crcsPass (p : List Byte) : Bool :=
  crc64 (p.take 0x1F0) == beNat (bytesAt p 0x1F0 8) && crc64 (p.drop 0x200) == beNat (bytesAt p 0x1F8 8)

/-- The DSIT's MAGIC, VERSION and KIND are valid (R98). -/
def dsitValid (p : List Byte) : Bool :=
  beNat (bytesAt p 0 4) == 0x50524631 && p.getD 4 0 == 1 && (p.getD 5 0 == 1 || p.getD 5 0 == 2)

/-- A data set number that is a C3 data set's (R103). -/
def isC3 (n : Nat) : Bool := 30 ≤ n % 32

/-- C2 and the CRC check over what has been collected of a data set (R136–R139); `level` is noted when both CRCs pass. -/
def decodeSet (n margin level : Nat) (s : State) : State :=
  match readSet s n with
  | none => s
  | some d =>
    let cols := decodeC2 margin d.rows
    let payload := columnsPayload cols
    let failed := failedColumns cols
    let good := (List.range 32).map fun sds => sumN ((cols.getD sds []).map fun c =>
      (c.changed.filter fun r => (d.rows.find? fun e => e.1 == 32 * r + sds).isSome).length)
    let corr := sumN (cols.map fun l => (l.filter fun c => !c.failed && !c.changed.isEmpty).length)
    let s := addF Reg.C2_CORR_CNT corr (addF Reg.C2_FAIL_CNT failed.length (addF Reg.C1_MISCORR_CNT (sumN good) s))
    let s := forEach ((List.range 32).filter fun sds => 0 < good.getD sds 0) (fun sds s => raiseC 0x49 0 0x01 noAcct sds s) s
    if isC3 n then onReadSet n (fun d => { d with payload, failed, allBad := false, done := failed.isEmpty, level }) s
    else
      let ok := crcsPass payload
      if ok ∧ dsitValid payload then onReadSet n (fun d => { d with payload, failed := [], allBad := false, done := true, level }) s
      else
        let s := onReadSet n (fun d => { d with payload, failed, allBad := failed.isEmpty, done := false }) s
        if !failed.isEmpty then s
        else let s := incF Reg.DS_CRC_FAIL_CNT s; if ok then s else raiseC 0x49 2 0x02 noAcct n s

/-! ## C3 (R140) -/

/-- Payload offset `o` of a data set is flagged for C3 (R139). -/
def flaggedAt (d : ReadSet) (o : Nat) : Bool := !d.done && (d.allBad || d.failed.contains (sdsOf (o / 2048), o % 2048))

/-- A data set takes what C3 makes of its payload, and its CRCs are checked again (R140). One that stood by its CRCs before, and would not any more,
keeps the payload that they passed: its every byte counts as correct (R139; log entry: C3 on data sets that stand). -/
def afterC3 (level : Nat) (d : ReadSet) (p : List Byte) (s : State) : State :=
  if isC3 d.dsn then onReadSet d.dsn (fun d => { d with payload := p }) s
  else if crcsPass p ∧ dsitValid p then onReadSet d.dsn (fun d => { d with payload := p, done := true, level := if d.done then d.level else level }) s
  else if d.done then s
  else raiseC 0x49 3 0x03 noAcct d.dsn s

/-- C3 over the group of base `base`, as far as its data sets have been read; those not written count as zero (R103, R131, R140). -/
def decodeC3 (base level : Nat) (s : State) : State :=
  let sets := s.rch.sets.filter fun d => base ≤ d.dsn && d.dsn < base + 32
  let present := sets.map fun d => d.dsn - base
  let touched := sets.filter fun d => !d.done
  if touched = [] ∨ !getB s Reg.OUT_CTRL_C3_EN then s
  else
    let res := (List.range dsPayload).map fun o =>
      let word := (List.range 32).map fun i => match sets.find? fun d => d.dsn == base + i with | some d => (d.payload.getD o 0).toNat | none => 0
      c3Decode (getB s Reg.OUT_CTRL_C3_ERR_EN) ((sets.filter fun d => flaggedAt d o).map fun d => d.dsn - base) present word
    let corr := (res.filter fun r => match r with | .corrected _ => true | _ => false).length
    let bad := (res.filter fun r => r == .failed).length
    let s := addF Reg.C3_CORR_CNT corr (addF Reg.C3_FAIL_CNT bad s)
    sets.foldl (fun (s : State) (d : ReadSet) =>
      let p : List Byte := (d.payload.zip res).map fun x => match x.2 with | .corrected w => BitVec.ofNat 8 (w.getD (d.dsn - base) 0) | _ => x.1
      if d.done && p == d.payload then s else afterC3 level d p s) s

/-! ## The weak list (R275, R276) -/

/-- A DSN joins the weak list (R275, R276). -/
def addWeak (n : Nat) (s : State) : State :=
  if s.rch.weak.contains n then s
  else if 256 ≤ s.rch.weak.length then raiseC 0x4C 0 0x0D noAcct n (setF Reg.RCV_STATUS_WEAK_OVF 1 s)
  else setRch { s.rch with weak := s.rch.weak ++ [n] } s

/-- A write of the weak list window (R276, R617). -/
def weakWrite (v : Nat) (s : State) : State :=
  let e := getF s Reg.WEAK_WIN_ADDR_ENTRY
  let s := if getB s Reg.WEAK_WIN_ADDR_AUTOINC then setF Reg.WEAK_WIN_ADDR_ENTRY (e + 1) s else s
  let l := s.rch.weak
  if e < l.length then setRch { s.rch with weak := l.set e v } s
  else if e = l.length then setRch { s.rch with weak := l ++ [v] } s
  else s

/-- The weak list is cleared (R276). -/
def clearWeak (s : State) : State := setRch { s.rch with weak := [] } s

/-! ## The recovery ladder (R270–R274) -/

/-- The C2 margin of a rung (R270, R284). -/
def rungMargin (s : State) (level : Nat) : Nat :=
  min 8 (getF s (match level with
    | 1 => Reg.RCV_MARGIN_L1 | 2 => Reg.RCV_MARGIN_L2 | 3 => Reg.RCV_MARGIN_L3 | 4 => Reg.RCV_MARGIN_L4 | _ => Reg.RCV_MARGIN_L5))

/-- The passes of a rung (R270, R284). -/
def rungNeed (s : State) (level : Nat) : Nat :=
  if level = 1 then max 1 (getF s Reg.RCV_CTRL_L1_PASSES) else if level = 2 then max 1 (getF s Reg.RCV_CTRL_L2_PASSES) else if level = 4 then 1 else 2

/-- A data set is on the ladder at a rung, which takes its settings as they stand (R270, R284); level 2 starts the loops from their seeds. -/
def ladderAt (n level : Nat) (s : State) : State :=
  let s := setRch { s.rch with rung := { need := rungNeed s level, margin := rungMargin s level, ofs := getF s Reg.RCV_CTRL_L3_OFS } } s
  let s := if level = 2 then freshLoops s else s
  setF Reg.RCV_DSN n (setF Reg.RCV_STATUS_LEVEL level (setF Reg.RCV_STATUS_ACTIVE 1 s))

/-- The ladder is left. -/
def ladderOff (s : State) : State := setF Reg.RCV_STATUS_LEVEL 0 (setF Reg.RCV_STATUS_ACTIVE 0 s)

/-- No rung resolves a data set (R274): the command that needs it will end with MEDIUM_ERROR. -/
def ladderFail (n : Nat) (s : State) : State :=
  raiseC 0x4C 3 0x0C noAcct n (incF Reg.RCV_FAIL_CNT (onReadSet n (fun d => { d with lost := true }) (ladderOff s)))

/-- The rung after `level`, none above MAX_LEVEL (R273); level 4 is skipped while C3_EN is clear (R142). -/
def nextRung (s : State) (level : Nat) : Option Nat :=
  let l := if level + 1 = 4 ∧ !getB s Reg.OUT_CTRL_C3_EN then 5 else level + 1
  if l ≤ min 5 (getF s Reg.RCV_CTRL_MAX_LEVEL) then some l else none

/-- A data set has been resolved at a level (R274, R275, R284). -/
def resolvedAt (n level : Nat) (s : State) : State :=
  let s := if level = 0 then s else incF (Reg.RCV_L_CNT (level - 1)) s
  if 3 ≤ level then raiseC 0x4C 0 0x0B noAcct n (addWeak n s) else s

/-- Rows of data sets `a` to `b` are being read: a read window of one is open, or a row of one waits for the end of its decoding. -/
def rowsUnderway (s : State) (a b : Nat) : Bool :=
  (s.rch.ctx.any fun c => c.read && a ≤ c.dsn && c.dsn ≤ b) || (List.range 8).any fun i => (band s i).windows.any fun w => w.read && a ≤ w.dsn && w.dsn ≤ b

/-- Data set `n` has been read through, with the four behind it or as far as the run went (R96, R139). -/
def readThrough (s : State) (n : Nat) : Bool :=
  let is (m : Nat) : Bool := match readSet s m with | some d => d.read | none => false
  is n && (is (n + 4) || !(List.range 8).any fun b => (band s b).running) && !rowsUnderway s n (n + 4)

/-- Every row of a data set that a pass reads has been decoded (R139): at streaming settings, C2 and the CRCs decide whether it stands or goes
up the ladder; on the ladder its rows wait for the rung's end. -/
def rowsComplete (n : Nat) (s : State) : State :=
  match readSet s n with
  | none => s
  | some d =>
    if d.done ∨ d.lost ∨ !readThrough s n ∨ !getB s Reg.OUT_CTRL_C2_EN ∨ getB s Reg.RCV_STATUS_ACTIVE then s
    else
      let s := decodeSet n (min 8 (getF s Reg.OUT_CTRL_C2_MARGIN)) 0 s
      match readSet s n with
      | none => s
      | some d =>
        if d.done ∨ isC3 n then s
        else match (if getB s Reg.RCV_CTRL_EN then nextRung s 0 else none) with
          | some l => ladderAt n l s
          | none => ladderFail n s

/-- The passes of the rung in progress have all been read: of the data set on the ladder, on level 4 of every other data set of its group that is not
resolved yet, the two C3 data sets among them (R270, R273). -/
def rungRead (s : State) : Bool :=
  let r := s.rch.rung
  let n := getF s Reg.RCV_DSN
  let base := n / 32 * 32
  if getF s Reg.RCV_STATUS_LEVEL = 4 then
    let others := s.rch.sets.filter fun d => base ≤ d.dsn && d.dsn < base + 32 && d.dsn != n && !d.done
    (others.all fun d => r.need ≤ Tbl.get 0 r.passes d.dsn) && [base + 30, base + 31].all fun m => m == n || (readSet s m).isSome
  else decide (r.need ≤ Tbl.get 0 r.passes n)

/-- A rung ends: all its passes have been read and their rows decoded (R270–R275). On levels 4 and 5 the rest of the group is read too; of it,
the data sets that C3 recovers count as resolved at that level, and those that stand by their own C2 count as read (R272). -/
def rungDone (s : State) : State :=
  let n := getF s Reg.RCV_DSN
  let level := getF s Reg.RCV_STATUS_LEVEL
  if !getB s Reg.RCV_STATUS_ACTIVE ∨ !rungRead s ∨ (s.rch.ctx.any fun c => c.read) then s
  else
    let margin := s.rch.rung.margin
    let base := n / 32 * 32
    let group := (s.rch.sets.filter fun d => base ≤ d.dsn && d.dsn < base + 32 && !d.done).map fun d => d.dsn
    let ok (s : State) (m : Nat) : Bool := match readSet s m with | some d => d.done | none => false
    let s := if level = 4 ∨ level = 5 then forEach group (fun m s => decodeSet m margin (if m = n then level else 0) s) s else decodeSet n margin level s
    let byC3 := if (level = 4 ∨ level = 5) ∧ !ok s n then group.filter fun m => !isC3 m && !ok s m else []
    let s := if byC3 = [] then s else decodeC3 base level s
    if ok s n then ladderOff (forEach (if byC3 = [] then [n] else byC3.filter (ok s)) (fun m s => resolvedAt m level s) s)
    else match nextRung s level with
      | some l => ladderAt n l s
      | none => ladderFail n s

/-! ## Meanings -/

/-- DATA_SET_ROWS_COMPLETE. -/
def execDataSetRowsComplete (dsn : Nat) (s : State) : Host.Outcome State Fault Refusal := .next (rowsComplete dsn s)

/-- RECOVERY_RUNG_DONE. -/
def execRecoveryRungDone (s : State) : Host.Outcome State Fault Refusal := .next (rungDone s)

/-- WEAK_WIN_WRITE. -/
def execWeakWinWrite (dsn : Nat) (s : State) : Host.Outcome State Fault Refusal := .next (lockGate 0x4C (weakWrite dsn) s)

/-- WEAK_CLR. -/
def execWeakClr (s : State) : Host.Outcome State Fault Refusal := .next (lockGate 0x4C clearWeak s)

end Sys2Proof.Machine
end

