-- ==== Sys2Proof/Machine/Reading.lean ====
section
/-!
DEFINITION. Reading granules back (R99, R306, R324, R331, R332, R451, R452): the granule stream over the data sets that the read path has
resolved, the search for a logical position, the delivery of records, and what a READ and a LOCATE do.
-/
namespace Sys2Proof.Machine

/-! ## Data sets as read (R98, R105, R110) -/

def dsitKIND (p : List Byte) : Nat := beNat (bytesAt p 0x005 1)
def dsitDSN (p : List Byte) : Nat := beNat (bytesAt p 0x008 4)
def dsitCONT (p : List Byte) : Nat := beNat (bytesAt p 0x020 4)
def dsitGRANS (p : List Byte) : Nat := beNat (bytesAt p 0x024 4)
def dsitFIRST (p : List Byte) : Nat := beNat (bytesAt p 0x028 4)
def dsitFILL (p : List Byte) : Nat := beNat (bytesAt p 0x02C 4)
def dsitGSN (p : List Byte) : Nat := beNat (bytesAt p 0x030 8)
def dsitRECORDS (p : List Byte) : Nat := beNat (bytesAt p 0x038 8)
def dsitFILEMARKS (p : List Byte) : Nat := beNat (bytesAt p 0x040 8)

/-- The DSN under which a data set is read: the relocation table's where the selected map names one (R110, R270). -/
def physOf (s : State) (n : Nat) : Nat :=
  match s.vol.map with
  | some m => match m.relocs.find? fun e => e.1 == n with | some e => e.2 | none => n
  | none => n

/-- What the read path has of data set `n`: its payload, a loss, something that is not part of the granule stream (a relocated copy or an
end-of-data map), or nothing yet. -/
inductive SetIs where
  | here (p : List Byte)
  | lost
  | other
  | absent
  deriving DecidableEq, Repr

def setAt (s : State) (n : Nat) : SetIs :=
  match readSet s (physOf s n) with
  | none => .absent
  | some d =>
    if d.done then (if dsitKIND d.payload = 1 ∧ dsitDSN d.payload = n then .here d.payload else .other)
    else if d.lost then .lost else .absent

/-- The DSN at which the volume ends; without a map, none (R113, R282). -/
def endDsn (s : State) : Nat := match s.vol.map with | some _ => s.vol.eodDsn | none => 2 ^ 32

/-- The next data set of the granule stream after `n` (R99, R102): a group ends with its 30th data set, with a data set that ends in zero
fill, or where its C3 follows. -/
def nextDsn (s : State) (n : Nat) (p : Option (List Byte)) : Nat :=
  let after := n / 32 * 32 + 32
  let filled : Bool := match p with | some b => decide (dsitFILL b < dsPayload) | none => false
  if 29 ≤ n % 32 ∨ filled then after
  else if (readSet s (n / 32 * 32 + 30)).isSome ∧ (readSet s (physOf s (n + 1))).isNone then after
  else n + 1

/-- The search for a data set of the stream from `n` on. -/
inductive Found where
  | at_ (n : Nat) (p : List Byte)
  | lost (n : Nat)
  | eod
  | wait
  deriving DecidableEq, Repr

def findSet (s : State) : Nat → Nat → Found
  | 0, _ => .wait
  | fuel + 1, n =>
    if endDsn s ≤ n then .eod
    else match setAt s n with
      | .here p => .at_ n p
      | .lost => .lost n
      | .other => findSet s fuel (nextDsn s n none)
      | .absent => .wait

/-- Enough steps for a walk over every granule that has been read. -/
def walkFuel (s : State) : Nat := sumN (s.rch.sets.map fun d => 2 + dsitGRANS d.payload) + 2

/-- Where the granules of a data set begin: its first header, or its end. -/
def firstHeader (p : List Byte) : Nat := min (dsitFIRST p) dsPayload

/-! ## The granule stream (R99) -/

/-- Bytes taken from the granule stream: the bytes, where they end and the data sets that hold them; or what stands in the way. A stream
that breaks off (R361, R268) goes on at the next header. -/
inductive Got where
  | bytes (b : List Byte) (n off : Nat) (dsns : List Nat)
  | broken (n off : Nat)
  | lost (n : Nat)
  | wait
  deriving DecidableEq, Repr

def getBytes (s : State) : Nat → Nat → Nat → Nat → Got
  | 0, _, _, _ => .wait
  | fuel + 1, n, off, len =>
    match setAt s n with
    | .here p =>
      let room := dsPayload - off
      if len ≤ room then .bytes (bytesAt p off len) n (off + len) [n]
      else match findSet s (walkFuel s) (nextDsn s n (some p)) with
        | .at_ m q =>
          let need := len - room
          if dsitCONT q < min need streamLen then .broken m (firstHeader q)
          else match getBytes s fuel m 0x200 need with
            | .bytes b k o l => .bytes (bytesAt p off room ++ b) k o (n :: l)
            | x => x
        | .lost m => .lost m
        | .eod => .broken (endDsn s) 0x200
        | .wait => .wait
    | .lost => .lost n
    | _ => .wait

/-- The granule header at or after a place. -/
inductive HdAt where
  | at_ (n off : Nat) (head : List Byte)
  | lost (n : Nat)
  | eod
  | wait
  deriving DecidableEq, Repr

def headerAt (s : State) : Nat → Nat → Nat → HdAt
  | 0, _, _ => .wait
  | fuel + 1, n, off =>
    let on (m : Nat) : HdAt := match findSet s (walkFuel s) m with
      | .at_ k q => headerAt s fuel k (firstHeader q)
      | .lost k => .lost k
      | .eod => .eod
      | .wait => .wait
    if endDsn s ≤ n then .eod
    else match setAt s n with
      | .here p =>
        if min (dsitFILL p) dsPayload ≤ off then on (nextDsn s n (some p))
        else match getBytes s (walkFuel s) n off 64 with
          | .bytes b _ _ _ => .at_ n off b
          | .broken m o => headerAt s fuel m o
          | .lost m => .lost m
          | .wait => .wait
      | .lost => .lost n
      | .other => on (nextDsn s n none)
      | .absent => .wait

/-- The bytes of a granule on tape, padding included (R99). -/
def granSpan (h : GranHdr) : Nat := (64 + h.rmapLen + h.bodyLen + (if h.enc then 16 else 0) + 7) / 8 * 8

/-- The record of a granule's first piece. -/
def firstPiece (h : GranHdr) (lens : List Nat) : Nat := h.first - leadPieces lens

/-- The record of the first piece of the granule at a place; none while its record map has not been read. -/
def firstPieceAt (s : State) (n off : Nat) (h : GranHdr) : Option Nat :=
  if h.rmapLen ≤ 8 then some h.first
  else match getBytes s (walkFuel s) n off (64 + h.rmapLen) with
    | .bytes b _ _ _ => some (firstPiece h (rmapPieces (bytesAt b 64 h.rmapLen)))
    | .wait => none
    | _ => some h.first

/-! ## The search for a position (R451, R452) -/

/-- Where a logical position lies: before a granule, its header with `first` the record of its first piece and the filemarks before it; at end of
data, with the records, the filemarks and one above the last GSN; or what stands in the way, with the records and filemarks before a data set that
is lost (R274) or a granule whose header fails. -/
inductive Seek where
  | here (n off : Nat) (h : GranHdr) (fm hdr : Nat)
  | eod (records fm hdr : Nat)
  | lost (n recs fm : Nat)
  | corrupt (n off recs fm : Nat)
  | wait
  deriving DecidableEq, Repr

/-- The search stops before this granule: the record starts in it, or it is a filemark not yet passed. -/
def stopsAt (h : GranHdr) (fm r : Nat) (f : Option Nat) : Bool :=
  if h.filemark then (match f with | some f => decide (f ≤ fm) && decide (r ≤ h.first) | none => false)
  else decide (r < h.first + h.records + b2n h.endsMid)

/-- The walk from a header on: filemarks, records and one above the last GSN so far. With `f` it stops before the filemark that follows `f`
filemarks; without, after all filemarks before the record. -/
def walk (s : State) (r : Nat) (f : Option Nat) : Nat → Nat → Nat → Nat → Nat → Nat → Seek
  | 0, _, _, _, _, _ => .wait
  | fuel + 1, n, off, fm, recs, hdr =>
    match headerAt s (walkFuel s) n off with
    | .at_ n off head =>
      if !headerOk head then .corrupt n off recs fm
      else
        match firstPieceAt s n off (granHdr head) with
        | none => .wait
        | some first =>
          let h := { granHdr head with first }
          if stopsAt h fm r f then .here n off h fm hdr
          else
            let past := if h.filemark then recs else h.first + h.records
            match getBytes s (walkFuel s) n off (granSpan h) with
            | .bytes _ m o _ => walk s r f fuel m o (fm + b2n h.filemark) past (h.gsn + 1)
            | .broken m o => walk s r f fuel m o fm past (h.gsn + 1)
            | .lost m => .lost m recs fm
            | .wait => .wait
    | .lost m => .lost m recs fm
    | .eod => .eod recs fm hdr
    | .wait => .wait

/-- A data set from whose first header a walk to a record may start. -/
def mayStartAt (s : State) (r : Nat) (f : Option Nat) (n : Nat) : Bool :=
  match setAt s n with
  | .here p =>
    let head := bytesAt p (firstHeader p) 64
    let h := granHdr head
    decide (n < endDsn s) && dsitGRANS p != 0 && (dsitCONT p == 0 || decide (64 ≤ dsitCONT p)) && headerOk head
      && (match firstPieceAt s n (firstHeader p) h with | some k => decide (k + b2n h.startsMid ≤ r) | none => false) && (match f with | some f => decide (dsitFILEMARKS p ≤ f) | none => true)
  | _ => false

/-- A logical position is looked for from the nearest data set before it; nothing stands before a first data set that is lost. -/
def seek (s : State) (r : Nat) (f : Option Nat) : Seek :=
  if endDsn s = 0 then .eod 0 0 0
  else
    let starts := ((s.rch.sets.filter fun d => d.done).map fun d => dsitDSN d.payload).filter (mayStartAt s r f)
    match starts with
    | [] => match findSet s (walkFuel s) 0 with | .lost n => .lost n 0 0 | _ => .wait
    | n :: rest =>
      let best := rest.foldl max n
      match setAt s best with
      | .here p => walk s r f (walkFuel s) best (firstHeader p) (dsitFILEMARKS p) (dsitRECORDS p) (dsitGSN p)
      | _ => .wait

/-! ## End of data -/

/-- The counts at end of data become known (R98). -/
def learnEod (records fm hdr : Nat) (s : State) : State :=
  if s.vol.eodKnown then s else setVol { s.vol with records, filemarks := fm, eodHdr := hdr, eodKnown := true } s

/-- The logical position is end of data. -/
def toEod (s : State) : State := setVol { s.vol with posRecord := s.vol.records, posFm := s.vol.filemarks, atEod := true } s

/-- The end-of-data map's own data set has been read: its DSIT gives the counts (R98, R104). -/
def eodSetRead (s : State) : State :=
  match readSet s s.vol.eodDsn with
  | some d => if d.done ∧ dsitKIND d.payload = 2 then learnEod (dsitRECORDS d.payload) (dsitFILEMARKS d.payload) (dsitGSN d.payload) s else s
  | none => s

/-! ## Delivery of records (R427, R451) -/

/-- Largest DATA_IN packet: 64 BODY flits (R418). -/
def dinMax : Nat := 2048

/-- The packets of bytes of one record, from a place in it: `ends` says that the last byte ends it. -/
def dinPackets (queue tag offset recOfs recno gsn : Nat) (bytes : List Byte) (ends : Bool) : List DinPkt :=
  let n := max 1 ((bytes.length + dinMax - 1) / dinMax)
  (List.range n).map fun i =>
    { queue, tag, offset := offset + dinMax * i, recOfs := recOfs + dinMax * i, recno, bytes := bytesAt bytes (dinMax * i) dinMax
      recEnd := ends && i + 1 == n, gsn }

/-- The executing command, changed. -/
def onExec (f : ExecSt → ExecSt) (s : State) : State := setQue { s.que with exec := s.que.exec.map f } s

/-- DATA_IN of the executing stream command joins what waits. -/
def pushDin (l : List DinPkt) (s : State) : State := setQue { s.que with din := s.que.din ++ l } s

/-- A piece of a granule: its record, its bytes (fewer than its length where decompression broke off), its length, and whether it ends the
record. -/
structure RecPiece where
  recNo : Nat
  bytes : List Byte
  len   : Nat
  ends  : Bool
  deriving DecidableEq, Repr

/-- The pieces of a granule's plaintext (R637). -/
def recPieces (h : GranHdr) (lens : List Nat) (plain : List Byte) : List RecPiece :=
  let n := lens.length
  let first := firstPiece h lens
  (lens.zipIdx.foldl (fun (acc : List RecPiece × Nat) e =>
    (acc.1 ++ [{ recNo := first + e.2, bytes := bytesAt plain acc.2 e.1, len := e.1, ends := !(h.endsMid && e.2 + 1 == n) }], acc.2 + e.1)) ([], 0)).1

/-- The READ in progress has delivered all it may: no more records, or DATA_LEN would be passed (R451). -/
def readFull (x : ExecSt) (next : Nat) : Bool :=
  let d := x.entry.desc
  (dField d 0x10 4 != 0 && decide (dField d 0x10 4 ≤ x.count)) || decide (dDataLen d < x.sent + next)

/-- Whole records of an opened granule are delivered; a piece without its record's end is kept (R331, R451). Answers whether READ stops. -/
def deliverHeld (g : RdGran) : List RecPiece → State → State × Bool
  | [], s => (s, false)
  | p :: rest, s =>
    match s.que.exec with
    | none => (s, true)
    | some x =>
      if p.recNo < s.vol.posRecord then deliverHeld g rest s
      else
        let bytes := x.part ++ p.bytes
        if readFull x bytes.length then (s, true)
        else if !p.ends then deliverHeld g rest (onExec (fun x => { x with part := bytes }) s)
        else
          let s := pushDin (dinPackets 0 (dTag x.entry.desc) x.sent 0 p.recNo g.gsn bytes true) s
          let s := onExec (fun x => { x with part := [], count := x.count + 1, bytes := x.bytes + bytes.length, sent := x.sent + bytes.length }) s
          deliverHeld g rest (setVol { s.vol with posRecord := p.recNo + 1 } s)

/-- The length of a record from a granule that holds its start to its end (R637); none when its end cannot be read. `wait` says that more
must be read first. -/
def recordLen (s : State) : Nat → Nat × Nat → Nat → Option Nat × Bool
  | 0, _, _ => (none, true)
  | fuel + 1, c, sofar =>
    match headerAt s (walkFuel s) c.1 c.2 with
    | .wait => (none, true)
    | .at_ n off head =>
      let h := granHdr head
      if !headerOk head ∨ !h.startsMid then (none, false)
      else match getBytes s (walkFuel s) n off (granSpan h) with
        | .bytes b m o _ =>
          let lens := rmapPieces (bytesAt b 64 h.rmapLen)
          let first := lens.headD 0
          if 1 < lens.length ∨ !h.endsMid then (some (sofar + first), false) else recordLen s fuel (m, o) (sofar + first)
        | .wait => (none, true)
        | _ => (none, false)
    | _ => (none, false)

/-- The whole length of the record that a piece starts; a record already begun has been measured. -/
def pieceRecord (s : State) (g : RdGran) (x : ExecSt) (p : RecPiece) : Option Nat × Bool :=
  if p.ends then (some p.len, false)
  else if x.partOfs ≠ 0 then (some 0, false)
  else recordLen s (walkFuel s) g.next p.len

/-- Cut-through delivery of what decompression gives of a granule (R332): every byte of a record that READ may deliver goes out at once.
Answers whether READ stops. -/
def deliverCut (g : RdGran) : List RecPiece → State → State × Bool
  | [], s => (s, false)
  | p :: rest, s =>
    match s.que.exec with
    | none => (s, true)
    | some x =>
      if p.recNo < s.vol.posRecord then deliverCut g rest s
      else
        let need := if x.partOfs = 0 then (pieceRecord s g x p).1 else some 0
        match need with
        | none => (s, false)
        | some n =>
          if x.partOfs = 0 ∧ readFull x n then (s, true)
          else
            let whole := p.bytes.length == p.len
            let s := pushDin (dinPackets 0 (dTag x.entry.desc) x.sent x.partOfs p.recNo g.gsn p.bytes (p.ends && whole)) s
            let s := onExec (fun x => { x with sent := x.sent + p.bytes.length, lastOut := some p.recNo }) s
            if !whole then (s, false)
            else if p.ends then
              let s := onExec (fun x => { x with count := x.count + 1, bytes := x.bytes + x.partOfs + p.len, partOfs := 0 }) s
              deliverCut g rest (setVol { s.vol with posRecord := p.recNo + 1 } s)
            else deliverCut g rest (onExec (fun x => { x with partOfs := x.partOfs + p.len }) s)

/-! ## Outcomes -/

/-- The READ in progress ends with a status at the logical position. -/
def endRead (status detail : Nat) (s : State) : State :=
  match s.que.exec with
  | some x => endExec status s.vol.posRecord x.count x.bytes detail s
  | none => s

/-- A granule cannot be delivered (R306, R331, R332): READ ends at its FIRST_RECORD; in cut-through a RETRACT names every record of which it
gave a byte, and those records do not count. -/
def failGranule (g : RdGran) (status detail : Nat) (s : State) : State :=
  match s.que.exec with
  | none => s
  | some _ =>
    let s := if g.cut ∧ g.begun then
        onExec (fun x => { x with retract := some (g.first, max g.first (x.lastOut.getD g.first), status), count := x.safeCount, bytes := x.safeBytes }) s
      else s
    endRead status detail (setVol { s.vol with posRecord := g.first, atEod := false } (onExec (fun x => { x with rd := none, part := [] }) s))

def codeTagFail : Nat := faultCode 3 0x9 0x03
def codeCorrupt : Nat := faultCode 3 0x8 0x03
def codeRcvFail : Nat := faultCode 3 0x7 0x0C

/-- A granule of a READ fails its tag (R331, R334). -/
def noteTagFail (gsn acct : Nat) (s : State) : State :=
  raiseC 0x51 3 0x03 acct gsn (setF Reg.TAG_LAST_HI (gsn / 2 ^ 32) (setF Reg.TAG_LAST_LO gsn (incF Reg.TAG_FAIL_CNT s)))

/-- A corrupt granule ends the READ (R306). -/
def corruptGranule (g : RdGran) (reason : Nat) (s : State) : State :=
  let acct := match s.que.exec with | some x => dTenant x.entry.desc | none => noAcct
  failGranule g stGRANULE_CORRUPT codeCorrupt (noteCorrupt g.gsn reason acct s)

/-- The granule has been delivered: READ goes on after it; it needed the ladder if one of its data sets did (R274). -/
def granuleDone (g : RdGran) (s : State) : State :=
  let ladder := g.dsns.any fun n => match readSet s (physOf s n) with | some d => decide (0 < d.level) | none => false
  onExec (fun x => { x with rd := none, cursor := some g.next, hdr := g.gsn + 1, safeCount := x.count, safeBytes := x.bytes, lastOut := none
                            recovered := x.recovered || (ladder && decide (x.safeCount < x.count)) }) s

/-- The body of a granule as plaintext PGC, by the key chosen for it, whatever its tag says (R317, R320). -/
def clearBody (s : State) (g : RdGran) : List Byte :=
  match g.slot with
  | none => g.body
  | some k => Crypto.gctr (Crypto.roundKeys (keySlot s k).key) (bytesAt g.header 0x10 4 ++ bytesAt g.header 8 8) g.body

/-- The tag of a granule is right (R101, R318). -/
def tagOk (s : State) (g : RdGran) : Bool :=
  match g.slot with
  | none => true
  | some k => (Crypto.gcmDec (keySlot s k).key (bytesAt g.header 0x10 4 ++ bytesAt g.header 8 8) (g.header.take 0x3C ++ g.map) g.body g.tag).isSome

/-- The first failing check of a granule's record map and body, 0 if none, and its plaintext up to there (R305). -/
def openPlain (g : RdGran) (s : State) : (Nat × List Byte) × State :=
  let h := granHdr g.header
  if !fieldsOk h g.map then ((2, []), s) else openBody h (clearBody s g) s

/-- A granule is opened in cut-through as its decryption begins: what decompression gives is delivered (R332). -/
def beginCut (g : RdGran) (s : State) : State :=
  let (r, s) := openPlain g s
  let h := granHdr g.header
  let (s, stop) := deliverCut g (if r.1 = 2 then [] else recPieces h (rmapPieces g.map) r.2) s
  onExec (fun x => { x with rd := some { g with begun := true }, step := if stop then 1 else x.step }) s

/-- READ may begin a granule: in cut-through the lengths of the records that it delivers must be known first. -/
def cutReady (s : State) (g : RdGran) : Bool :=
  match s.que.exec with
  | none => false
  | some x =>
    match (recPieces (granHdr g.header) (rmapPieces g.map) []).getLast? with
    | some p => p.ends || decide (p.recNo < s.vol.posRecord) || !(pieceRecord s g { x with partOfs := if (rmapPieces g.map).length = 1 then x.partOfs else 0 } p).2
    | none => true

/-- The verdict on a granule has come (R305, R306, R331, R332): `tag` says that its tag passed. -/
def granuleVerdict (tag : Bool) (s : State) : State :=
  match s.que.exec with
  | none => s
  | some x =>
    match x.rd with
    | none => s
    | some g =>
      let acct := dTenant x.entry.desc
      if x.lostGrans.contains g.gsn then failGranule g stBUFFER_DATA_LOST codePoison s
      else if !tag then failGranule g stTAG_FAIL codeTagFail (noteTagFail g.gsn acct s)
      else if g.begun ∧ g.cut then
        let r := (openPlain g s).1
        if r.1 ≠ 0 then corruptGranule g r.1 s
        else
          let s := granuleDone g s
          if x.step = 1 then endRead stOK 0 s else s
      else
        let (r, s) := openPlain g s
        if r.1 ≠ 0 then corruptGranule g r.1 s
        else
          let (s, stop) := deliverHeld g (recPieces (granHdr g.header) (rmapPieces g.map) r.2) s
          let s := granuleDone g s
          if stop then endRead stOK 0 s else s

/-! ## READ (R451) -/

/-- READ comes to the end of data. -/
def readEnd (s : State) : State :=
  match s.que.exec with
  | none => s
  | some x =>
    let s := learnEod s.vol.posRecord s.vol.posFm x.hdr s
    endRead stEND_OF_DATA 0 (setVol { s.vol with atEod := true } s)

/-- A data set that the ladder did not resolve ends the READ (R274). -/
def readLost (s : State) : State := endRead stMEDIUM_ERROR codeRcvFail s

/-- The key slot for a granule: the lowest LOADED one of the tenant with the header's KEY_TAG (R324). -/
def slotFor (s : State) (tenant keyTag : Nat) : Option Nat :=
  (s.keys.data.find? fun e => e.2.state == 1 && e.2.tenant == tenant && e.2.tag == keyTag).map Prod.fst

/-- READ takes the granule whose header stands at a place (R305, R324, R331, R451). -/
def takeGranule (n off : Nat) (head : List Byte) (s : State) : State :=
  match s.que.exec with
  | none => s
  | some x =>
    let d := x.entry.desc
    let t := tenant s (dTenant d)
    let h := granHdr head
    let bare : RdGran := { gsn := h.gsn, first := (if headerOk head then h.first else s.vol.posRecord), header := head, map := [], body := [], tag := []
                           next := (n, off), dsns := [n] }
    if !headerOk head then corruptGranule bare 1 s
    else if h.tenantTag ≠ t.tag then failGranule bare stKEY_NOT_OWNED 0 s
    else match getBytes s (walkFuel s) n off (granSpan h) with
      | .wait => s
      | .lost _ => readLost s
      | .broken m o => onExec (fun x => { x with cursor := some (m, o), part := [], hdr := h.gsn + 1 }) s
      | .bytes b m o dsns =>
        let map := bytesAt b 64 h.rmapLen
        let g : RdGran := { bare with
          map, body := bytesAt b (64 + h.rmapLen) h.bodyLen, tag := (if h.enc then bytesAt b (64 + h.rmapLen + h.bodyLen) 16 else [])
          next := (m, o), dsns, cut := (dFlags d).testBit 0 && getB s Reg.CIPH_CTRL_CT_EN }
        if h.filemark then
          if !fieldsOk h map then corruptGranule g 2 s
          else
            let s := onExec (fun x => { x with cursor := some (m, o), hdr := h.gsn + 1 }) s
            endRead stFILEMARK 0 (setVol { s.vol with posFm := s.vol.posFm + 1, atEod := false } s)
        else
          let s0 := onExec (fun x => { x with marks := x.marks ++ [(g.gsn, g.first, x.count, x.bytes)]
                                              part := if h.startsMid then x.part else [], partOfs := if h.startsMid then x.partOfs else 0 }) s
          if h.enc then
            match slotFor s (dTenant d) h.keyTag with
            | none => failGranule g stKEY_NOT_OWNED 0 s
            | some k =>
              if 64 ≤ s.ciph.rd.length ∨ (g.cut ∧ !cutReady s g) then s
              else { onExec (fun x => { x with rd := some { g with slot := some k } }) s0 with ciph := { s.ciph with rd := s.ciph.rd ++ [.dec g.gsn] } }
          else if g.cut ∧ !cutReady s g then s
          else
            let s := onExec (fun x => { x with rd := some g }) s0
            granuleVerdict true (if g.cut then beginCut g s else s)

/-- READ goes on until it ends or must wait (R451). `noMore` says that no frame tag has passed its CHECK for 116 frames (R282). -/
def readOn (noMore : Bool) : Nat → State → State
  | 0, s => s
  | fuel + 1, s =>
    match s.que.exec with
    | none => s
    | some x =>
      if dOpcode x.entry.desc ≠ opREAD ∨ x.phase ≠ .work ∨ x.rd.isSome then s
      else if readFull x 0 then endRead stOK 0 s
      else if x.cursor.isNone ∧ s.vol.atEod then readEnd s
      else match x.cursor with
        | none =>
          match seek s s.vol.posRecord (some s.vol.posFm) with
          | .here n off _ _ hdr => readOn noMore fuel (onExec (fun x => { x with cursor := some (n, off), hdr }) s)
          | .eod _ _ hdr => readEnd (onExec (fun x => { x with hdr }) s)
          | .lost _ _ _ => readLost s
          | .corrupt n off _ _ => readOn noMore fuel (onExec (fun x => { x with cursor := some (n, off) }) s)
          | .wait => if noMore ∧ s.vol.map.isNone then readEnd s else s
        | some (n, off) =>
          match headerAt s (walkFuel s) n off with
          | .at_ n off head => readOn noMore fuel (takeGranule n off head s)
          | .lost _ => readLost s
          | .eod => readEnd s
          | .wait => if noMore ∧ s.vol.map.isNone then readEnd s else s

/-- READ's own work. -/
def readWork (noMore : Bool) (s : State) : State := readOn noMore (2 * walkFuel s) s

/-! ## LOCATE (R452) -/

/-- LOCATE ends at end of data. -/
def locateEod (status : Nat) (s : State) : State :=
  let s := toEod s
  endExec status s.vol.posRecord 0 0 0 s

/-- LOCATE's own work: to end of data, or to a record. -/
def locateWork (noMore : Bool) (s : State) : State :=
  match s.que.exec with
  | none => s
  | some x =>
    let d := x.entry.desc
    let r := dField d 0x10 8
    let s := eodSetRead s
    let eodKnown := s.vol.eodKnown && s.vol.map.isSome
    if (dFlags d).testBit 0 ∧ eodKnown then locateEod stOK s
    else if eodKnown ∧ s.vol.records ≤ r then locateEod (if s.vol.records < r then stEND_OF_DATA else stOK) s
    else if (dFlags d).testBit 0 ∧ s.vol.map.isSome then s
    else
      let target := if (dFlags d).testBit 0 then 2 ^ 64 else r
      match seek s target none with
      | .here _ _ _ fm _ => endExec stOK r 0 0 0 (setVol { s.vol with posRecord := r, posFm := fm, atEod := false } s)
      | .eod recs fm hdr =>
        let s := learnEod recs fm hdr s
        let s := setVol { s.vol with posRecord := recs, posFm := fm, atEod := true } s
        endExec (if recs < r ∧ !(dFlags d).testBit 0 then stEND_OF_DATA else stOK) recs 0 0 0 s
      | .lost _ recs fm => endExec stMEDIUM_ERROR recs 0 0 codeRcvFail (setVol { s.vol with posRecord := recs, posFm := fm, atEod := false } s)
      | .corrupt _ _ recs fm =>
        if recs = target then endExec stOK r 0 0 0 (setVol { s.vol with posRecord := r, posFm := fm, atEod := false } s)
        else endExec stGRANULE_CORRUPT s.vol.posRecord 0 0 codeCorrupt (noteCorrupt 0 1 noAcct s)
      | .wait => if noMore ∧ s.vol.map.isNone then endExec stEND_OF_DATA s.vol.posRecord 0 0 0 (setVol { s.vol with atEod := true } s) else s

end Sys2Proof.Machine
end

