-- ==== Sys2Proof/Machine/Cluster.lean ====
section
/-!
DEFINITION. The processor cluster as the rest of the formatter sees it (spec/01): mailbox requests (R21–R24), lockstep pairs (R10), the
W-code check of a transport hop (R13–R15), and the internal FIFOs with their tokens (R17–R19).
-/
namespace Sys2Proof.Machine

def setCore (c : CoreSt) (s : State) : State := { s with core := c }

/-! ## Mailboxes (R21–R24) -/

/-- A register word of a mailbox slot, at a byte offset in the slot. -/
def mbReg (page slot off : Nat) : Nat := 0x1000 * page + 0x100 + 0x100 * slot + off

def mbBUSY (page slot : Nat) : Fld := ⟨mbReg page slot 0x04, 0, 1⟩
def mbDONE (page slot : Nat) : Fld := ⟨mbReg page slot 0x04, 1, 1⟩
def mbOVERRUN (page slot : Nat) : Fld := ⟨mbReg page slot 0x04, 2, 1⟩
def mbTAG (page slot : Nat) : Fld := ⟨mbReg page slot 0x04, 8, 8⟩
def mbRESULT (page slot : Nat) : Fld := ⟨mbReg page slot 0x04, 16, 8⟩
def mbSEQ (page slot : Nat) : Fld := ⟨mbReg page slot 0x08, 0, 32⟩
def mbARG (page slot i : Nat) : Fld := ⟨mbReg page slot (0x10 + 4 * i), 0, 32⟩
def mbRES (page slot i : Nat) : Fld := ⟨mbReg page slot (0x50 + 4 * i), 0, 32⟩

/-- The key of a slot in the table of requests in progress. -/
def mbKey (page slot : Nat) : Nat := page * 16 + slot

/-- A write to MB_CMD or MB_ARG is ignored while BUSY is 1, and recorded (R23). -/
def mbOverrun (page slot : Nat) (s : State) : State := notify page (8 + slot) 0 (setF (mbOVERRUN page slot) 1 s)

/-- A write to MB_CMD (R22, R23). -/
def mailboxRequest (page slot : Nat) (value : Word) (s : State) : State :=
  if slot < mailboxSlots page then
    if getB s (mbBUSY page slot) then mbOverrun page slot s
    else
      lockGate page (fun s =>
        let v := value.toNat
        let r : MbReq := { opcode := slice v 0 16, args := slice v 16 5, tag := slice v 24 8
                           arg := (List.range 16).map fun i => rd s (mbReg page slot (0x10 + 4 * i)) }
        setCore { s.core with mailbox := Tbl.set s.core.mailbox (mbKey page slot) r } (setF (mbDONE page slot) 0 (setF (mbBUSY page slot) 1 s))) s
  else s

/-- A request completes: results, RESULT and TAG written, BUSY cleared, DONE set, MB_SEQ incremented, the slot's event (R22). -/
def mailboxDone (page slot result : Nat) (res : List Word) (s : State) : State :=
  if getB s (mbBUSY page slot) then
    let r := Tbl.get { opcode := 0, args := 0, tag := 0, arg := [] } s.core.mailbox (mbKey page slot)
    let s := forEach (List.range 16) (fun i s => setF (mbRES page slot i) (res.getD i 0).toNat s) s
    let s := setF (mbSEQ page slot) (getF s (mbSEQ page slot) + 1) <| setF (mbDONE page slot) 1 <| setF (mbBUSY page slot) 0 <|
      setF (mbTAG page slot) r.tag (setF (mbRESULT page slot) result s)
    notify page slot 0 (setCore { s.core with mailbox := Tbl.erase s.core.mailbox (mbKey page slot) } s)
  else s

/-- The bit of CLU_RUN, or of CLU_CH_RUN, for the core behind a mailbox slot (R21): it runs. -/
def mailboxCoreRuns (page slot : Nat) (s : State) : Bool :=
  if page = 0x81 then getB s Reg.CLU_RUN_CMD
  else if page = 0x82 then getB s Reg.CLU_RUN_SECU
  else if page = 0x83 then (getF s Reg.CLU_RUN_MOT).testBit slot
  else if page = 0x88 then (getF s Reg.CLU_RUN_SVC).testBit slot
  else (getF s Reg.CLU_CH_RUN).testBit (8 * (page - 0x84) + slot)

/-- The opcodes that a chapter defines for a core's mailbox: the lifecycle operations of SECU (R573). -/
def mailboxDefined (page opcode : Nat) : Bool := page == 0x82 && [0x0101, 0x0102, 0x0103, 0x0110].contains opcode

/-- The core finishes a request whose opcode no chapter defines: RESULT 0x01, unknown opcode. The requests of R573 finish with their own
commands (LC_ADVANCE_*, OEM_HASH_PROGRAM). -/
def mailboxComplete (page slot : Nat) (res : List Word) (s : State) : State :=
  if slot < mailboxSlots page ∧ mailboxCoreRuns page slot s then
    let r := Tbl.get { opcode := 0, args := 0, tag := 0, arg := [] } s.core.mailbox (mbKey page slot)
    if mailboxDefined page r.opcode then s else mailboxDone page slot 0x01 res s
  else s

/-- A core halts while its mailbox is BUSY: the request completes with RESULT 0xFE and zero results (R24). -/
def mailboxAbort (page slot : Nat) (s : State) : State := mailboxDone page slot 0xFE [] s

/-- Every core halts: requests in progress are aborted (R24, R578). -/
def haltCores (s : State) : State :=
  let s := setF Reg.CLU_CH_RUN 0 (wr Reg.CLU_RUN_CMD.addr 0 s)
  forEach (List.range 8) (fun p s => forEach (List.range 8) (fun k s => mailboxAbort (0x81 + p) k s) s) s

/-- A pair has been halted by a mismatch since PORST_N (R10). -/
def pairHalted (s : State) : Bool := (rd s Reg.CLU_LS_MISMATCH_CMD.addr).toNat != 0

/-! ## Lockstep pairs (R10) -/

/-- A pair's comparator finds a mismatch: the pair halts until PORST_N, its mailbox request is aborted, and the pair's safe state follows
(R10, R24, R550). -/
def lockstepMismatch (pair : Nat) (s : State) : State :=
  let halt (run flag : Fld) (page slot : Nat) (s : State) : State := mailboxAbort page slot (setF flag 1 (setF run 0 s))
  let code := faultCode 4 0x0 0x01
  if pair = 0 then
    enterS3 code (raise 0x80 0 code noAcct pair (halt Reg.CLU_RUN_CMD Reg.CLU_LS_MISMATCH_CMD 0x81 0 s))
  else if pair = 1 then
    enterS3 code (raise 0x80 0 code noAcct pair (halt Reg.CLU_RUN_SECU Reg.CLU_LS_MISMATCH_SECU 0x82 0 s))
  else if pair < 6 then
    let i := pair - 2
    enterS2 code (raise 0x80 0 code noAcct pair
      (halt ⟨Reg.CLU_RUN_MOT.addr, Reg.CLU_RUN_MOT.lo + i, 1⟩ ⟨Reg.CLU_LS_MISMATCH_MOT.addr, Reg.CLU_LS_MISMATCH_MOT.lo + i, 1⟩ 0x83 i s))
  else s

/-! ## Hops (R13–R15) -/

/-- A transport hop's receiving side checks a word: what it forwards (none when the hop stops it) and the state after (R13–R15). -/
def transportHop (page account : Nat) (w : Word256) (c : Chk) (s : State) : Option (Word256 × Chk) × State :=
  match wDecode w c with
  | .clean => (some (w, c), s)
  | .poisoned => (some (w, c), s)
  | .single w' c' =>
    let s := setCore { s.core with hopCe := Tbl.set s.core.hopCe page (Tbl.get 0 s.core.hopCe page + 1) } s
    (some (w', c'), raise page 31 (faultCode 1 (unitOf page) 0xF0) account 0 s)
  | .uncorrectable =>
    let code := faultCode 4 (unitOf page) 0xF1
    (none, enterS3 code (raise page 31 code account 0 s))

/-! ## Internal FIFOs (R17–R19) -/

/-- The key of a FIFO: its number and its size exponent. -/
def fifoKey (id n : Nat) : Nat := id * 64 + n

/-- An internal FIFO of 2^n entries as it starts: empty, its producer holding a token for every entry (R17, R18). -/
def fifoInit (n : Nat) : FifoSt := { n, wr := 0, rd := 0, tokens := 2 ^ n, entries := [] }

def fifo (s : State) (id n : Nat) : FifoSt := Tbl.get (fifoInit n) s.core.fifos (fifoKey id n)

def setFifo (id n : Nat) (f : FifoSt) (s : State) : State := setCore { s.core with fifos := Tbl.set s.core.fifos (fifoKey id n) f } s

/-- Occupancy: write pointer less read pointer, modulo 2^(n+1) (R17). -/
def FifoSt.occupancy (f : FifoSt) : Nat := (f.wr + 2 ^ (f.n + 1) - f.rd) % 2 ^ (f.n + 1)

/-- Empty when the pointers are equal; full when only their top bits differ (R17). -/
def FifoSt.empty (f : FifoSt) : Bool := f.wr == f.rd
def FifoSt.full (f : FifoSt) : Bool := f.occupancy == 2 ^ f.n

/-- An entry is written, one of the producer's tokens spent if `tok` (R18). -/
def FifoSt.push (f : FifoSt) (tok : Bool) (w : Word256 × Chk) : FifoSt :=
  { f with wr := (f.wr + 1) % 2 ^ (f.n + 1), tokens := if tok then f.tokens - 1 else f.tokens, entries := f.entries ++ [w] }

/-- The oldest entry is removed and its token returns to the producer (R18). -/
def FifoSt.pop (f : FifoSt) : FifoSt :=
  { f with rd := (f.rd + 1) % 2 ^ (f.n + 1), tokens := f.tokens + 1, entries := f.entries.tail }

/-- A producer writes a FIFO of a block: with a token it never meets a full one; a write into a full FIFO is discarded and brings S3, under the
unit of the block that found it (R18, R19, R26, R563). -/
def fifoWrite (page account id n : Nat) (tok : Bool) (w : Word256 × Chk) (s : State) : State :=
  let f := fifo s id n
  if tok && f.tokens == 0 then s
  else if f.full then
    let code := faultCode 4 (unitOf page) 0xF2
    enterS3 code (raise page 31 code account id s)
  else setFifo id n (f.push tok w) s

/-- The consumer removes an entry and its token returns (R18); its word comes out of the SRAM that holds it, and is checked there (R13, R17,
R367). Nothing happens on an empty FIFO. -/
def fifoRemove (id n unit row : Nat) (upset : Word256 × Chk) (s : State) : State :=
  let f := fifo s id n
  if f.empty then s
  else
    let e := f.entries.headD (0, 0)
    sramRead unit row (e.1 ^^^ upset.1) (e.2 ^^^ upset.2) (setFifo id n f.pop s)

/-! ## Meanings -/

/-- MAILBOX_REQUEST. -/
def execMailboxRequest (page slot : Nat) (value : Word) (s : State) : Host.Outcome State Fault Refusal :=
  .next (mailboxRequest page slot value s)

/-- MAILBOX_COMPLETE. -/
def execMailboxComplete (page slot : Nat) (res : List Word) (s : State) : Host.Outcome State Fault Refusal :=
  .next (mailboxComplete page slot res s)

/-- LOCKSTEP_MISMATCH. -/
def execLockstepMismatch (pair : Nat) (s : State) : Host.Outcome State Fault Refusal := .next (lockstepMismatch pair s)

/-- INTERNAL_WORD_HOP. -/
def execInternalWordHop (page account : Nat) (word : Word256) (chk : Chk) (s : State) : Host.Outcome State Fault Refusal :=
  .next (transportHop page account word chk s).2

/-- FIFO_ENTRY_WRITTEN. -/
def execFifoEntryWritten (page account fifo size : Nat) (holdsToken : Bool) (word : Word256) (chk : Chk) (s : State) : Host.Outcome State Fault Refusal :=
  .next (fifoWrite page account fifo size holdsToken (word, chk) s)

/-- FIFO_ENTRY_REMOVED. -/
def execFifoEntryRemoved (fifo size unit row : Nat) (upset : Word256 × Chk) (s : State) : Host.Outcome State Fault Refusal :=
  .next (fifoRemove fifo size unit row upset s)

end Sys2Proof.Machine
end

