-- ==== Sys2Proof/Machine/Link.lean ====
section
/-!
DEFINITION. The Epbex link below its packets (spec/13): flits and their W-code (R400–R404), markers and lanes (R405–R407), acknowledgement and
replay (R408–R413), training, recovery and link resets (R414–R417), tokens (R423, R424), and the transmission of packets.
-/
namespace Sys2Proof.Machine

def setLnk (l : EpbxSt) (s : State) : State := { s with lnk := l }

/-! ## Flits (R400–R404) -/

/-- Bits z(0), z(1), … of a lane's scrambler: z(n) = z(n − 5) XOR z(n − 23) from the lane's seed (R404). The register holds the last 23 bits,
the newest in bit 0. -/
def laneScramble : Nat → Nat → List Bool
  | 0, _ => []
  | n + 1, reg => let z := Bool.xor (reg.testBit 4) (reg.testBit 22); z :: laneScramble n (reg * 2 % 2 ^ 23 + b2n z)

/-- `n` scrambler bits of lane `l` from bit number `from_` after the marker: z(0) to z(22) are bits 22 down to 0 of the seed (R404). -/
def laneBits (l from_ n : Nat) : List Bool :=
  let seed := 0x2A5A00 ||| l
  (msbBits 23 seed ++ laneScramble (from_ + n - 23) seed).drop from_ |>.take n

/-- Lanes of the mode in use (R403). -/
def widthOf (code : Nat) : Nat := 2 ^ (3 - code)

/-- A flit put together from the lanes of group `g` at width code `w`, in slot `slot` since the marker: descrambled, slices in order (R403, R404). -/
def flitOf (w g slot : Nat) (lanes : List (BitVec 288)) : Nat :=
  let n := widthOf w
  let per := 288 / n
  let bits := (List.range n).map fun j =>
    let z := laneBits (g * n + j) (slot * per) per
    (List.range per).map fun i => Bool.xor ((lanes.getD j 0).toNat.testBit i) (z.getD i false)
  (List.range 288).foldl (fun acc k =>
    let slice_ := k / 36
    if ((bits.getD (slice_ % n) []).getD (36 * (slice_ / n) + k % 36) false) then acc + 2 ^ k else acc) 0

/-- A flit as the receiver classifies it (R402): its CTRL byte, its body, and whether a byte was corrected. -/
inductive Flit where
  | good (ctrl : Nat) (body : Word256) (corrected : Bool)
  | bad
  deriving DecidableEq, Repr

/-- R402. -/
def classify (f : Nat) : Flit :=
  let body : Word256 := BitVec.ofNat 256 f
  let ctrl := slice f 280 8
  let chk : Chk := BitVec.ofNat 24 (slice f 256 24 ^^^ ctrl)
  match wDecode body chk with
  | .clean => .good ctrl body false
  | .single b c => if b = body ∧ (c ^^^ chk).toNat < 256 then .bad else .good ctrl b true
  | _ => .bad

/-- The flit that carries a body with a CTRL byte (R400, R402). -/
def flitWord (ctrl : Nat) (body : Word256) : Nat := body.toNat + ((wChk body).toNat ^^^ ctrl % 256) * 2 ^ 256 + ctrl % 256 * 2 ^ 280

/-- The lanes that carry a flit in slot `slot`, each scrambled: lane j carries slices j, j + w, … in order (R403, R404). -/
def stripe (w g slot f : Nat) : List (BitVec 288) :=
  let n := widthOf w
  let per := 288 / n
  (List.range n).map fun j =>
    let z := laneBits (g * n + j) (slot * per) per
    BitVec.ofNat 288 ((List.range per).foldl (fun a i => if Bool.xor (f.testBit (36 * (j + n * (i / 36)) + i % 36)) (z.getD i false) then a + 2 ^ i else a) 0)

/-! ## Link state -/

def lnkState (s : State) : Nat := getF s Reg.LNK_STATUS_STATE
def lnkActive (s : State) : Bool := lnkState s == 5

/-- The link moves to a state; a change is an event (R414). -/
def toLnk (n : Nat) (s : State) : State := if lnkState s = n then s else notify 0x68 0 0 (setF Reg.LNK_STATUS_STATE n s)

def lane (s : State) (l : Nat) : LaneSt := Tbl.get {} s.lnk.lanes l
def setLane (l : Nat) (x : LaneSt) (s : State) : State := setLnk { s.lnk with lanes := Tbl.set s.lnk.lanes l x } s

/-- A lane pair is excluded by LANE_DIS. -/
def laneDis (s : State) (l : Nat) : Bool := (getF s Reg.LNK_CTRL_LANE_DIS).testBit l

/-- The receive lanes that locked and were deskewed within 256 UI (R406, R408). -/
def goodMask (s : State) : Nat :=
  (List.range 8).foldl (fun a l => match (lane s l).skew with | some k => if (lane s l).locked && decide (k ≤ 256) then a + 2 ^ l else a | none => a) 0

/-- Good lane pairs: in both ends' GOOD masks and not excluded (R415). -/
def pairMask (s : State) (far : Nat) : Nat := (goodMask s &&& far) &&& (255 - getF s Reg.LNK_CTRL_LANE_DIS)

/-- The widest width code not wider than MAX_WIDTH whose aligned group is wholly good, with the lowest such group (R415). -/
def proposeMode (s : State) (good : Nat) : Option (Nat × Nat) :=
  ((List.range 4).filter (fun w => getF s Reg.LNK_CTRL_MAX_WIDTH ≤ w)).findSome? fun w =>
    let n := widthOf w
    ((List.range (8 / n)).find? fun g => (List.range n).all fun j => good.testBit (g * n + j)).map fun g => (w, g)

/-! ## Transmission (R408, R411, R418) -/

/-- Flits in the retry buffer. -/
def heldFlits (s : State) : Nat := sumN (s.lnk.held.map fun p => p.words.length)

/-- The oldest held sequence number (the next new one if none is held). -/
def txOldest (s : State) : Nat := match s.lnk.held with | p :: _ => p.seq | [] => s.lnk.txSeq

/-- A packet goes out: its flits take the next sequence numbers and stay in the retry buffer (R408, R411). -/
def transmit (cls : Nat) (words : List Word256) (s : State) : State :=
  setLnk { s.lnk with held := s.lnk.held ++ [{ seq := s.lnk.txSeq, cls, words }], txSeq := (s.lnk.txSeq + words.length) % 4096 } s

/-- There is room in the retry buffer for a packet, and the link carries packets (R411). -/
def canSend (s : State) (words : List Word256) : Bool := lnkActive s && decide (heldFlits s + words.length ≤ 4095)

/-- Tokens held of a class that the host grants; a packet of class 0 needs none (R418). -/
def tokensHeld (s : State) (cls : Nat) : Nat := match cls with | 0 => 1 | 1 => s.lnk.held0 | 2 => s.lnk.heldM0 | _ => s.lnk.heldM1

/-- A token of a class is spent. -/
def spend (cls : Nat) (s : State) : State :=
  match cls with
  | 0 => s
  | 1 => setLnk { s.lnk with held0 := s.lnk.held0 - 1 } s
  | 2 => setLnk { s.lnk with heldM0 := s.lnk.heldM0 - 1 } s
  | _ => setLnk { s.lnk with heldM1 := s.lnk.heldM1 - 1 } s

/-- Packets sent again after a link reset go first, in order, as tokens allow; then packets that need no token (R417, R429). -/
def pump : Nat → State → State
  | 0, s => s
  | fuel + 1, s =>
    match s.lnk.resend with
    | p :: rest =>
      if canSend s p.words ∧ 0 < tokensHeld s p.cls then pump fuel (transmit p.cls p.words (spend p.cls (setLnk { s.lnk with resend := rest } s))) else s
    | [] =>
      match s.lnk.outbox with
      | p :: rest => if canSend s p then pump fuel (transmit 0 p (setLnk { s.lnk with outbox := rest } s)) else s
      | [] => s

/-- What waits goes out as far as it can. -/
def pumpAll (s : State) : State := pump (s.lnk.resend.length + s.lnk.outbox.length) s

/-- A packet that needs no token is sent, after those before it. -/
def sendFree (words : List Word256) (s : State) : State := pumpAll (setLnk { s.lnk with outbox := s.lnk.outbox ++ [words] } s)

/-- A new packet that spends a token may go out now (R417, R425). -/
def mayStart (s : State) (cls : Nat) (words : List Word256) : Bool :=
  s.lnk.resend.isEmpty && s.lnk.outbox.isEmpty && canSend s words && decide (0 < tokensHeld s cls)

/-! ## Packet layouts (R418, R421, R424) -/

/-- A 32-byte body from bytes; missing ones are zero. -/
def bodyOf (l : List Byte) : Word256 := wordOf ((padTo 32 l).map BitVec.toNat)

/-- Bytes of a body. -/
def bodyBytes (w : Word256) : List Byte := (wordBytes w).map (BitVec.ofNat 8)

/-- A HEAD body: common header, then 24 type-specific bytes (R418). -/
def headOf (ptype len queue pflags tag : Nat) (rest : List Byte) : Word256 :=
  bodyOf (leBytes 1 ptype ++ leBytes 1 len ++ leBytes 1 queue ++ leBytes 1 pflags ++ leBytes 2 tag ++ zeros 2 ++ rest)

def complPacket (queue tag status record count bytes detail : Nat) : List Word256 :=
  [headOf 0x06 0 queue 0 tag (leBytes 1 status ++ zeros 3 ++ leBytes 8 record ++ leBytes 4 count ++ leBytes 4 bytes ++ leBytes 4 detail)]

def retractPacket (queue tag first last reason : Nat) : List Word256 :=
  [headOf 0x0A 0 queue 0 tag (leBytes 8 first ++ leBytes 8 last ++ leBytes 1 reason)]

def eventPacket (e : EventPkt) : List Word256 :=
  [headOf 0x07 0 1 0 0 (leBytes 1 e.page ++ leBytes 1 e.bit ++ leBytes 2 e.fault ++ leBytes 2 e.account ++ zeros 2 ++ leBytes 4 e.stamp.lo
    ++ leBytes 4 e.stamp.hi ++ leBytes 4 e.data ++ leBytes 4 e.eseq)]

/-- A DATA_IN packet (R421, R427). -/
def dinPacket (p : DinPkt) : List Word256 :=
  let n := (p.bytes.length + 31) / 32
  headOf 0x05 n p.queue 0 p.tag (leBytes 4 p.offset ++ leBytes 4 p.recOfs ++ leBytes 8 p.recno
      ++ leBytes 1 (if n = 0 then 0 else p.bytes.length - 32 * (n - 1)) ++ leBytes 1 (b2n p.recEnd))
    :: (List.range n).map fun i => bodyOf (bytesAt p.bytes (32 * i) 32)

/-- A TOKEN packet of up to six grants, by 64 × class + queue (R424). -/
def tokenPacket (l : List (Nat × Nat)) : List Word256 :=
  [headOf 0x08 0 0 0 0 ((l.take 6).flatMap fun e => leBytes 4 (e.2 % 2 ^ 16 + e.1 % 64 * 2 ^ 16 + e.1 / 64 * 2 ^ 22))]

/-! ## Tokens (R423, R424, R600) -/

/-- Depth of a class and queue that the formatter grants (R423). -/
def tokDepth (cls queue : Nat) : Nat :=
  match cls with
  | 0 => if queue = 0 then 256 else 16
  | 1 => if queue = 0 then 512 else 0
  | 2 => if queue = 0 then 64 else 0
  | _ => 0

def outstanding (s : State) (cls queue : Nat) : Nat := Tbl.get 0 s.lnk.granted (64 * cls + queue)

/-- Tokens are to be granted to the host with the next TOKEN packets. -/
def giveBack (cls queue n : Nat) (s : State) : State :=
  let k := 64 * cls + queue
  if n = 0 then s else setLnk { s.lnk with toReturn := Tbl.set s.lnk.toReturn k (Tbl.get 0 s.lnk.toReturn k + n) } s

/-- Tokens that the host spends with a packet. -/
def takeTokens (cls queue n : Nat) (s : State) : State :=
  let k := 64 * cls + queue
  setLnk { s.lnk with granted := Tbl.set s.lnk.granted k (Tbl.get 0 s.lnk.granted k - n) } s

/-- Entries of a command queue (R423). -/
def queueHeld (s : State) (q : Nat) : Nat := if q = 0 then s.que.stream.length else (side s q).queue.length

/-- CMD and DATA tokens are granted: the depth less the entries still held (R424, R600). -/
def grantQueues (s : State) : State :=
  giveBack 1 0 512 (forEach (List.range 64) (fun q s => giveBack 0 q (tokDepth 0 q - queueHeld s q) s) s)

/-- Once the CMD role runs and QUE_CTRL.EN is set, the CMD and DATA tokens are granted (R600). -/
def queuesStart (s : State) : State :=
  if getB s Reg.QUE_CTRL ∧ cmdRuns s ∧ !s.lnk.queGrant then
    let s := setLnk { s.lnk with queGrant := true } s
    if lnkActive s ∨ lnkState s = 6 then grantQueues s else s
  else s

/-- Token returns are sent, combined six to a packet (R424). -/
def tokenReturn (s : State) : State :=
  let l := (s.lnk.toReturn.filter fun e => e.2 != 0).take 6
  if l = [] ∨ !lnkActive s then s
  else
    let l := l.map fun e => (e.1, min e.2 0xFFFF)
    let s := l.foldl (fun s e =>
      setLnk { s.lnk with granted := Tbl.set s.lnk.granted e.1 (Tbl.get 0 s.lnk.granted e.1 + e.2)
                          toReturn := Tbl.set s.lnk.toReturn e.1 (Tbl.get 0 s.lnk.toReturn e.1 - e.2) } s) s
    sendFree (tokenPacket l) s

/-! ## Training (R414, R415) -/

/-- Lanes forget what they have learnt: training begins again from LOCK. -/
def clearLanes (s : State) : State := setLnk { s.lnk with lanes := [], echoes := 0, farGood := 0, slot := 0 } s

/-- The link goes DOWN; what came from an ACTIVE link is kept for the link reset (R416, R417). TOKEN packets not yet sent go: every balance is
granted again. -/
def goDown (s : State) : State :=
  let grant (w : List Word256) : Bool := match w with | h :: _ => slice h.toNat 0 8 == 0x08 | [] => false
  let s := clearLanes s
  let s := setLnk { s.lnk with prevAck := (if s.lnk.wasUp then some s.lnk.rxSeq else s.lnk.prevAck), rxPkt := [], flushing := false, nak := false
                               attempts := 0, replays := 0, nakAt := none, resetDue := false, retrainDue := false
                               outbox := s.lnk.outbox.filter fun w => !grant w } s
  toLnk 0 s

/-- A training attempt fails (R414–R416): recorded and raised; in bring-up the link goes DOWN, inside RECOVER the next attempt starts, or after
three the link goes DOWN. -/
def trainFailed (st : Nat) (s : State) : State :=
  let half := getB s Reg.LNK_STATUS_HALF
  let good := if s.lnk.farGood = 0 then goodMask s &&& (255 - getF s Reg.LNK_CTRL_LANE_DIS) else pairMask s s.lnk.farGood
  let s := setF Reg.LNK_TRAIN_ERR_VALID 1 <| setF Reg.LNK_TRAIN_ERR_NOT_GOOD (255 - good) <| setB Reg.LNK_TRAIN_ERR_HALF half
    (setF Reg.LNK_TRAIN_ERR_STATE st s)
  let s := raiseB 0x68 4 2 0x04 noAcct 0 s
  if lnkState s = 6 then
    if s.lnk.attempts = 2 then goDown s
    else
      let s := clearLanes s
      let s := setLnk { s.lnk with attempts := s.lnk.attempts + 1, sub := 2 } s
      if good = 0 then setF Reg.LNK_STATUS_HALF 1 s else s
  else goDown s

/-- ACTIVE is left for RECOVER (R416). -/
def enterRecover (s : State) : State :=
  if !lnkActive s then s
  else
    let s := clearLanes s
    let s := setLnk { s.lnk with sub := 2, attempts := 0, replays := 0, nakAt := none, retrainDue := false } s
    let s := incF Reg.LNK_RECOVER_CNT (toLnk 6 s)
    raiseB 0x68 1 0 0x01 noAcct 0 s

/-- The training state that the link is in, inside RECOVER or in bring-up. -/
def trainState (s : State) : Nat := if lnkState s = 6 then s.lnk.sub else lnkState s

/-- Training goes on to a state. -/
def trainTo (n : Nat) (s : State) : State := if lnkState s = 6 then setLnk { s.lnk with sub := n } s else toLnk n s

/-- All locked lanes have been deskewed: the largest skew is recorded and CONFIG begins (R406, R414). -/
def alignCheck (s : State) : State :=
  let locked := (List.range 8).filter fun l => (lane s l).locked
  if trainState s = 3 ∧ locked ≠ [] ∧ locked.all (fun l => (lane s l).skew.isSome) then
    let m := locked.foldl (fun a l => max a ((lane s l).skew.getD 0)) 0
    let s := trainTo 4 (setF Reg.LNK_SKEW m s)
    setLnk { s.lnk with echoes := 0, farGood := 0 } s
  else s

/-- LOCK ends: all lanes locked, or 500 µs with one or more locked (R414). -/
def lockDone (s : State) : State := if trainState s = 2 then trainTo 3 s else s

/-! ## Markers (R405, R406, R416) -/

/-- UI of 8 µs at the rate in use (R399, R412). -/
def nakHold (s : State) : Nat := if getB s Reg.LNK_STATUS_HALF then 112500 else 225000

/-- Received time passes. -/
def linkTime (ui : Nat) (s : State) : State := setLnk { s.lnk with since := min (s.lnk.since + ui) 225000 } s

/-- The lane of the group by which received time is counted: its first. -/
def markerLane (s : State) : Option Nat := (List.range 8).find? fun l => (getF s Reg.LNK_STATUS_LANES).testBit l

/-- A marker's fields are valid: PATTERN, reserved bit, CRC (R405). -/
def markerOk (m : BitVec 72) : Bool :=
  slice m.toNat 24 48 == 0x3D5AC3E196F0 && slice m.toNat 20 1 == 0 && slice m.toNat 0 8 == crcBits 8 0x07 0 (msbBits 64 (m.toNat >>> 8))

/-- A lane's marker position passes, with a marker or without (R405, R406, R414, R416). -/
def markerIn (l : Nat) (m : Option (BitVec 72)) (skew : Nat) (s : State) : State :=
  if 8 ≤ l ∨ lnkState s = 0 then s
  else
    let x := lane s l
    let inv := match m with | some b => !markerOk b && markerOk (~~~b) | none => false
    let seen := match m with | some b => if markerOk b then some b else if inv then some (~~~b) else none | none => none
    let s := setLnk { s.lnk with slot := 0 } s
    match seen with
    | some b =>
      let id := slice b.toNat 21 3
      let st := trainState s
      if st = 5 then setLane l { x with missed := 0 } (if markerLane s = some l then linkTime 72 s else s)
      else if laneDis s l then s
      else
        let s := if st = 1 then trainTo 2 s else s
        let st := trainState s
        if st = 2 then
          let v := min (x.valid + 1) 8
          let s := setLane l { x with valid := v, locked := decide (8 ≤ v), inv, id, missed := 0 } s
          let s := if 8 ≤ v then setB Reg.LNK_STATUS_REVERSED (id != l) (setF Reg.LNK_POL ((getF s Reg.LNK_POL ||| 2 ^ l) ^^^ (if inv then 0 else 2 ^ l)) s) else s
          if (List.range 8).all (fun l => laneDis s l || (lane s l).locked) then lockDone s else s
        else if st = 3 ∧ x.locked then alignCheck (setLane l { x with skew := some skew } s)
        else s
    | none =>
      if lnkActive s then
        if (getF s Reg.LNK_STATUS_LANES).testBit l then
          let s := setLane l { x with missed := x.missed + 1 } (if markerLane s = some l then linkTime 72 s else s)
          if 2 ≤ x.missed + 1 then enterRecover s else s
        else s
      else if trainState s = 2 ∧ !x.locked then setLane l { x with valid := 0 } s
      else s

/-- 500 µs in LOCK with one or more, but not all, lanes locked (R414). -/
def lockElapsed (s : State) : State :=
  if trainState s = 2 ∧ (List.range 8).any (fun l => (lane s l).locked) then lockDone s else s

/-- A link state passes its timeout (R414, R416). -/
def epbxTimeout (s : State) : State :=
  match lnkState s with
  | 0 => toLnk 1 (setF Reg.LNK_STATUS_HALF (getF s Reg.LNK_CTRL_HALF_ONLY) s)
  | 1 => goDown s
  | 5 => s
  | 6 => trainFailed s.lnk.sub s
  | n => trainFailed n s

/-! ## Acknowledgement and replay (R409–R413) -/

/-- The far end's receiver expects sequence number `n`: packets acknowledged whole leave the retry buffer (R411). -/
def ackTo (n : Nat) (s : State) : State :=
  let old := txOldest s
  let d := (n + 4096 - old) % 4096
  if heldFlits s < d then s
  else
    let held := s.lnk.held.filter fun p => d < (p.seq + p.words.length + 4096 - old) % 4096
    let moved := n % 4096 != s.lnk.ackSeq
    pumpAll (setLnk { s.lnk with held, ackSeq := n % 4096, replays := if moved then 0 else s.lnk.replays } s)

/-- Every held flit from ACK_SEQ onwards is sent again (R412); the 16th replay of the oldest flit without progress brings RECOVER (R413). -/
def replay (s : State) : State :=
  if heldFlits s = 0 then s
  else
    let s := incF Reg.LNK_REPLAY_CNT (setLnk { s.lnk with replays := s.lnk.replays + 1, since := 0 } s)
    if 16 ≤ s.lnk.replays then enterRecover s else s

/-- A NAK at ACK_SEQ `n` (R412). -/
def nakIn (n : Nat) (recent : Bool) (s : State) : State :=
  if recent ∧ s.lnk.nakAt = some n then s else replay (setLnk { s.lnk with nakAt := some n } s)

/-- 20 µs have passed with flits held and no progress (R412). -/
def replayTimeout (s : State) : State := if lnkActive s ∧ 0 < heldFlits s then replay s else s

/-- The receiver discards a flit and asks for a replay (R410). -/
def rxReject (s : State) : State :=
  if s.lnk.nak then s else incF Reg.LNK_NAK_CNT (setLnk { s.lnk with nak := true } s)

/-! ## CTRL flits (R408) -/

/-- Fields of a CTRL body. -/
def ctlACK (b : Word256) : Nat := slice b.toNat 0 12
def ctlNAK (b : Word256) : Bool := b.toNat.testBit 12
def ctlKIND (b : Word256) : Nat := slice b.toNat 32 8
def ctlROLE (b : Word256) : Nat := slice b.toNat 64 8
def ctlGOOD (b : Word256) : Nat := slice b.toNat 72 8
def ctlMODE (b : Word256) : Nat := slice b.toNat 80 8
def ctlVERSION (b : Word256) : Nat := slice b.toNat 88 8
def ctlPREV (b : Word256) : Nat := slice b.toNat 96 12
def ctlPREV_VALID (b : Word256) : Bool := b.toNat.testBit 111

/-- The CTRL flit that the formatter sends now (R408). -/
def ctrlBody (s : State) : Word256 :=
  let cfg := trainState s == 4
  bodyOf (leBytes 2 (s.lnk.rxSeq + (if s.lnk.nak then 2 ^ 12 else 0)) ++ leBytes 2 s.lnk.txSeq ++ leBytes 1 (if cfg then 1 else 0) ++ zeros 3
    ++ (if cfg then zeros 1 ++ leBytes 1 (goodMask s) ++ leBytes 1 s.lnk.mode ++ leBytes 1 1
          ++ leBytes 2 (match s.lnk.prevAck with | some a => a + 2 ^ 15 | none => 0) ++ leBytes 1 (b2n (lnkState s != 6))
        else []))

/-- The flits that the formatter sends: a CTRL flit; an IDLE flit, which acknowledges where ACK_SEQ has advanced since the last CTRL flit; a flit
of a packet under its sequence number (R400, R401, R408, R409). -/
def ctrlFlit (s : State) : Nat := flitWord (3 + s.lnk.txSeq % 32 * 8) (ctrlBody s)
def idleFlit (s : State) (lastAck : Nat) : Nat := flitWord (if s.lnk.rxSeq = lastAck then 0 else 4 + s.lnk.rxSeq % 32 * 8) 0
def seqFlit (head : Bool) (seq : Nat) (body : Word256) : Nat := flitWord ((if head then 1 else 2) + seq % 32 * 8) body

/-- The alignment marker that the formatter sends on a lane, `count` markers after the first (R405). -/
def markerOf (s : State) (l count : Nat) : BitVec 72 :=
  let train := lnkState s != 5
  let b := 0x3D5AC3E196F0 * 2 ^ 24 + l % 8 * 2 ^ 21 + getF s Reg.LNK_STATUS_WIDTH * 2 ^ 18 + getF s Reg.LNK_STATUS_HALF * 2 ^ 17 + b2n train * 2 ^ 16 + count % 256 * 2 ^ 8
  BitVec.ofNat 72 (b + crcBits 8 0x07 0 (msbBits 64 (b / 256)))

/-- Tokens start over after a bring-up (R417, R424). -/
def restartTokens (s : State) : State :=
  let s := setLnk { s.lnk with granted := [], toReturn := [], held0 := 0, heldM0 := 0, heldM1 := 0 } s
  let s := giveBack 2 0 64 s
  if s.lnk.queGrant then grantQueues s else s

/-- A bring-up that follows a period in ACTIVE is a link reset (R417). A TOKEN packet that is held is not sent again: what it granted is zeroed and
granted again by step 1 (log entry: grants at a link reset). -/
def linkReset (prev : Option Nat) (s : State) : State :=
  let s := setF Reg.LNK_STATUS_RESET_SEEN 1 (incF Reg.LNK_RESET_CNT s)
  let s := raiseB 0x68 2 2 0x03 noAcct 0 s
  match prev with
  | some a =>
    let s := ackTo a s
    let grant (p : HeldPkt) : Bool := match p.words with | h :: _ => slice h.toNat 0 8 == 0x08 | [] => false
    setLnk { s.lnk with resend := (s.lnk.held ++ s.lnk.resend).filter fun p => !grant p, held := [] } s
  | none =>
    let s := addF Reg.LNK_DISCARD_CNT (s.lnk.held.length + s.lnk.resend.length) s
    let s := setLnk { s.lnk with held := [], resend := [] } s
    raiseB 0x68 30 3 0x05 noAcct 0 (setF Reg.LNK_STATUS_PREV_LOST 1 s)

/-- CONFIG completes with the mode proposed (R414–R417). -/
def configDone (b : Word256) (s : State) : State :=
  let w := s.lnk.mode % 4
  let g := s.lnk.mode / 8
  let n := widthOf w
  let good := pairMask s s.lnk.farGood
  let s := setF Reg.LNK_STATUS_GOOD good <| setF Reg.LNK_STATUS_LANES ((2 ^ n - 1) * 2 ^ (g * n)) (setF Reg.LNK_STATUS_WIDTH w s)
  let wasRecover := lnkState s = 6
  let s := if getF s Reg.LNK_CTRL_MAX_WIDTH < w ∨ (getB s Reg.LNK_STATUS_HALF ∧ !getB s Reg.LNK_CTRL_HALF_ONLY) then raiseB 0x68 30 2 0x02 noAcct 0 s else s
  if wasRecover then
    let s := setLnk { s.lnk with attempts := 0, slot := 0, replays := 0, nakAt := none } (toLnk 5 s)
    let s := ackTo (ctlACK b) s
    pumpAll (if heldFlits s = 0 then s else incF Reg.LNK_REPLAY_CNT s)
  else
    let s := if s.lnk.wasUp then linkReset (if ctlPREV_VALID b then some (ctlPREV b) else none) s else s
    let s := setLnk { s.lnk with rxSeq := 0, txSeq := 0, ackSeq := 0, nak := false, rxPkt := [], flushing := false, wasUp := true, slot := 0 } s
    restartTokens (toLnk 5 s)

/-- A KIND 1 flit in CONFIG (R414, R415): the mode is proposed from both ends' GOOD masks; with no good pair the link trains again at half rate,
or the attempt fails. Two flits in a row that echo MODE and VERSION complete CONFIG. -/
def configFlit (b : Word256) (s : State) : State :=
  if trainState s ≠ 4 ∨ ctlROLE b ≠ 1 then s
  else
    let s := setLnk { s.lnk with farGood := ctlGOOD b } s
    match proposeMode s (pairMask s (ctlGOOD b)) with
    | none =>
      if getB s Reg.LNK_STATUS_HALF ∨ lnkState s = 6 then trainFailed 4 s
      else trainTo 2 (clearLanes (setF Reg.LNK_STATUS_HALF 1 s))
    | some (w, g) =>
      let mode := w + 4 * getF s Reg.LNK_STATUS_HALF + 8 * g
      let hit := ctlMODE b = mode ∧ ctlVERSION b = 1
      let s := setLnk { s.lnk with mode, echoes := if hit then s.lnk.echoes + 1 else 0 } s
      if 2 ≤ s.lnk.echoes then configDone b s else s

/-- A good CTRL flit (R408). -/
def ctrlIn (b : Word256) (recent : Bool) (s : State) : State :=
  let s := setLnk { s.lnk with slot := s.lnk.slot + 1 } s
  match ctlKIND b with
  | 1 => configFlit b s
  | 2 => enterRecover s
  | 3 => if lnkActive s ∨ lnkState s = 6 then goDown s else s
  | 0 =>
    if !lnkActive s then s
    else
      let s := ackTo (ctlACK b) s
      if ctlNAK b then nakIn (ctlACK b) recent s else s
  | _ => s

/-! ## Receiving flits (R402, R410) -/

/-- What a flit gives above the flit level: a packet, or a broken sequence of flits (R422, code 0x4) or a LEN out of range with its HEAD. -/
inductive RxItem where
  | none_
  | packet (words : List Word256)
  | broken (head : Option Word256) (next : Option (List Word256))
  deriving DecidableEq, Repr

def pktLEN (h : Word256) : Nat := slice h.toNat 8 8

/-- A HEAD flit begins a packet (R418). -/
def rxHead (h : Word256) (s : State) : RxItem × State :=
  let s := setLnk { s.lnk with flushing := false } s
  if pktLEN h = 0 then (.packet [h], setLnk { s.lnk with rxPkt := [] } s)
  else if 64 < pktLEN h then (.packet [h], setLnk { s.lnk with rxPkt := [], flushing := true } s)
  else (.none_, setLnk { s.lnk with rxPkt := [h] } s)

/-- An accepted sequenced flit joins the packet being assembled (R418, R422). -/
def rxAccept (isHead : Bool) (b : Word256) (s : State) : RxItem × State :=
  match s.lnk.rxPkt, isHead with
  | [], true => rxHead b s
  | [], false => if s.lnk.flushing then (.none_, s) else (.broken none none, setLnk { s.lnk with flushing := true } s)
  | old :: _, true =>
    let x := rxHead b s
    (.broken (some old) (match x.1 with | .packet p => some p | _ => none), x.2)
  | h :: rest, false =>
    let p := h :: rest ++ [b]
    if p.length = pktLEN h + 1 then (.packet p, setLnk { s.lnk with rxPkt := [] } s) else (.none_, setLnk { s.lnk with rxPkt := p } s)

/-- A flit arrives (R402, R407, R409, R410). -/
def flitIn (lanes : List (BitVec 288)) (s : State) : RxItem × State :=
  if !lnkActive s then (.none_, s)
  else
    let g := match (List.range 8).find? fun l => (getF s Reg.LNK_STATUS_LANES).testBit l with | some l => l / widthOf (getF s Reg.LNK_STATUS_WIDTH) | none => 0
    let f := flitOf (getF s Reg.LNK_STATUS_WIDTH) g s.lnk.slot lanes
    let s := linkTime (288 / widthOf (getF s Reg.LNK_STATUS_WIDTH)) s
    match classify f with
    | .bad => (.none_, rxReject (incF Reg.LNK_BAD_CNT (setLnk { s.lnk with slot := s.lnk.slot + 1 } s)))
    | .good ctrl body corrected =>
      let s := if corrected then incF Reg.LNK_CE_CNT s else s
      let seq5 := ctrl / 8
      match ctrl % 4 with
      | 3 => (.none_, ctrlIn body (decide (s.lnk.since < nakHold s)) s)
      | 0 =>
        let s := setLnk { s.lnk with slot := s.lnk.slot + 1 } s
        (.none_, if ctrl.testBit 2 then ackTo ((s.lnk.ackSeq + (seq5 + 32 - s.lnk.ackSeq % 32) % 32) % 4096) s else s)
      | t =>
        let s := setLnk { s.lnk with slot := s.lnk.slot + 1 } s
        if seq5 = s.lnk.rxSeq % 32 then
          rxAccept (t == 1) body (setLnk { s.lnk with rxSeq := (s.lnk.rxSeq + 1) % 4096, nak := false } s)
        else (.none_, rxReject s)

/-- The responses that waited have gone: a RETRAIN or RESET written through the link takes effect (R417). -/
def linkDue (s : State) : State :=
  if !s.lnk.outbox.isEmpty then s
  else if s.lnk.resetDue then goDown s
  else if s.lnk.retrainDue then enterRecover (setLnk { s.lnk with retrainDue := false } s)
  else s

/-! ## Meanings -/

/-- CTRL_FLIT_RECEIVED. -/
def execCtrlFlitReceived (body : Word256) (recent : Bool) (s : State) : Host.Outcome State Fault Refusal := .next (ctrlIn body recent s)

/-- REPLAY_TIMEOUT. -/
def execReplayTimeout (s : State) : Host.Outcome State Fault Refusal := .next (replayTimeout s)

/-- MARKER_RECEIVED. -/
def execMarkerReceived (lane : Nat) (marker : Option (BitVec 72)) (skew : Nat) (s : State) : Host.Outcome State Fault Refusal :=
  .next (markerIn lane marker skew s)

/-- EPBX_LINK_TIMEOUT. -/
def execEpbxLinkTimeout (s : State) : Host.Outcome State Fault Refusal := .next (epbxTimeout s)

/-- LNK_LOCK_ELAPSED. -/
def execLnkLockElapsed (s : State) : Host.Outcome State Fault Refusal := .next (lockElapsed s)

/-- LNK_RETRAIN. -/
def execLnkRetrain (s : State) : Host.Outcome State Fault Refusal := .next (lockGate 0x68 enterRecover s)

/-- LNK_RESET. -/
def execLnkReset (s : State) : Host.Outcome State Fault Refusal :=
  .next (lockGate 0x68 (fun s => if lnkActive s ∨ lnkState s = 6 then goDown s else s) s)

/-- TOKEN_RETURN. -/
def execTokenReturn (s : State) : Host.Outcome State Fault Refusal := .next (tokenReturn s)

end Sys2Proof.Machine
end

