-- ==== Sys2Proof/Machine/Security.lean ====
section
/-!
DEFINITION. Boot, identity and attestation (spec/18): fuses and lifecycle (R569–R574), the image and its checks (R575–R581), entropy
(R582–R584), the configuration digest and the seal (R585–R587), the records that the identity key and the receipt key sign (R466, R588, R589).
-/
namespace Sys2Proof.Machine

def setSec (x : SecSt) (s : State) : State := { s with sec := x }

/-! ## Words of registers -/

/-- Bytes written to an array of words, least significant byte first (R6). -/
def putWords (f : Nat → Fld) (n : Nat) (bytes : List Byte) (s : State) : State :=
  forEach (List.range n) (fun i s => setF (f i) (fieldAt bytes (4 * i) 4) s) s

/-- The bytes that an array of words holds. -/
def getWords (f : Nat → Fld) (n : Nat) (s : State) : List Byte := (List.range n).flatMap fun i => leBytes 4 (getF s (f i))

/-- `n` random bytes of the DRBG (R583): a free value. -/
def drawBytes (n : Nat) (s : State) : List Byte × State := (leBytes n (freeVal (8 * n) s).toNat, takeFree s)

/-! ## Fuses and lifecycle (R569–R572) -/

/-- The CRC-16 of a fuse block (R569): polynomial 0x1021, initial value 0xFFFF. -/
def fuseCrc (b : List Byte) : Nat := crcBits 16 0x1021 0xFFFF (byteBits b)

/-- A block is read from its first copy whose CRC passes. -/
def fuseBlock (a b : FuseCopy) : Option (List Byte) :=
  if fuseCrc a.data = a.crc then some a.data else if fuseCrc b.data = b.crc then some b.data else none

def fuseIdentity (s : State) : List Byte := (fuseBlock s.sec.fuses.identity0 s.sec.fuses.identity1).getD (zeros 32)
def fuseVendor (s : State) : List Byte := (fuseBlock s.sec.fuses.vendor0 s.sec.fuses.vendor1).getD (zeros 32)
def fuseOem (s : State) : List Byte := (fuseBlock s.sec.fuses.oem0 s.sec.fuses.oem1).getD (zeros 32)

/-- Both copies of a block fail their CRC. -/
def fuseErr (s : State) : Bool :=
  let f := s.sec.fuses
  (fuseBlock f.identity0 f.identity1).isNone || (fuseBlock f.vendor0 f.vendor1).isNone || (fuseBlock f.oem0 f.oem1).isNone

/-- The highest lifecycle state whose bit is set in either copy (R570). -/
def fuseState (s : State) : Nat :=
  let b := s.sec.fuses.lc0 ||| s.sec.fuses.lc1
  if b.testBit 2 then 3 else if b.testBit 1 then 2 else if b.testBit 0 then 1 else 0

/-- The lifecycle state in force: 0 MANUFACTURE, 1 OEM_OPEN, 2 DEPLOYED, 3 RMA (R573, R574). -/
def lcState (s : State) : Nat := getF s Reg.SEC_STATUS_LC

/-- IDENTITY is programmed (R571). -/
def idProgrammed (s : State) : Bool := fuseIdentity s != zeros 32

/-- ATTEST, KEK_AGREE and the receipt key certificate are permitted (R572). -/
def lcPermits (s : State) : Bool := lcState s == 1 || lcState s == 2

/-- JTAG debug instructions beyond boundary scan are permitted; otherwise they select BYPASS (R572). -/
def jtagDebug (s : State) : Bool := lcState s != 2

def deviceId (s : State) : List Byte := getWords Reg.DEVICE_ID 8 s
def idPub (s : State) : List Byte := getWords Reg.ID_PUB 8 s

/-- A signature with the identity key. -/
def identitySign (s : State) (m : List Byte) : List Byte := Crypto.edSign (fuseIdentity s) m

/-- The boot ROM reads the fuses (R569–R571, R578). -/
def readFuses (s : State) : State :=
  let st := fuseState s
  let s := setB Reg.SEC_STATUS_OEM_SET (fuseOem s != zeros 32) (setF Reg.SEC_STATUS_LC st (setF Reg.SEC_STATUS_LC_PENDING 0 s))
  let kill := s.sec.fuses.kill0 || s.sec.fuses.kill1
  if !idProgrammed s then s
  else
    let pub := Crypto.edPublic (fuseIdentity s)
    let s := putWords Reg.DEVICE_ID 8 ((Crypto.sha512 pub).take 32) (putWords Reg.ID_PUB 8 pub s)
    setB Reg.SEC_STATUS_ID_OK (!kill && (st == 1 || st == 2)) s

/-! ## Boot states (R578) -/

def bootState (s : State) : Nat := getF s Reg.SEC_STATUS_BOOT_STATE
def toBoot (n : Nat) (s : State) : State := setF Reg.SEC_STATUS_BOOT_STATE n s

/-- The load region is zeroed and its counters cleared (R579). -/
def clearRegion (s : State) : State := setF Reg.IMG_RCVD 0 (setF Reg.IMG_WIN_ADDR 0 (setSec { s.sec with region := [] } s))

/-- HALT: every core is stopped (R578). -/
def bootHalt (s : State) : State := toBoot 7 (haltCores s)

/-! ## Entropy (R582–R584) -/

/-- BOOT_ID and LC_CHALLENGE are drawn if they are missing, and so is a receipt key once SECU's firmware runs (R578, R581, R584). -/
def drawMissing (s : State) : State :=
  if !getB s Reg.SEC_STATUS_ENTROPY_OK then s
  else
    let s := if s.sec.bootDrawn then s else let r := drawBytes 16 s; let s := putWords Reg.BOOT_ID 4 r.1 r.2; setSec { s.sec with bootDrawn := true } s
    let s := if s.sec.lcDrawn then s else let r := drawBytes 16 s; let s := putWords Reg.LC_CHALLENGE 4 r.1 r.2; setSec { s.sec with lcDrawn := true } s
    if bootState s = 5 ∧ s.sec.rkey.isNone then
      let r := drawBytes 32 s
      let s := setSec { r.2.sec with rkey := some r.1 } r.2
      setF Reg.SEC_STATUS_RKEY_OK 1 (putWords Reg.RCPT_PUB 8 (Crypto.edPublic r.1) s)
    else s

/-- A health test fails (R584). -/
def entropyFail (rct apt : Bool) (s : State) : State :=
  let s := if rct then setF Reg.ENT_STATUS_RCT_FAIL 1 s else s
  let s := if apt then setF Reg.ENT_STATUS_APT_FAIL 1 s else s
  raiseB 0x03 3 2 0x02 noAcct 0 (incF Reg.ENT_STATUS_FAILS (setF Reg.SEC_STATUS_ENTROPY_OK 0 s))

/-- The repetition count over raw bits (R582): the run that ends at the last bit, and whether one has reached the cutoff of 41. -/
def repetitions (raw : List Bool) : Nat × Bool :=
  let r := raw.foldl (fun (a : Option Bool × Nat × Bool) b => let n := if a.1 = some b then a.2.1 + 1 else 1; (some b, n, a.2.2 || decide (41 ≤ n))) (none, 0, false)
  (r.2.1, r.2.2)

/-- The adaptive proportion of a window (R582): its first bit has been seen 795 times. -/
def proportion (window : List Bool) : Bool :=
  match window with | b :: _ => decide (795 ≤ (window.filter (· == b)).length) | [] => false

/-- The start-up test over the 4,096 raw bits that follow the discarded ones (R584): which tests fail. -/
def startupFails (raw : List Bool) : Bool × Bool :=
  ((repetitions raw).2, (List.range 4).any fun i => proportion ((raw.drop (1024 * i)).take 1024))

/-- The start-up test runs (R584). -/
def entropyTest (raw : List Bool) (s : State) : State :=
  let f := startupFails raw
  if f.1 ∨ f.2 then entropyFail f.1 f.2 s else drawMissing (setF Reg.SEC_STATUS_ENTROPY_OK 1 s)

/-- The health tests at a raw bit in service, the last of its window so far (R582, R584): `before` holds the bits before the window. -/
def entropyService (before window : List Bool) (s : State) : State :=
  let rct := decide (41 ≤ (repetitions (before ++ window)).1)
  let apt := proportion window
  if getB s Reg.SEC_STATUS_ENTROPY_OK && (rct || apt) then entropyFail rct apt s else s

/-! ## The image (R575–R581) -/

/-- Bytes of the load region. -/
def regionBytes (s : State) (off n : Nat) : List Byte :=
  ((List.range ((n + 3) / 4)).flatMap fun i => leBytes 4 (Tbl.get 0 s.sec.region (off / 4 + i)).toNat).take n

/-- Every byte of a string is zero. -/
def allZero (l : List Byte) : Bool := l.all (· == 0)

/-- The reason of the first image check that fails, 0 if all pass (R580). -/
def imageReason (s : State) : Nat :=
  let h := regionBytes s 0 512
  let f (off size : Nat) : Nat := fieldAt h off size
  let b (off size : Nat) : List Byte := bytesAt h off size
  let bodyLen := f 0x00C 4
  let hash32 (k : List Byte) : List Byte := (Crypto.sha512 k).take 32
  let debug := (f 0x00A 2).testBit 0
  let bound := (f 0x00A 2).testBit 1
  let lc := lcState s
  let debugOk := !debug || lc == 0 || lc == 1 || (lc == 3 && bound)
  if bodyLen % 64 ≠ 0 ∨ 12582400 < bodyLen ∨ getF s Reg.IMG_RCVD < 512 + bodyLen then 1
  else if b 0 8 ≠ ascii [0x54, 0x46, 0x35, 0x46, 0x57, 0x49, 0x4D, 0x47] ∨ f 0x008 2 ≠ 1 ∨ 4 ≤ f 0x00A 2 ∨ 16 ≤ f 0x014 4 ∨ !allZero (b 0x018 8)
      ∨ !allZero (b 0x0C0 64) ∨ !allZero (b 0x180 128) then 2
  else if hash32 (b 0x080 32) ≠ fuseVendor s then 3
  else if !Crypto.edVerify (b 0x080 32) (h.take 0x100) (b 0x100 64) then 4
  else if fuseOem s ≠ zeros 32 ∧ (allZero (b 0x0A0 32) ∨ hash32 (b 0x0A0 32) ≠ fuseOem s) then 5
  else if !allZero (b 0x0A0 32) ∧ !Crypto.edVerify (b 0x0A0 32) (h.take 0x140) (b 0x140 64) then 6
  else if !(f 0x014 4).testBit lc ∨ !debugOk then 7
  else if bound ∧ b 0x020 32 ≠ deviceId s then 8
  else if Crypto.sha512 (regionBytes s 512 bodyLen) ≠ b 0x040 64 then 9
  else 0

/-- VERIFY ends (R580, R581). -/
def imageVerify (s : State) : State :=
  if bootState s ≠ 3 then s
  else
    let r := imageReason s
    if r = 0 then
      let h := regionBytes s 0 512
      let s := putWords Reg.FW_DIGEST 16 (Crypto.sha512 (h.take 0x100)) (setF Reg.FW_VERSION (fieldAt h 0x010 4) s)
      notify 0x03 0 0 (toBoot 4 (setSec { s.sec with vendorPub := bytesAt h 0x080 32 } s))
    else
      let s := setF Reg.BOOT_ERR_VALID 1 (incF Reg.BOOT_ERR_ATTEMPTS (setF Reg.BOOT_ERR_REASON r s))
      toBoot 2 (clearRegion (raiseB 0x03 0 0 0x01 noAcct r s))

/-- A write of an aperture word (R579). -/
def apertureWrite (k v : Nat) (s : State) : State :=
  let off := getF s Reg.IMG_WIN_ADDR / 4 * 4 + 4 * k
  if 32 ≤ k then s
  else if bootState s ≠ 2 ∨ 12582912 ≤ off then notify 0x03 1 0 s
  else
    let s := setSec { s.sec with region := Tbl.set s.sec.region (off / 4) (BitVec.ofNat 32 v) } s
    let s := setF Reg.IMG_RCVD (max (getF s Reg.IMG_RCVD) (off + 4)) s
    if k = 31 then setF Reg.IMG_WIN_ADDR (getF s Reg.IMG_WIN_ADDR + 128) s else s

/-- A write of BOOT_CTRL.GO: ignored outside WAIT_IMAGE (R580). -/
def bootGo (s : State) : State := if bootState s = 2 then toBoot 3 s else s

/-- BUS_OVERVOLT raised before SVC3 ran, as MOTA's page still holds it (R612, R614): it is logged once SVC3 runs (log entry: over-voltage before the
fault manager). -/
def heldOvervolt (s : State) : Option FaultRec :=
  let f := getF s (hdrEVT_FIRST 0x78)
  if f.testBit 31 && slice f 8 16 == 0x4E0B then
    some { code := 0x4E0B, account := noAcct, stamp := { lo := getF s (hdrERR_POS_LO 0x78), hi := getF s (hdrERR_POS_HI 0x78) }, data := 0, page := 0x78
           bit := f % 32 }
  else none

/-- Every role runs, or one does not at the START limit (R578, R581, R591, R600); a halted pair stays halted (R10). -/
def rolesStarted (ok : Bool) (s : State) : State :=
  if bootState s ≠ 4 then s
  else if !ok ∨ pairHalted s then bootHalt s
  else
    let s := setF Reg.CLU_CH_RUN 0xFFFFFFFF <| setF Reg.CLU_RUN_SVC 0xF <| setF Reg.CLU_RUN_MOT 0xF <| setF Reg.CLU_RUN_SECU 1 (setF Reg.CLU_RUN_CMD 1 s)
    let held := s.evt.secHeld
    let s := held.foldl (fun s r => toManager r s) { s with evt := { s.evt with secHeld := [] } }
    let s := match heldOvervolt s with | some r => toSafetyBuf r s | none => s
    queuesStart (drawMissing (toBoot 5 s))

/-! ## Lifecycle requests (R573, R574) -/

/-- The signed bytes of a lifecycle token (R574). -/
def tokenRecord (s : State) (from_ to_ : Nat) : List Byte :=
  ascii [0x54, 0x46, 0x35, 0x4C, 0x43, 0x54, 0x4F, 0x4B] ++ deviceId s ++ getWords Reg.LC_CHALLENGE 4 s ++ leBytes 1 from_ ++ leBytes 1 to_ ++ zeros 6

/-- The arguments of a mailbox request as bytes. -/
def argBytes (r : MbReq) (n : Nat) : List Byte := (List.range n).flatMap fun i => leBytes 4 (r.arg.getD i 0).toNat

/-- A fresh LC_CHALLENGE (R574). -/
def newChallenge (s : State) : State := drawMissing (putWords Reg.LC_CHALLENGE 4 (zeros 16) (setSec { s.sec with lcDrawn := false } s))

/-- A lifecycle bit is programmed into both copies, with ID_KILL on the way to RMA (R570, R571). -/
def programLc (bit : Nat) (kill : Bool) (s : State) : State :=
  let f := s.sec.fuses
  setF Reg.SEC_STATUS_LC_PENDING 1 (setSec { s.sec with fuses := { f with lc0 := f.lc0 ||| 2 ^ bit, lc1 := f.lc1 ||| 2 ^ bit
                                                                          kill0 := f.kill0 || kill, kill1 := f.kill1 || kill } } s)

/-- Requests are permitted: an image accepted, no seal made or begun (R573). -/
def lcOpen (s : State) : Bool := (bootState s == 4 || bootState s == 5) && !getB s Reg.SEC_STATUS_SEALED && !getB s Reg.SEC_STATUS_SEAL_BUSY

/-- SECU finishes a mailbox request with a given opcode and number of arguments: `act` answers RESULT and the state (R22, R573). -/
def secuRequest (opcode args : Nat) (act : MbReq → State → Nat × State) (s : State) : State :=
  match s.core.mailbox.find? fun e => e.1 == mbKey 0x82 0 with
  | none => s
  | some (_, r) =>
    if r.opcode ≠ opcode ∨ !getB s (mbBUSY 0x82 0) ∨ getB s Reg.CLU_LS_MISMATCH_SECU then s
    else if r.args ≠ args then mailboxDone 0x82 0 0x02 [] s
    else let x := act r s; mailboxDone 0x82 0 x.1 [] x.2

/-- A transition that a token permits (R573, R574); LC_CHALLENGE is drawn again whatever the result. -/
def tokenAdvance (to_ : Nat) (fromOk : Nat → Bool) (r : MbReq) (s : State) : Nat × State :=
  let lc := lcState s
  if !lcOpen s ∨ !fromOk lc then (3, newChallenge s)
  else
    let ok := Crypto.edVerify s.sec.vendorPub (tokenRecord s lc to_) (argBytes r 16)
    let s := newChallenge s
    if ok then (0, programLc (if to_ = 3 then 2 else 0) (to_ == 3) s) else (2, raiseB 0x03 30 0 0x03 noAcct 0 s)

/-- The advance to DEPLOYED (R573, R574). -/
def deployAdvance (_ : MbReq) (s : State) : Nat × State :=
  if !lcOpen s ∨ lcState s ≠ 1 then (3, s) else (0, programLc 1 false s)

/-- OEM_HASH is programmed, once, in OEM_OPEN (R572, R573). -/
def oemProgram (r : MbReq) (s : State) : Nat × State :=
  if !lcOpen s ∨ lcState s ≠ 1 ∨ fuseOem s ≠ zeros 32 then (3, s)
  else
    let h := argBytes r 8
    let copy : FuseCopy := { data := h, crc := fuseCrc h }
    let s := setSec { s.sec with fuses := { s.sec.fuses with oem0 := copy, oem1 := copy } } s
    (0, setB Reg.SEC_STATUS_OEM_SET (h != zeros 32) s)

/-! ## The configuration digest (R585) -/

/-- A digest record. -/
def digestRecord (page kind off value : Nat) : List Byte := leBytes 1 page ++ leBytes 1 kind ++ leBytes 2 off ++ leBytes 4 value

/-- The bits of a word that RWS fields cover; on some pages PAGE_CTRL.EN is one (R607, R618). -/
def rwsMask (addr : Nat) : Nat :=
  let en := if addr % 0x1000 = 8 then (match pageInfo (addr / 0x1000) with | some i => b2n i.enCtl | none => 0) else 0
  en ||| (fieldsAt addr).foldl (fun a f => if f.acc == .rws then a ||| ((2 ^ f.width - 1) * 2 ^ f.lo) else a) 0

/-- A page's records (R585, R611): its header's where EN is RWS, its registers', then the soft repair list's entries. -/
def pageRecords (s : State) (p : Nat) : List Byte :=
  if digestRecords p = 0 then []
  else
    let regs := (List.range 0x400).flatMap fun i =>
      let a := 0x1000 * p + 4 * i
      let m := rwsMask a
      if m = 0 ∨ (p = 0x5D ∧ i = 0x13) then [] else digestRecord p 0 (4 * i) ((rd s a).toNat &&& m)
    let soft := if p = 0x5D then (List.range 512).flatMap fun i => digestRecord p 1 i (Tbl.get 0 s.mem.soft i) else []
    regs ++ soft

/-- CFG_DIGEST of the configuration in force (R585). -/
def cfgDigest (s : State) : List Byte :=
  Crypto.sha512 (ascii [0x54, 0x46, 0x35, 0x43, 0x46, 0x47, 0x30, 0x31] ++ (List.range 256).flatMap (pageRecords s))

/-- CFG_DIGEST as the SEC page shows it: zero until SEALED. -/
def cfgShown (s : State) : List Byte := getWords Reg.CFG_DIGEST 16 s

/-! ## The seal (R586) -/

/-- Every RWS field is locked (R587). -/
def rwsLocked (s : State) : Bool := getB s Reg.SEC_STATUS_SEALED || getB s Reg.SEC_STATUS_SEAL_BUSY

/-- CFG_OK: each pair of safety registers matches (R556, R567). -/
def cfgOk (s : State) : Bool :=
  rd s 0x2048 == rd s 0x204C && rd s 0x2050 == rd s 0x2054 && rd s 0x2058 == rd s 0x205C && rd s 0x2060 == rd s 0x2064

/-- The first seal check that fails, 0 if none (R586). -/
def sealReason (floorLow : Bool) (s : State) : Nat :=
  if rwsLocked s then 1
  else if bootState s ≠ 5 then 2
  else if !getB s Reg.MEM_STATUS_READY then 3
  else if floorLow then 4
  else if !cfgOk s then 5
  else if !getB s Reg.SEC_STATUS_RKEY_OK then 6
  else 0

/-! ## Signed records (R327, R466, R588, R589) -/

/-- The receipt key certificate (R588). -/
def rkCert (s : State) : List Byte :=
  let b := ascii [0x54, 0x46, 0x35, 0x52, 0x4B, 0x43, 0x52, 0x54] ++ getWords Reg.RCPT_PUB 8 s ++ deviceId s ++ getWords Reg.BOOT_ID 4 s
    ++ getWords Reg.FW_DIGEST 16 s ++ cfgShown s ++ zeros 8
  b ++ identitySign s b

/-- The attestation report (R589). -/
def attestReport (s : State) (nonce : List Byte) : List Byte :=
  let safe := getB s Reg.SAFE_STATUS_S1 || getB s Reg.SAFE_STATUS_S2 || getB s Reg.SAFE_STATUS_S3
  let flags := b2n (getB s Reg.SEC_STATUS_SEALED) + 2 * b2n (getB s Reg.SEC_STATUS_OEM_SET) + 4 * b2n (getB s Reg.SEC_STATUS_LC_PENDING)
    + 8 * b2n (getB s Reg.SEC_STATUS_ENTROPY_OK) + 16 * b2n safe
  let b := ascii [0x54, 0x46, 0x35, 0x41, 0x54, 0x54, 0x52, 0x31] ++ leBytes 1 (lcState s) ++ leBytes 1 flags ++ leBytes 1 (getF s Reg.CHIP_ID_ORDER)
    ++ zeros 1 ++ leBytes 4 (getF s Reg.FW_VERSION) ++ padTo 32 nonce ++ deviceId s ++ idPub s ++ getWords Reg.BOOT_ID 4 s
    ++ getWords Reg.FW_DIGEST 16 s ++ cfgShown s ++ padTo 32 (fuseVendor s) ++ padTo 32 (fuseOem s) ++ getWords Reg.RCPT_PUB 8 s
    ++ leBytes 8 s.que.cmdSeq ++ leBytes 4 (getF s Reg.STOP_CNT) ++ zeros 20
  b ++ identitySign s b

/-- The KEK agreement record (R327). -/
def kekRecord (s : State) (hostPub devPub : List Byte) (slot : Nat) : List Byte :=
  ascii [0x54, 0x46, 0x35, 0x4B, 0x45, 0x4B, 0x41, 0x47] ++ padTo 32 hostPub ++ devPub ++ leBytes 1 slot ++ zeros 7 ++ cfgShown s

/-- A write receipt of a tenant (R466); `seq` is CMD_SEQ with this command. -/
def receipt (s : State) (kind n seq : Nat) : List Byte :=
  let t := tenant s n
  let c := t.chain
  let vid := match s.vol.map with | some m => padTo 16 m.volumeId | none => zeros 16
  let b := ascii [0x54, 0x46, 0x35, 0x52, 0x43, 0x50, 0x54, 0x31] ++ leBytes 1 kind ++ leBytes 1 n ++ zeros 6 ++ leBytes 8 t.tag ++ leBytes 4 t.rcptNo
    ++ leBytes 4 (if s.vol.loaded then s.vol.nonce.getD 0 else 0) ++ (if s.vol.loaded then vid else zeros 16) ++ leBytes 8 c.first ++ leBytes 8 c.last
    ++ leBytes 8 c.grans ++ leBytes 8 c.plain ++ leBytes 8 c.tape ++ leBytes 8 c.records ++ leBytes 4 (if s.vol.loaded then s.vol.eodDsn else 0) ++ zeros 4
    ++ leBytes 8 seq ++ padTo 64 c.h ++ cfgShown s ++ getWords Reg.FW_DIGEST 16 s ++ getWords Reg.RCPT_PUB 8 s
  b ++ Crypto.edSign (s.sec.rkey.getD []) b

/-! ## Meanings -/

/-- IMG_APERTURE_WRITE. -/
def execImgApertureWrite (index value : Nat) (s : State) : Host.Outcome State Fault Refusal := .next (lockGate 0x03 (apertureWrite index value) s)

/-- BOOT_GO. -/
def execBootGo (s : State) : Host.Outcome State Fault Refusal := .next (lockGate 0x03 bootGo s)

/-- BOOT_CLEAR. -/
def execBootClear (s : State) : Host.Outcome State Fault Refusal := .next (lockGate 0x03 clearRegion s)

/-- IMAGE_VERIFY_DONE. -/
def execImageVerifyDone (s : State) : Host.Outcome State Fault Refusal := .next (imageVerify s)

/-- ROLE_START_DONE. -/
def execRoleStartDone (ok : Bool) (s : State) : Host.Outcome State Fault Refusal := .next (rolesStarted ok s)

/-- LC_ADVANCE_OEM_OPEN. -/
def execLcAdvanceOemOpen (s : State) : Host.Outcome State Fault Refusal := .next (secuRequest 0x0101 16 (tokenAdvance 1 (· == 0)) s)

/-- LC_ADVANCE_DEPLOYED. -/
def execLcAdvanceDeployed (s : State) : Host.Outcome State Fault Refusal := .next (secuRequest 0x0102 0 deployAdvance s)

/-- LC_ADVANCE_RMA. -/
def execLcAdvanceRma (s : State) : Host.Outcome State Fault Refusal :=
  .next (secuRequest 0x0103 16 (tokenAdvance 3 fun n => n == 1 || n == 2) s)

/-- OEM_HASH_PROGRAM. -/
def execOemHashProgram (s : State) : Host.Outcome State Fault Refusal := .next (secuRequest 0x0110 8 oemProgram s)

/-- ENTROPY_FAIL. -/
def execEntropyFail (before window : List Bool) (s : State) : Host.Outcome State Fault Refusal := .next (entropyService before window s)

/-- ENT_RETEST. -/
def execEntRetest (raw : List Bool) (s : State) : Host.Outcome State Fault Refusal := .next (lockGate 0x03 (entropyTest raw) s)

end Sys2Proof.Machine
end

