-- ==== Sys2Proof/Machine/Cipher.lean ====
section
/-!
DEFINITION. The cipher engine (spec/10): lanes and pairs (R310–R312), the host-direct request (R313–R319), decryption of granules (R331, R332),
the unwrap of a key import (R328), erasing keys (R325), and what a lane's failed known answer brings (R329, R330).
-/
namespace Sys2Proof.Machine

def setCiph (c : CiphSt) (s : State) : State := { s with ciph := c }

/-! ## Lanes (R310, R329, R330) -/

/-- A lane may be used: enabled, and not disabled by R329. -/
def laneOk (s : State) (l : Nat) : Bool := decide (l < 8) && (getF s Reg.CIPH_LANE_EN).testBit l && !(getF s Reg.CIPH_STATUS_LANE_OFF).testBit l

def pairOk (s : State) (p : Nat) : Bool := laneOk s (2 * p) && laneOk s (2 * p + 1)

/-- No complete pair remains (R330). -/
def noPair (s : State) : Bool := !(List.range 4).any (pairOk s)

/-- The lanes of a run. -/
def CipherRun.lanes (r : CipherRun) : List Nat := if r.pair then [r.lane, r.lane + 1] else [r.lane]

def laneBusy (s : State) (l : Nat) : Bool := s.ciph.runs.any fun r => r.lanes.contains l

def laneFree (s : State) (l : Nat) : Bool := laneOk s l && !laneBusy s l

/-- The lowest free lane; the lowest pair with both lanes free, `avoid` excepted. -/
def freeLane (s : State) : Option Nat := (List.range 8).find? (laneFree s)

def freePair (s : State) (avoid : Option Nat) : Option Nat :=
  ((List.range 4).find? fun p => some p != avoid && laneFree s (2 * p) && laneFree s (2 * p + 1))

/-- CIPH_NO_PAIR is raised when the last complete pair goes (R330). -/
def pairCheck (before : Bool) (s : State) : State := if !before ∧ noPair s then raiseC 0x51 3 0x05 noAcct 0 s else s

/-- A lane gives a wrong known answer (R329). -/
def katFail (lane vectors : Nat) (s : State) : State :=
  let before := noPair s
  let s := addF Reg.KAT_FAIL_CNT vectors s
  let s := setF Reg.CIPH_STATUS_LANE_OFF (getF s Reg.CIPH_STATUS_LANE_OFF ||| 2 ^ lane) s
  pairCheck before (raiseC 0x51 2 0x04 noAcct lane s)

/-! ## Host-direct requests (R313–R316) -/

def cSLOT (d : List Byte) : Nat := dField d 0x10 2
def cMODE (d : List Byte) : Nat := dField d 0x12 1
def cLEN (d : List Byte) : Nat := dField d 0x14 4
def cIV (d : List Byte) : List Byte := bytesAt d 0x18 12
def cAAD (d : List Byte) : Nat := dField d 0x24 2
def cSRC_LIST (d : List Byte) : Nat := dField d 0x28 4
def cSRC_OFS (d : List Byte) : Nat := dField d 0x2C 2
def cDST_OFS (d : List Byte) : Nat := dField d 0x2E 2
def cDST_LIST (d : List Byte) : Nat := dField d 0x30 4
def cUSER (d : List Byte) : Nat := dField d 0x34 8

/-- The mode works on a data key slot (R315). -/
def cData (d : List Byte) : Bool := 1 ≤ cMODE d && cMODE d ≤ 4

/-- Bytes of the source and of the destination; none for a mode without destination (R315). KWP_UNWRAP may give up to LEN − 8 bytes. -/
def cSrcLen (d : List Byte) : Nat :=
  match cMODE d with
  | 1 => cAAD d + cLEN d
  | 2 => cAAD d + cLEN d + 16
  | 3 => cAAD d
  | 4 => cAAD d + 16
  | _ => cLEN d

def cDstLen (d : List Byte) : Option Nat :=
  match cMODE d with
  | 1 => some (cLEN d + 16)
  | 2 => some (cLEN d)
  | 3 => some 16
  | 4 => none
  | 5 => some ((cLEN d + 7) / 8 * 8 + 8)
  | _ => some (cLEN d - 8)

/-- Pages that a list must name (R314). -/
def cPages (ofs bytes : Nat) : Nat := cdiv (ofs + bytes) 4096

/-- What the request alone shows to be malformed (R313–R316). -/
def cipherBad (d : List Byte) : Bool :=
  let lenOk := match cMODE d with
    | 1 => decide (cLEN d ≤ 4186112)
    | 2 => decide (cLEN d ≤ 4186112)
    | 3 => cLEN d == 0
    | 4 => cLEN d == 0
    | 5 => 1 ≤ cLEN d && cLEN d ≤ 4096
    | 6 => 16 ≤ cLEN d && cLEN d ≤ 4104 && cLEN d % 8 == 0
    | _ => false
  let slotOk := if cData d then decide (cSLOT d < 0x400) else 0x400 ≤ cSLOT d && cSLOT d ≤ 0x40F
  let dst := cDstLen d
  dField d 0x13 1 != 0 || dField d 0x26 2 != 0 || dField d 0x3C 4 != 0 || !lenOk || !slotOk || decide (4096 < cAAD d)
    || decide (4095 < cSRC_OFS d) || decide (4095 < cDST_OFS d) || decide (2 ^ 23 ≤ cSRC_LIST d) || decide (2 ^ 23 ≤ cDST_LIST d)
    || (dst.isNone && (cDST_LIST d != 0 || cDST_OFS d != 0)) || (!cData d && cIV d != zeros 12)
    || ((cMODE d == 1 || cMODE d == 3) && (cIV d).take 4 != List.replicate 4 0xFF#8)
    || decide (1024 < cPages (cSRC_OFS d) (cSrcLen d)) || (match dst with | some n => decide (1024 < cPages (cDST_OFS d) n) | none => false)

/-! ## Strings in pool pages (R314, R352, R359) -/

/-- The words of a string of `len` bytes at `ofs` of listed pages: page and word. -/
def stringWords (pages : List Nat) (ofs len : Nat) : List (Nat × Nat) :=
  if len = 0 then []
  else ((List.range ((ofs + len - 1) / 32 + 1)).drop (ofs / 32)).map fun k => (pages.getD (k / 128) 0, k % 128)

/-- A string is read by demand reads: its bytes, and whether a word of it is poisoned. -/
def readString (pages : List Nat) (ofs len : Nat) (s : State) : (List Byte × Bool) × State :=
  let r := (stringWords pages ofs len).foldl (fun (acc : (List Byte × Bool) × State) e =>
    let r := demandRead e.1 e.2 acc.2
    ((acc.1.1 ++ (wordBytes r.1.1).map (BitVec.ofNat 8), acc.1.2 || wDecode r.1.1 r.1.2 == .poisoned), r.2)) (([], false), s)
  ((bytesAt r.1.1 (ofs % 32) len, r.1.2), r.2)

/-- A string is written, word by word, for an account. -/
def writeString (pages : List Nat) (ofs : Nat) (bytes : List Byte) (account : Nat) (s : State) : State :=
  ((stringWords pages ofs bytes.length).zipIdx).foldl (fun s e =>
    let base := ofs / 32 * 32 + 32 * e.2
    let lo := max ofs base
    let hi := min (ofs + bytes.length) (base + 32)
    demandWrite e.1.1 e.1.2 (lo - base) (bytesAt bytes (lo - ofs) (hi - lo)) account s) s

/-- The entries of a list page; whether one is malformed or names a page that the account does not own, and whether a word of the list is
poisoned. -/
def readList (list count account : Nat) (s : State) : (List Nat × Bool × Bool) × State :=
  let owned (p : Nat) : Bool := decide (p < slotsReady s) && (page s p).alloc && (page s p).owner == account
  if !owned list then (([], true, false), s)
  else
    let r := readString [list] 0 (4 * count) s
    let es := (List.range count).map fun i => leNat (bytesAt r.1.1 (4 * i) 4)
    ((es, es.any (fun e => decide (2 ^ 23 ≤ e) || !owned e), r.1.2), r.2)

/-! ## Safe state S3 (R545, R547) -/

/-- What a request in `w` belongs to, while S3 is in force: the side command completes with SAFE_STATE. -/
def safeEnd (w : CipherWork) (s : State) : State :=
  let code := getF s Reg.SAFE_CAUSE_CODE
  match w with
  | .host q => finishSide q stSAFE_STATE (match (side s q).exec with | some x => cUSER x.entry.desc | none => 0) 0 code s
  | .unwrap q _ _ _ => finishSide q stSAFE_STATE 0 0 code s
  | _ => s

/-! ## Starting requests (R309–R312) -/

/-- A request's key as it starts. -/
def startKey (s : State) (w : CipherWork) : List Byte :=
  match w with
  | .enc n => match s.fmt.grans.find? fun g => g.gsn == n with | some g => (keySlot s g.slot).key | none => []
  | .dec _ => match s.que.exec with | some { rd := some { slot := some k, .. }, .. } => (keySlot s k).key | _ => []
  | .unwrap _ _ k _ => k
  | .host q =>
    match (side s q).exec with
    | some x => if cData x.entry.desc then (keySlot s (cSLOT x.entry.desc)).key else Tbl.get [] s.keys.kek (cSLOT x.entry.desc % 0x400)
    | none => []

/-- A run begins; `host` says whether it comes from the host-direct queue (R310). -/
def beginRun (r : CipherRun) (host : Bool) (s : State) : State :=
  let skips := if host ∨ s.ciph.host = [] then 0 else s.ciph.skips + 1
  setCiph { s.ciph with runs := s.ciph.runs ++ [r], skips } s

/-- The oldest host-direct request starts on a lane. -/
def startHost (s : State) : Option State :=
  match s.ciph.host, freeLane s with
  | w :: rest, some l => some (beginRun { lane := l, pair := false, work := w, key := startKey s w } true (setCiph { s.ciph with host := rest } s))
  | _, _ => none

def startFw (s : State) : Option State :=
  match s.ciph.fw, freeLane s with
  | w :: rest, some l => some (beginRun { lane := l, pair := false, work := w, key := startKey s w } false (setCiph { s.ciph with fw := rest } s))
  | _, _ => none

/-- The oldest read-path request starts; a granule served in cut-through begins (R332). -/
def startRd (s : State) : Option State :=
  match s.ciph.rd, freeLane s with
  | w :: rest, some l =>
    let s := beginRun { lane := l, pair := false, work := w, key := startKey s w } false (setCiph { s.ciph with rd := rest } s)
    match s.que.exec with
    | some { rd := some g, .. } => some (if g.cut then beginCut g s else s)
    | _ => some s
  | _, _ => none

/-- The write path: a request to be run again goes first, on another enabled pair if there is one (R311, R312). -/
def startWr (s : State) : Option State :=
  match s.ciph.retry, s.ciph.wr with
  | r :: rest, _ =>
    let other := (List.range 4).any fun p => p != r.lane / 2 && pairOk s p
    match freePair s (if other then some (r.lane / 2) else none) with
    | some p => some (beginRun { r with lane := 2 * p } false (setCiph { s.ciph with retry := rest } s))
    | none => none
  | [], w :: rest =>
    match freePair s none with
    | some p =>
      let inj := s.ciph.inject
      some (beginRun { lane := 2 * p, pair := true, work := w, key := startKey s w, inj } false (setCiph { s.ciph with wr := rest, inject := false } s))
    | none => none
  | _, _ => none

/-- Requests of a READ that has ended leave the read-path queue. -/
def purgeRd (s : State) : State :=
  let now := match s.que.exec with | some { rd := some g, .. } => some g.gsn | _ => none
  setCiph { s.ciph with rd := s.ciph.rd.filter fun w => match w with | .dec n => now == some n | _ => false } s

/-- The next request to start (R310): firmware's, the read path's, the write path's, then the host's, which goes first once 15 others have
passed it. -/
def nextStart (s : State) : Option State :=
  (if 15 ≤ s.ciph.skips then startHost s else none).or <| (startFw s).or <| (startRd s).or <| (startWr s).or (startHost s)

/-- A waiting cipher request starts on free lanes (R310); none while CIPH is disabled or quiesced. In S3 nothing starts, and side commands that
wait complete with SAFE_STATE (R547). -/
def laneStart (s : State) : State :=
  let s := purgeRd (feedCipher s)
  if s3InForce s then
    let l := s.ciph.host ++ s.ciph.fw
    l.foldl (fun s w => safeEnd w s) (setCiph { s.ciph with host := [], fw := [], rd := [], wr := [], retry := [] } s)
  else if !getB s Reg.CIPH_CTRL_EN ∨ getB s (hdrQUIESCE 0x51) then s
  else
    (nextStart s).getD s

/-! ## Requests that finish (R311, R312, R315–R319, R331) -/

/-- The lanes of a pair disagree (R312): the request runs again on another enabled pair, or CIPH_FAIL brings S3. An injected mismatch is only
counted. -/
def pairMismatch (r : CipherRun) (injected : Bool) (s : State) : State :=
  let gsn := match r.work with | .enc n => n | _ => 0
  let acct := match s.fmt.grans.find? fun g => g.gsn == gsn with | some g => g.tenant | none => noAcct
  let s := incF Reg.PAIR_MISMATCH_CNT s
  if r.again then
    let code := faultCode 4 0x9 0x02
    enterS3 code (raiseC 0x51 4 0x02 acct gsn (setF Reg.CIPH_STATUS_FAILED 1 s))
  else
    let s := if injected then s else raiseC 0x51 1 0x01 acct gsn s
    setCiph { s.ciph with retry := s.ciph.retry ++ [{ r with again := true, inj := false }] } s

/-- A granule has been encrypted (R317, R320). -/
def encDone (n : Nat) (key : List Byte) (s : State) : State :=
  match s.fmt.grans.find? fun g => g.gsn == n && g.stage == .requested with
  | none => s
  | some g =>
    let c := Crypto.gcmEnc key (granIv g) (granAad g g.body.length) g.body
    add64 Reg.ENC_BYTES_LO Reg.ENC_BYTES_HI g.body.length (onGran n (fun g => { g with body := c.1, tag := c.2, stage := .sealed }) s)

/-- A granule that READ is at has been decrypted: its verdict (R331, R332). -/
def decDone (n : Nat) (upset : Bool) (s : State) : State :=
  match s.que.exec with
  | some { rd := some g, .. } =>
    if g.gsn ≠ n then s
    else
      let ok := !upset && tagOk s g
      readWork false (granuleVerdict ok (add64 Reg.DEC_BYTES_LO Reg.DEC_BYTES_HI g.body.length s))
  | _ => s

/-- A host-direct request has run (R315–R319): what it writes, and its status. -/
def hostDone (q : Nat) (key : List Byte) (upset : Bool) (s : State) : State :=
  match (side s q).exec with
  | none => s
  | some x =>
    let d := x.entry.desc
    let a := dAccount d
    let srcN := cPages (cSRC_OFS d) (cSrcLen d)
    let dst := x.seen.drop srcN
    let done (st det : Nat) (s : State) : State := finishSide q st (cUSER d) 0 det s
    let r := readString (x.seen.take srcN) (cSRC_OFS d) (cSrcLen d) s
    let s := r.2
    if r.1.2 then done stBUFFER_DATA_LOST codePoison s
    else
      let src := r.1.1
      let aad := src.take (cAAD d)
      let text := bytesAt src (cAAD d) (cLEN d)
      let tag := src.drop (cAAD d + cLEN d)
      let put (b : List Byte) (s : State) : State := writeString dst (cDST_OFS d) b a s
      let enc (n : Nat) (s : State) : State := add64 Reg.ENC_BYTES_LO Reg.ENC_BYTES_HI n s
      let dec (n : Nat) (s : State) : State := add64 Reg.DEC_BYTES_LO Reg.DEC_BYTES_HI n s
      match cMODE d with
      | 1 =>
        let c := Crypto.gcmEnc key (cIV d) aad text
        done stOK 0 (put (c.1 ++ c.2) (enc text.length s))
      | 2 =>
        match (if upset then none else Crypto.gcmDec key (cIV d) aad text tag) with
        | some p => done stOK 0 (put p (dec text.length s))
        | none => done stTAG_FAIL 0 (put (zeros (cLEN d)) (incF Reg.TAG_FAIL_CNT (dec text.length s)))
      | 3 => done stOK 0 (put (Crypto.gcmEnc key (cIV d) aad []).2 s)
      | 4 =>
        if !upset && (Crypto.gcmDec key (cIV d) aad [] tag).isSome then done stOK 0 s else done stTAG_FAIL 0 (incF Reg.TAG_FAIL_CNT s)
      | 5 => done stOK 0 (put (Crypto.kwpWrap key src) (enc src.length s))
      | _ =>
        match (if upset then none else Crypto.kwpUnwrap key src) with
        | some p => done stOK 0 (put p (dec src.length s))
        | none => done stTAG_FAIL 0 (dec src.length s)

/-- A request on a lane finishes. `upset`: a lane of a pair differed, or a single lane decrypted or verified wrongly. The unwrap of a key import
has a row of its own. -/
def requestDone (lane : Nat) (upset : Bool) (s : State) : State :=
  match s.ciph.runs.find? fun r => r.lane == lane with
  | none => s
  | some r =>
    match r.work with
    | .unwrap _ _ _ _ => s
    | w =>
      let s := setCiph { s.ciph with runs := s.ciph.runs.filter fun r => r.lane != lane } s
      match w with
      | .enc n => if upset ∨ r.inj then pairMismatch r (r.inj && !upset) s else encDone n r.key s
      | .dec n => decDone n upset s
      | .host q => hostDone q r.key upset s
      | .unwrap _ _ _ _ => s

/-! ## Keys (R325, R328) -/

def setSlot (n : Nat) (k : KeySlot) (s : State) : State := setKeys { s.keys with data := Tbl.set s.keys.data n k } s

/-- Checks of KEY_IMPORT on the tenant and the slots, 0 if all pass (R328). -/
def importCheck (s : State) (tenantNo : Nat) (kek : Bool) (slot : Nat) : Nat :=
  if (tenant s tenantNo).state ≠ 1 then stTENANT_NOT_OPEN
  else if !kek ∨ (keySlot s slot).state ≠ 0 then stILLEGAL_COMMAND
  else stOK

/-- The unwrap of a side queue's KEY_IMPORT has finished (R319, R328). -/
def unwrapDone (q : Nat) (upset : Bool) (s : State) : State :=
  match s.ciph.runs.find? fun r => match r.work with | .unwrap k _ _ _ => k == q | _ => false with
  | some { lane, work := .unwrap _ _ key blob, .. } =>
    let s := setCiph { s.ciph with runs := s.ciph.runs.filter fun r => r.lane != lane } s
    let s := add64 Reg.DEC_BYTES_LO Reg.DEC_BYTES_HI blob.length s
    match (side s q).exec with
    | none => s
    | some x =>
      let d := x.entry.desc
      let slot := dField d 0x12 2
      let st := importCheck s (dTenant d) true slot
      let failed (s : State) : State :=
        finishSide q stTAG_FAIL 0 0 (faultCode 0 0x9 0x06) (raiseC 0x52 0 0x06 (dTenant d) slot (incF Reg.KEY_UNWRAP_FAIL_CNT s))
      if st ≠ stOK then finishSide q st 0 0 0 s
      else match (if upset then none else Crypto.kwpUnwrap key blob) with
        | none => failed s
        | some p =>
          if p.length ≠ 48 ∨ bytesAt p 0x2C 4 ≠ zeros 4 then failed s
          else if leNat (bytesAt p 0x20 8) ≠ (tenant s (dTenant d)).tag then
            finishSide q stKEY_NOT_OWNED 0 0 (faultCode 0 0x9 0x07) (raiseC 0x52 0 0x07 (dTenant d) slot (incF Reg.KEY_BIND_FAIL_CNT s))
          else finishSide q stOK 0 0 0 (setSlot slot { state := 1, tenant := dTenant d, tag := leNat (bytesAt p 0x28 4), key := p.take 32 } s)
  | _ => s

/-- A stream entry that names a slot and was accepted before its erase (R325). -/
def namesSlot (n limit : Nat) (e : QEntry) : Bool :=
  dOpcode e.desc == opWRITE && e.desc != [] && wENC e.desc && wKEY_SLOT e.desc == n && decide (e.seq ≤ limit)

/-- The slot's key is still in use: by stream commands accepted before its erase and their granules, by READ, by a host-direct request. -/
def slotInUse (s : State) (n : Nat) : Bool :=
  let lim := (keySlot s n).eraseSeq
  let host (q : Nat) : Bool := match (side s q).exec with | some x => cData x.entry.desc && cSLOT x.entry.desc == n | none => false
  let work (w : CipherWork) : Bool := match w with | .host q => host q | _ => false
  s.que.stream.any (namesSlot n lim) || (match s.que.exec with | some x => namesSlot n lim x.entry | none => false)
    || (match s.fmt.openGran with | some g => g.enc && g.slot == n | none => false)
    || s.fmt.grans.any (fun g => g.enc && g.slot == n && (g.stage == .cut || g.stage == .compressed || g.stage == .requested))
    || (match s.que.exec with | some { rd := some g, .. } => g.slot == some n | _ => false)
    || s.ciph.host.any work || s.ciph.runs.any (fun r => work r.work)

/-- A side command of that opcode, waiting at work, whose field names a slot completes. -/
def wakeSide (op off size slot q : Nat) (s : State) : State :=
  match (side s q).exec with
  | some x => if x.phase = .work ∧ dOpcode x.entry.desc = op ∧ dField x.entry.desc off size = slot then finishSide q stOK 0 0 0 s else s
  | none => s

/-- Side commands of an opcode that wait for a slot complete with OK. -/
def wakeSides (op off size slot : Nat) (s : State) : State :=
  forEach (List.range 64) (fun q s => wakeSide op off size slot q s) s

/-- The last user of an ERASING slot has finished: the key is zeroed and the slot FREE (R325). -/
def eraseDone (n : Nat) (s : State) : State :=
  if (keySlot s n).state ≠ 2 ∨ slotInUse s n then s
  else wakeSides opKEY_ERASE 0x12 2 n (setKeys { s.keys with data := Tbl.erase s.keys.data n } s)

/-- The unwraps that use a KEK slot have finished: it is zeroed (R325). -/
def kekEraseDone (k : Nat) (s : State) : State :=
  let uses (w : CipherWork) : Bool := match w with | .unwrap _ n _ _ => n == k | _ => false
  let waiting := (List.range 64).any fun q => match (side s q).exec with
    | some x => x.phase == .work && dOpcode x.entry.desc == opKEK_ERASE && dField x.entry.desc 0x10 1 == k
    | none => false
  if !waiting ∨ s.ciph.fw.any uses ∨ s.ciph.runs.any (fun r => uses r.work) then s
  else wakeSides opKEK_ERASE 0x10 1 k (setKeys { s.keys with kek := Tbl.erase s.keys.kek k } s)

/-! ## Meanings -/

/-- CIPHER_LANE_START. -/
def execCipherLaneStart (s : State) : Host.Outcome State Fault Refusal := .next (laneStart s)

/-- CIPHER_REQUEST_DONE. -/
def execCipherRequestDone (lane : Nat) (upset : Bool) (s : State) : Host.Outcome State Fault Refusal := .next (requestDone lane upset s)

/-- A write of CIPH_CTRL.PAIR_INJECT (R312). -/
def pairInject (s : State) : State := lockGate 0x51 (fun s => setCiph { s.ciph with inject := true } s) s

/-- PAIR_INJECT. -/
def execPairInject (s : State) : Host.Outcome State Fault Refusal := .next (pairInject s)

/-- KEY_ERASE_COMPLETE. -/
def execKeyEraseComplete (slot : Nat) (s : State) : Host.Outcome State Fault Refusal := .next (eraseDone slot s)

/-- KEK_ERASE_COMPLETE. -/
def execKekEraseComplete (slot : Nat) (s : State) : Host.Outcome State Fault Refusal := .next (kekEraseDone slot s)

/-- KEY_IMPORT_UNWRAP_DONE. -/
def execKeyImportUnwrapDone (queue : Nat) (upset : Bool) (s : State) : Host.Outcome State Fault Refusal := .next (unwrapDone queue upset s)

end Sys2Proof.Machine
end

