-- ==== Sys2Proof/Machine/Compile.lean ====
section
/-!
DEFINITION. CH4b compiles the boards of a data set (R9, R258): the placement of queued rewrites and the size of the extension (R259–R262), and
the squares of R144–R158 with their verify windows (R146, R153).
-/
namespace Sys2Proof.Machine

/-! ## Placement of rewrites (R259–R261) -/

/-- A track's writer may take a rewrite (R260). -/
def writerOk (s : State) (t : Nat) : Bool := getB s (Reg.WSTATE_EN (t / 16) (t % 16)) && !getB s (Reg.WSTATE_INHIBIT (t / 16) (t % 16))

/-- The slot that R260 gives one queued row in an extension of `k` frames, beside the rows already placed. -/
def placeRow (s : State) (k : Nat) (placed : List ExtRow) (r : RwRow) : Option ExtRow :=
  (List.range 3).findSome? fun e => (List.range 512).findSome? fun i =>
    let t := (r.tFail + 67 + i) % 512
    if extSlot t e k && !(placed.any fun x => x.t == t && x.e == e) && t != r.tFail && writerOk s t &&
        !(placed.any fun x => x.t == t && x.m == r.m && sdsOf x.g == sdsOf r.g) then
      some { t, e, m := r.m, g := r.g, rewr := r.rewr, tFail := r.tFail }
    else none

/-- Placement in order; rows after the first without a slot are still tried. Answers what is placed. -/
def placeRows (s : State) (k : Nat) (rows : List RwRow) : List ExtRow :=
  rows.foldl (fun placed r => match placeRow s k placed r with | some x => placed ++ [x] | none => placed) []

/-- Insertion by a key, stable. -/
def insertBy {α : Type} (key : α → Nat) (x : α) : List α → List α
  | [] => [x]
  | y :: t => if key x < key y then x :: y :: t else y :: insertBy key x t

def sortBy {α : Type} (key : α → Nat) (l : List α) : List α := l.foldl (fun acc x => insertBy key x acc) []

/-- The queued rows that the board of data set `n` may take, oldest first (R96, R258, R260). -/
def takable (s : State) (n pass : Nat) : List RwRow :=
  sortBy (fun r => r.m * 8192 + r.g) (s.fmt.rewrite.filter fun r =>
    n ≤ r.m + 4 && r.m < n && (match dataSet s r.m with | some d => d.pass == pass | none => false))

/-- The extension of data set `n`: the smallest k that places every row, or K_MAX (R259). -/
def extensionOf (s : State) (n pass : Nat) : Nat × List ExtRow :=
  let rows := takable s n pass
  let kMax := min 8 (getF s Reg.RW_CTRL_K_MAX)
  match (List.range (kMax + 1)).find? fun k => (placeRows s k rows).length == rows.length with
  | some k => (k, placeRows s k rows)
  | none => (kMax, placeRows s kMax rows)

/-! ## Squares (R144–R157) -/

/-- A square at a number of ticks from the origin. -/
def sq (ticks op arg0 arg1 arg2 : Nat) : Square := { frame := ticks / 4096, tick := ticks % 4096, op, mask := 0, resv := 0, arg0, arg1, arg2 }

/-- Its offset in ticks. -/
def Square.ticks (q : Square) : Nat := q.frame * 4096 + q.tick

/-- The ticks of bit `x` of frame `f` (R148). -/
def bitTicks (n f x : Nat) : Nat := f * 4096 + x * 4096 / n

/-- Pieces of stream bits `a` to `b − 1` by frame: frame, frame bit, first stream bit, length (R91). -/
def pieces (u a b : Nat) : List (Nat × Nat × Nat × Nat) :=
  ((List.range (b / u + 1)).filter fun f => max a (f * u) < min b ((f + 1) * u)).map fun f =>
    (f, 64 + max a (f * u) - f * u, max a (f * u), min b ((f + 1) * u) - max a (f * u))

/-- The emission squares of a data set in a band (R151, R152). -/
def emissionSquares (b n k : Nat) : List Square :=
  let nb := bandBits b
  let u := nb - 64
  let slots := bandRows b + extSlots b k
  let gap (kind f i : Nat) : Square := sq (f * 4096) 0x04 (kind * 2 ^ 14 + i * 2 ^ 8 + n % 16 * 16) 0 0
  let gaps := (List.range (49 + k)).map fun f => if f < 49 then gap 0 f f else gap 1 f (f - 49)
  let rows := (List.range slots).flatMap fun p =>
    let q := rowBits * p
    let place (a : Nat) : Nat := bitTicks nb (a / u) (64 + a % u)
    [sq (place q) 0x01 p 0 0, sq (place (q + 32)) 0x02 p (n % 2 ^ 24) 0] ++
      (pieces u (q + 96) (q + rowBits)).map fun x => sq (bitTicks nb x.1 x.2.1) 0x03 p (x.2.2.1 - (q + 96)) x.2.2.2
  let e := rowBits * slots
  let fills := ((List.range (49 + k)).filter fun f => e < (f + 1) * u).map fun f => sq (bitTicks nb f (64 + (max e (f * u) - f * u))) 0x05 0 0 0
  let last := [gap 2 (49 + k) 0, sq (bitTicks nb (49 + k) 64) 0x05 0 0 0]
  gaps ++ rows ++ fills ++ last

/-- The window squares for the slots of a data set in a band, `dist` ticks after the rows (R153): 96 bits before the predicted sync mark to
the end of the row. -/
def windowSquares (b n dist : Nat) (read : Bool) (slots : List Nat) : List (Int × Square) :=
  let nb := bandBits b
  let u := nb - 64
  let flag := b2n read * 2 ^ 15
  slots.flatMap fun p =>
    let q := rowBits * p
    let z := q + rowBits - 1
    let first : Int := (q / u * nb + 64 + q % u : Nat)
    let open_ : Int := fdiv ((first - 96) * 4096) nb + dist
    let close : Int := fdiv (((z / u * nb + 64 + z % u + 1 : Nat) : Int) * 4096) nb + dist
    let pred := (64 + q % u + dist * nb / 4096) % nb
    [(open_, sq 0 0x06 (p + flag) n pred), (close, sq 0 0x07 (p + flag) n 0)]

/-- The slots of a data set in a band that hold rows to verify: the main slots, and extension slots in which the band carries a rewrite. -/
def verifySlots (b : Nat) (ext : List ExtRow) : List Nat :=
  List.range (bandRows b) ++ ((List.range 3).filter fun e => ext.any fun x => bandOf x.t == b && x.e == e).map fun e => bandRows b + e

/-- A board: head squares, emissions and windows in order, END with NEXT = 1 at the end of the pitch, the tail with the windows beyond it, and
END with NEXT = 0 (R146). -/
def boardOf (head body : List Square) (wins : List (Int × Square)) (endTicks : Nat) (marks : List Square) : List Square :=
  let at_ (x : Int × Square) : Square := { x.2 with frame := x.1.toNat / 4096, tick := x.1.toNat % 4096 }
  let inMain := (wins.filter fun x => decide (0 ≤ x.1 ∧ x.1 < (endTicks : Int))).map at_
  let tail := sortBy Square.ticks ((wins.filter fun x => decide ((endTicks : Int) ≤ x.1)).map at_)
  let last := match tail.getLast? with | some q => q.ticks | none => endTicks
  head ++ sortBy Square.ticks (body ++ inMain) ++ marks ++ [sq endTicks 0x0C 1 0 0] ++ tail ++ [sq last 0x0C 0 0 0]

/-- The words of a board (R149). -/
def boardWords (l : List Square) : Tbl Word :=
  let w := l.flatMap fun q =>
    [q.frame * 4096 + q.tick, q.op + q.mask * 2 ^ 8 + q.resv * 2 ^ 12 + q.arg0 * 2 ^ 16, q.arg1, q.arg2]
  (List.range w.length).zip (w.map (BitVec.ofNat 32))

/-- The extension table of a band for data set `n` (R158, R261). -/
def extTable (b n : Nat) (ext : List ExtRow) : Tbl Word :=
  (List.range 192).filterMap fun i =>
    match ext.find? fun x => x.t == 64 * b + i / 3 && x.e == i % 3 with
    | some x => some (i, BitVec.ofNat 32 (1 + (n - x.m) * 2 + sdsOf x.g * 2 ^ 4 + rowOf x.g * 2 ^ 9 + x.rewr * 2 ^ 17))
    | none => none

/-- Windows of the data sets written before in the same run, against the origin of data set `n` (R146). -/
def earlierWindows (s : State) (b n : Nat) : List (Int × Square) :=
  let run := s.fmt.sets.filter fun d => d.dsn < n && d.compiled && (s.fmt.running || !d.begun)
  run.flatMap fun d =>
    let shift := sumN ((run.filter fun x => d.dsn ≤ x.dsn).map fun x => (50 + x.k) * 4096)
    if d.verify then (windowSquares b d.dsn (getF s (Reg.VFY_DIST b)) false (verifySlots b d.ext)).map fun x => (x.1 - (shift : Int), x.2) else []

/-- The write board of data set `n` in a band. -/
def writeBoard (s : State) (b n k : Nat) (ext : List ExtRow) (verify : Bool) : List Square :=
  let e := (50 + k) * 4096
  let own := if verify then windowSquares b n (getF s (Reg.VFY_DIST b)) false (verifySlots b ext) else []
  boardOf [sq 0 0x0A 7 0 0, sq 0 0x08 7 n 0, sq 0 0x09 1 n 0] (emissionSquares b n k) (earlierWindows s b n ++ own) e [sq e 0x09 2 n 0]

/-- The read board of a data set in a band (R145, R187): read windows on every slot, and at its head those of the board that runs before it. -/
def readBoard (s : State) (b : Nat) (p : ReadPlan) : List Square :=
  let slots (k : Nat) : List Nat := List.range (bandRows b + extSlots b k)
  let dist := getF s (Reg.VFY_DIST b)
  let st := band s b
  let before := match (if st.running then (st.buf st.cur).dsn else none) with
    | some m => match s.rch.sets.find? fun d => d.dsn == m with
      | some d => (windowSquares b m dist true (slots d.k)).map fun x => (x.1 - (((50 + d.k) * 4096 : Nat) : Int), x.2)
      | none => []
    | none => []
  boardOf [sq 0 0x0A 7 0 0, sq 0 0x08 6 p.dsn 0] [] (before ++ windowSquares b p.dsn dist true (slots p.k)) ((50 + p.k) * 4096) []

/-! ## Compiling (R9, R258, R262) -/

/-- The buffer that the next board goes to: the one that does not run. -/
def freeBuffer (st : BandSt) : Nat := if st.running then 1 - st.cur else 0

/-- The sequencers can take another board: enabled, out of host mode, the buffer not running free. -/
def canCompile (s : State) : Bool :=
  (List.range 8).all fun b =>
    let st := band s b
    getB s (Reg.BRD_CTRL_EN b) && !getB s (Reg.BRD_CTRL_HOST b) &&
      (if st.running then !(st.buf (1 - st.cur)).armed else !st.a.armed && !st.b.armed)

/-- A board is stored in the free buffer of its band and armed (R144, R159). -/
def loadBoard (b dsn origin pass : Nat) (read : Bool) (squares : List Square) (ext : Tbl Word) (s : State) : State :=
  let st := band s b
  let i := freeBuffer st
  let s := setBand b (st.setBuf i { words := boardWords squares, ext, armed := false, armedAt := 0, dsn := some dsn }) s
  let len := squares.length
  let s := if i = 0 then
      setF (Reg.BRD_ORIGIN_A b) origin <| setF (Reg.BRD_INFO_A_PASS b) pass <| setB (Reg.BRD_INFO_A_READ b) read <|
        setF (Reg.BRD_INFO_A_ROBUST b) 0 <| setF (Reg.BRD_INFO_A_LEN b) len s
    else
      setF (Reg.BRD_ORIGIN_B b) origin <| setF (Reg.BRD_INFO_B_PASS b) pass <| setB (Reg.BRD_INFO_B_READ b) read <|
        setF (Reg.BRD_INFO_B_ROBUST b) 0 <| setF (Reg.BRD_INFO_B_LEN b) len s
  armBuffer b i s

/-- Every copy that a data set carries has had its verify outcome. -/
def allSeen (d : DataSet) : Bool := !d.verify || (d.seen.eraseDups.length == dsRows && d.extSeen == d.ext.length)

/-- Every verify outcome that can be final before data set `n` is compiled is final (R258): those of the copies in data sets n − 4 to n − 2, and in
n − 1 once the run has stopped. -/
def outcomesFinal (s : State) (n : Nat) : Bool :=
  let due (m : Nat) : Bool := n ≤ m + 4 && (m + 2 ≤ n || (m < n && !s.fmt.running))
  !(s.rch.ctx.any fun c => !c.read && due c.dsn) && s.fmt.sets.all fun d => !(d.compiled && d.begun && due d.dsn) || allSeen d

/-- Bands in which the board of data set `n` has not been armed: it was refused there. -/
def refusedIn (s : State) (n : Nat) : List Nat :=
  (List.range 8).filter fun b => !([0, 1].any fun i => ((band s b).buf i).armed && ((band s b).buf i).dsn == some n)

/-- A compile whose board was refused is taken back (R165): the boards armed with it are disarmed, and the state before it, `old`, gives the plan to
compile again. A second refusal ends the stream command with MEDIUM_ERROR, and a write's volume too. -/
def takeBack (n : Nat) (write : Bool) (old : FmtSt) (s : State) : State :=
  let s := forEach (List.range 8) (fun b s => forEach [0, 1] (fun i s =>
    let x := (band s b).buf i
    if x.armed ∧ x.dsn = some n ∧ !((band s b).running && (band s b).cur == i) then freeBuf b i s else s) s) s
  if s.fmt.refused = some n then
    let det := faultCode 3 0x5 0x02
    let s := raise (bseqPage ((refusedIn s n).headD 0)) 30 det noAcct n (setFmt { old with refused := none } s)
    if write then endVolume stMEDIUM_ERROR det s else failExec stMEDIUM_ERROR det s
  else setFmt { old with refused := some n } s

/-- The boards of a ready data set are compiled and armed (R258–R262); rows that it was the last to be able to carry are abandoned. -/
def compileWrite (d : DataSet) (s : State) : State :=
  let n := d.dsn
  let old := s.fmt
  let (k, ext) := extensionOf s n d.pass
  let verify := getB s Reg.VFY_CTRL_EN
  let origin := s.fmt.nextFrame
  let boards := (List.range 8).map fun b => (b, writeBoard s b n k ext verify)
  let s := onSet n (fun d => { d with compiled := true, k, ext, origin, verify }) s
  let s := setFmt { s.fmt with
    nextFrame := frameOn d.pass origin (50 + k)
    rewrite := s.fmt.rewrite.filter fun r => !(ext.any fun x => x.m == r.m && x.g == r.g) } s
  let s := boards.foldl (fun s x => loadBoard x.1 n origin d.pass false x.2 (extTable x.1 n ext) s) s
  if refusedIn s n ≠ [] then takeBack n true old s
  else
    let s := addF Reg.RW_ROWS_CNT ext.length s
    let s := if s.fmt.running ∨ s.fmt.repos.isSome then s else goBack n d.pass origin s
    let late := s.fmt.rewrite.filter fun r => r.m + 4 ≤ n
    settleCheck (late.foldl (fun s r => abandonRow r.m r.g s) s)

/-- The read boards of a data set are compiled and armed; the read path begins to collect it. -/
def compileRead (p : ReadPlan) (s : State) : State :=
  let old := s.fmt
  let boards := (List.range 8).map fun b => (b, readBoard s b p)
  let s := if s.rch.sets.any (fun d => d.dsn == p.dsn) then s
    else setRch { s.rch with sets := s.rch.sets ++ [{ dsn := p.dsn, origin := p.origin, pass := p.pass, k := p.k }] } s
  let s := boards.foldl (fun s x => loadBoard x.1 p.dsn p.origin p.pass true x.2 [] s) s
  if refusedIn s p.dsn ≠ [] then takeBack p.dsn false old s
  else if (List.range 8).any (fun b => (band s b).running) then s else goBack p.dsn p.pass p.origin s

/-- The stream command in progress reads data sets. -/
def reading (s : State) : Bool :=
  match s.que.exec with
  | some x => [opREAD, opLOCATE, opREFRESH, opWRITE, opFILEMARK, opLOAD, opSELECT_MAP].contains (dOpcode x.entry.desc) && s.fmt.sets.isEmpty
  | none => false

/-- The search of R113 is under way: LOAD or SELECT_MAP follows the chain of data sets after a DIRTY map. -/
def searching (s : State) : Bool :=
  match s.que.exec with
  | some x => [opLOAD, opSELECT_MAP].contains (dOpcode x.entry.desc) && s.vol.map.isSome
  | none => false

/-- The data set may come next in the chain (R97, R102, R113): the one at EOD_FRAME of EOD_PASS first, then the next data set or the next of its
group's C3, in the frame after the gap of the one before or at the start of the next pass. -/
def onChain (s : State) (p : ReadPlan) : Bool :=
  let chain := sortBy ReadSet.dsn (s.rch.sets.filter fun d => s.vol.eodDsn ≤ d.dsn)
  match chain.getLast? with
  | none => p.dsn == s.vol.eodDsn && p.origin == s.vol.eodFrame && p.pass == s.vol.eodPass
  | some d =>
    let next := p.dsn == d.dsn + 1 || (d.dsn % 32 < 30 && p.dsn == d.dsn / 32 * 32 + 30)
    let here := p.pass == d.pass && p.origin == frameOn d.pass d.origin (50 + d.k)
    let far := match s.vol.map with | some m => p.dsn % 32 == 0 && p.pass == d.pass + 1 && p.origin == passStart p.pass m.uaEnd | none => false
    chain.any (fun d => d.dsn == p.dsn) || (next && (here || far))

/-- Without a selected map the data sets are read by their chain from frame 100,000 of pass 0 (R279, R282): the first, one known already, or the one that
follows the last. -/
def fromStart (s : State) (p : ReadPlan) : Bool :=
  match (sortBy ReadSet.dsn s.rch.sets).getLast? with
  | none => p.dsn == 0 && p.origin == uaStart && p.pass == 0
  | some d =>
    let next := p.dsn == d.dsn + 1 || (d.dsn % 32 < 30 && p.dsn == d.dsn / 32 * 32 + 30)
    let here := p.pass == d.pass && p.origin == frameOn d.pass d.origin (50 + d.k)
    let far := p.dsn % 32 == 0 && p.pass == d.pass + 1 && p.origin == passStart p.pass (getF s Reg.FMT_UA_END)
    (s.rch.sets.any fun d => d.dsn == p.dsn && d.origin == p.origin && d.pass == p.pass) || (next && (here || far))

/-- What the rung in progress reads (R270): the data set on the ladder and the four behind it, from its origin on; on level 4 the other data sets of
its group, with the four behind the group. -/
def onRung (s : State) (p : ReadPlan) : Bool :=
  let n := getF s Reg.RCV_DSN
  let idle := !(List.range 8).any fun b => (band s b).running
  if getF s Reg.RCV_STATUS_LEVEL = 4 then n / 32 * 32 ≤ p.dsn && p.dsn < n / 32 * 32 + 36 && p.dsn != n
  else if idle then p.dsn == n else n < p.dsn && p.dsn ≤ n + 4

/-- The next data set that CMD plans to read is one that the command in progress may read. -/
def planOk (s : State) (p : ReadPlan) : Bool :=
  reading s && p.k ≤ 8 && p.pass < 48 && (if getB s Reg.RCV_STATUS_ACTIVE then onRung s p
    else if searching s then onChain s p else if s.vol.map.isNone then fromStart s p else true)

/-- CH4b disarms a board that waits for a data set no longer to be written or read (log entry: disarmed boards). -/
def dropStale (s : State) : State :=
  forEach (List.range 8) (fun b s => forEach [0, 1] (fun i s =>
    let x := (band s b).buf i
    let gone : Bool := match x.dsn with | some n => (dataSet s n).isNone && !(s.rch.sets.any fun d => d.dsn == n) | none => false
    if x.armed ∧ gone ∧ !((band s b).running && (band s b).cur == i) then freeBuf b i s else s) s) s

/-- CH4b compiles the next board: of the oldest ready data set not yet compiled, or of the data set that CMD plans to read. -/
def boardCompile (plan : Option ReadPlan) (s : State) : State :=
  let s := dropStale s
  let idle := !(List.range 8).any fun b => (band s b).running
  if !canCompile s ∨ !getB s Reg.FMT_CTRL ∨ (s.fmt.repos.isSome ∧ !idle) then s
  else
    match s.fmt.sets.find? fun d => !d.compiled with
    | some d => if d.ready && codesOn s && outcomesFinal s d.dsn then compileWrite d s else s
    | none =>
      match plan with
      | some p => if planOk s p && getB s Reg.OUT_CTRL_C2_EN then compileRead p s else s
      | none => s

/-- BOARD_COMPILE. -/
def execBoardCompile (plan : Option ReadPlan) (s : State) : Host.Outcome State Fault Refusal := .next (boardCompile plan s)

end Sys2Proof.Machine
end

