-- ==== Sys2Proof/Machine/Queue.lean ====
section
/-!
DEFINITION. How commands leave their queues (spec/14): what a descriptor alone shows to be malformed (R434–R438, R445), the checks of R445 at
execution, the stream executor (R440–R443) and the side queues (R444).
-/
namespace Sys2Proof.Machine

/-! ## Descriptors (R435, R437, R438) -/

/-- The data of an opcode: none, data out or data in of fixed size, or as its own rule says. -/
inductive DataUse where
  | none_
  | out (n : Nat)
  | in_ (n : Nat)
  | write
  | any
  | attest
  | image
  deriving DecidableEq, Repr

/-- What an opcode's row of R437 says: fields of its own as offset and size, FLAGS [6:0] defined, data. -/
structure OpSpec where
  fields : List (Nat × Nat) := []
  flags  : Nat := 0
  data   : DataUse := .none_
  deriving DecidableEq, Repr

/-- The opcode table (R437); none for an undefined opcode. -/
def opSpec (op : Nat) : Option OpSpec :=
  match op with
  | 0x01 => some { fields := [(0x10, 4)] }
  | 0x02 => some {}
  | 0x03 => some { fields := [(0x10, 16)], flags := 1 }
  | 0x04 => some { fields := [(0x10, 2), (0x12, 1), (0x14, 4), (0x18, 4)], flags := 1, data := .write }
  | 0x05 => some { fields := [(0x10, 2)] }
  | 0x06 => some {}
  | 0x07 => some { fields := [(0x10, 4)], flags := 1, data := .any }
  | 0x08 => some { fields := [(0x10, 8)], flags := 1 }
  | 0x0A => some {}
  | 0x0B => some { fields := [(0x10, 1)] }
  | 0x0C => some { data := .in_ 400 }
  | 0x0D => some { fields := [(0x10, 8), (0x18, 4), (0x1C, 4)] }
  | 0x0E => some { data := .in_ 400 }
  | 0x20 => some { fields := [(0x10, 1), (0x12, 2)], data := .out 56 }
  | 0x21 => some { fields := [(0x12, 2)] }
  | 0x22 => some { fields := [(0x10, 1)], data := .out 32 }
  | 0x23 => some { fields := [(0x10, 1)] }
  | 0x24 => some { fields := [(0x10, 48)] }
  | 0x25 => some { fields := [(0x10, 4), (0x14, 4)], flags := 1, data := .any }
  | 0x26 => some { fields := [(0x10, 4), (0x14, 4)] }
  | 0x27 => some { fields := [(0x10, 32)], flags := 1, data := .attest }
  | 0x28 => some { fields := [(0x10, 1)] }
  | 0x29 => some { data := .image }
  | _ => none

/-- DATA_LEN suits the opcode (R438, R439, R589). -/
def dataLenOk (d : List Byte) (u : DataUse) : Bool :=
  match u with
  | .none_ => dDataLen d == 0
  | .out n => dDataLen d == n
  | .in_ n => decide (n ≤ dDataLen d)
  | .write => dDataLen d == wREC_LEN d * wREC_COUNT d
  | .any => true
  | .attest => decide ((if (dFlags d).testBit 0 then 288 else 448) ≤ dDataLen d)
  | .image => dDataLen d % 8 == 0

/-- A field of an opcode lies outside its range (R290, R313, R325, R437, R450, R558). -/
def fieldBad (d : List Byte) : Bool :=
  match dOpcode d with
  | 0x04 => decide (0x3FF < wKEY_SLOT d) || decide (2 < wPROFILE d) || decide (0xFFFFFFFF < wREC_LEN d * wREC_COUNT d) || (!wENC d && wKEY_SLOT d != 0)
  | 0x05 => dField d 0x10 2 == 0
  | 0x0B => decide (3 < dField d 0x10 1)
  | 0x20 => decide (15 < dField d 0x10 1) || decide (0x3FF < dField d 0x12 2)
  | 0x21 => decide (0x3FF < dField d 0x12 2)
  | 0x22 => decide (15 < dField d 0x10 1)
  | 0x23 => decide (15 < dField d 0x10 1)
  | 0x24 => cipherBad d
  | 0x28 => decide (7 < dField d 0x10 1)
  | _ => false

/-- Checks 1 and 2 of R445 on the descriptor alone: reserved fields, ranges, DATA_LEN and TAG; opcode and queue. An undefined opcode has no
fields of its own to check. 0 if they pass. -/
def staticCheck (queue : Nat) (e : QEntry) : Nat :=
  let d := e.desc
  let op := dOpcode d
  let common := dField d 0x05 1 != 0 || dField d 0x0C 4 != 0 || e.dupTag
  match opSpec op with
  | none => if common then stBAD_DESCRIPTOR else stILLEGAL_COMMAND
  | some p =>
    let own (i : Nat) : Bool := p.fields.any fun f => decide (f.1 ≤ i) && decide (i < f.1 + f.2)
    let reserved := (List.range 48).any fun i => !own (0x10 + i) && d.getD (0x10 + i) 0 != 0
    let fl := dFlags d % 0x80
    let bad := common || reserved || fl != fl &&& p.flags || (isSideOp op && (dFlags d).testBit 7)
      || (!usesTenant op && dTenant d != 0) || (if usesAccount op then decide (271 < dField d 0x06 2) else dField d 0x06 2 != 0)
      || fieldBad d || !dataLenOk d p.data
    if bad then stBAD_DESCRIPTOR else if isStreamOp op != (queue == 0) then stILLEGAL_COMMAND else stOK

/-- Bytes of DATA_OUT that an entry takes; none when it is refused whatever happens (R436, R438). -/
def dataOutLen (queue : Nat) (e : QEntry) : Nat :=
  if staticCheck queue e ≠ stOK then 0
  else match opSpec (dOpcode e.desc) with
    | some p => (match p.data with | .out n => n | .write => dDataLen e.desc | .image => dDataLen e.desc | _ => 0)
    | none => 0

/-! ## Checks at execution (R445) -/

/-- The fault code behind a status (R447). -/
def statusDetail (s : State) (st : Nat) : Nat :=
  if st = stILLEGAL_COMMAND ∨ st = stBAD_DESCRIPTOR then faultCode 0 0xC 0x08
  else if st = stVOLUME_MAP_CONFLICT then faultCode 3 0x5 0x09
  else if st = stSAFE_STATE ∨ st = stMOTION_FAULT then getF s Reg.SAFE_CAUSE_CODE
  else 0

/-- Accepted data that has not settled, or data sets to be written. -/
def toRecord (s : State) : Bool := unsettled s || !s.fmt.sets.isEmpty || s.fmt.group.isSome

/-- Stream commands that need a loaded cartridge (R448). -/
def needsCartridge (op : Nat) : Bool := [0x03, 0x04, 0x05, 0x06, 0x07, 0x08, 0x0A, 0x0B].contains op

/-- OUT_CTRL levels that a command needs: C2, and C3 as well (R142). A closure needs both when it has data sets to record; the housekeeping
area needs C2. -/
def needsC2 (s : State) (op : Nat) : Bool :=
  [0x01, 0x03, 0x04, 0x05, 0x07, 0x08, 0x0A, 0x0B].contains op || (op == opUNLOAD && s.vol.loaded) || ([0x06, 0x0C, 0x0E].contains op && toRecord s)

def needsC3 (s : State) (op : Nat) : Bool := [0x03, 0x04, 0x05, 0x0A].contains op || ([0x02, 0x06, 0x0C, 0x0E].contains op && toRecord s)

/-- A key slot serves a tenant's stream command: LOADED, or ERASING when the command was accepted before the erase (R323, R325). -/
def slotServes (s : State) (slot tenantNo seq : Nat) : Bool :=
  let k := keySlot s slot
  k.tenant == tenantNo && (k.state == 1 || (k.state == 2 && decide (seq ≤ k.eraseSeq)))

/-- The checks of R445 from the seal on, and the refusals of other chapters that come before any effect. -/
def streamCheck (e : QEntry) (s : State) : Nat × Nat × State :=
  let d := e.desc
  let op := dOpcode d
  let st := staticCheck 0 e
  let no (st : Nat) : Nat × Nat × State := (st, statusDetail s st, s)
  if st ≠ stOK then no st
  else if needsCartridge op ∧ !s.vol.loaded then no stILLEGAL_COMMAND
  else if !isSealed s then no stNOT_SEALED
  else if touchesMedium op ∧ safeInForce s then no stSAFE_STATE
  else
    let ack := (dFlags d).testBit 7
    match s.que.halt with
    | some h =>
      if !ack ∧ touchesMedium op then (h, s.que.haltDet, s) else after d op (if ack then setQue { s.que with halt := none, haltDet := 0 } s else s)
    | none => after d op s
where
  /-- Checks 6 and 7 and those of R142, R282, R304, R330 and R515. -/
  after (d : List Byte) (op : Nat) (s : State) : Nat × Nat × State :=
    let no (st : Nat) : Nat × Nat × State := (st, statusDetail s st, s)
    if usesTenant op ∧ (tenant s (dTenant d)).state ≠ 1 then no stTENANT_NOT_OPEN
    else if op = opWRITE ∧ wENC d ∧ !slotServes s (wKEY_SLOT d) (dTenant d) e.seq then no stKEY_NOT_OWNED
    else if touchesMedium op ∧ (getF s Reg.SPD_CTRL_SRC = 1 ∨ getF s Reg.SPD_CTRL_SRC = 2) then no stILLEGAL_COMMAND
    else if s.vol.blank ∧ touchesMedium op ∧ !([opLOAD, opUNLOAD, opFORMAT].contains op) then no stBLANK
    else if op = opWRITE ∧ (getF s Reg.CMP_ENG_EN = 0 ∨ (wENC d ∧ noPair s)) then no stILLEGAL_COMMAND
    else if (needsC2 s op ∧ !getB s Reg.OUT_CTRL_C2_EN) ∨ (needsC3 s op ∧ !getB s Reg.OUT_CTRL_C3_EN) then no stILLEGAL_COMMAND
    else (stOK, 0, s)

/-! ## The stream executor (R440) -/

/-- The entry at the head of the stream queue begins to execute: its token is returned, it is counted in its bracket, it is checked; a refused
one completes at once, and every other but WRITE closes the open granule (R288). -/
def beginStream (s : State) : State :=
  match s.que.stream with
  | e :: rest =>
    let s := countCommand e (giveBack 0 0 1 (setQue { s.que with stream := rest } s))
    let (st, det, s) := streamCheck e s
    let s := setQue { s.que with exec := some { entry := e, phase := .data } } s
    if st ≠ stOK then endExec st 0 0 0 det s else if dOpcode e.desc = opWRITE then s else closeGranule s
  | [] => s

/-- The stream may begin its next entry: CMD runs, nothing executes, and no closure that ends the volume is under way (R268, R361). -/
def streamFree (s : State) : Bool := cmdRuns s && s.que.exec.isNone && s.fmt.ending.isNone

/-- An entry at the head that no row of the stream's opcodes takes: an undefined or a side opcode (R434). -/
def strayHead (s : State) : Bool :=
  match s.que.stream with
  | { body := .cmd d, .. } :: _ => !isStreamOp (dOpcode d)
  | _ => false

def drainStream : Nat → State → State
  | 0, s => s
  | fuel + 1, s => if streamFree s && strayHead s then drainStream fuel (beginStream s) else s

/-- Stray descriptors at the head of the stream queue complete (R434). -/
def drainStray (s : State) : State := drainStream s.que.stream.length s

/-- A row of the stream: the entry at the head begins if it is of this opcode, and the executing command of this opcode goes on by `work`. -/
def streamRow (op : Nat) (work : ExecSt → State → State) (s : State) : State :=
  let s := tryFinish (drainStray s)
  let atHead : Bool := match s.que.stream with | { body := .cmd d, .. } :: _ => dOpcode d == op | _ => false
  let s := if streamFree s ∧ atHead then beginStream s else s
  match s.que.exec with
  | some x => if dOpcode x.entry.desc = op ∧ x.phase ≠ .sending ∧ cmdRuns s ∧ s.fmt.ending.isNone then work x s else s
  | none => s

/-- The executing command moves to a phase. -/
def toPhase (p : Phase) (s : State) : State := onExec (fun x => { x with phase := p }) s

/-- The executing command ends with a status and the fault code behind it. -/
def endWith (st : Nat) (s : State) : State := endExec st 0 0 0 (statusDetail s st) s

/-! ## Closure (R441) -/

/-- The closure of R441 begins: the open granule closes, and the group once every granule is packed. -/
def closeUp (s : State) : State :=
  let s := closeGranule s
  tryClose (setFmt { s.fmt with closeReq := true } s)

/-- Everything accepted is on tape (R266, R441). -/
def settledAll (s : State) : Bool := !unsettled s && s.fmt.sets.isEmpty && !s.fmt.closeReq

/-- A command that needs all accepted data on tape: it calls for the closure once, waits, and goes on by `work`. -/
def afterClosure (work : State → State) (x : ExecSt) (s : State) : State :=
  let s := if x.phase = .data then toPhase .settling (closeUp s) else s
  match s.que.exec with
  | some x => if x.phase = .work then work s else if settledAll s then work (toPhase .work s) else s
  | none => s

/-- A command's own work, on the command as it stands by then. -/
def onRunning (work : ExecSt → State → State) (s : State) : State := match s.que.exec with | some x => work x s | none => s

/-! ## Side queues (R444) -/

/-- A side command's data is returned as one record, and it completes (R438). -/
def sideReturn (q count : Nat) (bytes : List Byte) (record : Nat) (s : State) : State :=
  match (side s q).exec with
  | some x =>
    let s := if bytes = [] then s else pushDin (dinPackets q (dTag x.entry.desc) 0 0 0 0 bytes true) s
    finishSide q stOK record count 0 s
  | none => s

/-- Checks of R445 for a side command. -/
def sideCheck (q : Nat) (e : QEntry) (s : State) : Nat :=
  let op := dOpcode e.desc
  let st := staticCheck q e
  if st ≠ stOK then st
  else if !([opREG_IMAGE, opATTEST, opSAFE_CLEAR].contains op) ∧ !isSealed s then stNOT_SEALED
  else if s3InForce s ∧ [opCIPHER, opKEY_IMPORT, opKEK_AGREE].contains op then stSAFE_STATE
  else stOK

/-- A CIPHER echoes USER in its completion, whatever its status (R313). -/
def sideRecord (e : QEntry) : Nat := if dOpcode e.desc = opCIPHER then cUSER e.desc else 0

def beginSide (q : Nat) (s : State) : State :=
  let z := side s q
  match z.queue with
  | e :: rest =>
    let s := giveBack 0 q 1 (setSide q { z with queue := rest, exec := some { entry := e, phase := .data } } s)
    let st := sideCheck q e s
    if st = stOK then s else finishSide q st (sideRecord e) 0 (statusDetail s st) s
  | [] => s

def drainSide (q : Nat) : Nat → State → State
  | 0, s => s
  | fuel + 1, s =>
    match (side s q).queue with
    | e :: _ => if cmdRuns s && (side s q).exec.isNone && !isSideOp (dOpcode e.desc) then drainSide q fuel (beginSide q s) else s
    | [] => s

/-- A side command whose DATA_IN has left completes (R419). -/
def sideFinish (q : Nat) (s : State) : State :=
  match (side s q).exec with
  | some x => if x.phase = .sending then finishSide q x.status x.record x.count x.detail s else s
  | none => s

/-- A row of a side queue: its head begins if it is of this opcode, and the executing command of this opcode goes on by `work`. -/
def sideRow (op q : Nat) (work : ExecSt → State → State) (s : State) : State :=
  if q = 0 ∨ 64 ≤ q then s
  else
    let s := drainSide q (side s q).queue.length (sideFinish q s)
    let atHead : Bool := match (side s q).queue with | e :: _ => dOpcode e.desc == op | [] => false
    let s := if cmdRuns s ∧ (side s q).exec.isNone ∧ atHead then beginSide q s else s
    match (side s q).exec with
    | some x => if dOpcode x.entry.desc = op ∧ x.phase ≠ .sending ∧ cmdRuns s then work x s else s
    | none => s

/-- The executing side command, changed. -/
def onSide (q : Nat) (f : ExecSt → ExecSt) (s : State) : State := let z := side s q; setSide q { z with exec := z.exec.map f } s

/-- A side command ends with a status and the fault code behind it. -/
def sideEnd (q st : Nat) (s : State) : State := finishSide q st 0 0 (statusDetail s st) s

/-- Its DATA_OUT has all arrived. -/
def dataHere (x : ExecSt) : Bool := decide (dDataLen x.entry.desc ≤ x.entry.data.length)

/-! ## OUT_CTRL (R142) -/

/-- The stream queue holds a write, the command in progress included (R142). -/
def writeQueued (s : State) : Bool :=
  let w (e : QEntry) : Bool := [opWRITE, opFILEMARK].contains (dOpcode e.desc)
  s.que.stream.any w || (match s.que.exec with | some x => w x.entry | none => false)

/-- The command in progress needs a level that is being cleared (R142). -/
def levelGone (s : State) (c2 c3 : Bool) : Bool :=
  match s.que.exec with
  | some x =>
    let op := dOpcode x.entry.desc
    x.phase != .sending && ((c2 && needsC2 s op) || (c3 && needsC3 s op))
  | none => false

/-- A write of OUT_CTRL's enables (R142): clearing one while the stream queue holds a write, or while the command in progress needs it, ends that
command with ILLEGAL_COMMAND, and nothing further is written. What was accepted and is not on tape stays accepted: it is written once both levels
are enabled again (log entry: levels cleared). -/
def outCtrl (c2 c3 : Bool) (s : State) : State :=
  lockGate 0x49 (fun s =>
    let off2 := getB s Reg.OUT_CTRL_C2_EN && !c2
    let off3 := getB s Reg.OUT_CTRL_C3_EN && !c3
    let hit := ((off2 || off3) && writeQueued s) || levelGone s off2 off3
    let s := setB Reg.OUT_CTRL_C3_EN c3 (setB Reg.OUT_CTRL_C2_EN c2 s)
    if !hit then s
    else
      let s := forEach (List.range 8) stopBand s
      let s := setFmt { s.fmt with running := false, writing := none, repos := none } s
      match s.que.exec with
      | some x => if x.phase = .sending then s else endExec stILLEGAL_COMMAND x.record x.count x.bytes (faultCode 0 0xC 0x08) s
      | none => s) s

/-! ## Meanings -/

/-- OUT_CTRL_WRITE. -/
def execOutCtrlWrite (c2En c3En : Bool) (s : State) : Host.Outcome State Fault Refusal := .next (outCtrl c2En c3En s)

end Sys2Proof.Machine
end

