-- ==== Sys2Proof/Machine/Volume.lean ====
section
/-!
DEFINITION. The volume: reading and choosing its map (R109–R113, R279–R282), the updates of its housekeeping copies (R112), LOAD, UNLOAD,
FORMAT and SELECT_MAP (R448, R449, R280), and REFRESH (R277, R278).
-/
namespace Sys2Proof.Machine

/-! ## Maps as read (R109–R111) -/

/-- A map read from tape, if it is valid (R111). -/
def parseMap (b : List Byte) : Option VolMap :=
  let f (off size : Nat) : Nat := beNat (bytesAt b off size)
  let m := f 0x24 4
  let e := f 0x28 4
  let len := 256 + 32 * m + 16 * e
  let body := b.take len
  if f 0 4 ≠ 0x50564D31 ∨ f 4 2 ≠ 1 ∨ 4096 < m ∨ 65536 < e ∨ f 0x20 4 ≠ len ∨ b.length < len + 64 ∨ Crypto.sha512 body ≠ bytesAt b len 64 then none
  else
    let v : VolMap :=
      { copy := 0, dirty := (f 7 1).testBit 0, gen := f 8 8, volumeId := bytesAt b 0x10 16
        mounts := (List.range m).map fun i =>
          let o := 0x100 + 32 * i
          { nonce := f o 4, firstDsn := f (o + 4) 4, endDsn := f (o + 8) 4, firstGsn := f (o + 0x10) 8, endGsn := f (o + 0x18) 8 }
        relocs := (List.range e).map fun i => let o := 0x100 + 32 * m + 16 * i; (f o 4, f (o + 4) 4)
        uaEnd := f 0x30 4, eodDsn := f 0x34 4, eodFrame := f 0x38 4, eodPass := f 0x3C 1, nextGsn := f 0x40 8 }
    let flat := body.set 6 0
    some { v with odd := if volMapBody v = flat then [] else flat }

/-- Row `r` of a housekeeping copy's block `j` among the rows read (R90, R107): the first whose header is valid and is that row's. -/
def hkRowRead (c j r : Nat) (rows : List HkRow) : Option (List Byte) :=
  (rows.find? fun x => x.header.toNat == hkHeader c j r).map HkRow.data

/-- The columns of block `j` of copy `c` after C2, rows that were not read GOOD flagged (R107, R129, R136). -/
def hkColumns (margin c j : Nat) (rows : List HkRow) : List Column :=
  let t : Tbl (List Byte) := (List.range 240).filterMap fun r => (hkRowRead c j r rows).map fun d => (32 * r, d)
  (List.range 2048).map fun o => decodeColumn margin 0 o t

/-- The bytes of copy `c` as its four blocks give them (R108). -/
def hkCopyRead (margin c : Nat) (rows : List HkRow) : List Byte :=
  (List.range 4).flatMap fun j =>
    let cols := hkColumns margin c j rows
    (List.range 216).flatMap fun r => cols.map fun x => BitVec.ofNat 8 (x.word.getD r 0)

/-- What a housekeeping copy records (R107, R108): the row of track `t` in slot `k`, as its header and its 2,048 bytes, C2 rows by column. -/
def hkRecorded (m : VolMap) (c t k : Nat) : Option HkRow :=
  (hkRowOf t k).map fun jr =>
    let bytes := padTo hkCopyLen (volMapBytes { m with copy := c })
    let block := bytesAt bytes (hkBlockLen * jr.1) hkBlockLen
    let data := if jr.2 < 216 then bytesAt block (2048 * jr.2) 2048
      else (List.range 2048).map fun o =>
        BitVec.ofNat 8 ((c2Parity ((List.range 216).map fun r => (block.getD (2048 * r + o) 0).toNat)).getD (jr.2 - 216) 0)
    { header := BitVec.ofNat 64 (hkHeader c jr.1 jr.2), data }

/-- The end-of-data maps among the data sets read, oldest first (R104). -/
def eodReads (s : State) : List (Nat × VolMap) :=
  s.rch.sets.filterMap fun d => if d.done ∧ dsitKIND d.payload = 2 then (parseMap (d.payload.drop 0x200)).map (d.dsn, { · with copy := 3 }) else none

/-- What the end-of-data maps read so far tell: the latest of them, and the highest GENERATION (R112, R280). -/
def absorbEod (s : State) : State :=
  let l := (eodReads s).map Prod.snd
  setVol { s.vol with eodMap := (match l.getLast? with | some m => some m | none => s.vol.eodMap), highGen := l.foldl (fun (g : Nat) (m : VolMap) => max g m.gen) s.vol.highGen } s

/-- A stream command does not keep what an earlier one read: a data set that no rung resolved is read again by the next command that needs it
(R274); LOCATE and REFRESH (`all`) read every data set afresh, and what the end-of-data maps told stays known. -/
def freshReads (all : Bool) (x : ExecSt) (s : State) : State :=
  if x.phase ≠ .data ∨ x.step ≠ 0 then s
  else
    let s := if all then eodSetRead (absorbEod s) else s
    { s with rch := { s.rch with sets := s.rch.sets.filter fun d => !all && !d.lost } }

/-- Two maps of equal GENERATION differ: the volume is read-only until SELECT_MAP names a copy (R279, R281). -/
def mapConflict (s : State) : State :=
  let s := setVol { s.vol with conflict := true, map := none, eodKnown := false, atEod := false } s
  raiseC 0x12 3 0x09 noAcct 0 (setF Reg.FMT_STATUS_VM_CONFLICT 1 (showMap s))

/-- The formatter takes a map as the volume's (R111, R113): its end of data is where the write flow goes on. -/
def takeMap (m : VolMap) (s : State) : State :=
  let s := setVol { s.vol with map := some m, conflict := false, blank := false, eodDsn := m.eodDsn, eodFrame := m.eodFrame, eodPass := m.eodPass
                               nextGsn := (if s.vol.issued then max s.vol.nextGsn m.nextGsn else m.nextGsn), records := 0, filemarks := 0, eodHdr := 0, eodKnown := m.eodDsn == 0
                               atEod := m.eodDsn == 0 } s
  let s := setFmt { s.fmt with nextDsn := m.eodDsn, nextFrame := m.eodFrame, nextPass := m.eodPass, group := none } s
  showMap (setF Reg.FMT_STATUS_VM_CONFLICT 0 s)

/-- A map is selected: VM_DIRTY shows what it was (R115). -/
def selectMap (m : VolMap) (s : State) : State := setB Reg.FMT_STATUS_VM_DIRTY m.dirty (takeMap m s)

/-- The search forward from the end of data of a DIRTY map (R113, R281), over the end-of-data maps that have been read. -/
def searchChain (s : State) : State :=
  let from_ := match s.vol.map with | some m => m.eodDsn | none => 0
  let found := sortBy Prod.fst ((eodReads s).filter fun e => decide (from_ ≤ e.1))
  let step (acc : Option VolMap × Bool) (e : Nat × VolMap) : Option VolMap × Bool :=
    match acc with
    | (some m, false) => if m.gen < e.2.gen then (some e.2, false) else if e.2.gen = m.gen ∧ !sameMap e.2 m then (some m, true) else acc
    | _ => acc
  let r := found.foldl step (s.vol.map, false)
  let s := absorbEod s
  if r.2 then mapConflict s else match r.1 with | some m => takeMap m s | none => s

/-! ## The nonce (R321, R448) -/

/-- A pass nonce is refused: all ones, or in the mount table of the selected map, or in a conflict of either copy. -/
def nonceUsed (s : State) (n : Nat) : Bool :=
  let top := s.vol.copies.foldl (fun (g : Nat) (m : VolMap) => max g m.gen) 0
  let maps : List VolMap := match s.vol.map with | some m => [m] | none => if s.vol.conflict then s.vol.copies.filter (fun m => m.gen == top) ++ s.vol.eodMap.toList else []
  n == 0xFFFFFFFF || maps.any fun m => m.mounts.any fun e => e.nonce == n

/-! ## Housekeeping updates (R110, R112) -/

/-- The three housekeeping copies are rewritten with a map, one GENERATION above the highest. -/
def hkUpdate (m : VolMap) (s : State) : State :=
  let s := absorbEod s
  let m := { m with gen := s.vol.highGen + 1, nextGsn := s.vol.nextGsn, odd := [] }
  showMap (writeCopies m (setVol { s.vol with map := some m, highGen := m.gen } s))

/-- The mount's DIRTY update (R110, R112, R280): its entry, with the first DSN that it writes. -/
def dirtyUpdate (first : Nat) (s : State) : State :=
  match s.vol.map with
  | none => s
  | some m =>
    let n := s.vol.nonce.getD 0
    let mine := match m.mounts.getLast? with | some e => e.nonce == n | none => false
    let mounts := if mine then m.mounts.map (fun e => if e.nonce = n then { e with endDsn := 0xFFFFFFFF, endGsn := s.vol.nextGsn } else e)
      else m.mounts ++ [{ nonce := n, firstDsn := first, endDsn := 0xFFFFFFFF, firstGsn := s.vol.nextGsn, endGsn := s.vol.nextGsn }]
    let s := hkUpdate { m with dirty := true, mounts } s
    setVol { s.vol with wrote := true, dirtyDue := false } s

/-- The clean update (R110, R112). -/
def cleanUpdate (s : State) : State :=
  match s.vol.map with
  | none => s
  | some m => hkUpdate { m with dirty := false, mounts := endMount s.vol.eodDsn s.vol.nextGsn m.mounts } s

/-- Why a command may not write, if it may not (R279, R282, R448, R114). -/
def writeRefusal (s : State) : Option Nat :=
  match s.vol.map with
  | none => some stVOLUME_MAP_CONFLICT
  | some m =>
    if s.vol.conflict then some stVOLUME_MAP_CONFLICT
    else if s.vol.nonce.isNone then some stILLEGAL_COMMAND
    else
      let mine := match m.mounts.getLast? with | some e => some e.nonce == s.vol.nonce | none => false
      if !s.vol.wrote ∧ !mine ∧ 4096 ≤ m.mounts.length then some stEND_OF_MEDIUM else none

/-! ## LOAD (R111, R448) -/

/-- What comes of a LOAD once the map is selected: the nonce is accepted or not. -/
def loadEnd (s : State) : State :=
  match s.que.exec with
  | none => s
  | some x =>
    let n := dField x.entry.desc 0x10 4
    if nonceUsed s n then endWith stILLEGAL_COMMAND (setVol { s.vol with nonce := none } s)
    else endWith (if s.vol.blank then stBLANK else stOK) (setVol { s.vol with nonce := some n } s)

/-- Every chain restarts (R464). -/
def restartChains (s : State) : State := { s with ten := s.ten.map fun e => (e.1, { e.2 with chain := {}, eod := {}, hist := [] }) }

/-- The housekeeping area has been read (R111, R279, R282): `hkTags` holds its frame tags, `rows` its rows that are GOOD. -/
def mountVolume (hkTags : List Nat) (rows : List HkRow) (s : State) : State :=
  let margin := min 8 (getF s Reg.OUT_CTRL_C2_MARGIN)
  let valid : List VolMap := [0, 1, 2].filterMap fun c => (parseMap (hkCopyRead margin c rows)).map fun m => { m with copy := c }
  let top := valid.foldl (fun (g : Nat) (m : VolMap) => max g m.gen) 0
  let best := valid.filter fun m => m.gen == top
  let s := restartChains (setFmt {} { s with rch := { s.rch with sets := [], weak := [] } })
  let s := setVol { loaded := true, copies := valid, highGen := top, eodKnown := false, atEod := false } s
  let s := setF Reg.FMT_STATUS_VM_DIRTY 0 (setF Reg.FMT_STATUS_VM_CONFLICT 0 (showMap s))
  match best with
  | [] => if hkTags.any hkTagOk then s else setVol { s.vol with blank := true } s
  | m :: rest => if rest.all (sameMap m) then selectMap m s else mapConflict s

/-- LOAD (R448). A cartridge that is loaded keeps its map: the nonce alone is replaced. Otherwise the loader threads, load-time calibration runs
(R247), the map is selected, and after a DIRTY map the chain of data sets is read until no frame tag passes its CHECK for 116 frames. -/
def loadWork (present : Bool) (hkTags : List Nat) (rows : List HkRow) (cal : LoadCal) (tags : List Nat) (x : ExecSt) (s : State) : State :=
  let n := dField x.entry.desc 0x10 4
  match x.phase with
  | .data =>
    if n = 0xFFFFFFFF then endWith stILLEGAL_COMMAND s
    else if s.vol.loaded then
      if s.vol.wrote ∨ nonceUsed s n then endWith stILLEGAL_COMMAND s
      else endWith (if s.vol.blank then stBLANK else stOK) (setVol { s.vol with nonce := some n } s)
    else if !present ∨ s.pins.cartFaulty then endExec stMEDIUM_ERROR 0 0 0 0 s
    else toPhase .settling s
  | .settling =>
    if x.step = 0 then s
    else
      let s := mountVolume hkTags rows (loadCalibrate cal (setF Reg.POS_PASS 0 { s with mot := { s.mot with bins := [] } }))
      match s.vol.map with
      | some m => if m.dirty then toPhase .work s else loadEnd s
      | none => loadEnd s
  | .work => if noMoreTags tags then loadEnd (searchChain s) else s
  | .sending => s

/-! ## UNLOAD (R448) -/

/-- The cartridge is released. -/
def releaseVolume (s : State) : State :=
  let s := setVol {} (setFmt {} { s with rch := { s.rch with sets := [], weak := [] } })
  setF Reg.FMT_STATUS_VM_DIRTY 0 <| setF Reg.FMT_STATUS_VM_CONFLICT 0 <| setF Reg.FMT_EOD_FRAME 0 <| setF Reg.FMT_VM_GEN_HI 0 <|
    setF Reg.FMT_VM_GEN_LO 0 (showMap s)

/-- UNLOAD once everything is on tape: the clean update of a mount that wrote, then the loader unthreads. -/
def unloadWork (x : ExecSt) (s : State) : State :=
  if !s.vol.loaded then endWith stOK s
  else if x.step = 0 then onExec (fun x => { x with step := 1 }) (if s.vol.wrote ∧ !s.vol.conflict then cleanUpdate s else s)
  else if x.step = 2 then endWith (if s.vol.blank then stBLANK else stOK) (releaseVolume s)
  else s

/-- The loader has threaded, or unthreaded, the cartridge (R448, R636). -/
def threadingDone (s : State) : State :=
  match s.que.exec with
  | some x =>
    if dOpcode x.entry.desc = opLOAD ∧ x.phase = .settling ∧ x.step = 0 then onExec (fun x => { x with step := 1 }) s
    else if dOpcode x.entry.desc = opUNLOAD ∧ x.phase = .work ∧ x.step = 1 then unloadWork { x with step := 2 } (onExec (fun x => { x with step := 2 }) s)
    else s
  | none => s

/-! ## FORMAT (R116, R449) -/

/-- FORMAT writes its end-of-data map as data set 0, and then the housekeeping copies. -/
def formatWork (x : ExecSt) (s : State) : State :=
  match x.phase with
  | .data =>
    let d := x.entry.desc
    if !s.vol.blank ∧ !(dFlags d).testBit 0 then endWith stILLEGAL_COMMAND s
    else if getF s Reg.FMT_UA_END < 101856 then endWith stILLEGAL_COMMAND s
    else if s.vol.conflict then endWith stVOLUME_MAP_CONFLICT s
    else toPhase .settling (closeUp s)
  | .settling =>
    if !settledAll s then s
    else
      let s := absorbEod s
      let next := if s.vol.issued then s.vol.nextGsn else 0
      let m : VolMap := { volumeId := bytesAt x.entry.desc 0x10 16, uaEnd := getF s Reg.FMT_UA_END, eodFrame := 100000 }
      let s := setVol { s.vol with blank := false, wrote := false, dirtyDue := false, map := some m, eodDsn := 0, eodFrame := 100000, eodPass := 0
                                   records := 0, filemarks := 0, eodHdr := 0, eodKnown := true, posRecord := 0, posFm := 0, atEod := true
                                   nextGsn := next } s
      let s := { s with rch := { s.rch with sets := [] } }
      toPhase .work (setFmt { sets := [{ dsn := 0, kind := .eodMap, closed := true }] } s)
  | .work =>
    if !s.fmt.sets.isEmpty then s
    else match s.vol.map with
      | none => s
      | some m =>
        let m := { m with gen := s.vol.highGen + 1, dirty := false, mounts := [], relocs := [], nextGsn := 0 }
        endWith stOK (setF Reg.FMT_STATUS_VM_DIRTY 0 (showMap (writeCopies m (setVol { s.vol with map := some m, highGen := m.gen } s))))
  | .sending => s

/-! ## SELECT_MAP (R280) -/

/-- SELECT_MAP: the named copy if it is valid; copy 3 is the end-of-data map read most recently. A DIRTY one is followed as at LOAD. -/
def selectWork (tags : List Nat) (x : ExecSt) (s : State) : State :=
  if x.step = 1 then (if noMoreTags tags then endWith stOK (searchChain s) else s)
  else
    let s := absorbEod s
    let c := dField x.entry.desc 0x10 1
    let m := if c = 3 then s.vol.eodMap else s.vol.copies.find? fun m => m.copy == c
    match m with
    | none => endWith stILLEGAL_COMMAND s
    | some m =>
      let s := selectMap m s
      let s := setVol { s.vol with dirtyDue := true } s
      if m.dirty then onExec (fun x => { x with step := 1 }) s else endWith stOK s

/-! ## REFRESH (R105, R277, R278) -/

/-- The data set that a weak entry names: the one as first written, where the entry names a copy of it (R110). -/
def weakData (s : State) (e : Nat) : Nat :=
  match s.vol.map with
  | some m => match m.relocs.find? fun r => r.2 == e with | some r => r.1 | none => e
  | none => e

/-- The payload of a weak entry's data set, once read, or that it is lost. -/
def weakRead (s : State) (e : Nat) : Option (Option (List Byte)) :=
  match readSet s (physOf s (weakData s e)) with
  | some d => if d.done then some (some d.payload) else if d.lost then some none else none
  | none => none

/-- A pair enters the relocation table, which is sorted by OLD_DSN (R110). -/
def addReloc (l : List (Nat × Nat)) (p : Nat × Nat) : List (Nat × Nat) := sortBy Prod.fst (p :: l.filter fun e => e.1 != p.1)

/-- The write flow goes on at end of data, with the counts known there (R98). -/
def resumeEod (s : State) : State :=
  if s.fmt.sets.isEmpty ∧ !unsettled s ∧ s.fmt.group.isNone then
    setFmt { s.fmt with recDone := s.vol.records, fmDone := s.vol.filemarks, hdrGsn := s.vol.eodHdr, nextDsn := s.vol.eodDsn
                        nextFrame := s.vol.eodFrame, nextPass := s.vol.eodPass } s
  else s

/-- What stands in the way of a WRITE or FILEMARK at the logical position. -/
inductive WriteAt where
  | eod
  | mid (n off fm hdr : Nat)
  | refuse (status detail : Nat)
  | wait
  deriving DecidableEq, Repr

/-- The write flow stands at end of data with nothing accepted and no group open. -/
def flowIdle (s : State) : Bool := s.fmt.sets.isEmpty && !unsettled s && s.fmt.group.isNone

/-- A write at end of data within a wrap group, which R82 and R269 leave there, needs the group's data sets before it read back, as R452 has it. -/
def eodGroup (s : State) : WriteAt :=
  let n := s.vol.eodDsn
  let at_ := (List.range (min 30 (n % 32))).map fun i => setAt s (n / 32 * 32 + i)
  if !flowIdle s ∨ at_.all (fun x => match x with | .here _ => true | _ => false) then .eod
  else if at_.contains .lost then .refuse stMEDIUM_ERROR codeRcvFail
  else .wait

/-- The payloads of a group's data sets before `n`, as read, for its C3 (R269, R452). -/
def groupBefore (s : State) (n : Nat) : Tbl (List Byte) :=
  (List.range (min 30 (n % 32))).foldl (fun t i => match setAt s (n / 32 * 32 + i) with | .here q => Tbl.set t (n / 32 * 32 + i) q | _ => t) []

/-- The write flow takes up the wrap group that the end of data lies in (R269, R452); of a group that has all its payload data sets only the C3
data sets are written again. -/
def takeGroup (data : Tbl (List Byte)) (s : State) : State :=
  let n := s.vol.eodDsn
  let base := n / 32 * 32
  if n = base then s
  else
    let s := setFmt { s.fmt with group := some base, c3Data := data } s
    if 30 ≤ n % 32 then addTail base false s else s

/-- The next batch of up to 30 copies, once every data set of it has been read: a wrap group of their own (R105, R277). -/
def refreshBatch (x : ExecSt) (s : State) : State :=
  let batch := (s.rch.weak.filter fun e => !x.seen.contains e).take (30 - s.fmt.nextDsn % 32)
  let got := batch.map fun e => (e, weakRead s e)
  if got.any fun g => g.2.isNone then s
  else
    let relocs := match s.vol.map with | some m => x.pairs.foldl addReloc m.relocs | none => []
    let good := got.filterMap fun g => match g.2 with | some (some p) => some (weakData s g.1, p) | _ => none
    let known (n : Nat) : Bool := relocs.any fun e => e.1 == n
    let before (g : Nat × List Byte) : Nat := ((good.takeWhile fun h => h.1 != g.1).filter fun h => !known h.1).length
    let fits := good.takeWhile fun g => decide (relocs.length + before g < 65536)
    let failed := got.any fun g => match g.2 with | some none => true | _ => false
    let base := s.fmt.nextDsn
    let data := groupBefore s base
    let st := if fits.length < good.length then stEND_OF_MEDIUM else if failed ∧ x.status = 0 then stMEDIUM_ERROR else x.status
    let seen := if fits.length < good.length then s.rch.weak else x.seen ++ batch
    let pairs := x.pairs ++ fits.zipIdx.map fun g => (g.1.1, base + g.2)
    let s := onExec (fun x => { x with seen, status := st, pairs }) s
    if fits = [] then s
    else
      let s := if s.vol.wrote && !s.vol.dirtyDue then s else dirtyUpdate base s
      let s := { absorbEod s with rch := { s.rch with sets := s.rch.sets.filter fun d => d.dsn < base } }
      let sets := fits.zipIdx.map fun g => ({ dsn := base + g.2, kind := .reloc g.1.1, stream := g.1.2, closed := true, firstGsn := s.fmt.hdrGsn,
                                                  recBefore := s.fmt.recDone, fmBefore := s.fmt.fmDone } : DataSet)
      let data := if x.pairs.isEmpty && s.fmt.c3Data.isEmpty then data else s.fmt.c3Data
      addTail (base / 32 * 32) false (setFmt { s.fmt with c3Data := data, sets := s.fmt.sets ++ sets, closedUp := false } s)

/-- REFRESH once everything accepted is on tape: batch by batch; when the last copy has settled the table names the copies, the entries leave the
list, and the end-of-data map and the clean update follow. -/
def refreshWork (x : ExecSt) (s : State) : State :=
  if x.step = 1 then
    if !settledAll s then s
    else endExec x.status 0 0 0 (if x.status = stMEDIUM_ERROR then codeRcvFail else 0) (cleanUpdate s)
  else if !s.fmt.sets.isEmpty then s
  else if s.rch.weak != [] && !(eodSetRead s).vol.eodKnown then
    match readSet s s.vol.eodDsn with
    | some d => if d.lost then endExec stMEDIUM_ERROR 0 0 0 codeRcvFail s else s
    | none => s
  else
  let at_ := if x.pairs = [] then eodGroup s else .eod
  let fresh := flowIdle s && x.pairs.isEmpty
  let data := groupBefore s s.vol.eodDsn
  let s := if x.pairs = [] then resumeEod (eodSetRead s) else s
  if s.rch.weak != [] && at_ == .wait then s
  else if s.rch.weak != [] && at_ != .eod then endExec stMEDIUM_ERROR 0 0 0 codeRcvFail s
  else
  let s := if fresh ∧ s.rch.weak ≠ [] ∧ 30 ≤ s.fmt.nextDsn % 32 then takeGroup data s else s
  if !s.fmt.sets.isEmpty then s
  else if (s.rch.weak.any fun e => !x.seen.contains e) then refreshBatch x s
  else if x.pairs = [] then endExec x.status 0 0 0 (if x.status = stMEDIUM_ERROR then codeRcvFail else 0) s
  else
    let done := x.pairs.map Prod.fst
    let s := { s with rch := { s.rch with weak := s.rch.weak.filter fun e => !done.contains (weakData s e) } }
    let s := setVol { s.vol with map := s.vol.map.map fun m => { m with relocs := x.pairs.foldl addReloc m.relocs } } s
    tryClose (setFmt { s.fmt with closeReq := true } (onExec (fun x => { x with step := 1 }) s))

/-- REFRESH is refused where the mount may not write (R279, R282, R448, R114). -/
def refreshRow (x : ExecSt) (s : State) : State :=
  match x.phase, writeRefusal s with
  | .data, some st => endWith st s
  | _, _ => afterClosure (onRunning refreshWork) x (freshReads true x s)

/-! ## Meanings -/

/-- LOAD. -/
def execLoad (present : Bool) (hkTags : List Nat) (rows : List HkRow) (cal : LoadCal) (tags : List Nat) (s : State) : Host.Outcome State Fault Refusal :=
  .next (streamRow opLOAD (loadWork present hkTags rows cal tags) s)

/-- THREADING_DONE. -/
def execThreadingDone (s : State) : Host.Outcome State Fault Refusal := .next (threadingDone s)

/-- UNLOAD. -/
def execUnload (s : State) : Host.Outcome State Fault Refusal :=
  .next (streamRow opUNLOAD (afterClosure (onRunning unloadWork)) s)

/-- FORMAT. -/
def execFormat (s : State) : Host.Outcome State Fault Refusal := .next (streamRow opFORMAT formatWork s)

/-- SELECT_MAP. -/
def execSelectMap (tags : List Nat) (s : State) : Host.Outcome State Fault Refusal :=
  .next (streamRow opSELECT_MAP (afterClosure (onRunning (selectWork tags))) s)

/-- REFRESH. -/
def execRefresh (s : State) : Host.Outcome State Fault Refusal := .next (streamRow opREFRESH refreshRow s)

end Sys2Proof.Machine
end

