-- ==== Sys2Proof/Machine/Encoders.lean ====
section
/-!
DEFINITION. The duplicated engines that fetch from the buffer: compression with its decompress-verify (R302, R303), and the two encoders of the write
path, by which a row is released for emission (R176–R179).
-/
namespace Sys2Proof.Machine

/-- The 128 parity bytes of a row. -/
def parityBytes (data : List Byte) : List Byte :=
  let bits := (c1Encode (rowBlocks data)).flatMap blockBits
  (List.range 128).map fun i => BitVec.ofNat 8 (natOfMsb ((bits.drop (8 * i)).take 8))

/-- A written word is fetched; false if it is lost (R302, R352, R353). -/
def fetchWord (p w : Nat) (s : State) : Bool × State :=
  if isWritten s p w then
    let x := demandRead p w s
    (match wDecode x.1.1 x.1.2 with | .poisoned => false | .uncorrectable => false | _ => true, x.2)
  else (true, s)

/-- The words that pages hold are fetched, each W-code-checked (R302, R352, R353); false if one of them is lost. -/
def fetchCopy (pages : List Nat) (s : State) : Bool × State :=
  (pages.flatMap fun p => (List.range 128).map fun w => (p, w)).foldl (fun (a : Bool × State) e =>
    let x := fetchWord e.1 e.2 a.2
    (a.1 && x.1, x.2)) (true, s)

/-! ## Compression (R302, R303) -/

/-- The buffer pages placed for a granule not yet packed. -/
def granPages (s : State) (n : Nat) : List Nat :=
  (s.mem.pages.filter fun e => e.2.alloc && (match e.2.use with | .granule g => g == n | _ => false)).map fun e => e.1

/-- The granule of a GSN that waits for compression, while an engine holds it. -/
def inEngine (s : State) (n : Nat) : Option Gran :=
  if s.cmp.busy.any fun b => b.2 == n then s.fmt.grans.find? fun g => g.gsn == n && g.stage == .cut else none

/-- An engine has compressed a granule and decompress-verify has compared it (R302, R303): the engine and decompress-verify each fetch the plaintext
pages; after a mismatch it is compressed again; a second one is CMP_DV_FAIL and safe state S3. A granule that loses a word in a fetch is no longer
there to be compressed (R361). -/
def compressed (n : Nat) (upset1 upset2 : Bool) (s : State) : State :=
  if (inEngine s n).isNone then s
  else
    let s := (fetchCopy (granPages s n) s).2
    let s := (fetchCopy (granPages s n) s).2
    match inEngine s n with
    | none => s
    | some g =>
      let inj := s.cmp.inject
      let s := setCmp { s.cmp with inject := false } s
      let s := if inj ∨ upset1 then incF Reg.DV_MISMATCH_CNT s else s
      let s := if upset1 then raiseC 0x50 1 0x01 g.tenant n s else s
      if (inj ∨ upset1) ∧ upset2 then
        let code := faultCode 4 0x8 0x02
        enterS3 code (raiseC 0x50 4 0x02 g.tenant n (setF Reg.CMP_STATUS_DV_FAILED 1 (incF Reg.DV_MISMATCH_CNT s)))
      else
        let r := Pgc.compress g.profile g.plain
        let s := add64 Reg.CMP_OUT_LO Reg.CMP_OUT_HI r.1.length (add64 Reg.CMP_IN_LO Reg.CMP_IN_HI g.plain.length s)
        let s := addF Reg.CMP_STORED_CNT (if g.profile = 0 then 0 else r.2) (incF Reg.CMP_GRAN_CNT s)
        let g := { g with body := r.1, stage := if g.enc then .compressed else .sealed }
        feedCipher (handOut (shareTape g (onGran n (fun _ => g) s)))

/-! ## Encoding (R176–R179) -/

/-- A mismatch is counted and recorded (R177–R179). -/
def noteMismatch (r : RwRow) (injected : Bool) (s : State) : State :=
  setB Reg.ENC_LAST_HI_INJECTED injected <| setF Reg.ENC_LAST_HI_SDS (sdsOf r.g) <| setF Reg.ENC_LAST_HI_ROW (rowOf r.g) <|
    setF Reg.ENC_LAST_LO r.m <| incF Reg.ENC_MISMATCH_CNT s

/-- The row of a slot on a track in a board that the host wrote and that is armed or runs (R151): of the data set that the slot's header names, or
through the extension table. -/
def hostRow (s : State) (n t p : Nat) : Option RwRow :=
  let st := band s (t / 64)
  let bufs := [0, 1].filter fun i => (st.buf i).dsn.isNone && !brdRead s (t / 64) i && ((st.buf i).armed || (st.running && st.cur == i))
  bufs.findSome? fun i =>
    (slotRow s (t / 64) (t % 64) { frame := 0, first := 0, len := 0, op := 3, mask := 0, slot := p, arg := 0, dsn := n, buf := i }).map fun r =>
      { m := r.1, g := r.2.1, tFail := t, rewr := r.2.2.2 }

/-- The bytes of a row as the buffer holds them: of a ready data set, or of a housekeeping block of the map in force (R107, R176). -/
def rowBytes (s : State) (r : RwRow) : Option (List Byte) :=
  match s.fmt.sets.find? fun d => d.dsn % 2 ^ 24 == r.m % 2 ^ 24 && d.ready with
  | some d => some (rowData d.payload r.g)
  | none =>
    let c := (r.m % 2 ^ 24 - 0xFFFF00) / 16
    let j := r.m % 16
    let pl := hkPlace j (rowOf r.g)
    if 0xFFFF00 ≤ r.m % 2 ^ 24 ∧ c < 3 ∧ j < 4 ∧ rowOf r.g < 240 then
      s.vol.map.bind fun m => (hkRecorded m c pl.1 pl.2).map fun x => x.data
    else none

/-- The buffer pages placed for a row. -/
def rowPages (s : State) (r : RwRow) : List Nat :=
  (s.mem.pages.filter fun e => e.2.alloc && (match e.2.use with | .payload n g => n == r.m && g == r.g | _ => false)).map fun e => e.1

/-- FMT fetches the row of a slot, for each encoder its own copy, and encodes it twice (R176): released when the parities agree; encoded again after
a mismatch; a second one is ENC_FAIL and safe state S3 (R177). A row with a lost word is not released. `upset1` and `upset2` say that an encoder is
upset at the first and at the second encoding. -/
def rowFetch (n t p : Nat) (upset1 upset2 : Bool) (s : State) : State :=
  match (if t < 512 then (match rowAt s n t p with | some r => some r | none => hostRow s n t p) else none) with
  | none => s
  | some r =>
    match rowBytes s r with
    | none => s
    | some data =>
      let a := fetchCopy (rowPages s r) s
      let b := fetchCopy (rowPages a.2 r) a.2
      let s := b.2
      if !a.1 ∨ !b.1 then s
      else
      let inj := s.enc.inject
      let s := setEnc { s.enc with inject := false } s
      let s := if inj ∨ upset1 then noteMismatch r inj s else s
      let s := if upset1 then raiseC 0x12 1 0x04 noAcct r.m s else s
      if (inj ∨ upset1) ∧ upset2 then
        let code := faultCode 4 0x5 0x05
        enterS3 code (raise 0x12 4 code noAcct r.m (setF Reg.ENC_STATUS_FAILED 1 (noteMismatch r false s)))
      else
        let rest := s.enc.rows.filter fun x => !(x.dsn == r.m && x.g == r.g)
        setEnc { s.enc with rows := { dsn := r.m, g := r.g, data, parity := parityBytes data } :: rest } s

/-- A write of ENC_CTRL.INJECT (R179). -/
def encInject (s : State) : State := lockGate 0x12 (fun s => setEnc { s.enc with inject := true } s) s

/-- GRANULE_COMPRESSED. -/
def execGranuleCompressed (gsn : Nat) (upset1 upset2 : Bool) (s : State) : Host.Outcome State Fault Refusal := .next (compressed gsn upset1 upset2 s)

/-- ROW_FETCH. -/
def execRowFetch (dsn track slot : Nat) (upset1 upset2 : Bool) (s : State) : Host.Outcome State Fault Refusal :=
  .next (rowFetch dsn track slot upset1 upset2 s)

/-- ENC_INJECT. -/
def execEncInject (s : State) : Host.Outcome State Fault Refusal := .next (encInject s)

end Sys2Proof.Machine
end

