-- ==== Sys2Proof/Machine/Marks.lean ====
section
/-!
DEFINITION. The squares MARK_EVENT and APPLY_STAGED (R154, R155), with what happens at the start of a data set: the speed matcher (R181, R496)
and the calibration values that take effect at an origin (R231).
-/
namespace Sys2Proof.Machine

/-- Host board mode is set on some sequencer (R155, R185). -/
def hostMode (s : State) : Bool := (List.range 8).any fun b => getB s (Reg.BRD_CTRL_HOST b)

/-- The DS_START mark of data set `n`: it is begun, and the matcher acts, once per data set (R155, R181). -/
def dsStart (n : Nat) (s : State) : State :=
  let first := match dataSet s n with | some d => !d.marked | none => false
  let s := onSet n (fun d => if d.compiled then { d with begun := true, marked := true } else d) s
  if first then speedMatch s else s

/-- MARK_EVENT (R155). -/
def markSquare (b : Nat) (s : State) : State :=
  match squareNow s b 0x09 with
  | none => s
  | some q =>
    let st := stampNow s
    let s := setF (Reg.MARK_POS_HI b) st.hi <| setF (Reg.MARK_POS_LO b) st.lo <| setF (Reg.MARK_DATA b) q.arg1 <| setF (Reg.MARK_LAST b) q.arg0 s
    let x := band s b
    let own := (x.buf x.cur).dsn
    let s := nextSquare b (notify (bseqPage b) 2 q.arg1 s)
    match own with
    | some n => if q.arg0 = 1 ∧ b = 0 ∧ !hostMode s then dsStart n s else s
    | none => s

/-- The staged loop and equaliser settings of a band become active (R226). -/
def applyRch (b : Nat) (s : State) : State := wr (0x40054 + 0x1000 * b) (rd s (0x40050 + 0x1000 * b)) (wr (0x4004C + 0x1000 * b) (rd s (0x40048 + 0x1000 * b)) s)

/-- APPLY_STAGED (R154): one APPLY block for each of the band's four HFEs, naming the square's place, and the band's staged settings. -/
def applySquare (b : Nat) (s : State) : State :=
  match squareNow s b 0x08 with
  | none => s
  | some q =>
    let x := band s b
    let frame := squareFrame s b
    let tick := effOffset (x.buf x.cur) x.loops x.index % 4096
    let bit := cdiv (tick * brdBits s b x.cur) 4096
    let hfe := q.arg0.testBit 0 || q.arg0.testBit 1
    let write := !brdRead s b x.cur
    let own := (x.buf x.cur).dsn
    let s := match own with | some n => calAtOrigin b n write s | none => s
    let s := if hfe then forEach (List.range 4) (fun i s => sendApply (4 * b + i) bit frame (q.arg1 % 256) s) s else s
    let s := match own with | some n => if write then calNext b n s else s | none => s
    nextSquare b (if q.arg0.testBit 2 then applyRch b s else s)

/-- MARK_EVENT. -/
def execMarkEvent (band : Nat) (s : State) : Host.Outcome State Fault Refusal := .next (markSquare band s)

/-- APPLY_STAGED. -/
def execApplyStaged (band : Nat) (s : State) : Host.Outcome State Fault Refusal := .next (applySquare band s)

end Sys2Proof.Machine
end

