-- ==== Sys2Proof/Machine/Meter.lean ====
section
/-!
DEFINITION. Minute brackets and the meter log (R457–R463).
-/
namespace Sys2Proof.Machine

/-- Entries of the meter log (R462). -/
def mtrDepth : Nat := 32768

/-- Records logged and not acknowledged; entries free. -/
def mtrHeld (s : State) : Nat := (getF s Reg.MTR_HEAD + 2 ^ 32 - getF s Reg.MTR_TAIL) % 2 ^ 32
def mtrFree (s : State) : Nat := mtrDepth - mtrHeld s

/-- A MINUTE at the head of the stream queue executes, or holds the stream while fewer than 257 entries are free (R457, R462). -/
def minuteExecute (s : State) : State :=
  let s := tryFinish (drainStray s)
  match s.que.stream with
  | { body := .minute _, .. } :: rest =>
    if !streamFree s then s
    else if mtrFree s < 257 then
      if getB s Reg.MTR_STATUS_HELD then s
      else raise 0x71 1 (faultCode 0 0xD 0x01) noAcct 0 (incF Reg.MTR_HOLD_CNT (setF Reg.MTR_STATUS_HELD 1 s))
    else setF Reg.MTR_STATUS_HELD 0 (giveBack 0 0 1 (setQue { s.que with stream := rest } s))
  | _ => s

/-- A bracket is final (R461): closed, its commands complete, every granule with its bytes compressed or discarded. -/
def bracketFinal (s : State) (b : Bracket) : Bool :=
  let holds (g : Gran) : Bool := g.bracket == b.idx || g.shares.any fun e => e.1 == b.idx && e.2 != 0
  b.closed && b.live == 0 && !(s.fmt.grans.any fun g => g.stage == .cut && holds g) && !(match s.fmt.openGran with | some g => holds g | none => false)

/-- A bracket that has not been logged is closed (R471). -/
def mtrPending (s : State) : Bool := s.mtr.brackets.any fun b => b.closed

/-- A count in its field, saturated (R460). -/
def mtrField (size v : Nat) : List Byte := leBytes size (min v (2 ^ (8 * size) - 1))

/-- A meter record (R460). -/
def mtrRecord (kind ctx records rseq name tag commands : Nat) (u : Usage) : List Byte :=
  leBytes 1 kind ++ leBytes 1 ctx ++ mtrField 2 records ++ leBytes 4 rseq ++ leBytes 8 name ++ leBytes 8 tag ++ mtrField 8 u.wrPlain ++ mtrField 8 u.wrTape
    ++ mtrField 4 u.wrRecords ++ mtrField 4 u.wrGranules ++ mtrField 8 u.rdPlain ++ mtrField 4 u.rdRecords ++ mtrField 2 u.filemarks ++ mtrField 2 commands

def Usage.add (a b : Usage) : Usage :=
  { wrPlain := a.wrPlain + b.wrPlain, wrTape := a.wrTape + b.wrTape, wrRecords := a.wrRecords + b.wrRecords, wrGranules := a.wrGranules + b.wrGranules
    rdPlain := a.rdPlain + b.rdPlain, rdRecords := a.rdRecords + b.rdRecords, filemarks := a.filemarks + b.filemarks, commands := a.commands + b.commands }

/-- The sessions of a bracket that have a record, in the order of R461: by context, and within one as they opened. -/
def bracketSessions (s : State) (b : Bracket) : List (Session × Usage) :=
  let l := s.mtr.sessions.filterMap fun x => match b.use.find? fun e => e.1 == x.id with | some e => if e.2 = {} then none else some (x, e.2) | none => none
  (List.range 256).flatMap fun c => l.filter fun x => x.1.ctx == c

/-- A record is appended. -/
def mtrAppend (f : Nat → List Byte) (s : State) : State :=
  let n := getF s Reg.MTR_HEAD
  setF Reg.MTR_HEAD (n + 1) (setMtr { s.mtr with log := Tbl.set s.mtr.log (n % mtrDepth) (f n) } s)

/-- The oldest bracket is logged once it is final and its records fit (R461, R462). -/
def logBracket (s : State) : State :=
  match s.mtr.brackets with
  | [] => s
  | b :: rest =>
    let l := bracketSessions s b
    if !bracketFinal s b ∨ mtrFree s < l.length + 1 then s
    else
      let s := l.foldl (fun s x => mtrAppend (fun n => mtrRecord 1 x.1.ctx 0 n b.name x.1.tag x.2.commands x.2) s) s
      let sum := l.foldl (fun u x => u.add x.2) ({} : Usage)
      let last := getF s Reg.MTR_HEAD
      let s := mtrAppend (fun n => mtrRecord 2 0 l.length n b.name 0 (sum.commands + b.noTenant) sum) s
      notify 0x71 0 last (setMtr { s.mtr with brackets := rest } s)

/-- Records before `v` are acknowledged; a value that is not between the tail and the head is ignored (R463). -/
def mtrAck (v : Nat) (s : State) : State :=
  if (v % 2 ^ 32 + 2 ^ 32 - getF s Reg.MTR_TAIL) % 2 ^ 32 ≤ mtrHeld s then setF Reg.MTR_TAIL v s else s

/-- METER_READ (R463). -/
def meterRead (q : Nat) (x : ExecSt) (s : State) : State :=
  let d := x.entry.desc
  let from_ := dField d 0x10 4
  let head := getF s Reg.MTR_HEAD
  let ahead := (head + 2 ^ 32 - from_) % 2 ^ 32
  if mtrHeld s < ahead then sideEnd q stILLEGAL_COMMAND s
  else
    let s := if (dFlags d).testBit 0 then setF Reg.MTR_TAIL from_ s else s
    let n := min ahead (min (dField d 0x14 4) (dDataLen d / 64))
    sideReturn q n ((List.range n).flatMap fun i => Tbl.get [] s.mtr.log ((from_ + i) % 2 ^ 32 % mtrDepth)) head s

/-! ## Meanings -/

/-- MINUTE_EXECUTE. -/
def execMinuteExecute (s : State) : Host.Outcome State Fault Refusal := .next (minuteExecute s)

/-- BRACKET_FINAL. -/
def execBracketFinal (s : State) : Host.Outcome State Fault Refusal := .next (logBracket s)

/-- MTR_TAIL_WRITE. -/
def execMtrTailWrite (value : Nat) (s : State) : Host.Outcome State Fault Refusal := .next (lockGate 0x71 (mtrAck value) s)

/-- METER_READ. -/
def execMeterRead (queue : Nat) (s : State) : Host.Outcome State Fault Refusal := .next (sideRow opMETER_READ queue (meterRead queue) s)

end Sys2Proof.Machine
end

