-- ==== Sys2Proof/Machine/Side.lean ====
section
/-!
DEFINITION. The side commands on keys, accounts and identity: KEY_IMPORT, KEY_ERASE, KEK_AGREE, KEK_ERASE and CIPHER (R313–R316, R323–R328),
SET_QUOTA (R456) and ATTEST (R589).
-/
namespace Sys2Proof.Machine

/-- A side command goes on to its own work. -/
def sideWork (q : Nat) (s : State) : State := onSide q (fun x => { x with phase := .work }) s

/-! ## Keys (R325–R328) -/

/-- KEY_IMPORT: the checks as the import starts, then the unwrap on the firmware queue, once it has room (R309, R328). -/
def keyImport (q : Nat) (x : ExecSt) (s : State) : State :=
  let d := x.entry.desc
  if x.phase = .work ∨ !dataHere x then s
  else
    let kek := dField d 0x10 1
    let key := s.keys.kek.find? fun e => e.1 == kek
    let st := importCheck s (dTenant d) key.isSome (dField d 0x12 2)
    if st ≠ stOK then sideEnd q st s
    else if 16 ≤ s.ciph.fw.length then s
    else sideWork q (setCiph { s.ciph with fw := s.ciph.fw ++ [.unwrap q kek (match key with | some e => e.2 | none => []) (x.entry.data.take 56)] } s)

/-- KEY_ERASE: at once for a FREE slot, otherwise the command waits for the erase to complete (R325). -/
def keyErase (q : Nat) (x : ExecSt) (s : State) : State :=
  let n := dField x.entry.desc 0x12 2
  let k := keySlot s n
  if x.phase = .work then s
  else if k.state = 0 then sideEnd q stOK s
  else sideWork q (if k.state = 1 then setSlot n { k with state := 2, eraseSeq := x.entry.seq } s else s)

/-- KEK_ERASE: at once for an empty slot, otherwise the command waits for the unwraps that use it (R325). -/
def kekErase (q : Nat) (x : ExecSt) (s : State) : State :=
  if x.phase = .work then s
  else if (s.keys.kek.any fun e => e.1 == dField x.entry.desc 0x10 1) then sideWork q s
  else sideEnd q stOK s

/-- KEK_AGREE (R327, R572, R584). -/
def kekAgree (q : Nat) (x : ExecSt) (s : State) : State :=
  let d := x.entry.desc
  if !dataHere x then s
  else if !lcPermits s ∨ !getB s Reg.SEC_STATUS_ID_OK ∨ !getB s Reg.SEC_STATUS_ENTROPY_OK then sideEnd q stILLEGAL_COMMAND s
  else
    let slot := dField d 0x10 1
    let host := x.entry.data.take 32
    let (priv, s) := drawBytes 32 s
    let z := Crypto.x25519 priv host
    if allZero z then sideEnd q stBAD_DESCRIPTOR s
    else
      let rec_ := kekRecord s host (Crypto.x25519 priv Crypto.x25519Base) slot
      let kek := Crypto.hkdf (zeros 64) z rec_ 32
      let s := incF Reg.KEK_AGREE_CNT (setKeys { s.keys with kek := Tbl.set s.keys.kek slot kek } s)
      sideReturn q 0 (rec_ ++ identitySign s rec_) 0 s

/-! ## CIPHER (R313–R316, R323) -/

/-- CIPHER: the checks that need state, in the order of this model, then the host-direct queue once it has room (R309, R316). -/
def cipherRow (q : Nat) (x : ExecSt) (s : State) : State :=
  let d := x.entry.desc
  let a := dAccount d
  let done (st det : Nat) (s : State) : State := finishSide q st (cUSER d) 0 det s
  let refuse (st : Nat) (s : State) : State := done st (statusDetail s st) s
  if x.phase = .work then s
  else if (tenant s (dTenant d)).state ≠ 1 then refuse stTENANT_NOT_OPEN s
  else
    let k := keySlot s (cSLOT d)
    if cData d ∧ (k.state ≠ 1 ∨ k.tenant ≠ dTenant d) then refuse stKEY_NOT_OWNED s
    else if cData d ∧ a ≠ dTenant d then refuse stBAD_DESCRIPTOR s
    else if !cData d ∧ !(s.keys.kek.any fun e => e.1 == cSLOT d % 0x400) then refuse stILLEGAL_COMMAND s
    else if 64 ≤ s.ciph.host.length then s
    else
      let src := readList (cSRC_LIST d) (cPages (cSRC_OFS d) (cSrcLen d)) a s
      let s := src.2
      let dst := match cDstLen d with
        | some n => readList (cDST_LIST d) (cPages (cDST_OFS d) n) a s
        | none => (([], false, false), s)
      let s := dst.2
      if src.1.2.2 ∨ dst.1.2.2 then done stBUFFER_DATA_LOST codePoison s
      else if src.1.2.1 ∨ dst.1.2.1 then refuse stBAD_DESCRIPTOR s
      else onSide q (fun x => { x with phase := .work, seen := src.1.1 ++ dst.1.1 }) (setCiph { s.ciph with host := s.ciph.host ++ [.host q] } s)

/-! ## Accounts (R456) -/

/-- SET_QUOTA. -/
def setQuota (q : Nat) (x : ExecSt) (s : State) : State :=
  let d := x.entry.desc
  let a := dAccount d
  if 256 ≤ a ∧ a ≤ 263 then sideEnd q stILLEGAL_COMMAND s
  else if a < 256 ∧ (tenant s a).state = 0 then sideEnd q stTENANT_NOT_OPEN s
  else
    let r := writeBounds a (dField d 0x10 4) (dField d 0x14 4) 1 s
    if r.1 = 0 then sideEnd q stOK r.2 else finishSide q stILLEGAL_COMMAND 0 0 r.1 r.2

/-! ## Attestation (R589) -/

/-- ATTEST: it waits while the seal is being made. -/
def attest (q : Nat) (x : ExecSt) (s : State) : State :=
  let d := x.entry.desc
  let cert := (dFlags d).testBit 0
  if getB s Reg.SEC_STATUS_SEAL_BUSY then s
  else if !lcPermits s ∨ !getB s Reg.SEC_STATUS_ID_OK ∨ (cert ∧ !getB s Reg.SEC_STATUS_SEALED) then sideEnd q stILLEGAL_COMMAND s
  else sideReturn q 0 (if cert then s.sec.cert else attestReport s (bytesAt d 0x10 32)) 0 s

/-! ## Meanings -/

/-- KEY_IMPORT. -/
def execKeyImport (queue : Nat) (s : State) : Host.Outcome State Fault Refusal := .next (sideRow opKEY_IMPORT queue (keyImport queue) s)

/-- KEY_ERASE. -/
def execKeyErase (queue : Nat) (s : State) : Host.Outcome State Fault Refusal := .next (sideRow opKEY_ERASE queue (keyErase queue) s)

/-- KEK_AGREE. -/
def execKekAgree (queue : Nat) (s : State) : Host.Outcome State Fault Refusal := .next (sideRow opKEK_AGREE queue (kekAgree queue) s)

/-- KEK_ERASE. -/
def execKekErase (queue : Nat) (s : State) : Host.Outcome State Fault Refusal := .next (sideRow opKEK_ERASE queue (kekErase queue) s)

/-- CIPHER. -/
def execCipher (queue : Nat) (s : State) : Host.Outcome State Fault Refusal := .next (sideRow opCIPHER queue (cipherRow queue) s)

/-- SET_QUOTA. -/
def execSetQuota (queue : Nat) (s : State) : Host.Outcome State Fault Refusal := .next (sideRow opSET_QUOTA queue (setQuota queue) s)

/-- ATTEST. -/
def execAttest (queue : Nat) (s : State) : Host.Outcome State Fault Refusal := .next (sideRow opATTEST queue (attest queue) s)

end Sys2Proof.Machine
end

