-- ==== Sys2Proof/Machine/Trig.lean ====
section
/-!
DEFINITION. Roots, sines and the turns of a current vector that the motion chapters use (R476, R482, R536). The spec names the functions and not
their rounding: each is computed, and which way a value that is no whole number is rounded stays free (Config.roundsUp).
-/
namespace Sys2Proof.Machine

/-- The integer square root, rounded down, of a number below 2^80. -/
def isqrt (n : Nat) : Nat := (List.range 40).foldr (fun k r => if (r + 2 ^ k) * (r + 2 ^ k) ≤ n then r + 2 ^ k else r) 0

/-- A square root, rounded either way. -/
def root (n : Nat) : Nat := let r := isqrt n; r + b2n (r * r != n && Config.roundsUp n r)

/-- A quotient rounded either way. -/
def nearDiv (a : Int) (b : Nat) : Int :=
  Int.fdiv a b + ((b2n (Int.fmod a b != 0 && Config.roundsUp a.natAbs b) : Nat) : Int)

/-- The terms of the sine's series from the `k`-th on, for an angle `x` below a quarter turn in radians, all with 60 fractional bits. -/
def sineSeries (x : Nat) : Nat → Nat → Int → Int
  | 0, _, _ => 0
  | fuel + 1, k, t => t + sineSeries x fuel (k + 1) (- Int.tdiv (Int.tdiv (t * (x * x : Nat)) (2 ^ 120)) ((2 * k + 2) * (2 * k + 3) : Nat))

/-- The sine of an angle of the first quarter turn in 2^−16 turn, with 60 fractional bits. -/
def sineQuarter (a : Nat) : Int :=
  if a = 16384 then 2 ^ 60 else let x := a * 3622009729038561421 / 32768; sineSeries x 14 0 x

/-- The sine of an angle in 2^−16 turn, with 60 fractional bits. -/
def sine60 (a : Nat) : Int :=
  let q := a % 32768
  let v := sineQuarter (if q ≤ 16384 then q else 32768 - q)
  if 32768 ≤ a % 65536 then - v else v

/-- The cosine. -/
def cosine60 (a : Nat) : Int := sine60 (a + 16384)

/-- The sine scaled by 2^15 (R536). -/
def sinTurn (a : Nat) : Int := nearDiv (sine60 a) (2 ^ 45)

/-- A vector turned forward by an angle in 2^−16 turn. -/
def rotate (x y : Int) (a : Nat) : Int × Int :=
  (nearDiv (x * cosine60 a - y * sine60 a) (2 ^ 60), nearDiv (x * sine60 a + y * cosine60 a) (2 ^ 60))

/-- 1/√3 with 60 fractional bits. -/
def thirdRoot60 : Int := 665639541039271462

/-- Currents in the rotor frame, d and q, from three phase currents at an angle in 2^−16 turn (R476): amplitudes are kept (log entry: frames of the
current loop). -/
def park (a b c : Int) (t : Nat) : Int × Int :=
  let x := (2 * a - b - c) * 2 ^ 60
  let y := (b - c) * thirdRoot60 * 3
  (nearDiv (x * cosine60 t + y * sine60 t) (3 * 2 ^ 120), nearDiv (y * cosine60 t - x * sine60 t) (3 * 2 ^ 120))

/-- Phase voltages from d and q at an angle in 2^−16 turn (R476). -/
def phases (d q : Int) (t : Nat) : Int × Int × Int :=
  let x := (d * cosine60 t - q * sine60 t) * 2 ^ 60
  let y := (d * sine60 t + q * cosine60 t) * thirdRoot60 * 3
  (nearDiv x (2 ^ 120), nearDiv (y - x) (2 ^ 121), nearDiv (- y - x) (2 ^ 121))

end Sys2Proof.Machine
end

