-- ==== Sys2Proof/Machine/Reel.lean ====
section
/-!
DEFINITION. The reel motor drives (spec/15): current control and single-shunt sampling (R474–R482), rotor angle (R483–R491), reel radius
(R492–R494), the voltage ceiling (R495, R496), bus and chopper (R497–R500), and what brings a safe state (R501–R503).
-/
namespace Sys2Proof.Machine

def setMot (m : MotionSt) (s : State) : State := { s with mot := m }
def reel (s : State) (x : Nat) : ReelSt := Tbl.get {} s.mot.reels x
def setReel (x : Nat) (r : ReelSt) (s : State) : State := setMot { s.mot with reels := Tbl.set s.mot.reels x r } s
def motPage (x : Nat) : Nat := 0x78 + x
def setAdc (ch code : Nat) (s : State) : State := setMot { s.mot with adc := Tbl.set s.mot.adc ch (code % 4096) } s

/-! ## Arithmetic (R512, R518) -/

/-- Saturation to 32-bit two's complement. -/
def sat32 (x : Int) : Int := clampI (-(2 ^ 31)) (2 ^ 31 - 1) x

/-- Saturation to 16-bit two's complement. -/
def sat16 (x : Int) : Int := clampI (-(2 ^ 15)) (2 ^ 15 - 1) x

/-- A speed of revolution in mrad/s. -/
def rpmMrad (rpm : Nat) : Nat := rpm * 104719755119660 / 10 ^ 12

/-- The angle in 2^−32 turn that a speed in mrad/s covers in so many nanoseconds, truncated. -/
def turnIn (omega : Int) (ns : Nat) : Int := tdiv (omega * ns * 6835652755764316) (10 ^ 19)

/-- An angle in 2^−32 turn advanced. -/
def turned (a : Nat) (d : Int) : Nat := ofS 32 ((a : Int) + d)

/-! ## Capture's fault trigger (R538) -/

/-- The capture triggers, if it is armed and has not. -/
def capTrigger (s : State) : State :=
  if getB s Reg.CAP_STATUS_ARMED ∧ !getB s Reg.CAP_STATUS_TRIGGERED then
    setF Reg.CAP_STATUS_TRIGGERED 1 (setMot { s.mot with cap := { s.mot.cap with trig := some s.mot.cap.taken, stamp := stampNow s } } s)
  else s

/-- A fault of unit 0xE is raised; it triggers a capture that waits for one. -/
def raiseMot (p bit sev cause data : Nat) (s : State) : State :=
  let s := raise p bit (faultCode sev 0xE cause) noAcct data s
  if getF s Reg.CAP_CTRL_TRIG = 2 then capTrigger s else s

/-- A supervision event stands on what the samples before it show: on enough of them in a row, or on none where none has been taken (log entry:
supervision events). -/
def shown (count : Option Nat) (n : Nat) : Bool := match count with | none => true | some k => decide (n ≤ k)

/-- A count of samples in a row, up to `n`. -/
def runOf (count : Option Nat) (n : Nat) (hit : Bool) : Option Nat := some (if hit then min n (count.getD 0 + 1) else 0)

/-- A cause of a motion chapter brings S1 or S2, and the stream command in progress ends with MOTION_FAULT (R503, R526). -/
def motionStop (safe code : Nat) (s : State) : State := if safe = 1 then enterS1 code s else enterS2 code s

/-! ## Settings -/

def polePairs (s : State) (x : Nat) : Nat := clampN 1 8 (getF s (Reg.MOTOR_POLE_PAIRS x))

/-- STO is asserted on the inverters (R475). -/
def reelSto (s : State) : Bool := getB s Reg.SAFE_STATUS_STO_REELS

/-- VBUS in mV, as MOTA shows it. -/
def vbus (s : State) : Nat := getF s (Reg.VBUS 0)

/-- VBUS_CHOP.OFF as it acts (R505). -/
def chopOff (s : State) : Nat := if getF s (Reg.VBUS_CHOP_ON 0) < getF s (Reg.VBUS_CHOP_OFF 0) then getF s (Reg.VBUS_CHOP_ON 0) - 1000 else getF s (Reg.VBUS_CHOP_OFF 0)

/-! ## Angle sources (R483–R491) -/

/-- A reel's tape speed in µm/s from its own rotation. -/
def reelSpeed (s : State) (x : Nat) : Int := tdiv (getS s (Reg.SPEED x) * getF s (Reg.RADIUS x)) 1000

/-- The speed that the tape-coupled estimate of a reel integrates, in µm/s, if there is one (R488). -/
def tapeSource (s : State) (x : Nat) : Option Int :=
  let o := 1 - x
  if getB s Reg.POS_STATUS_LOCKED then some (getS s Reg.POS_SPEED)
  else if getF s (Reg.MOT_STATUS_SRC o) = 1 ∨ getF s (Reg.MOT_STATUS_SRC o) = 2 then some (reelSpeed s o)
  else none

/-- The mechanical speed of a reel that a tape speed in µm/s means, in mrad/s; none while its radius is zero. -/
def tapeOmega (s : State) (x : Nat) (v : Int) : Option Int :=
  if getF s (Reg.RADIUS x) = 0 then none else some (tdiv (v * 1000) (getF s (Reg.RADIUS x)))

/-- A source is valid (R483). -/
def srcValid (s : State) (x src : Nat) : Bool :=
  match src with
  | 1 => getB s (Reg.MOT_CTRL_HALL_FIT x) && getB s (Reg.MOT_STATUS_HALL_OK x)
  | 2 => getB s (Reg.MOT_STATUS_OBS_VALID x)
  | 3 => getB s (Reg.MOT_STATUS_RAD_VALID x) && (tapeSource s x).isSome && getF s (Reg.RADIUS x) != 0
  | 4 => (reel s x).start == 2
  | _ => false

/-- The source to use, 0 if none is valid: the forced one if it is valid, else the first valid (R483). -/
def pickSrc (s : State) (x : Nat) : Nat :=
  let f := getF s (Reg.MOT_CTRL_SRC_FORCE x)
  if 1 ≤ f ∧ f ≤ 3 ∧ srcValid s x f then f
  else match [1, 2, 3, 4].find? (srcValid s x) with | some k => k | none => 0

/-- The angle that a source gives, in 2^−16 turn. -/
def srcAngle (s : State) (x src : Nat) : Nat :=
  let r := reel s x
  match src with
  | 1 => ofS 16 ((r.hallAt : Int) + r.hallDir * (r.hallAdv / 2 ^ 16 : Nat) + getF s (Reg.HALL_CFG x))
  | 2 => r.obsAngle
  | 3 => r.tape / 2 ^ 16
  | 4 => r.startAt / 2 ^ 16
  | _ => getF s (Reg.ANGLE_ELEC x)

/-- The electrical angle in use. -/
def elecAngle (s : State) (x : Nat) : Nat := ofS 16 ((srcAngle s x (getF s (Reg.MOT_STATUS_SRC x)) : Int) + (reel s x).ofs)

/-- A running drive has no valid source (R491). -/
def angleLost (x : Nat) (s : State) : State :=
  motionStop 2 (faultCode 4 0xE 0x03) (raiseMot (motPage x) 30 4 0x03 x s)

/-- The source in use follows R483; a running drive without one is lost (R491). The start source gives way when another becomes valid (R490). -/
def chooseSrc (x : Nat) (s : State) : State :=
  let f := getF s (Reg.MOT_CTRL_SRC_FORCE x)
  let s := if 1 ≤ f ∧ f ≤ 3 ∧ !srcValid s x f then setF (Reg.MOT_STATUS_FORCE_BAD x) 1 s else s
  let old := getF s (Reg.MOT_STATUS_SRC x)
  let new := pickSrc s x
  let running := getB s (Reg.MOT_STATUS_RUNNING x)
  let s := if new = old then s
    else
      let was := elecAngle s x
      let ofs := if old = 0 ∨ new = 0 then 0 else (was : Int) - srcAngle s x new
      notify (motPage x) 0 new (setF (Reg.MOT_STATUS_SRC x) new (setReel x { reel s x with ofs } s))
  let s := if (reel s x).start = 2 ∧ new ≠ 4 ∧ new ≠ 0 then notify (motPage x) 6 1 (setReel x { reel s x with start := 0 } s) else s
  if new = 0 ∧ running then angleLost x s else s

/-! ### Halls (R484, R485) -/

/-- The sector of a Hall code (R484). -/
def hallSector (code : Nat) : Option Nat :=
  match code with | 1 => some 0 | 3 => some 1 | 2 => some 2 | 6 => some 3 | 4 => some 4 | 5 => some 5 | _ => none

/-- A Hall fault (R485). -/
def hallFault (x : Nat) (s : State) : State :=
  if getB s (Reg.MOT_CTRL_HALL_FIT x) ∧ getB s (Reg.MOT_STATUS_HALL_OK x) then
    chooseSrc x (raiseMot (motPage x) 1 2 0x01 (getF s (Reg.HALL_STATUS_CODE x)) (setF (Reg.MOT_STATUS_HALL_OK x) 0 s))
  else s

/-- A filtered edge: the angle is set to the boundary crossed; an invalid code, edges too close together, or a second jump within an electrical
period is a fault (R484, R485). -/
def hallEdge (x code interval : Nat) (s : State) : State :=
  let old := getF s (Reg.HALL_STATUS_SECTOR x)
  let s := setF (Reg.HALL_STATUS_CODE x) code s
  match hallSector code with
  | none => hallFault x (setF (Reg.HALL_STATUS_SECTOR x) 7 s)
  | some n =>
    let r := reel s x
    let s := setF (Reg.HALL_STATUS_SECTOR x) n s
    if old = n then s
    else if 6 ≤ old then setReel x { r with hallAt := n * 65536 / 6, hallAdv := 0, hallOmega := 0 } s
    else if n = (old + 1) % 6 ∨ old = (n + 1) % 6 then
      let up : Bool := n == (old + 1) % 6
      let dir : Int := if up then 1 else -1
      let omega := if interval = 0 then 0 else dir * ((1047197551196598 / (1000 * interval * polePairs s x) : Nat) : Int)
      let r := { r with hallAt := (if up then n else n + 1) % 6 * 65536 / 6, hallAdv := 0, hallDir := dir, hallOmega := omega
                        hallErr := r.hallErr.map (· + 1) }
      let s := setReel x r s
      if interval * polePairs s x * getF s (Reg.MOTOR_NMAX x) < 5000000000 then hallFault x s else s
    else
      let again : Bool := match r.hallErr with | some k => decide (k < 6) | none => false
      let s := incF (Reg.HALL_STATUS_SEQ_ERR x) (setReel x { r with hallErr := some 0, hallAt := n * 65536 / 6, hallAdv := 0 } s)
      if again then hallFault x s else s

/-- HALL_OK returns when the Halls are fitted and healthy, at CONFIG_SEAL and SAFE_CLEAR (R485). -/
def restoreHalls (s : State) : State :=
  forEach [0, 1] (fun x s =>
    if getB s (Reg.MOT_CTRL_HALL_FIT x) ∧ (hallSector (getF s (Reg.HALL_STATUS_CODE x))).isSome then setF (Reg.MOT_STATUS_HALL_OK x) 1 s else s) s

/-! ### Observer (R486, R487) -/

/-- The observer is above OBS_MIN. -/
def obsAbove (s : State) (x : Nat) : Bool := decide (rpmMrad (getF s (Reg.OBS_CFG_OBS_MIN x)) ≤ (reel s x).obsOmega.natAbs)

/-- The observer's two conditions: |e| at least EMF_MIN_PCT of ψ·|ω_e|, and the PLL error within ERR_MAX (R486). -/
def obsFine (s : State) (x : Nat) : Bool :=
  decide (getF s (Reg.OBS_CFG_EMF_MIN_PCT x) ≤ getF s (Reg.OBS_STATUS_EMF_PCT x)) && decide ((getS s (Reg.OBS_STATUS_ERR x)).natAbs ≤ getF s (Reg.OBS_CFG_ERR_MAX x))

/-- The electrical angle that the observer turns in a period, in 2^−32 turn. -/
def obsTurn (s : State) (x : Nat) : Nat := (turnIn ((reel s x).obsOmega * polePairs s x) 25000).natAbs

/-- The back-EMF of a period in mV in the stationary frame, v − R·i − L·di/dt (R486), `i` the current then. -/
def backEmf (s : State) (x : Nat) (i : Int × Int) : Int × Int :=
  let r := reel s x
  let v := rotate r.vApplied.1 r.vApplied.2 (elecAngle s x)
  let rs : Int := getF s (Reg.MOTOR_RL_RS x)
  let ls : Int := getF s (Reg.MOTOR_RL_LS x)
  let one (v i was : Int) : Int := v - tdiv (rs * i) 1000 - tdiv (ls * (i - was)) 25
  (one v.1 i.1 r.iStat.1, one v.2 i.2 r.iStat.2)

/-- |e| against ψ·|ω_e| in percent (R505); 255 at most. -/
def emfPct (s : State) (x : Nat) (e : Int × Int) (omega : Int) : Nat :=
  let whole := getF s (Reg.MOTOR_PSI x) * (omega.natAbs * polePairs s x) / 1000000
  if whole = 0 then 0 else min 255 (root (e.1.natAbs * e.1.natAbs + e.2.natAbs * e.2.natAbs) * 100 / whole)

/-- The observer in a period of a switching drive (R486): it becomes valid after two good electrical periods at OBS_MIN or above, and is invalid below;
how far the reel has turned since a condition failed is kept for its loss (R487). -/
def observe (x : Nat) (s : State) : State :=
  let r := reel s x
  let i := rotate r.id r.iq (elecAngle s x)
  let emf := (backEmf s x i :: r.emf).take 4
  let e := Config.emfFilter emf
  let p := Config.observerStep r.obsAngle r.obsOmega e
  let s := setReel x { r with emf, iStat := i, obsAngle := p.1 % 65536, obsOmega := p.2.1 } s
  let s := setF (Reg.OBS_STATUS_EMF_PCT x) (emfPct s x e p.2.1) (setS (Reg.OBS_STATUS_ERR x) (clampI (-128) 127 p.2.2) s)
  let s := if getF s (Reg.MOT_STATUS_SRC x) = 1 then setS (Reg.OBS_STATUS_HALL_DIFF x) (asr ((p.1 % 65536 : Nat) - (elecAngle s x : Int)) 8) s else s
  let r := reel s x
  if !obsAbove s x then setF (Reg.MOT_STATUS_OBS_VALID x) 0 (setReel x { r with obsGood := 0, obsBad := 0 } s)
  else if !obsFine s x then setReel x { r with obsGood := 0, obsBad := min (r.obsBad + obsTurn s x) (2 ^ 32) } s
  else
    let g := min (r.obsGood + obsTurn s x) (2 * 2 ^ 32)
    let s := setReel x { r with obsGood := g, obsBad := 0 } s
    if g = 2 * 2 ^ 32 then setF (Reg.MOT_STATUS_OBS_VALID x) 1 s else s

/-- The observer of a drive that does not switch has no voltage to go by (R486; log entry: observer at rest). -/
def observerRests (x : Nat) (s : State) : State :=
  setF (Reg.MOT_STATUS_OBS_VALID x) 0 (setReel x { reel s x with emf := [], obsOmega := 0, obsGood := 0, obsBad := 0, iStat := (0, 0) } s)

/-- The observer is lost (R487) once a condition has failed for one electrical period: S1 when it was the source. -/
def obsLost (x : Nat) (s : State) : State :=
  if !getB s (Reg.MOT_STATUS_OBS_VALID x) ∨ (reel s x).obsBad < 2 ^ 32 then s
  else
    let s0 := s
    let s := setF (Reg.MOT_STATUS_OBS_VALID x) 0 (setReel x { reel s x with obsGood := 0, obsBad := 0 } s)
    if getF s0 (Reg.MOT_STATUS_SRC x) = 2 then
      chooseSrc x (motionStop 1 (faultCode 4 0xE 0x02) (raiseMot (motPage x) 2 4 0x02 x s))
    else raiseMot (motPage x) 2 0 0x02 x s

/-! ### Starting (R489, R490) -/

/-- The drive is switched off, its integrators cleared. -/
def driveOff (x : Nat) (s : State) : State :=
  let s := setReel x { reel s x with start := 0, xd := 0, xq := 0, vApplied := (0, 0), vNext := (0, 0), bad := (reel s x).bad.map fun _ => 0 } s
  setF (Reg.MOT_STATUS_RUNNING x) 0 (observerRests x s)

/-- A start fails (R489, R490): the drive switches off, and in the cases of R490 the stream command in progress ends. -/
def startFail (x : Nat) (ends : Bool) (s : State) : State :=
  let s := raiseMot (motPage x) 6 2 0x04 x (setF (Reg.MOT_CTRL_EN x) 0 (driveOff x s))
  if ends then failExec stMOTION_FAULT (faultCode 2 0xE 0x04) s else s

/-- An enabled drive without STO starts: from a valid source, by pulses, or not at all (R489, R490). In a safe state it does not; pulses stop, and the
start runs again after SAFE_CLEAR. -/
def driveStart (x : Nat) (s : State) : State :=
  if getB s (Reg.MOT_STATUS_RUNNING x) then s
  else if safeInForce s then setReel x { reel s x with start := 0 } s
  else if (reel s x).start ≠ 0 then s
  else if !getB s (Reg.MOT_CTRL_HALL_FIT x) ∧ !getB s (Reg.MOT_STATUS_OBS_VALID x) ∧ getB s (Reg.MOT_CTRL_PULSE_START x) then
    setReel x { reel s x with start := 1 } s
  else
    let s := chooseSrc x s
    if getF s (Reg.MOT_STATUS_SRC x) = 0 then startFail x true s
    else setF (Reg.MOT_STATUS_RUNNING x) 1 (setReel x { reel s x with xd := 0, xq := 0 } s)

/-- The parameters that EN needs are set (R504). -/
def motReady (s : State) (x : Nat) : Bool :=
  getF s (Reg.MOTOR_POLE_PAIRS x) != 0 && getF s (Reg.MOTOR_RL_RS x) != 0 && getF s (Reg.MOTOR_RL_LS x) != 0 && getF s (Reg.MOTOR_PSI x) != 0
    && getF s (Reg.CUR_LIMIT_IMAX x) != 0 && getF s (Reg.CUR_KP x) != 0

/-- VBUS lies between VBUS_UV and VBUS_CHOP.ON (R497). -/
def busInRange (s : State) : Bool := decide (getF s (Reg.VBUS_UV 0) ≤ vbus s) && decide (vbus s ≤ getF s (Reg.VBUS_CHOP_ON 0))

/-- A write that sets MOT_CTRL.EN (R497, R504). -/
def motEnable (x : Nat) (s : State) : State :=
  if getB s (Reg.MOT_CTRL_EN x) then s
  else if !motReady s x ∨ !busInRange s then notify (motPage x) 4 0 s
  else
    let s := setF (Reg.MOT_CTRL_EN x) 1 s
    if reelSto s then s else driveStart x s

/-- The angle of the rotor's north pole, in 2^−16 turn, from the peaks of the six basic vectors in the order of their angle: from the vector with the
largest peak towards the larger of its neighbours, by parabolic interpolation (R489). -/
def northPole (peaks : List Nat) : Nat :=
  let p (i : Nat) : Nat := peaks.getD (i % 6) 0
  let best := (List.range 6).foldl (fun (b i : Nat) => if p b < p i then i else b) 0
  let way : Int := if p (best + 5) < p (best + 1) then 1 else -1
  ofS 16 ((best * 65536 / 6 : Nat) + way * (Config.pulseAngle peaks % 5462 : Nat))

/-- The pulses are done (R489): a reel with too little saliency fails to start. -/
def pulsesDone (x : Nat) (peaks : List Nat) (s : State) : State :=
  if (reel s x).start ≠ 1 then s
  else
    let hi := peaks.foldl max 0
    let lo := peaks.foldl min hi
    if (hi - lo) * 100 < getF s (Reg.PULSE_CFG_SAL_MIN_PCT x) * hi then startFail x false s
    else
      let s := setReel x { reel s x with start := 2, startAge := 0, startAt := northPole peaks * 65536, xd := 0, xq := 0 } s
      chooseSrc x (setF (Reg.MOT_STATUS_RUNNING x) 1 s)

/-- No valid observer within START_MAX (R490). -/
def startTimeout (x : Nat) (s : State) : State :=
  if (reel s x).start ≠ 2 ∨ (reel s x).startAge < 40 * getF s (Reg.PULSE_CFG_START_MAX x) then s else startFail x true s

/-! ## Current control (R476–R482) -/

/-- The window limit that acts (R480). -/
def minWin (s : State) (x : Nat) : Nat := max (getF s (Reg.PWM_CFG_MIN_WIN x)) (getF s (Reg.PWM_CFG_SETTLE x) + 40)

/-- Phases in the order in which they rise: smallest compare first. -/
def phaseOrder (cmp : List Nat) : List Nat := ((List.range 3).map fun i => (cmp.getD i 625, i)).foldl (fun l e =>
  (l.takeWhile fun f => decide (f.1 ≤ e.1)) ++ e :: (l.dropWhile fun f => decide (f.1 ≤ e.1))) [] |>.map Prod.snd

/-- First-half compares of the first and last phases after R481, limited by R482. -/
def shiftMin (mid c w : Nat) : Nat := if mid - c < w then max (mid - w) (2 * c - 1250) else c
def shiftMax (mid c w : Nat) : Nat := if c - mid < w then min (min (mid + w) 1250) (2 * c) else c

/-- A phase current in mA from a shunt code (R476, R480), which counts from 2,048 (R628). -/
def shuntMa (s : State) (x code : Nat) : Int := tdiv (((code : Int) - 2048 - getS s (csoFld x)) * getF s (Reg.ISH_SCALE x)) 1000

/-- The two components of R477 limited: what is applied, d first. -/
def limitVector (limit : Nat) (vd vq : Int) : Int × Int :=
  let d := clampI (-limit) limit vd
  let rest : Nat := root (limit * limit - d.natAbs * d.natAbs)
  (d, clampI (-rest) rest vq)

/-- Compares of the next period by min-max space-vector modulation (R476, R474). -/
def svpwm (s : State) (x : Nat) (vd vq : Int) (angle : Nat) (currents : List Int) : List Nat :=
  let v := phases vd vq angle
  let l := [v.1, v.2.1, v.2.2]
  let hi := max v.1 (max v.2.1 v.2.2)
  let lo := min v.1 (min v.2.1 v.2.2)
  let bus : Nat := max 1 (vbus s)
  let dead : Int := if getB s (Reg.MOT_CTRL_DTC x) then ((getF s (Reg.PWM_CFG_DEAD x) / 2 : Nat) : Int) else 0
  (List.range 3).map fun i =>
    let c := rdiv (1250 * (bus - (2 * l.getD i 0 - hi - lo))) (2 * bus)
    (clampI 0 1250 (c - dead * sgn (currents.getD i 0))).toNat

/-- The current loop of a period (R476, R477), given the phase currents' id and iq and the angle at the samples. -/
def currentLoop (x th : Nat) (currents : List Int) (s : State) : State :=
  let r := reel s x
  let we := getS s (Reg.SPEED x) * polePairs s x
  let ls : Int := getF s (Reg.MOTOR_RL_LS x)
  let kp := getS s (Reg.CUR_KP x)
  let ki := getS s (Reg.CUR_KI x)
  let ed := getS s (Reg.IQ_REF_ID_REF x) - r.id
  let eq := getS s (Reg.IQ_REF_IQ_REF x) - r.iq
  let xd := sat32 (r.xd + asr (ki * ed) (getF s (Reg.CUR_SHIFT_KI_SH x)))
  let xq := sat32 (r.xq + asr (ki * eq) (getF s (Reg.CUR_SHIFT_KI_SH x)))
  let pd := asr (kp * ed) (getF s (Reg.CUR_SHIFT_KP_SH x))
  let pq := asr (kp * eq) (getF s (Reg.CUR_SHIFT_KP_SH x))
  let fd := - tdiv (we * ls * r.iq) (10 ^ 9)
  let fq := tdiv (we * ls * r.id) (10 ^ 9) + tdiv (we * getF s (Reg.MOTOR_PSI x)) (10 ^ 6)
  let vd := sat32 (pd + xd + fd)
  let vq := sat32 (pq + xq + fq)
  let limit := root (vbus s * vbus s / 3)
  let v := limitVector limit vd vq
  let r := { r with xd := if v.1 = vd then xd else sat32 (v.1 - pd - fd), xq := if v.2 = vq then xq else sat32 (v.2 - pq - fq) }
  let ahead := turnIn we 37500 / 2 ^ 16
  let r := { r with vApplied := r.vNext, vNext := v, cmp := svpwm s x v.1 v.2 (ofS 16 ((th : Int) + ahead)) currents }
  let s := setS (Reg.VDQ_VQ x) (sat16 (tdiv v.2 10)) (setS (Reg.VDQ_VD x) (sat16 (tdiv v.1 10)) (setReel x r s))
  let mag := v.1.natAbs * v.1.natAbs + v.2.natAbs * v.2.natAbs
  if 361 * limit * limit < 400 * mag ∧ !getB s (Reg.MOT_STATUS_VLIMIT x) then
    raiseMot (motPage x) 3 0 0x07 x (setF (Reg.MOT_STATUS_VLIMIT x) 1 (setReel x { reel s x with vClamp := (reelSpeed s x).natAbs / 1000 } s))
  else if 2500 * mag < 2116 * limit * limit then setF (Reg.MOT_STATUS_VLIMIT x) 0 s
  else s

/-- The current that the last period's current, the voltage applied and the back-EMF let expect, in mA (R501). -/
def modelCurrent (s : State) (x : Nat) : Int × Int :=
  let r := reel s x
  let we := getS s (Reg.SPEED x) * polePairs s x
  let rs : Int := getF s (Reg.MOTOR_RL_RS x)
  let ls : Int := getF s (Reg.MOTOR_RL_LS x)
  let ed := r.vApplied.1 - tdiv (rs * r.id) 1000 + tdiv (we * ls * r.iq) (10 ^ 9)
  let eq := r.vApplied.2 - tdiv (rs * r.iq) 1000 - tdiv (we * ls * r.id) (10 ^ 9) - tdiv (we * getF s (Reg.MOTOR_PSI x)) (10 ^ 6)
  (r.id + tdiv (25 * ed) ls, r.iq + tdiv (25 * eq) ls)

/-- What makes a period's current sensing implausible beside a missing sample (R501): a code at a rail, a 000 sample far from CAL_CSO, a current far
from the one expected. -/
def implausible (s : State) (x : Nat) (codes : List Nat) (zero : Option Nat) (model got : Int × Int) : Bool :=
  let rail (c : Nat) : Bool := c % 4096 == 0 || c % 4096 == 4095
  let far := (model.1 - got.1).natAbs ^ 2 + (model.2 - got.2).natAbs ^ 2
  codes.any rail
    || (match zero with | some z => rail z || decide (256 < (((z % 4096 : Nat) : Int) - 2048 - getS s (csoFld x)).natAbs) | none => false)
    || decide (getF s (Reg.CUR_LIMIT_IMAX x) ^ 2 < 16 * far)

/-- A period counts for the plausibility of R501. -/
def plausPeriod (x : Nat) (bad : Bool) (s : State) : State := setReel x { reel s x with bad := runOf (reel s x).bad 40 bad } s

/-- The measured currents in the rotor frame (R476). -/
def measured (x : Nat) (id iq : Int) (hold : Bool) (s : State) : State :=
  setB (Reg.MOT_STATUS_SS_HOLD x) hold (setS (Reg.IDQ_IQ x) (sat16 iq) (setS (Reg.IDQ_ID x) (sat16 id) (setReel x { reel s x with id, iq } s)))

/-- The zero-vector sample of a period, if it has one, counts for the current-sense offset of the reel (R236, R242). -/
def csoSample (x : Nat) (z : Option Nat) (s : State) : State :=
  let s := match pairSet s 0, z with
    | some n, some v => onFrames n (fun a =>
        { a with cso := Tbl.set a.cso x (Tbl.get 0 a.cso x + ((v % 4096 : Nat) - 2048 : Int)), csoN := Tbl.set a.csoN x (Tbl.get 0 a.csoN x + 1) }) s
    | _, _ => s
  setReel x { reel s x with zeros := if getB s Reg.POS_STATUS_STILL then (z :: (reel s x).zeros).take 4096 else [] } s

/-- One period of a switching drive (R476–R482). -/
def switchPeriod (x : Nat) (p : PwmIn) (s : State) : State :=
  if p.late then plausPeriod x true (csoSample x none (incF (Reg.SS_MISS_CNT x) s))
  else
    let r := reel s x
    let ord := phaseOrder r.cmp
    let c (i : Nat) : Nat := r.cmp.getD (ord.getD i i) 625
    let w := minWin s x
    let c1lo := shiftMin (c 1) (c 0) w
    let c1hi := shiftMax (c 1) (c 2) w
    let shifted := c1lo ≠ c 0 ∨ c1hi ≠ c 2
    let missing := c 1 - c1lo < w ∨ c1hi - c 1 < w ∨ !getB s Reg.ADC_CTRL_EN
    let zeroOk := w ≤ c1lo + r.last2 ∧ getB s Reg.ADC_CTRL_EN
    let s := setReel x { r with last2 := min (2 * c 0 - c1lo) (min (c 1) (2 * c 2 - c1hi)), shiftAge := min 40000 (r.shiftAge + 1) } s
    let s := if shifted then
        let s := incF (Reg.SS_SHIFT_CNT x) s
        if 40000 ≤ (reel s x).shiftAge then notify (motPage x) 7 0 (setReel x { reel s x with shiftAge := 0 } s) else s
      else s
    let s := csoSample x (if zeroOk then some p.zero else none) s
    let s := if zeroOk then setF (Reg.ZERO_SAMPLE x) p.zero (setAdc x p.zero s) else s
    let we := getS s (Reg.SPEED x) * polePairs s x
    let th := ofS 16 ((elecAngle s x : Int) + turnIn we (10 * ((c1lo + c 1) / 2 + getF s (Reg.PWM_CFG_SETTLE x))) / 2 ^ 16)
    if missing then
      let v := rotate r.id r.iq (ofS 16 (turnIn we 25000 / 2 ^ 16))
      let held := (List.range 3).map fun _ => (0 : Int)
      currentLoop x th held (measured x v.1 v.2 true (plausPeriod x true (incF (Reg.SS_MISS_CNT x) s)))
    else
      let a := shuntMa s x p.first
      let b := - shuntMa s x p.second
      let cur := (List.range 3).map fun i => if ord.getD 0 0 = i then a else if ord.getD 2 2 = i then b else - (a + b)
      let v := park (cur.getD 0 0) (cur.getD 1 0) (cur.getD 2 0) th
      let odd := implausible s x [p.first, p.second] (if zeroOk then some p.zero else none) (modelCurrent s x) v
      let s := setAdc x (if zeroOk then p.zero else p.second) s
      currentLoop x th cur (measured x v.1 v.2 false (plausPeriod x odd s))

/-- The gate commands of a drive at a count `t` of its 2,500-count period, upper and lower switch of each leg (R473–R475, R481): a leg's upper switch is
called for from its first-half compare to its second-half one, each rise waits DEAD counts, and a drive that does not switch holds all low. -/
def gates (s : State) (x t : Nat) : List (Bool × Bool) :=
  let r := reel s x
  let ord := phaseOrder r.cmp
  let w := minWin s x
  let dead := getF s (Reg.PWM_CFG_DEAD x)
  let mid := r.cmp.getD (ord.getD 1 1) 625
  (List.range 3).map fun i =>
    let c := r.cmp.getD i 625
    let c1 := if ord.getD 0 0 = i then shiftMin mid c w else if ord.getD 2 2 = i then shiftMax mid c w else c
    let fall := 2500 - (2 * c - c1)
    let run := getB s (Reg.MOT_STATUS_RUNNING x) && !reelSto s
    (run && decide (c1 + dead ≤ t) && decide (t < fall), run && (decide (fall + dead ≤ t) || (decide (t < c1) && decide (fall + dead ≤ t + 2500))))

/-- Angles and speed advance by one period (R484, R488, R490). -/
def advanceAngles (x : Nat) (s : State) : State :=
  let r := reel s x
  let pp := polePairs s x
  let step (omega : Int) : Int := turnIn (omega * pp) 25000
  let tapeW := match tapeSource s x with | some v => (tapeOmega s x v).getD 0 | none => 0
  let startW := (tapeOmega s x (getS s Reg.V_LIM * 1000)).getD 0
  let src := getF s (Reg.MOT_STATUS_SRC x)
  let omega := match src with | 2 => r.obsOmega | 3 => tapeW | 4 => startW | _ => if getB s (Reg.MOT_STATUS_HALL_OK x) then r.hallOmega else 0
  let s := setReel x { r with
    hallAdv := min (r.hallAdv + (step r.hallOmega).natAbs) (2 ^ 32 / 6), tape := turned r.tape (step tapeW)
    startAt := if r.start = 2 then turned r.startAt (step startW) else r.startAt, mech := turned r.mech (turnIn omega 25000) } s
  setS (Reg.SPEED x) (sat32 omega) s

/-- The supervision counts of a period: the time since a start's pulses (R490), and the speed against 1.1 × NMAX (R502). -/
def supervise (x : Nat) (s : State) : State :=
  let fast := decide (11 * rpmMrad (getF s (Reg.MOTOR_NMAX x)) < 10 * (getS s (Reg.SPEED x)).natAbs)
  setReel x { reel s x with startAge := (reel s x).startAge + 1, speeding := runOf (reel s x).speeding 40 fast } s

/-- A 40 kHz PWM period of a reel drive (R476). -/
def pwmPeriod (x : Nat) (p : PwmIn) (s : State) : State :=
  if 2 ≤ x ∨ !pageRuns s (motPage x) then s
  else
    let s := supervise x (advanceAngles x s)
    let s := if getB s (Reg.MOT_CTRL_EN x) ∧ !reelSto s then
        let s := if getB s (Reg.MOT_STATUS_RUNNING x) then chooseSrc x (observe x s) else driveStart x s
        if getB s (Reg.MOT_STATUS_RUNNING x) ∧ !reelSto s then switchPeriod x p s else s
      else chooseSrc x (driveOff x s)
    setF (Reg.ANGLE_MECH x) ((reel s x).mech / 2 ^ 16) (setF (Reg.ANGLE_ELEC x) (elecAngle s x) s)

/-! ## Radius (R492–R494) -/

/-- A position in ticks within the count. -/
def tickPos (s : State) (tick : Nat) : Int := (s.pos.frame * 4096 + tick % 4096 : Nat)

/-- A reel completes a revolution (R492, R493). -/
def revolution (x tick other : Nat) (s : State) : State :=
  if 2 ≤ x then s
  else
    let r := reel s x
    let here := tickPos s tick
    let ok := getB s Reg.POS_STATUS_LOCKED && decide (500000 ≤ (getS s Reg.POS_SPEED).natAbs)
    if ok then
      match r.revAt with
      | none => setReel x { r with revAt := some here, revs := 0 } s
      | some at_ =>
        let rev : Nat := (here - at_).natAbs * 97140468195737 / 10 ^ 16
        let old : Int := getF s (Reg.RADIUS x)
        let s := setF (Reg.RADIUS x) (old + tdiv ((rev : Int) - old) 8).toNat s
        let s := setReel x { r with revAt := some here, revs := min 4 (r.revs + 1), measured := true } s
        let s := if 4 ≤ r.revs + 1 then setF (Reg.MOT_STATUS_RAD_VALID x) 1 s else s
        if x = 0 ∧ (reel s 1).measured then
          let a := getF s (Reg.RADIUS 0)
          let b := getF s (Reg.RADIUS 1)
          let k : Int := getF s (Reg.RAD_K 0)
          setReel 1 { reel s 1 with measured := false } (setF (Reg.RAD_K 0) (k + tdiv ((((a * a + b * b) / 10000 : Nat) : Int) - k) 64).toNat s)
        else s
    else
      let s := setReel x { r with revAt := none, revs := 0 } s
      let k := getF s (Reg.RAD_K 0) * 10000
      if x = 0 ∧ !getB s Reg.POS_STATUS_LOCKED ∧ k ≠ 0 ∧ other ≠ 0 then
        let d := 2 ^ 32 + other * other
        let s := setF (Reg.RADIUS 1) (root (k * 2 ^ 32 / d)) (setF (Reg.RADIUS 0) (root (k * (other * other) / d)) s)
        setF (Reg.MOT_STATUS_RAD_VALID 1) 1 (setF (Reg.MOT_STATUS_RAD_VALID 0) 1 s)
      else s

/-! ## Bus and chopper (R497–R500) -/

/-- The chopper's history, cut to one second of samples. -/
def chopKeep : Nat → List (Bool × Nat) → List (Bool × Nat)
  | _, [] => []
  | n, (b, k) :: t => if n = 0 then [] else (b, min k n) :: chopKeep (n - k) t

/-- On-time over the last second, in samples. -/
def chopOn (l : List (Bool × Nat)) : Nat := sumN (l.map fun e => if e.1 then e.2 else 0)

/-- A sample of VBUS (R497, R498). -/
def vbusSample (code : Nat) (late : Bool) (s : State) : State :=
  if !getB s Reg.ADC_CTRL_EN ∨ !pageRuns s 0x78 then s
  else
    let s := if late then incF Reg.ADC_LATE_CNT s else s
    let mv := min 65535 (code % 4096 * getF s (Reg.VBUS_SCALE 0) / 1000)
    let s := setF (Reg.VBUS 0) mv (setAdc 4 code s)
    let was := getB s (Reg.CHOP_STATUS_ON 0)
    let on := if was then !decide (mv < chopOff s) else decide (getF s (Reg.VBUS_CHOP_ON 0) < mv)
    let s := setB (Reg.CHOP_STATUS_ON 0) on s
    let s := if on && !was then incF (Reg.CHOP_CNT 0) s else s
    let from_ := if on && !was then some (mv, 0)
      else match s.mot.chopFrom with | some (v, k) => if mv < v then none else some (v, min 10000 (k + 1)) | none => none
    let reels := getB s (Reg.MOT_STATUS_RUNNING 0) || getB s (Reg.MOT_STATUS_RUNNING 1)
    let low := runOf s.mot.lowBus 80 (reels && decide (mv < getF s (Reg.VBUS_UV 0)))
    let s := setMot { s.mot with chopFrom := from_, lowBus := low } s
    let hist := match s.mot.chop with
      | (b, k) :: t => if b = on then (b, k + 1) :: t else (on, 1) :: (b, k) :: t
      | [] => [(on, 1)]
    let hist := chopKeep 80000 hist
    let s := setMot { s.mot with chop := hist } s
    let duty := chopOn hist * 100
    let s := setF (Reg.CHOP_STATUS_DUTY 0) (duty / 80000) s
    let lim := getF s (Reg.CHOP_CFG_MAX_DUTY 0) * 80000
    if getB s (Reg.CHOP_STATUS_OVERLOAD 0) then (if 2 * duty < lim then setF (Reg.CHOP_STATUS_OVERLOAD 0) 0 s else s)
    else if lim < duty then raiseMot 0x78 30 2 0x09 (duty / 80000) (setF (Reg.CHOP_STATUS_OVERLOAD 0) 1 s)
    else s

/-- Loss braking (R499): positive id_ref up to ID_LOSS within IMAX (R478). -/
def lossId (s : State) (x : Nat) (iq : Int) : Int :=
  let imax := getF s (Reg.CUR_LIMIT_IMAX x)
  ((min (getF s (Reg.CUR_LIMIT_ID_LOSS x)) (root (imax * imax - iq.natAbs * iq.natAbs)) : Nat) : Int)

/-- VBUS has not fallen within WAIT of the chopper's switch-on (R499), as far as its samples show. -/
def chopWaited (s : State) : Bool :=
  match s.mot.chopFrom with
  | some (_, k) => decide (2 * getF s (Reg.CHOP_CFG_WAIT 0) ≤ 25 * k)
  | none => s.mot.lowBus.isNone

/-- VBUS has not fallen within WAIT (R499). -/
def chopperFault (s : State) : State :=
  if !chopWaited s then s
  else
  let s := raiseMot 0x78 5 4 0x0A 0 (setF (Reg.CHOP_STATUS_FAULT 0) 1 s)
  let s := motionStop 1 (faultCode 4 0xE 0x0A) s
  forEach [0, 1] (fun x s => setS (Reg.IQ_REF_ID_REF x) (sat16 (lossId s x (getS s (Reg.IQ_REF_IQ_REF x)))) s) s

/-- The island's comparator at VBUS_TRIP (R500). While PORST_N is low it only asserts BUS_CLAMP_REQ. -/
def busOvervolt (s : State) : State :=
  let s := setF Reg.SAFE_STATUS_BUS_CLAMP 1 s
  if s.pins.inReset then s else motionStop 2 (faultCode 4 0xE 0x0B) (raiseMot 0x78 30 4 0x0B 0 s)

/-! ## Meanings -/

/-- PWM_PERIOD. -/
def execPwmPeriod (reel : Nat) (x : PwmIn) (s : State) : Host.Outcome State Fault Refusal := .next (pwmPeriod reel x s)

/-- CUR_PLAUS (R501): every period of 1 ms implausible. -/
def execCurPlaus (reel : Nat) (s : State) : Host.Outcome State Fault Refusal :=
  .next (if reel < 2 ∧ shown (Sys2Proof.Machine.reel s reel).bad 40 then
    motionStop 2 (faultCode 4 0xE 0x05) (raiseMot (motPage reel) 30 4 0x05 reel s) else s)

/-- HALL_EDGE. -/
def execHallEdge (reel code interval : Nat) (s : State) : Host.Outcome State Fault Refusal :=
  .next (if reel < 2 then hallEdge reel (code % 8) interval s else s)

/-- OBS_LOST. -/
def execObsLost (reel : Nat) (s : State) : Host.Outcome State Fault Refusal := .next (if reel < 2 then obsLost reel s else s)

/-- MOT_EN. -/
def execMotEn (reel : Nat) (s : State) : Host.Outcome State Fault Refusal :=
  .next (if reel < 2 then lockGate (motPage reel) (motEnable reel) s else s)

/-- PULSE_START_DONE. -/
def execPulseStartDone (reel : Nat) (peaks : List Nat) (s : State) : Host.Outcome State Fault Refusal :=
  .next (if reel < 2 then pulsesDone reel peaks s else s)

/-- START_TIMEOUT. -/
def execStartTimeout (reel : Nat) (s : State) : Host.Outcome State Fault Refusal := .next (if reel < 2 then startTimeout reel s else s)

/-- REEL_REVOLUTION. -/
def execReelRevolution (reel tick other : Nat) (s : State) : Host.Outcome State Fault Refusal := .next (revolution reel tick other s)

/-- A write of MOTA.RAD_SEED loads K (R494). -/
def radSeed (value : Nat) (s : State) : State := setF (Reg.RAD_K 0) value (setF (Reg.RAD_SEED 0) value s)

/-- RAD_SEED. -/
def execRadSeed (value : Nat) (s : State) : Host.Outcome State Fault Refusal := .next (lockGate 0x78 (radSeed value) s)

/-- VBUS_SAMPLE. -/
def execVbusSample (code : Nat) (late : Bool) (s : State) : Host.Outcome State Fault Refusal := .next (vbusSample code late s)

/-- BUS_UV (R497): below VBUS_UV for 1 ms while a reel runs. -/
def execBusUv (s : State) : Host.Outcome State Fault Refusal :=
  .next (if shown s.mot.lowBus 80 then motionStop 1 (faultCode 3 0xE 0x08) (raiseMot 0x78 30 3 0x08 (vbus s) s) else s)

/-- CHOPPER_FAULT. -/
def execChopperFault (s : State) : Host.Outcome State Fault Refusal := .next (chopperFault s)

/-- BUS_OVERVOLT. -/
def execBusOvervolt (s : State) : Host.Outcome State Fault Refusal := .next (busOvervolt s)

/-- REEL_OVERSPEED (R502): above 1.1 × NMAX for 1 ms. -/
def execReelOverspeed (reel : Nat) (s : State) : Host.Outcome State Fault Refusal :=
  .next (if reel < 2 ∧ shown (Sys2Proof.Machine.reel s reel).speeding 40 then motionStop 2 (faultCode 4 0xE 0x06) (raiseMot (motPage reel) 30 4 0x06 reel s) else s)

end Sys2Proof.Machine
end

