-- ==== Sys2Proof/Machine/Loop.lean ====
section
/-!
DEFINITION. The loop engine (spec/16): slots and their arithmetic (R509–R514), the tape set-point and the limiter (R515–R518), groups and
tension (R519, R520), scheduling and swaps (R521–R523), following error and overruns (R524, R525), the repetitive controller (R527, R528),
injection and capture (R536–R538).
-/
namespace Sys2Proof.Machine

def slot (s : State) (n : Nat) : SlotSt := Tbl.get {} s.mot.slots n
def setLoopSlot (n : Nat) (x : SlotSt) (s : State) : State := setMot { s.mot with slots := Tbl.set s.mot.slots n x } s

/-! ## Items (R540) -/

/-- Reset values of the items; the wiring of slots 0–8 as R509 gives it, in the codes that item 0 has. -/
def itemReset (n i : Nat) : Int :=
  if i = 0 then (match n with | 0 => 0x101 | 1 => 0x201 | 2 => 0x301 | 3 => 0x301 | 4 => 0x301 | 5 => 0x1001 | 6 => 0x1001 | 7 => 0x11 | 8 => 0x11 | _ => 0)
  else if i = 3 ∨ i = 4 ∨ (11 ≤ i ∧ i ≤ 17) then 0x7FFFFFFF
  else if i = 10 then (if n = 5 ∨ n = 6 then 120 else if n = 7 ∨ n = 8 then 400 else 50)
  else if 58 ≤ i ∧ i ≤ 90 then 4096
  else 0

def loopKey (n i : Nat) : Nat := 128 * n + i
def stagedItem (s : State) (n i : Nat) : Int := Tbl.get (itemReset n i) s.mot.staged (loopKey n i)
def item (s : State) (n i : Nat) : Int := Tbl.get (itemReset n i) s.mot.active (loopKey n i)

/-- An item's value as its range holds it (R540). -/
def itemClamp (i value : Nat) : Int :=
  let v := toS 32 value
  if i = 0 then ((value &&& 0xF3FF1 : Nat) : Int)
  else if i = 1 then toS 32 (value &&& 0xFFFF001F)
  else if i = 10 then clampI 1 65535 v
  else if 50 ≤ i ∧ i ≤ 57 then toS 32 (value &&& 0x1F1F1F1F)
  else if 58 ≤ i ∧ i ≤ 90 then clampI 0 65535 v
  else if i = 91 then ((value &&& 0x1F : Nat) : Int)
  else v

/-- A bit field of an item. -/
def itemBits (s : State) (n i lo w : Nat) : Nat := slice (ofS 32 (item s n i)) lo w

/-- The window moves on (R539, R617): ITEM, then SLOT. -/
def slotWinNext (s : State) : State :=
  if !getB s Reg.LOOP_SLOT_WIN_ADDR_AUTOINC then s
  else
    let i := getF s Reg.LOOP_SLOT_WIN_ADDR_ITEM
    setF Reg.LOOP_SLOT_WIN_ADDR_ITEM (if i < 103 then i + 1 else 0) s

/-- A write of the addressed item's staged copy (R540). -/
def slotWinWrite (value : Nat) (s : State) : State :=
  let n := getF s Reg.LOOP_SLOT_WIN_ADDR_SLOT
  let i := getF s Reg.LOOP_SLOT_WIN_ADDR_ITEM
  let s := if 91 < i ∨ (i = 0 ∧ n ≤ 8) then notify 0x7C 4 0 s
    else setMot { s.mot with staged := Tbl.set s.mot.staged (loopKey n i) (itemClamp i value) } s
  slotWinNext s

/-- The live values, items 96–103 (R540). -/
def liveItem (s : State) (n i : Nat) : Int :=
  let x := slot s n
  match i with
  | 96 => asr x.sp 16
  | 97 => x.meas
  | 98 => x.err
  | 99 => x.out
  | 100 => x.s
  | 101 => ((x.region % 8 + 256 * b2n (x.sat != 0) + 512 * b2n x.limited + 1024 * b2n x.loser + 2048 * b2n x.skipped : Nat) : Int)
  | 102 => x.fe
  | 103 => x.rate
  | _ => 0

/-- The addressed item as a read gives it. -/
def slotWinRead (s : State) : Nat :=
  let n := getF s Reg.LOOP_SLOT_WIN_ADDR_SLOT
  let i := getF s Reg.LOOP_SLOT_WIN_ADDR_ITEM
  let en : Nat := b2n (getB s Reg.LOOP_CTRL_EN)
  if 91 < i then ofS 32 (liveItem s n i)
  else if i = 0 ∧ n ≤ 8 then (ofS 32 (itemReset n 0)) / 2 * 2 + en
  else ofS 32 (if getB s Reg.LOOP_SLOT_WIN_ADDR_ACT then item s n i else stagedItem s n i)

/-- The loop engine runs. -/
def loopOn (s : State) : Bool := pageRuns s 0x7C && getB s Reg.LOOP_CTRL_EN

/-- A slot is enabled (R509, R540). -/
def slotOn (s : State) (n : Nat) : Bool := loopOn s && (decide (n ≤ 8) || itemBits s n 0 0 1 == 1)

/-! ## Injection (R536, R537) -/

/-- The injection runs on a slot. -/
def injOn (s : State) (n : Nat) : Bool := getB s Reg.INJ_CTRL_RUN && getF s Reg.INJ_CTRL_SLOT == n

/-- The generator's value for a sample of a slot, and its step. -/
def injStep (n : Nat) (s : State) : Int × State :=
  if !injOn s n then (0, s)
  else
    let j := s.mot.inj
    let s := if j.first ∧ getF s Reg.CAP_CTRL_TRIG = 1 then capTrigger s else s
    let count := getF s Reg.INJ_COUNT
    let amp := getS s Reg.INJ_AMP
    if count ≠ 0 ∧ j.left = 0 then (0, setMot { s.mot with inj := { j with first := false } } s)
    else
      let hold := max 1 (getF s Reg.INJ_CTRL_HOLD)
      let kind := getF s Reg.INJ_CTRL_KIND
      let v : Int := match kind with
        | 1 => if j.lfsr.testBit 14 then amp else -amp
        | 2 => amp
        | _ => asr (amp * sinTurn (j.phase / 65536)) 15
      let next := j.held + 1 == hold
      let fb := (j.lfsr * 2 + b2n (j.lfsr.testBit 14 != j.lfsr.testBit 13)) % 2 ^ 15
      let j := { j with first := false, phase := (j.phase + getF s Reg.INJ_FREQ) % 2 ^ 32, lfsr := if next then fb else j.lfsr
                        held := if next then 0 else j.held + 1, left := j.left - 1 }
      (sat32 v, setMot { s.mot with inj := j } s)

/-- Some sequencer runs a board. -/
def boardRuns (s : State) : Bool := (List.range 8).any fun b => (band s b).running

/-- A write of INJ_CTRL.GO (R537). -/
def injGo (s : State) : State :=
  if boardRuns s ∨ mediumQueued s ∨ safeInForce s then setF Reg.INJ_CTRL_REFUSED 1 s
  else setF Reg.INJ_CTRL_RUN 1 (setMot { s.mot with inj := { left := getF s Reg.INJ_COUNT, first := true } } s)

/-- The injection ends by STOP or after COUNT samples. -/
def injEnd (s : State) : State := if getB s Reg.INJ_CTRL_RUN then notify 0x7C 2 0 (setF Reg.INJ_CTRL_RUN 0 s) else s

/-! ## Capture (R538, R542) -/

/-- A write of CAP_CTRL.ARM; ignored while LCAP is disabled (R538, R608). -/
def capArm (s : State) : State :=
  if !pageRuns s 0x7D then s
  else
    let s := setF Reg.CAP_STATUS_INDEX 0 (setF Reg.CAP_STATUS_TRIGGERED 0 (setF Reg.CAP_STATUS_ARMED 1 (setMot { s.mot with cap := {} } s)))
    if getF s Reg.CAP_CTRL_TRIG = 0 then capTrigger s else s

/-- A write of CAP_CTRL.ABORT. -/
def capAbort (s : State) : State := setF Reg.CAP_STATUS_ARMED 0 s

/-- 8,192 − PRE samples have followed the trigger (R538). -/
def capFull (s : State) : Bool :=
  match s.mot.cap.trig with | some t => decide (8192 - getF s Reg.CAP_PRE ≤ s.mot.cap.taken - t) | none => false

/-- The capture completes (R538). -/
def capDone (s : State) : State :=
  if getB s Reg.CAP_STATUS_ARMED ∧ getB s Reg.CAP_STATUS_TRIGGERED ∧ capFull s then
    setF Reg.CAP_TRIG_HI s.mot.cap.stamp.hi (setF Reg.CAP_TRIG_LO s.mot.cap.stamp.lo (setF Reg.CAP_STATUS_DONE 1 (setF Reg.CAP_STATUS_ARMED 0 s)))
  else s

/-- A sample of slot `n` has been made: CLK_SLOT's samples are recorded (R538). -/
def capTick (n : Nat) (s : State) : State :=
  let c := s.mot.cap
  if !getB s Reg.CAP_STATUS_ARMED ∨ getF s Reg.CAP_CTRL_CLK_SLOT ≠ n ∨ capFull s ∨ !pageRuns s 0x7D then s
  else if c.skip < getF s Reg.CAP_CTRL_DECIM ∧ c.taken ≠ 0 then setMot { s.mot with cap := { c with skip := c.skip + 1 } } s
  else
    let row := (List.range 4).map fun i => (slot s (getF s (Reg.CAP_SEL_SLOT i))).signals.getD (getF s (Reg.CAP_SEL_SIGNAL i)) 0
    let now := row.getD 0 0
    let thr := getS s Reg.CAP_THRESH
    let crossed : Bool := match c.prev with
      | some p => if getB s Reg.CAP_CTRL_EDGE then decide (thr < p) && decide (now ≤ thr) else decide (p < thr) && decide (thr ≤ now)
      | none => false
    let s := if crossed ∧ getF s Reg.CAP_CTRL_TRIG = 3 then capTrigger s else s
    let c := s.mot.cap
    let c := { c with rows := Tbl.set c.rows (c.taken % 8192) row, taken := c.taken + 1, skip := 0, prev := some now }
    setF Reg.CAP_STATUS_INDEX (c.taken % 8192) (setMot { s.mot with cap := c } s)

/-- The addressed sample, counted from the oldest (R542). -/
def capRead (s : State) : Nat :=
  let c := s.mot.cap
  let oldest := if 8192 ≤ c.taken then c.taken % 8192 else 0
  let row := Tbl.get [] c.rows ((oldest + getF s Reg.CAP_WIN_ADDR_SAMPLE) % 8192)
  ofS 32 (row.getD (getF s Reg.CAP_WIN_ADDR_CHANNEL) 0)

/-! ## Scheduling and swaps (R521–R523) -/

/-- The scheduling key of a slot, none if it has none. -/
def schedKey (s : State) (n : Nat) : Option Int :=
  match itemBits s n 1 0 2 with
  | 1 =>
    let trail := getF s Reg.LOOP_FLAGS_TRAIL
    if n = 0 ∨ n = 3 then some (getF s (Reg.RADIUS 0)) else if n = 1 ∨ n = 4 then some (getF s (Reg.RADIUS 1))
    else if n = 2 then some (getF s (Reg.RADIUS trail)) else none
  | 2 => some ((getS s Reg.POS_SPEED).natAbs / 1000 : Nat)
  | _ => none

/-- The region that the key asks for, from the region in force (R521). -/
def regionFor (s : State) (n : Nat) (cur : Nat) : Nat :=
  match schedKey s n with
  | none => 0
  | some key =>
    let last := itemBits s n 1 2 3
    let hyst : Int := itemBits s n 1 16 16
    let up := (List.range 8).foldl (fun (r : Nat) (_ : Nat) => if r < last ∧ item s n (11 + r) + hyst < key then r + 1 else r) (min cur last)
    (List.range 8).foldl (fun (r : Nat) (_ : Nat) => if 0 < r ∧ key < item s n (10 + r) - hyst then r - 1 else r) up

/-- A coefficient's mantissa and its shift in a region: 0 KP, 1 KI, 2 KD, 3 KFF (R540). -/
def coef (s : State) (n r c : Nat) : Int × Nat := (item s n (18 + 4 * r + c), itemBits s n (50 + r) (8 * c) 5)

/-- S held so that i lies within INT_MIN to INT_MAX (R513). -/
def clampInt (s : State) (n : Nat) (ki : Int) (sh : Nat) (v : Int) : Int :=
  let lo := item s n 7 * 2 ^ sh
  let hi := item s n 8 * 2 ^ sh
  if ki = 0 then 0
  else if 0 < ki then clampI (- Int.fdiv (-lo) ki) (Int.fdiv hi ki) v
  else clampI (- Int.fdiv (-hi) ki) (Int.fdiv lo ki) v

/-- A slot's swap, if one is due (R522, R523): a commit first, then the region from the thresholds in force; one rescale of S. -/
def slotSwap (n : Nat) (s : State) : State :=
  let x := slot s n
  if (x.commit || x.pend.isSome) && (x.due || getB s Reg.POS_STATUS_STILL) then
    let old := coef s n x.region 1
    let s := if x.commit then
        notify 0x7C 1 n (setMot { s.mot with active := (List.range 92).foldl (fun t i => Tbl.set t (loopKey n i) (stagedItem s n i)) s.mot.active } s)
      else s
    let r := if x.commit then regionFor s n x.region else x.pend.getD x.region
    let s := if r = x.region then s else notify 0x7C 0 (16 * r + n) s
    let new := coef s n r 1
    let v := if new = old then x.s else if new.1 = 0 then 0 else tdiv (x.s * old.1 * 2 ^ new.2) (new.1 * 2 ^ old.2)
    setLoopSlot n { x with region := r, commit := false, pend := none, due := false, s := if new = old then x.s else clampInt s n new.1 new.2 v } s
  else s

/-- A write of LOOP_CTRL.COMMIT (R522). -/
def loopCommit (mask : Nat) (s : State) : State :=
  forEach (maskList 16 mask) (fun n s => setLoopSlot n { slot s n with commit := true, due := false } s) s

/-! ## The sample (R512–R514, R518, R524) -/

/-- Deceleration is halved by the chopper (R498, R499). -/
def decelHalf (s : State) : Bool := getB s (Reg.CHOP_STATUS_OVERLOAD 0) || getB s (Reg.CHOP_STATUS_FAULT 0)

/-- One step of the limiter (R518): set-point and rate in 2^−16 units. -/
def limiter (slew jerk : Int) (half : Bool) (x sp rate : Int) : Int × Int :=
  let dlt := x - sp
  let slew := if half ∧ sp ≠ 0 ∧ sgn dlt = - sgn sp then slew / 2 else slew
  let rt := sgn dlt * min slew ((isqrt (2 * jerk.toNat * dlt.natAbs) : Nat) : Int)
  let rate := rate + clampI (-jerk) jerk (rt - rate)
  let sp := sp + rate
  if sgn (x - sp) ≠ sgn dlt ∧ (rate.natAbs : Int) ≤ jerk then (x, 0) else (sp, rate)

/-- The gain law applied to an error (R514). -/
def gainLaw (s : State) (n : Nat) (e : Int) : Int :=
  let sh := itemBits s n 91 0 5
  let a := e.natAbs
  let k := a / 2 ^ sh
  let g (i : Nat) : Int := item s n (58 + i)
  let gain := if 32 ≤ k then g 32 else g k + tdiv ((g (k + 1) - g k) * ((a % 2 ^ sh : Nat) : Int)) (2 ^ sh)
  sgn e * asr ((a : Int) * gain) 12

/-- What a slot takes into a sample: its target, the limited set-point and rate in 2^−16 units, whether it is limited, the measurement, ff_in, the
injection's value, and the repetitive output that its group adds. -/
structure SlotIn where
  x       : Int
  sp      : Int
  rate    : Int
  limited : Bool
  meas    : Int
  ffIn    : Int := 0
  inj     : Int := 0
  rep     : Int := 0
  deriving DecidableEq, Repr

/-- A slot's sample from the limited set-point on (R512–R514, R524). -/
def slotCore (n : Nat) (i : SlotIn) (s : State) : State :=
  let y := slot s n
  let point := getF s Reg.INJ_CTRL_POINT
  let sp := asr i.sp 16
  let err := sat32 (sp - i.meas)
  let e := if point = 1 then sat32 (err + i.inj) else err
  let eg := sat32 (gainLaw s n e)
  let kp := coef s n y.region 0
  let ki := coef s n y.region 1
  let kd := coef s n y.region 2
  let kf := coef s n y.region 3
  let push := sgn ki.1 * sgn eg
  let held := (y.sat != 0 && push == y.sat) || (y.loser && push == 1)
  let v := clampInt s n ki.1 ki.2 (if held then y.s else sat32 (y.s + eg))
  let p := sat32 (asr (kp.1 * eg) kp.2)
  let ii := sat32 (asr (ki.1 * v) ki.2)
  let d := sat32 (- asr (kd.1 * (i.meas - y.meas)) kd.2)
  let ff := sat32 (asr (kf.1 * i.rate) kf.2)
  let u := sat32 (sat32 (sat32 (sat32 (sat32 (p + ii) + d) + ff) + i.ffIn) + (if point = 2 then i.inj else 0))
  let lo := item s n 5
  let hi := item s n 6
  let out := if hi ≤ lo then 0 else clampI lo hi u
  let limit := item s n 9
  let fe := if n = 3 ∨ n = 4 ∨ limit = 0 then 0 else if limit < err.natAbs then min 65535 (y.fe + 1) else 0
  let r := regionFor s n y.region
  let pend := if r = y.region then none else some r
  let y := { y with sp := i.sp, rate := sat32 i.rate, s := v, meas := i.meas, err := e, out, sat := if hi ≤ lo then 0 else if u < lo then -1 else if hi < u then 1 else 0
                    limited := i.limited, skipped := false, fe, ovr := 0, pend, due := y.due && (y.commit || pend == y.pend)
                    signals := [i.x, sp, i.meas, err, e, eg, p, ii, d, ff, out, i.rep, i.inj] }
  capTick n (setLoopSlot n y s)

/-- A slot with a limiter of its own samples (R512). -/
def slotSample (n : Nat) (target meas ffIn : Int) (s : State) : State :=
  let s := slotSwap n s
  let (iv, s) := injStep n s
  let x := sat32 (if getF s Reg.INJ_CTRL_POINT = 0 then target + iv else target)
  let y := slot s n
  let (sp, rate) := limiter (item s n 3) (item s n 4) (decelHalf s || getB s Reg.LOOP_FLAGS_VCLAMP) (x * 65536) y.sp y.rate
  slotCore n { x, sp, rate, limited := sp != x * 65536, meas, ffIn, inj := iv } s

/-- A sample of a slot is skipped: it holds its output (R513, R524, R529). -/
def slotSkip (n : Nat) (s : State) : State := setLoopSlot n { slot s n with skipped := true, fe := 0 } s

/-- A slot's computation has overrun: its output is discarded; two overruns in a row bring S1 (R30, R525). -/
def slotOverrun (n : Nat) (s : State) : State :=
  let y := slot s n
  let s := incF Reg.OVR_CNT s
  if y.ovr = 0 then setLoopSlot n { y with ovr := 1, skipped := true, fe := 0 } s
  else motionStop 1 (faultCode 3 0xE 0x0D) (raiseMot 0x7C 30 3 0x0D n (setLoopSlot n { y with ovr := 0, skipped := true, fe := 0 } s))

/-- The motion pair that runs a slot: MOT0 slots 0 and 3, MOT1 1 and 4, MOT2 2 and 9–15, MOT3 5–8 (spec/01, Cores by role). -/
def slotPair (n : Nat) : Nat := if n = 0 ∨ n = 3 then 0 else if n = 1 ∨ n = 4 then 1 else if 5 ≤ n ∧ n ≤ 8 then 3 else 2

/-- A motion pair runs: it has been started, and no mismatch has halted it (R10). -/
def motCoreRuns (s : State) (k : Nat) : Bool := (getF s Reg.CLU_RUN_MOT).testBit k

/-- A slot's turn in a period: nothing while its pair is halted, or while it is disabled. -/
def slotTurn (n : Nat) (late : List Nat) (act : State → State) (s : State) : State :=
  if !motCoreRuns s (slotPair n) then s
  else if !slotOn s n then (if (slot s n).fe = 0 then s else setLoopSlot n { slot s n with fe := 0 } s)
  else if late.contains n then slotOverrun n s else act s

/-! ## Wiring of the free slots (R509, R540) -/

/-- The free slots, enabled, whose output goes to a target by a destination code: 1 set-point, 2 ff_in. -/
def feeders (s : State) (dst n : Nat) : List Nat :=
  (List.range 7).filterMap fun k => let m := 9 + k
    if slotOn s m ∧ itemBits s m 0 12 2 = dst ∧ itemBits s m 0 16 4 = n then some m else none

/-- The feed that a slot's ff_in adds. -/
def ffIn (s : State) (n : Nat) : Int := sat32 (sumI ((feeders s 2 n).map fun m => (slot s m).out))

/-- Item SP of a slot, or the output that a free slot writes to it. -/
def spOf (s : State) (n : Nat) : Int := match feeders s 1 n with | m :: _ => (slot s m).out | [] => item s n 2

/-! ## Speed reference, tape target (R515–R517) -/

/-- A write of SPD_CTRL.SRC (R515). -/
def spdSource (src : Nat) (s : State) : State := if 3 ≤ src ∨ boardRuns s ∨ mediumQueued s then s else setF Reg.SPD_CTRL_SRC src s

/-- A rising edge of SPDREF (R516). -/
def spdrefEdge (at_ : Nat) (s : State) : State :=
  let t := s.mot.periods * 10000 + min at_ 9999
  setF Reg.SPDREF_STATUS_LOST 0 (setMot { s.mot with edges := s.mot.edges ++ [t], edgeAt := some t } s)

/-- No edge within TMO (R516). -/
def spdrefLost (s : State) : State :=
  if !shown (s.mot.edgeAt.map fun t => s.mot.periods * 10000 - t) (getF s Reg.SPDREF_CFG_TMO * 100000) then s
  else
  let s := setF Reg.SPDREF_STATUS_LOST 1 (setF Reg.SPDREF_STATUS_RATE 0 (setMot { s.mot with edges := [] } s))
  if getF s Reg.SPD_CTRL_SRC = 1 then raiseMot 0x7C 3 0 0x0F 0 s else notify 0x7C 3 0 s

/-- The rate of the last millisecond's edges (R516). -/
def spdrefRate (s : State) : State :=
  let now := s.mot.periods * 10000
  let win := s.mot.edges.filter fun t => decide (now ≤ t + 100000)
  let s := setMot { s.mot with edges := win } s
  match win, win.getLast? with
  | a :: _, some z =>
    if z ≤ a then s
    else
      let rate := (win.length - 1) * 100000000 / (z - a)
      if 2000000 < rate then
        let s1 := setF Reg.SPDREF_STATUS_SAT 1 (setF Reg.SPDREF_STATUS_RATE 2000000 s)
        if getB s Reg.SPDREF_STATUS_SAT then s1 else raiseMot 0x7C 3 0 0x0E rate s1
      else setF Reg.SPDREF_STATUS_RATE rate s
  | _, _ => s

/-- The tape target in mm/s before the clamps (R515, R516). -/
def tapeTarget (s : State) : Int :=
  match getF s Reg.SPD_CTRL_SRC with
  | 1 => (if getB s Reg.SPD_CTRL_SPDREF_DIR then -1 else 1) * ((getF s Reg.SPDREF_STATUS_RATE * getF s Reg.SPDREF_CFG_NM / 1000000 : Nat) : Int)
  | 2 => getS s Reg.V_HOST
  | _ => tdiv s.mot.cmdTarget 1000

/-- The clamps of R517, and whether VLIMIT clamps; S3 brings the tape to rest as S1 does (R545). -/
def clampTarget (s : State) (x : Int) : Int × Bool :=
  let lims := [0, 1].filterMap fun r => if getB s (Reg.MOT_STATUS_VLIMIT r) then some (reel s r).vClamp else none
  let lim := lims.foldl min (lims.headD 0)
  let clamped := lims ≠ [] && decide (lim < x.natAbs)
  (if s1InForce s ∨ s3InForce s then 0 else if clamped then sgn x * lim else x, clamped)

/-- The shared limiter of slots 0 and 1 (R515, R517, R518); the injection's value if it acts on one of them. -/
def tapeLimiter (s : State) : Int × Int × State :=
  let (iv, s) := if injOn s 1 then injStep 1 s else injStep 0 s
  let (x, clamped) := clampTarget s (tapeTarget s)
  let s := setB Reg.LOOP_FLAGS_VCLAMP clamped s
  let x := sat32 (if getF s Reg.INJ_CTRL_POINT = 0 then x + iv else x)
  let (sp, rate) := limiter (item s 0 3) (item s 0 4) (decelHalf s || clamped) (x * 65536) s.mot.vSp s.mot.vRate
  let v := asr sp 16
  (x, iv, setB Reg.LOOP_FLAGS_TRAIL (v < 0) (setS Reg.V_LIM v (setMot { s.mot with vSp := sp, vRate := rate } s)))

/-! ## Tension (R520) -/

def tenKT (s : State) (x : Nat) : Nat := if x = 0 then getF s Reg.TEN_MODEL_A_KT else getF s Reg.TEN_MODEL_B_KT
def tenFRIC (s : State) (x : Nat) : Nat := if x = 0 then getF s Reg.TEN_MODEL_A_FRIC else getF s Reg.TEN_MODEL_B_FRIC

/-- REEL_POL's sign (R510). -/
def reelPol (s : State) (x : Nat) : Int := if getB s (if x = 0 then Reg.REEL_POL_A else Reg.REEL_POL_B) then -1 else 1

/-- A reel's tension estimate in mN. -/
def reelTension (s : State) (x : Nat) : Int :=
  let r := reel s x
  let iq := reelPol s x * r.iq
  let w := getS s (Reg.SPEED x)
  let alpha := (w - r.omega) * 10
  let hub := getF s Reg.TEN_HUB
  let pack : Int := ((r.radius ^ 4 : Nat) : Int) - ((hub ^ 4 : Nat) : Int)
  let torque := (tenKT s x * iq - getF s Reg.TEN_INERTIA_J_HUB * alpha) * 10 ^ 19 - getF s Reg.TEN_INERTIA_K_PACK * pack * alpha
    - tenFRIC s x * sgn w * 10 ^ 22
  if r.radius = 0 then 0 else tdiv (torque * 1000) (10 ^ 22 * r.radius)

/-- The tension estimate of a period (R520), and how long it has been above TEN_MAX, or below TEN_MIN while the tape is to move (R550). -/
def tensionEstimate (s : State) : State :=
  let s := forEach [0, 1] (fun x s => if getB s (Reg.MOT_STATUS_RAD_VALID x) then setReel x { reel s x with radius := getF s (Reg.RADIUS x) } s else s) s
  let t := if getB s Reg.TEN_CFG_SRC then
      let ch := getF s Reg.TEN_CFG_AUX
      tdiv (((Tbl.get 0 s.mot.adc (7 + ch) : Nat) - Config.auxOffset ch) * getF s Reg.TEN_CFG_AUX_SCALE) 16
    else tdiv (reelTension s 0 + reelTension s 1) 2
  let s := forEach [0, 1] (fun x s => setReel x { reel s x with omega := getS s (Reg.SPEED x) } s) s
  let turns := getS s (Reg.SPEED 0) != 0 || getS s (Reg.SPEED 1) != 0 || getS s Reg.V_LIM != 0
  let high := runOf s.mot.tenHigh 2 (decide ((getF s Reg.TEN_LIMITS_TEN_MAX : Int) < t))
  let low := runOf s.mot.tenLow 20 (turns && decide (t < getF s Reg.TEN_LIMITS_TEN_MIN))
  setF Reg.TENSION (clampI 0 65535 t).toNat (setMot { s.mot with tension := t, tenHigh := high, tenLow := low } s)

/-! ## The ceiling (R496) -/

/-- A reel's tape speed ceiling; unchanged while ψ is zero. -/
def reelCeil (x : Nat) (s : State) : State :=
  let r := reel s x
  let h := (r.iq :: r.iqHist).take 1000
  let s := setReel x { r with iqHist := h } s
  let iqf := (tdiv (sumI h) h.length).natAbs
  let psi := getF s (Reg.MOTOR_PSI x)
  if psi = 0 then s
  else
    let head := root (27 * vbus s * vbus s / 100) - getF s (Reg.MOTOR_RL_RS x) * iqf / 1000
    setF (Reg.VCEIL x) (min 65535 (head * getF s (Reg.RADIUS x) / (psi * polePairs s x))) s

/-- The largest STEP that a speed in mm/s allows. -/
def stepUnder (v : Nat) : Nat := min 15 ((v - 1500) / 300)

/-- CEIL falls at once, and rises after 100 ms without a break. -/
def ceiling (s : State) : State :=
  let s := forEach [0, 1] reelCeil s
  let allowed := stepUnder (min (getF s (Reg.VCEIL 0)) (getF s (Reg.VCEIL 1)))
  let now := getF s Reg.SPM_STATUS_CEIL
  if allowed ≤ now then setF Reg.SPM_STATUS_CEIL allowed (setMot { s.mot with ceilRise := (15, 0) } s)
  else
    let (m, k) := s.mot.ceilRise
    let m := min m allowed
    if 1000 ≤ k + 1 then setF Reg.SPM_STATUS_CEIL m (setMot { s.mot with ceilRise := (15, 0) } s)
    else setMot { s.mot with ceilRise := (m, k + 1) } s

/-! ## Groups and the repetitive controller (R519, R527, R528) -/

def repEn (x : Nat) : Fld := if x = 0 then Reg.REP_CTRL_EN_A else Reg.REP_CTRL_EN_B
def repFrozen (x : Nat) : Fld := if x = 0 then Reg.REP_STATUS_FROZEN_A else Reg.REP_STATUS_FROZEN_B
def guardFlag (x : Nat) : Fld := if x = 0 then Reg.LOOP_FLAGS_GUARD_A else Reg.LOOP_FLAGS_GUARD_B
def bin (s : State) (x k : Nat) : Int := Tbl.get 0 s.mot.bins (256 * x + k % 256)
def setBin (x k : Nat) (v : Int) (s : State) : State := setMot { s.mot with bins := Tbl.set s.mot.bins (256 * x + k % 256) v } s

/-- The bins of a reel are frozen (R528). -/
def repHeld (s : State) (x : Nat) : Bool :=
  let src := getF s (Reg.MOT_STATUS_SRC x)
  decide ((getS s Reg.POS_SPEED).natAbs / 1000 < getF s Reg.REP_VMIN) || (reel s x).clamped || getB s (guardFlag x) || src == 3 || src == 4 || safeInForce s

/-- The repetitive controller of a reel (R527). -/
def repUpdate (x : Nat) (s : State) : State :=
  let held := repHeld s x
  let s := setB (repFrozen x) held s
  if !getB s (repEn x) ∨ !pageRuns s 0x7E then setReel x { reel s x with rep := 0 } s
  else if held then s
  else
    let mech := getF s (Reg.ANGLE_MECH x)
    let k := mech / 256
    let q := getF s Reg.REP_Q
    let b := bin s x k
    let b := if q = 0 then b else b - asr b q
    let lim : Int := getF s Reg.REP_MAX
    let b := clampI (-lim) lim (b + asr (getS s Reg.REP_CFG_KR * (slot s 2).err) (getF s Reg.REP_CFG_KR_SH))
    let s := setBin x k b s
    let j := k + getF s Reg.REP_CFG_LEAD
    setReel x { reel s x with rep := bin s x j + asr ((bin s x (j + 1) - bin s x j) * ((mech % 256 : Nat) : Int)) 8 } s

/-- A reel's group passes the lower output to its drive, with the repetitive output; the velocity slot wins a tie (R478, R510, R519). -/
def group (x : Nat) (s : State) : State :=
  let v := slot s x
  let g := slot s (3 + x)
  let wins : Bool := decide (g.out < v.out)
  let s := setLoopSlot x { v with loser := wins, fe := if wins then 0 else v.fe } s
  let s := setB (guardFlag x) wins (setLoopSlot (3 + x) { g with loser := !wins } s)
  let u := sat32 ((if wins then g.out else v.out) + (reel s x).rep)
  let imax : Int := getF s (Reg.CUR_LIMIT_IMAX x)
  let iq := clampI (-imax) imax u
  let stop := (s1InForce s || s3InForce s) && !getB s Reg.POS_STATUS_STILL
  let braking := getB s (Reg.CHOP_STATUS_FAULT 0) && (stop || decide (s.mot.vSp * s.mot.vRate < 0))
  setS (Reg.IQ_REF_ID_REF x) (if braking then sat16 (lossId s x iq) else 0)
    (setS (Reg.IQ_REF_IQ_REF x) (sat16 (reelPol s x * iq)) (setReel x { reel s x with clamped := iq != u } s))

/-! ## The 10 kHz period (R509, R512) -/

/-- Slots 0 and 1: the limited set-point, less the tension trim on the trailing reel (R509, R511). -/
def velocitySlot (n : Nat) (x iv : Int) (s : State) : State :=
  let s := slotSwap n s
  let trim := if getF s Reg.LOOP_FLAGS_TRAIL = n then (slot s 2).out else 0
  let sp := s.mot.vSp - trim * 65536
  let iv := if injOn s n then iv else 0
  slotCore n { x, sp, rate := s.mot.vRate, limited := s.mot.vSp != x * 65536, meas := tdiv (reelSpeed s n) 1000, ffIn := ffIn s n, inj := iv, rep := (reel s n).rep } s

/-- The measurement of a free slot (R540). -/
def freeMeas (s : State) (n : Nat) : Int :=
  match itemBits s n 0 8 4 with
  | 1 => tdiv (reelSpeed s 0) 1000
  | 2 => tdiv (reelSpeed s 1) 1000
  | 3 => s.mot.tension
  | 8 => tdiv (getS s Reg.POS_SPEED) 1000
  | m => if 4 ≤ m ∧ m ≤ 7 then ((Tbl.get 0 s.mot.adc (3 + m) : Nat) : Int) else 0

/-- The set-point of a free slot. -/
def freeTarget (s : State) (n : Nat) : Int := if itemBits s n 0 4 4 = 1 then (slot s (itemBits s n 0 16 4)).out else spOf s n

/-- The tape speed that MOT2 makes of the reels' angles and radii, in µm/s: the mean over the reels whose radius is valid and whose angle comes from
Halls or observer (R48, R488). -/
def coarseSpeed (s : State) : Option Int :=
  let l := ([0, 1].filter fun x => getB s (Reg.MOT_STATUS_RAD_VALID x) && (getF s (Reg.MOT_STATUS_SRC x) == 1 || getF s (Reg.MOT_STATUS_SRC x) == 2)).map
    (reelSpeed s)
  if l = [] then none else some (tdiv (sumI l) l.length)

/-- In COARSE POS counts 100 µs of tape at the reels' estimate (R48). -/
def coarseCount (s : State) : State :=
  if !motCoreRuns s 2 ∨ !pageRuns s 0x08 ∨ !getB s Reg.POS_CTRL_EN ∨ !getB s Reg.POS_STATUS_COARSE then s
  else
    let s := match coarseSpeed s with | some v => setS Reg.POS_SPEED v s | none => s
    setPos (advanceTick (80000 * getS s Reg.POS_SPEED) s.pos) s

/-- TURN_AGE counts the milliseconds of the coverage cycle while the scheduler is sealed in (R566, R568). -/
def turnAge (s : State) : State :=
  if isSealed s ∧ s.mot.periods % 10 = 0 then setF Reg.TURN_AGE (min 65535 (getF s Reg.TURN_AGE + 1)) s else s

/-- A 10 kHz period. -/
def loopSample (aux late : List Nat) (s : State) : State :=
  let s := turnAge (setMot { s.mot with periods := s.mot.periods + 1 } s)
  let s := coarseCount s
  let s := if getB s Reg.ADC_CTRL_EN ∧ getB s Reg.ADC_CTRL_AUX_EN then forEach (List.range 4) (fun i s => setAdc (7 + i) (aux.getD i 0) s) s else s
  let s := tensionEstimate (ceiling (spdrefRate s))
  if !loopOn s then s
  else
    let r := tapeLimiter s
    let x := r.1
    let iv := r.2.1
    let s := r.2.2
    let s := slotTurn 2 late (fun s => slotSample 2 (spOf s 2) s.mot.tension (ffIn s 2) s) s
    let s := forEach [0, 1] (fun n s => slotTurn n late (velocitySlot n x iv) s) s
    let s := forEach [3, 4] (fun n s => slotTurn n late (fun s => slotSample n (spOf s n) s.mot.tension (ffIn s n) s) s) s
    let s := forEach [0, 1] (fun x s => group x (repUpdate x s)) s
    forEach [9, 10, 11, 12, 13, 14, 15] (fun n s => slotTurn n late (fun s => slotSample n (freeTarget s n) (freeMeas s n) (ffIn s n) s) s) s

/-! ## Supervision (R524, R526, R550) -/

/-- LOOP_FOLLOW of a slot, after FE_SAMPLES samples in a row beyond FE_LIMIT (R524). -/
def loopFollow (n : Nat) (s : State) : State :=
  if 16 ≤ n ∨ n = 3 ∨ n = 4 ∨ item s n 9 = 0 ∨ ((slot s n).signals ≠ [] ∧ (slot s n).fe < item s n 10) then s
  else
    let sev := if n ≤ 2 then 4 else if n ≤ 8 then 3 else 0
    let s := raiseMot 0x7C 30 sev 0x0C n (incF Reg.FE_CNT (setLoopSlot n { slot s n with fe := 0 } s))
    if n ≤ 1 then motionStop 2 (faultCode sev 0xE 0x0C) s else if n ≤ 8 then motionStop 1 (faultCode sev 0xE 0x0C) s else s

/-- Over-tension on 2 samples in a row, and slack tape on 20 (R550): disabled by a limit of zero (R551). -/
def overTension (s : State) : State :=
  if getF s Reg.TEN_LIMITS_TEN_MAX = 0 ∨ !shown s.mot.tenHigh 2 then s else motionStop 2 (faultCode 4 0xE 0x11) (raiseMot 0x7C 30 4 0x11 (getF s Reg.TENSION) s)

def slackTape (s : State) : State :=
  if getF s Reg.TEN_LIMITS_TEN_MIN = 0 ∨ !shown s.mot.tenLow 20 then s else motionStop 1 (faultCode 4 0xE 0x13) (raiseMot 0x7C 30 4 0x13 (getF s Reg.TENSION) s)

/-- The island's tension comparator, when TEN_CMP_EN is set (R550). -/
def overTensionHw (s : State) : State :=
  if !getB s Reg.SAFE_CFG_TEN_CMP_EN then s else motionStop 2 (faultCode 4 0xE 0x12) (raiseMot 0x7C 30 4 0x12 0 s)

/-! ## Bins (R528, R543) -/

/-- CLR_A and CLR_B. -/
def repClear (a b : Bool) (s : State) : State :=
  setMot { s.mot with bins := s.mot.bins.filter fun e => if e.1 < 256 then !a else !b } s

/-- A write of the addressed bin; ignored while its EN is set. -/
def binWrite (value : Nat) (s : State) : State :=
  let x := getF s Reg.BIN_WIN_ADDR_REEL
  let k := getF s Reg.BIN_WIN_ADDR_BIN
  let s := if getB s (repEn x) then s else setBin x k (toS 16 value) s
  if getB s Reg.BIN_WIN_ADDR_AUTOINC then setF Reg.BIN_WIN_ADDR_BIN (k + 1) s else s

/-! ## Meanings -/

/-- LOOP_SAMPLE_10KHZ. -/
def execLoopSample10khz (aux late : List Nat) (s : State) : Host.Outcome State Fault Refusal := .next (loopSample aux late s)

/-- OVERTENSION. -/
def execOvertension (s : State) : Host.Outcome State Fault Refusal := .next (overTension s)

/-- OVERTENSION_HW. -/
def execOvertensionHw (s : State) : Host.Outcome State Fault Refusal := .next (overTensionHw s)

/-- SLACK_TAPE. -/
def execSlackTape (s : State) : Host.Outcome State Fault Refusal := .next (slackTape s)

/-- LOOP_FOLLOW. -/
def execLoopFollow (slot : Nat) (s : State) : Host.Outcome State Fault Refusal := .next (loopFollow slot s)

/-- LOOP_COMMIT. -/
def execLoopCommit (mask : Nat) (s : State) : Host.Outcome State Fault Refusal := .next (lockGate 0x7C (loopCommit mask) s)

/-- SLOT_WIN_WRITE. -/
def execSlotWinWrite (value : Nat) (s : State) : Host.Outcome State Fault Refusal := .next (lockGate 0x7C (slotWinWrite value) s)

/-- SPD_SRC_WRITE. -/
def execSpdSrcWrite (src : Nat) (s : State) : Host.Outcome State Fault Refusal := .next (lockGate 0x7C (spdSource src) s)

/-- SPDREF_LOST. -/
def execSpdrefLost (s : State) : Host.Outcome State Fault Refusal := .next (spdrefLost s)

/-- SPDREF_EDGE. -/
def execSpdrefEdge (at_ : Nat) (s : State) : Host.Outcome State Fault Refusal := .next (spdrefEdge at_ s)

/-- INJ_GO. -/
def execInjGo (s : State) : Host.Outcome State Fault Refusal := .next (lockGate 0x7C injGo s)

/-- INJ_STOP. -/
def execInjStop (s : State) : Host.Outcome State Fault Refusal := .next (lockGate 0x7C injEnd s)

/-- INJ_DONE: after COUNT samples (R536). -/
def execInjDone (s : State) : Host.Outcome State Fault Refusal := .next (if getF s Reg.INJ_COUNT = 0 ∨ s.mot.inj.left ≠ 0 then s else injEnd s)

/-- CAP_ARM. -/
def execCapArm (s : State) : Host.Outcome State Fault Refusal := .next (lockGate 0x7D capArm s)

/-- CAP_ABORT. -/
def execCapAbort (s : State) : Host.Outcome State Fault Refusal := .next (lockGate 0x7D capAbort s)

/-- CAP_DONE. -/
def execCapDone (s : State) : Host.Outcome State Fault Refusal := .next (capDone s)

/-- REP_CLR. -/
def execRepClr (a b : Bool) (s : State) : Host.Outcome State Fault Refusal := .next (lockGate 0x7E (repClear a b) s)

/-- BIN_WIN_WRITE. -/
def execBinWinWrite (value : Nat) (s : State) : Host.Outcome State Fault Refusal := .next (lockGate 0x7E (binWrite value) s)

end Sys2Proof.Machine
end

