-- ==== Sys2Proof/Machine/Frame.lean ====
section
/-!
DEFINITION. What happens at a servo frame boundary (R29, R31, R46, R57, R226, R529–R532, R616), at standstill (R50, R554), and in an
actuator's H-bridge period (R533, R535).
-/
namespace Sys2Proof.Machine

/-! ## The frame count (R44, R46, R79) -/

/-- The majority of a frame's valid frame numbers; a tie goes to the count (R46). Of tied values none of which is the count, the one seen first
is taken (log entry: frame votes). -/
def voteMajority (count : Nat) (votes : List Nat) : Option Nat :=
  let n (v : Nat) : Nat := (votes.filter (· == v)).length
  match votes with
  | [] => none
  | v :: _ =>
    let best := votes.foldl (fun b w => if n b < n w then w else b) v
    some (if n count = n best then count else best)

/-- The frame that ends is compared with its identities, and the count moves on to the next frame's tick 0, or in reverse to the previous
frame's last tick (R44, R46). A frame without a valid identity neither counts as a disagreement nor ends a run of them (log entry: frame votes).
In STALE and in COARSE the speed is POS's own last estimate (R47, R48). -/
def frameCount (speed : Int) (s : State) : State :=
  let p := s.pos
  let coarse := getB s Reg.POS_STATUS_COARSE
  let v := if getB s Reg.POS_STATUS_STALE ∨ coarse then getS s Reg.POS_SPEED else speed
  let rev := if v = 0 then getB s Reg.POS_STATUS_REVERSE else decide (v < 0)
  let next (f : Nat) : Nat := if rev then (f + 2 ^ 32 - 1) % 2 ^ 32 else (f + 1) % 2 ^ 32
  let (maj, dis) := match voteMajority p.frame p.votes with
    | some m => (some (next m), if m = p.frame then 0 else p.disagree + 1)
    | none => (p.majority.map next, p.disagree)
  setB Reg.POS_STATUS_REVERSE rev (setS Reg.POS_SPEED v (setPos { p with
    frame := next p.frame, tick := (if rev then 4095 else 0), sub := (if rev then 48828124 else 0), votes := [], anyId := false
    majority := maj, disagree := dis, noId := (if p.anyId then 0 else p.noId + 1)
    coarseRun := (if coarse ∧ 300000 < v.natAbs then p.coarseRun + 1 else p.coarseRun), sq := (0, 0), sqHist := (p.sq :: p.sqHist).take 16 } s))

/-- POS declares lock at a boundary at which the conditions of R45 hold; after a slip its lock stands, and returns by ending STALE (R45, R47). -/
def lockAtBoundary (s : State) : State :=
  if !getB s Reg.POS_STATUS_COARSE ∧ (!getB s Reg.POS_STATUS_LOCKED ∨ getB s Reg.POS_STATUS_STALE) ∧ lockOk s then lockGained s else s

/-- A band's launch offset follows POS_BOFS by at most one channel bit in a frame (R52). -/
def followOffset (b : Nat) (s : State) : State :=
  let x := band s b
  let want := tdiv (getS s (Reg.POS_BOFS b) * bandBits b) 4096
  let d := clampI (-1) 1 (want - x.ofs)
  setBand b { x with ofs := x.ofs + d, stretch := d } s

/-! ## Staged registers (R31, R57, R226, R530, R616) -/

/-- Every pair due at a frame boundary takes its staged value. -/
def applyFrame (s : State) : State :=
  let s := forEach (List.range 9) (fun k s => wr (Reg.SV_KCD_ACT_RD0 k).addr (rd s (Reg.SV_KCD_STG_RD0 k).addr)
    (wr (Reg.SV_KAB_ACT_RD0 k).addr (rd s (Reg.SV_KAB_STG_RD0 k).addr) s)) s
  let s := forEach (List.range 8) (fun b s => if (band s b).running then s else applyRch b s) s
  setF Reg.RD_OFS_ACT (getF s Reg.RD_OFS_STG) (setF Reg.LAT_OFS_ACT (getF s Reg.LAT_OFS_STG) (setF Reg.CAL_TILT_ACT (getF s Reg.CAL_TILT_STG_TRIM) s))

/-! ## Lateral and tilt (R52, R529–R532) -/

/-- Mean of a list, truncated; none of an empty one. -/
def meanI (l : List Int) : Option Int := if l = [] then none else some (tdiv (sumI l) l.length)

/-- A reader counts for the per-frame lateral values: qualified, and with a lateral position in this frame (R41, R43). -/
def readerLat (s : State) (k r : Nat) : Option Int := if readerQual s k r ∧ (reader s k r).latOk then some (getS s (svLat k r)) else none

/-- L_k (R529). -/
def bandLat (s : State) (k : Nat) : Option Int := meanI ([0, 1].filterMap (readerLat s k))

/-- A read board runs (R530). -/
def readBoardRuns (s : State) : Bool := (List.range 8).any fun b => (band s b).running && brdRead s b (band s b).cur

/-- The lateral set-point (R530), with the offset of the ladder's level 3: +L3_OFS in its first re-read, −L3_OFS in its second (R270). -/
def latSetPoint (s : State) : Int :=
  let l3 : Int := if getB s Reg.RCV_STATUS_ACTIVE ∧ getF s Reg.RCV_STATUS_LEVEL = 3 then (if rungPass s = 0 then 1 else -1) * s.rch.rung.ofs else 0
  2048 * getF s Reg.POS_PASS + getS s Reg.LAT_OFS_ACT + (if readBoardRuns s then getS s Reg.RD_OFS_ACT else 0) + l3

/-- The lateral condition of R168 as it stands after a boundary: it fails beyond the threshold, or while the error is invalid, and recovers within
three quarters of it. -/
def offTrack (s : State) (b : Nat) (e : Option Int) : Bool :=
  let t := getF s (Reg.OFFTRACK b)
  match e with
  | none => true
  | some v => if t < v.natAbs then true else if 4 * v.natAbs ≤ 3 * t then false else (band s b).offFail

/-- A signed field shows a value, if there is one. -/
def showI (f : Fld) (v : Option Int) (s : State) : State := match v with | some x => setS f x s | none => s

/-- A band's lateral error from the servo bands beside it: their mean, or the one that is valid (R529). -/
def bandMeasure (sp : Int) (a b : Option Int) : Option Int :=
  match a, b with
  | some x, some y => some (tdiv (x + y) 2 - sp)
  | some x, none => some (x - sp)
  | none, some y => some (y - sp)
  | none, none => none

/-- A band's lateral error is shown and judged. -/
def bandError (b : Nat) (e : Option Int) (s : State) : State :=
  let s := setB (Reg.BAND_ERR_VALID b) e.isSome (showI (Reg.BAND_ERR_LU b) (e.map sat16) s)
  let s := setMot { s.mot with latErr := Tbl.set s.mot.latErr b e } s
  setBand b { band s b with offFail := offTrack s b e } s

/-- The values of R529–R532 for the frame; D if it is valid. -/
def lateralValues (s : State) : Option Int × Option Int × State :=
  let ls := (List.range 9).map (bandLat s)
  let l (k : Nat) : Option Int := ls.getD k none
  let meas := meanI (ls.filterMap id)
  let sp := latSetPoint s
  let s := setS Reg.LAT_SP sp (showI Reg.LAT_MEAS meas s)
  let s := forEach (List.range 8) (fun b s => bandError b (bandMeasure sp (l b) (l (b + 1))) s) s
  let d := meanI ((List.range 9).filterMap fun k => match readerLat s k 0, readerLat s k 1 with | some a, some b => some (b - a) | _, _ => none)
  let ew : Option Int := match l 0, l 8 with | some a, some b => some (b - a) | _, _ => none
  let s := setB Reg.WIDTH_VALID ew.isSome (showI Reg.WIDTH_EW (ew.map sat16) s)
  let dir : Int := if getB s Reg.WID_CFG_TILT_DIR then -1 else 1
  let base := match ew with
    | some v => s.mot.dBase + dir * asr (v * getF s Reg.WID_CFG_WID_KI) (getF s Reg.WID_CFG_WID_SH)
    | none => s.mot.dBase
  let base := dir * clampI 0 (getF s Reg.WID_CFG_WID_MAX) (dir * base)
  let s := setS Reg.TILT_D_D_SP (sat16 (base + getS s Reg.CAL_TILT_ACT)) (setMot { s.mot with dBase := base } s)
  let s := showI Reg.TILT_D_D (d.map sat16) s
  let s := forEach (List.range 8) (fun b s =>
    setS (Reg.POS_BOFS b) (getS s Reg.POS_WR_OFFSET + asr ((2 * (b : Int) - 7) * getS s Reg.ACT_POS_TILT * getS s Reg.BOFS_K) 17) s) s
  (meas, d, s)

/-- The frame slots, 5 and 6, on their values; a slot without one skips the frame (R529). -/
def frameSlots (late : List Nat) (meas d : Option Int) (s : State) : State :=
  let run (n : Nat) (target : Int) (m : Option Int) (s : State) : State :=
    slotTurn n late (fun s => match m with | some v => slotSample n target v (ffIn s n) s | none => slotSkip n s) s
  run 6 (s.mot.dBase + getS s Reg.CAL_TILT_ACT) d (run 5 (getS s Reg.LAT_SP) meas s)

/-- A boundary lets pending swaps take effect at the next sample (R522). -/
def swapsDue (s : State) : State :=
  setMot { s.mot with slots := s.mot.slots.map fun e => (e.1, if e.2.commit || e.2.pend.isSome then { e.2 with due := true } else e.2) } s

/-- A servo frame boundary. At standstill there is none (R32); while POS is disabled it does nothing. The offsets that the last frame's tilt
term gave take effect (R52). Calibration writes and applies what is due, and measures the frame (R231, R233, R236). -/
def frameBoundary (speed : Int) (late : List Nat) (s : State) : State :=
  if !pageRuns s 0x08 ∨ !getB s Reg.POS_CTRL_EN ∨ getB s Reg.POS_STATUS_STILL then s
  else
    let s := forEach (List.range 8) followOffset (lockAtBoundary (requalify (travelled (frameCount speed s))))
    let (meas, d, s) := lateralValues (swapsDue (calFrame (applyFrame s)))
    frameSlots late meas d (measureFrame s)

/-! ## Standstill (R50, R554) -/

/-- SAFE_STOP_N's stop in SSN_MODE 0: STO once the tape is still (R554). -/
def stoAtStill (s : State) : State :=
  if getB s Reg.SAFE_STATUS_SSN_LATCHED ∧ !getB s Reg.SAFE_CFG_SSN_MODE ∧ s1InForce s ∧ getB s Reg.POS_STATUS_STILL then
    setF Reg.SAFE_STATUS_STO_ACT 1 (setF Reg.SAFE_STATUS_STO_REELS 1 s)
  else s

/-- No clock cycle for POS_STILL_TMR (R50). A tape that is to go to a run-up point then turns (R182). -/
def stillTimeout (s : State) : State := stoAtStill (travel (setF Reg.POS_SPEED 0 (setF Reg.POS_STATUS_STILL 1 s)))

/-! ## Actuators (R533, R535) -/

def actEn (a : Nat) : Fld := if a = 0 then Reg.ACT_CTRL_LAT_EN else Reg.ACT_CTRL_TILT_EN
def actRun (a : Nat) : Fld := if a = 0 then Reg.ACT_STATUS_LAT_RUN else Reg.ACT_STATUS_TILT_RUN
def actDuty (a : Nat) : Fld := if a = 0 then Reg.ACT_DUTY_LAT else Reg.ACT_DUTY_TILT
def actCur (a : Nat) : Fld := if a = 0 then Reg.ACT_CUR_LAT else Reg.ACT_CUR_TILT
def actPos (a : Nat) : Fld := if a = 0 then Reg.ACT_POS_LAT else Reg.ACT_POS_TILT
def actScale (a : Nat) : Fld := if a = 0 then Reg.ACT_ISCALE_LAT else Reg.ACT_ISCALE_TILT
def actMax (a : Nat) : Fld := if a = 0 then Reg.ACT_IMAX_LAT else Reg.ACT_IMAX_TILT
def actOfs (a : Nat) : Fld := if a = 0 then Reg.ACT_POS_OFS_LAT else Reg.ACT_POS_OFS_TILT

/-- STO is asserted on the H-bridges. -/
def actSto (s : State) : Bool := getB s Reg.SAFE_STATUS_STO_ACT

/-- An actuator does not switch: both legs low. -/
def actOff (a : Nat) (s : State) : State :=
  setF (actDuty a) 0 (setF (actRun a) 0 (setLoopSlot (7 + a) { slot s (7 + a) with s := 0 } s))

/-- The leg outputs of an actuator at a count of its PWM counter, 0 to 625 (R533). -/
def legs (s : State) (a count : Nat) : Bool × Bool :=
  let d := getS s (actDuty a)
  let run := getB s (actEn a) && !actSto s
  (run && decide (625 * (32768 - d) ≤ 65536 * (count : Int)), run && decide (625 * (32768 + d) ≤ 65536 * (count : Int)))

/-- An H-bridge period: the conversions, a current counted from code 2,048 (R628), then slot 7 or 8 on the current, whose output is the duty (R509, R533). -/
def actPeriod (a cur pos : Nat) (late overrun : Bool) (s : State) : State :=
  if 2 ≤ a ∨ !pageRuns s 0x7A then s
  else
    let s := if getB s Reg.ADC_CTRL_EN then
        let s := if late then incF Reg.ADC_LATE_CNT s else s
        let s := setAdc (5 + a) pos (setAdc (2 + a) cur s)
        let i := tdiv (((cur % 4096 : Nat) - 2048) * getF s (actScale a)) 1000
        let odd := cur % 4096 == 0 || cur % 4096 == 4095 || decide (5 * getF s (actMax a) < 4 * i.natAbs)
        let s := setMot { s.mot with actBad := Tbl.set s.mot.actBad a (runOf (Tbl.get none s.mot.actBad a) 80 odd) } s
        setS (actPos a) (sat16 (((pos % 4096 : Nat) : Int) - getF s (actOfs a))) (setS (actCur a) (sat16 i) s)
      else s
    if !getB s (actEn a) ∨ actSto s then actOff a s
    else
      let n := 7 + a
      let s := slotTurn n (if overrun then [n] else []) (fun s => slotSample n (slot s (5 + a)).out (getS s (actCur a)) (ffIn s n) s) s
      setS (actDuty a) (sat16 (slot s n).out) (setF (actRun a) 1 s)

/-! ## Meanings -/

/-- SERVO_FRAME_BOUNDARY. -/
def execServoFrameBoundary (speed : Int) (late : List Nat) (s : State) : Host.Outcome State Fault Refusal :=
  .next (frameBoundary speed late s)

/-- POS_STILL_TIMEOUT. -/
def execPosStillTimeout (s : State) : Host.Outcome State Fault Refusal := .next (stillTimeout s)

/-- ACT_PWM_PERIOD. -/
def execActPwmPeriod (act cur pos : Nat) (late overrun : Bool) (s : State) : Host.Outcome State Fault Refusal :=
  .next (actPeriod act cur pos late overrun s)

/-- ACT_SENSE (R535): every period of 1 ms implausible. -/
def execActSense (act : Nat) (s : State) : Host.Outcome State Fault Refusal :=
  .next (if act < 2 ∧ shown (Tbl.get none s.mot.actBad act) 80 then motionStop 2 (faultCode 4 0xE 0x10) (raiseMot 0x7A 30 4 0x10 act s) else s)

end Sys2Proof.Machine
end

