-- ==== Sys2Proof/Machine/Faults.lean ====
section
/-!
DEFINITION. The safety island, the fault manager and the in-service test (spec/17): the causes of the island (R546, R552–R556), SVC3 and the
fault log (R560–R562), turns (R564–R566), the seal (R586, R587) with the first release of STO (R553), and SAFE_CLEAR (R558).
-/
namespace Sys2Proof.Machine

/-! ## Torque off (R553) -/

/-- A stop by SAFE_STOP_N in SSN_MODE 0 still calls for STO at standstill (R554). -/
def ssnHolds (s : State) : Bool := getB s Reg.SAFE_STATUS_SSN_LATCHED && s1InForce s

/-- STO of both inverters and both H-bridges is released (R553): the drives' integrators are cleared as they switch again. -/
def releaseSto (s : State) : State := setF Reg.SAFE_STATUS_STO_ACT 0 (setF Reg.SAFE_STATUS_STO_REELS 0 s)

/-! ## The seal (R586, R587) -/

/-- A write of SEAL_CTRL.SEAL: the first check that fails is recorded and ignores the write; otherwise every RWS field locks (R586, R587). -/
def configSeal (s : State) : State :=
  let r := sealReason (floorLow s) s
  if r ≠ 0 then setF Reg.SEAL_ERR_VALID 1 (setF Reg.SEAL_ERR_REASON r s) else setF Reg.SEC_STATUS_SEAL_BUSY 1 s

/-- The seal is made (R587): the island releases STO if no safe state is in force and every pair matches (R553); Halls that read well are used
(R485). -/
def sealComplete (s : State) : State :=
  if !getB s Reg.SEC_STATUS_SEAL_BUSY then s
  else
    let s := putWords Reg.CFG_DIGEST 16 (cfgDigest s) s
    let s := if lcPermits s && getB s Reg.SEC_STATUS_ID_OK then setSec { s.sec with cert := rkCert s } s else s
    let s := restoreHalls (setF Reg.SEC_STATUS_SEALED 1 (setF Reg.SEC_STATUS_SEAL_BUSY 0 s))
    let s := notify 0x03 2 0 s
    if cfgOk s && !safeInForce s then releaseSto s else s

/-! ## Causes of the island (R546, R552, R554–R556) -/

/-- S1 has not reached STILL within S1_TMAX (R546). -/
def s1Timeout (s : State) : State :=
  if s1InForce s ∧ !getB s Reg.POS_STATUS_STILL then enterS2 (faultCode 4 0x1 0x04) (raiseC 0x02 4 0x04 noAcct 0 s) else s

/-- SAFE_STOP_N has been low for 1 µs (R554): the stop is latched, once; S1 with STO at standstill, or S2 at once. -/
def safeStop (s : State) : State :=
  let s := setF Reg.SAFE_STATUS_SSN_PIN 0 s
  if getB s Reg.SAFE_STATUS_SSN_LATCHED then s
  else
    let code := faultCode 4 0x1 0x01
    let s := raiseC 0x02 4 0x01 noAcct 0 (setF Reg.SAFE_STATUS_SSN_LATCHED 1 s)
    if getB s Reg.SAFE_CFG_SSN_MODE then enterS2 code s else stoAtStill (enterS1 code s)

/-- A pad of STO has disagreed with its command for 10 µs (R552). -/
def stoReadback (s : State) : State := enterS2 (faultCode 4 0x1 0x03) (raiseC 0x02 4 0x03 noAcct 0 s)

/-- A clock has failed in two consecutive windows, REFCLK or the island's own (R555): latched until PORST_N. `count`: REFCLK edges in the
island's last window. -/
def clkFail (island : Bool) (count : Nat) (s : State) : State :=
  let cause := if island then 0x03 else 0x02
  let s := setF Reg.CLK_REF_MEAS count (setF Reg.CLK_STATUS_CLK_FAILED 1 (if island then s else setF Reg.CLK_STATUS_REFCLK_OK 0 s))
  enterS2 (faultCode 4 0x0 cause) (raiseC 0x05 4 cause noAcct count s)

/-- The two registers of a safety pair, by number: SAFE_CFG, VBUS_TRIP, TEN_LIMITS, TEN_CMP (R556). -/
def pairAddr (n : Nat) : Nat × Nat := (0x2048 + 8 * n, 0x204C + 8 * n)

/-- The second register of a pair holds a value unlike the first's, after the seal (R556). -/
def safeCfgMismatch (n : Nat) (value : Word) (s : State) : State :=
  if !isSealed s ∨ 4 ≤ n ∨ rd s (pairAddr n).1 = value then s
  else enterS2 (faultCode 4 0x1 0x02) (raiseC 0x02 4 0x02 noAcct n (wr (pairAddr n).2 value s))

/-! ## The fault manager (R560–R562) -/

/-- A fault enters the fault log, and goes out as an EVENT packet if its severity is at or above EVT_MIN (R562, R612). -/
def logFault (r : FaultRec) (s : State) : State :=
  let n := getF s Reg.FLT_LOG_HEAD
  let s := if 1024 ≤ n - getF s Reg.FLT_LOG_TAIL then incF Reg.FLT_LOG_LOST_CNT s else s
  let s := setF Reg.FLT_LOG_HEAD (n + 1) { s with evt := { s.evt with log := Tbl.set s.evt.log (n % 1024) { seq := n, flt := r } } }
  if getF s Reg.FLT_CTRL ≤ sevOf r.code then sendEvent r.page r.bit r.code r.account r.data r.stamp s else s

/-- When nothing is being handled, the oldest entry of the fault FIFO is (R560). -/
def nextFault (s : State) : State :=
  match s.evt.safetyBuf, s.evt.handling, s.evt.faultFifo with
  | [], [], r :: t => { s with evt := { s.evt with handling := [r], faultFifo := t } }
  | _, _, _ => s

/-- SVC3 finishes the fault that it handles: a SAFETY record first, then the handling that has pre-empted the others (R560, R561). -/
def faultHandle (s : State) : State :=
  if !svc3Runs s then s
  else match s.evt.safetyBuf, s.evt.handling with
    | r :: t, _ => nextFault (logFault r { s with evt := { s.evt with safetyBuf := t } })
    | [], r :: t => nextFault (logFault r { s with evt := { s.evt with handling := t } })
    | [], [] => s

/-- A write of FLT_LOG_TAIL acknowledges every entry below it (R562, R363). -/
def fltLogTail (v : Nat) (s : State) : State := setF Reg.FLT_LOG_TAIL v s

/-! ## Turns (R564–R566) -/

/-- Turns of a coverage cycle. -/
def turnsInCycle : Nat := 1318

/-- Scheduled turns run (R566): sealed, TURN_CTRL.EN set, and SVC1 running. -/
def turnsRun (s : State) : Bool := isSealed s && getB s Reg.TURN_CTRL && (getF s Reg.CLU_RUN_SVC).testBit 1

/-- A data set is being recorded, and the tape is not in the gap frame that follows it (R86, R565). -/
def inDataSet (s : State) : Bool :=
  match s.fmt.writing with
  | some n => (match setPlace s n, setFrame s n with | some (_, k, _), some r => decide (0 ≤ r) && decide (r < (49 + k : Nat)) | _, _ => false)
  | none => false

/-- Lanes, pairs and queues of the cipher have nothing to do. -/
def cipherIdle (s : State) : Bool := s.ciph.wr.isEmpty && s.ciph.rd.isEmpty && s.ciph.fw.isEmpty && s.ciph.host.isEmpty && s.ciph.runs.isEmpty

/-- The turn waits: while the unit it tests is quiesced (R609: AES lanes and pairs, PGC engines); unforced, for idle time, which is an empty cipher for
the lanes and a band that runs no board for its sequencer and for the row encoder; forced, those two wait for the next gap frame of a band that is
writing (R565). -/
def turnWaits (n : Nat) (s : State) : Bool :=
  let forced := getB s Reg.TURN_STATUS_FORCING
  let aes := decide (111 ≤ n) && decide (n < 123)
  let band_ := decide (141 ≤ n) && decide (n < 149) && (band s (n - 141)).running
  (aes && (getB s (hdrQUIESCE 0x51) || (!forced && !cipherIdle s))) || (decide (125 ≤ n) && decide (n < 141) && getB s (hdrQUIESCE 0x50))
    || ((band_ || (n == 110 && boardRuns s)) && (!forced || inDataSet s))

/-- What a failing turn raises, by its index in the cycle: page, event bit, code and safe state, 0 for none. -/
def turnFault (n : Nat) : Nat × Nat × Nat × Nat :=
  if n < 100 then (0x04, 0, 0x4F01, 3)
  else if n < 110 then (0x04, 1, 0x4F02, 3)
  else if n < 111 then (0x12, 4, 0x4505, 3)
  else if n < 119 then (0x51, 3, 0x2904, 0)
  else if n < 123 then (0x51, 1, 0x4902, 3)
  else if n < 125 then (0x04, 1, 0x4F02, 3)
  else if n < 141 then (0x50, 1, 0x4802, 3)
  else if n < 149 then (0x04, 2, 0x4F03, 3)
  else if n < 1301 then (0x04, 3, 0x2F04, 0)
  else if n < 1305 then (0x04, 4, 0x4F05, 2)
  else if n < 1309 then (0x04, 5, 0x4F06, 2)
  else if n < 1315 then (0x04, 6, 0x4F07, 2)
  else (0x04, 7, 0x4F08, 2)

/-- A turn that passes raises nothing; an injected case is counted where its counter counts such (R179, R303, R312, R564). -/
def turnPass (n : Nat) (s : State) : State :=
  if n = 110 then
    let v := (freeVal 45 s).toNat
    setF Reg.ENC_LAST_HI_INJECTED 1 <| setF Reg.ENC_LAST_HI_SDS (slice v 40 5) <| setF Reg.ENC_LAST_HI_ROW (slice v 32 8) <|
      setF Reg.ENC_LAST_LO (slice v 0 32) (takeFree (incF Reg.ENC_MISMATCH_CNT s))
  else if 119 ≤ n ∧ n < 123 then incF Reg.PAIR_MISMATCH_CNT s
  else if 125 ≤ n ∧ n < 141 then incF Reg.DV_MISMATCH_CNT s
  else s

/-- A turn finds its checker failed. `rows`: the rows that failed march C−; for an AES lane its length is the count of vectors that failed. -/
def turnFail (n : Nat) (rows : List Nat) (s : State) : State :=
  let (p, bit, code, safe) := turnFault n
  let s := setF Reg.TURN_FAIL_LAST_ITEM n (setF Reg.TURN_FAIL_LAST_CODE code s)
  if 111 ≤ n ∧ n < 119 then katFail (n - 111) (max 1 rows.length) s
  else
    let s := if n = 110 then setF Reg.ENC_STATUS_FAILED 1 s
      else if 119 ≤ n ∧ n < 123 then setF Reg.CIPH_STATUS_FAILED 1 s
      else if 125 ≤ n ∧ n < 141 then setF Reg.CMP_STATUS_DV_FAILED 1 s
      else if 149 ≤ n ∧ n < 1301 then forEach rows (fun r => addCandidate ((n - 149) / 4) (r % 8192)) s
      else s
    let s := raise p bit code noAcct n s
    if safe = 3 then enterS3 code s else if safe = 2 then enterS2 code s else s

/-- The coverage cycle is complete; the next begins. -/
def cycleDone (s : State) : State :=
  setF Reg.TURN_AGE 0 (setF Reg.TURN_STATUS_FORCING 0 (setF Reg.TURN_STATUS_DONE 0 (incF Reg.TURN_CYCLE_CNT s)))

/-- SVC1 runs the next turn of the cycle, which passes or finds its item failed. -/
def turn (bad : Bool) (rows : List Nat) (s : State) : State :=
  let n := getF s Reg.TURN_STATUS_DONE
  if !turnsRun s ∨ turnWaits n s then s
  else
    let s := if getB s Reg.TURN_STATUS_FORCING then incF Reg.TURN_FORCED_CNT s else s
    let s := if bad then turnFail n rows s else turnPass n s
    if n + 1 < turnsInCycle then setF Reg.TURN_STATUS_DONE (n + 1) s else cycleDone s

/-- The cycle is 55 s old: the remaining turns are forced (R565). -/
def turnForceStart (s : State) : State :=
  if turnsRun s then setF Reg.TURN_AGE (max 55000 (getF s Reg.TURN_AGE)) (setF Reg.TURN_STATUS_FORCING 1 s) else s

/-- The cycle is 60 s old, or the last one ended 60 s ago (R565, R566). -/
def turnOverdue (s : State) : State := if isSealed s then raiseC 0x04 3 0x09 noAcct 0 (setF Reg.TURN_AGE (max 60000 (getF s Reg.TURN_AGE)) s) else s

/-! ## SAFE_CLEAR (R558) -/

/-- What the checks of SAFE_CLEAR read that the part does not hold: SAFE_STOP_N is high; the comparators of VBUS and of tension are active; a
SAFETY cause persists; a turn of its coverage cycle fails, with the rows of `turnFail`. -/
def clearBlocked (names : Nat) (ssnHigh vbusOver tenOver : Bool) (persist : Option Nat) (s : State) : Option Nat :=
  if !ssnHigh then some 0x4101
  else if (names.testBit 0 ∨ names.testBit 1) ∧ !getB s Reg.POS_STATUS_STILL then some 0
  else if vbusOver then some 0x4E0B
  else if tenOver ∧ getB s Reg.SAFE_CFG_TEN_CMP_EN then some 0x4E12
  else match persist with
    | some c => some c
    | none => s.evt.latched.head?

/-- The states of a mask leave force: with S2 BUS_CLAMP_REQ (R500), with its own state the stop of SAFE_STOP_N (R554); STO is released unless S2
or such a stop remains (R553); CHOP_STATUS.FAULT and the Halls (R485, R499). -/
def clearStates (names : Nat) (s : State) : State :=
  let off (bit : Nat) (f : Fld) (s : State) : State := if names.testBit bit then setF f 0 s else s
  let ssn := if getB s Reg.SAFE_CFG_SSN_MODE then 1 else 0
  let s := off 2 Reg.SAFE_STATUS_S3 (off 1 Reg.SAFE_STATUS_S2 (off 0 Reg.SAFE_STATUS_S1 s))
  let s := off ssn Reg.SAFE_STATUS_SSN_LATCHED (off 1 Reg.SAFE_STATUS_BUS_CLAMP s)
  let s := restoreHalls (setF (Reg.CHOP_STATUS_FAULT 0) 0 s)
  if isSealed s ∧ cfgOk s ∧ !s2InForce s ∧ !ssnHolds s then releaseSto s else s

/-- SAFE_CLEAR: the checks in the order of R558, the coverage cycle last; at the first that fails nothing is cleared. A state that CLEAR names
and that is not in force is clear already. -/
def safeClear (q : Nat) (ssnHigh vbusOver tenOver : Bool) (persist bad : Option Nat) (rows : List Nat) (x : ExecSt) (s : State) : State :=
  let mask := dField x.entry.desc 0x10 1
  let names := mask &&& (b2n (s1InForce s) + 2 * b2n (s2InForce s) + 4 * b2n (s3InForce s))
  let s := setB Reg.SAFE_STATUS_SSN_PIN ssnHigh s
  if names = 0 then sideEnd q stOK s
  else match clearBlocked names ssnHigh vbusOver tenOver persist s with
    | some c => finishSide q stSAFE_STATE 0 0 c s
    | none =>
      if names.testBit 2 then
        let n := bad.getD turnsInCycle
        let s := forEach (List.range (min n turnsInCycle)) turnPass s
        if n < turnsInCycle then finishSide q stSAFE_STATE 0 0 (turnFault n).2.2.1 (turnFail n rows s)
        else sideEnd q stOK (clearStates names (cycleDone s))
      else sideEnd q stOK (clearStates names s)

/-! ## Meanings -/

/-- S1_TIMEOUT. -/
def execS1Timeout (s : State) : Host.Outcome State Fault Refusal := .next (s1Timeout s)

/-- SAFE_STOP. -/
def execSafeStop (s : State) : Host.Outcome State Fault Refusal := .next (safeStop s)

/-- STO_READBACK. -/
def execStoReadback (s : State) : Host.Outcome State Fault Refusal := .next (stoReadback s)

/-- CLK_FAIL. -/
def execClkFail (island : Bool) (count : Nat) (s : State) : Host.Outcome State Fault Refusal := .next (clkFail island count s)

/-- SAFE_CFG_MISMATCH. -/
def execSafeCfgMismatch (pair : Nat) (value : Word) (s : State) : Host.Outcome State Fault Refusal := .next (safeCfgMismatch pair value s)

/-- FAULT_HANDLE. -/
def execFaultHandle (s : State) : Host.Outcome State Fault Refusal := .next (faultHandle s)

/-- FLT_LOG_TAIL_WRITE. -/
def execFltLogTailWrite (value : Nat) (s : State) : Host.Outcome State Fault Refusal := .next (lockGate 0x01 (fltLogTail value) s)

/-- TURN. -/
def execTurn (bad : Bool) (rows : List Nat) (s : State) : Host.Outcome State Fault Refusal := .next (turn bad rows s)

/-- TURN_FORCE_START. -/
def execTurnForceStart (s : State) : Host.Outcome State Fault Refusal := .next (turnForceStart s)

/-- TURN_OVERDUE. -/
def execTurnOverdue (s : State) : Host.Outcome State Fault Refusal := .next (turnOverdue s)

/-- SAFE_CLEAR. -/
def execSafeClear (queue : Nat) (ssnHigh vbusOver tenOver : Bool) (persist bad : Option Nat) (rows : List Nat) (s : State) :
    Host.Outcome State Fault Refusal :=
  .next (sideRow opSAFE_CLEAR queue (safeClear queue ssnHigh vbusOver tenOver persist bad rows) s)

/-- CONFIG_SEAL. -/
def execConfigSeal (s : State) : Host.Outcome State Fault Refusal := .next (lockGate 0x03 configSeal s)

/-- SEAL_COMPLETE. -/
def execSealComplete (s : State) : Host.Outcome State Fault Refusal := .next (sealComplete s)

end Sys2Proof.Machine
end

