-- ==== Sys2Proof/Machine/Stream.lean ====
section
/-!
DEFINITION. The stream commands that write, read and settle data (R440, R441, R450–R452), tenants and receipts (R453–R455, R464–R466).
-/
namespace Sys2Proof.Machine

/-! ## Where a write may begin (R452) -/

/-- The headers of data set `n` from `from_` up to offset `off`. -/
def headersBefore (s : State) (n off : Nat) : Nat → Nat → Nat
  | 0, _ => 0
  | fuel + 1, from_ =>
    if off ≤ from_ then 0
    else match headerAt s (walkFuel s) n from_ with
      | .at_ m o head => if m = n ∧ o < off then 1 + headersBefore s n off fuel (o + granSpan (granHdr head)) else 0
      | _ => 0

/-- The data sets of the group before `n`, and `n` itself, have been read (R452). -/
def groupRead (s : State) (n : Nat) : Bool :=
  (readSet s n).isSome && (List.range (n % 32 + 1)).all fun i => match setAt s (n / 32 * 32 + i) with | .here _ => true | _ => false

/-- The place of a write at the logical position (R452): at end of data, or at the first record of a granule that does not start in the middle of
one, or just before a filemark. -/
def writeAt (s : State) : WriteAt :=
  if s.vol.atEod then eodGroup s
  else match seek s s.vol.posRecord (some s.vol.posFm) with
    | .here n off h fm hdr =>
      if h.first ≠ s.vol.posRecord ∨ h.startsMid then .refuse stILLEGAL_COMMAND (statusDetail s stILLEGAL_COMMAND)
      else if groupRead s n then .mid n off fm hdr else .wait
    | .eod _ _ _ => eodGroup s
    | .lost _ _ _ => .refuse stMEDIUM_ERROR codeRcvFail
    | .corrupt _ _ _ _ => .refuse stGRANULE_CORRUPT codeCorrupt
    | .wait => .wait

/-- What has been read from a data set on is no longer what stands on tape; relocations of what lies behind the new end go too. -/
def forgetFrom (n : Nat) (s : State) : State :=
  let s := absorbEod s
  let s := { s with rch := { s.rch with sets := s.rch.sets.filter fun d => d.dsn < n } }
  setVol { s.vol with map := s.vol.map.map fun m => { m with relocs := m.relocs.filter fun e => e.1 < n && e.2 < n } } s

/-- Writing at data set `n` ends the volume there (R82): the end of data of the selected map, and what is known to lie before it, become those of
data set `n`; `hdr` is one above the GSN of the last granule header before it. The tape says so from the next update of R112 on. -/
def endAt (n : Nat) (d : ReadSet) (p : List Byte) (hdr : Nat) (s : State) : State :=
  let s := setVol { s.vol with eodDsn := n, eodFrame := d.origin, eodPass := d.pass, records := dsitRECORDS p, filemarks := dsitFILEMARKS p, eodHdr := hdr
                               eodKnown := true, map := s.vol.map.map fun m => { m with eodDsn := n, eodFrame := d.origin, eodPass := d.pass } } s
  showMap s

/-- A write from the middle of the volume begins (R452): the payload before the granule is taken over, and writing starts over at the data set that
holds it. -/
def beginMid (n off fm hdr : Nat) (s : State) : State :=
  let base := n / 32 * 32
  match setAt s n, readSet s n with
  | .here p, some d =>
    let count := headersBefore s n off (dsitGRANS p) (firstHeader p)
    let open_ : DataSet :=
      { dsn := n, pass := d.pass, stream := bytesAt p 0x200 (off - 0x200), contBytes := min (dsitCONT p) (off - 0x200), granCount := count
        firstGran := (if count = 0 then 0xFFFFFFFF else dsitFIRST p), firstGsn := dsitGSN p, recBefore := dsitRECORDS p, fmBefore := dsitFILEMARKS p }
    let data := groupBefore s n
    let bare := off = 0x200
    let s := setFmt { s.fmt with
      group := if bare ∧ n = base then none else some base, nextDsn := if bare then n else n + 1, sets := if bare then [] else [open_]
      c3Data := data, nextFrame := d.origin, nextPass := d.pass, recDone := s.vol.posRecord, fmDone := fm, hdrGsn := hdr } s
    endAt n d p (if count = 0 then hdr else dsitGSN p) (forgetFrom n (setVol { s.vol with posFm := fm } s))
  | _, _ => s

/-- A write at end of data begins or goes on (R101, R452): at first the write flow is set there, with what a group already begun has. -/
def beginEod (s : State) : State :=
  if !flowIdle s then s
  else
    let n := s.vol.eodDsn
    let data := groupBefore s n
    takeGroup data (forgetFrom n (resumeEod s))

/-- A WRITE or FILEMARK is accepted at the place found: the write flow stands there, and the mount's DIRTY update is made if it is due (R112). -/
def acceptWrite (w : WriteAt) (s : State) : State :=
  let first := match w with | .mid n _ _ _ => n | _ => if flowIdle s then s.vol.eodDsn else s.fmt.nextDsn
  let s := match w with | .mid n off fm hdr => beginMid n off fm hdr s | _ => beginEod s
  let s := if s.vol.wrote && !s.vol.dirtyDue then s else dirtyUpdate first s
  setFmt { s.fmt with closedUp := false } (setVol { s.vol with atEod := true, issued := true } s)

/-- A command that writes: refused where the mount may not write; otherwise it waits until its place is known and its data, if any, is here, and
is then taken whole (R440). -/
def writeRow (ready : ExecSt → Bool) (take : ExecSt → State → State) (x : ExecSt) (s : State) : State :=
  match (if x.phase = .data ∧ x.step = 0 then writeRefusal s else none) with
  | some st => endWith st s
  | none =>
    let s := onExec (fun x => { x with step := 1 }) (freshReads false x s)
    let s := eodSetRead s
    match writeAt s with
    | .refuse st det => endExec st 0 0 0 det s
    | .wait => s
    | w => if ready x then take x (acceptWrite w s) else s

/-! ## WRITE and FILEMARK (R288, R450, R458) -/

/-- WRITE's records are cut into granules, and it completes (R287, R440). -/
def takeRecords (x : ExecSt) (s : State) : State :=
  let d := x.entry.desc
  let len := wREC_LEN d
  let n := wREC_COUNT d
  let first := s.vol.posRecord
  let w := wrCtx s x.entry
  let s := forEach (List.range n) (fun i s => cutRecord w (first + i) (bytesAt x.entry.data (len * i) len) s) s
  let s := onUsage x.entry.bracket w.session (fun u => { u with wrPlain := u.wrPlain + len * n, wrRecords := u.wrRecords + n }) s
  endExec stOK first n 0 0 (setVol { s.vol with posRecord := first + n } s)

/-- WRITE: one of no records only completes. -/
def writeWork (x : ExecSt) (s : State) : State :=
  if wREC_COUNT x.entry.desc = 0 then (match writeRefusal s with | some st => endWith st s | none => endExec stOK s.vol.posRecord 0 0 0 s)
  else writeRow dataHere takeRecords x s

/-- FILEMARK issues its filemark granules (R288). -/
def takeFilemarks (x : ExecSt) (s : State) : State :=
  let d := x.entry.desc
  let n := dField d 0x10 2
  let t := tenant s (dTenant d)
  let p := s.vol.posRecord
  let s := forEach (List.range n) (fun _ s => cutFilemark (dTenant d) t.session t.tag p x.entry.bracket s) s
  endExec stOK p n 0 0 (setVol { s.vol with posFm := s.vol.posFm + n } s)

/-! ## READ and LOCATE (R451, R452) -/

/-- READ and LOCATE once everything accepted is on tape. -/
def readRow (tags : List Nat) (work : Bool → State → State) (x : ExecSt) (s : State) : State :=
  afterClosure (work (noMoreTags tags)) x (freshReads (dOpcode x.entry.desc == opLOCATE) x s)

/-! ## Receipts and tenants (R453–R455, R466) -/

/-- A receipt is issued: its bytes wait as DATA_IN, RCPT_NO and RCPT_CNT rise (R466, R471). -/
def issueReceipt (kind : Nat) (x : ExecSt) (s : State) : State :=
  let d := x.entry.desc
  let n := dTenant d
  let bytes := receipt s kind n x.entry.seq
  let s := pushDin (dinPackets 0 (dTag d) 0 0 0 0 bytes true) s
  let s := setTenant n { tenant s n with rcptNo := ((tenant s n).rcptNo + 1) % 2 ^ 32 } s
  notify 0x71 2 n (incF Reg.RCPT_CNT s)

/-- RECEIPT after its closure. -/
def receiptWork (s : State) : State :=
  match s.que.exec with
  | some x => endExec stOK 0 0 0 0 (issueReceipt 1 x s)
  | none => s

/-- OPEN_TENANT (R454). -/
def openTenant (x : ExecSt) (s : State) : State :=
  let d := x.entry.desc
  let tag := dField d 0x10 8
  match (List.range 256).find? fun n => (tenant s n).state == 0 with
  | none => endWith stTENANT_TABLE_FULL s
  | some n =>
    if tag = 0 ∨ s.ten.any (fun e => e.2.state != 0 && e.2.tag == tag) then endWith stILLEGAL_COMMAND s
    else
      let r := writeBounds n (dField d 0x18 4) (dField d 0x1C 4) 1 s
      let s := r.2
      if r.1 = 0 then
        let id := s.mtr.nextSess
        let s := setMtr { s.mtr with sessions := s.mtr.sessions ++ [{ id, ctx := n, tag }], nextSess := id + 1 } s
        endExec stOK 0 n 0 0 (setTenant n { state := 1, tag, session := id } s)
      else endExec stILLEGAL_COMMAND 0 0 0 r.1 s

/-- The slots that a tenant owns. -/
def ownedSlots (s : State) (n : Nat) : List Nat := (s.keys.data.filter fun e => e.2.state != 0 && e.2.tenant == n).map Prod.fst

/-- CLOSE_TENANT after its closure (R455): the receipt, the erase of every slot, the account's bounds, CLOSED. -/
def closeTenantWork (s : State) : State :=
  match s.que.exec with
  | none => s
  | some x =>
    let n := dTenant x.entry.desc
    let s := if x.step = 0 then
        let s := onExec (fun x => { x with step := 1 }) (issueReceipt 2 x s)
        (ownedSlots s n).foldl (fun s k => if (keySlot s k).state = 1 then setSlot k { keySlot s k with state := 2, eraseSeq := x.entry.seq } s else s) s
      else s
    if ownedSlots s n ≠ [] then s
    else
      let s := poolEvent (checkShort (setAcct n { acct s n with quota := 0, min := 0 } s))
      endExec stOK 0 0 0 0 (setTenant n {} s)

/-- CLOSE_TENANT sets the context CLOSING as it begins. -/
def closeTenant (x : ExecSt) (s : State) : State :=
  let n := dTenant x.entry.desc
  let s := if x.phase = .data then setTenant n { tenant s n with state := 2 } s else s
  afterClosure closeTenantWork x s

/-! ## Meanings -/

/-- WRITE. -/
def execWrite (s : State) : Host.Outcome State Fault Refusal := .next (streamRow opWRITE writeWork s)

/-- FILEMARK. -/
def execFilemark (s : State) : Host.Outcome State Fault Refusal := .next (streamRow opFILEMARK (writeRow (fun _ => true) takeFilemarks) s)

/-- FLUSH. -/
def execFlush (s : State) : Host.Outcome State Fault Refusal := .next (streamRow opFLUSH (afterClosure (endWith stOK)) s)

/-- READ. -/
def execRead (tags : List Nat) (s : State) : Host.Outcome State Fault Refusal := .next (streamRow opREAD (readRow tags readWork) s)

/-- LOCATE. -/
def execLocate (tags : List Nat) (s : State) : Host.Outcome State Fault Refusal := .next (streamRow opLOCATE (readRow tags locateWork) s)

/-- RECEIPT. -/
def execReceipt (s : State) : Host.Outcome State Fault Refusal := .next (streamRow opRECEIPT (afterClosure receiptWork) s)

/-- OPEN_TENANT. -/
def execOpenTenant (s : State) : Host.Outcome State Fault Refusal := .next (streamRow opOPEN_TENANT openTenant s)

/-- CLOSE_TENANT. -/
def execCloseTenant (s : State) : Host.Outcome State Fault Refusal := .next (streamRow opCLOSE_TENANT closeTenant s)

end Sys2Proof.Machine
end

