-- ==== Sys2Proof/Machine/HostRead.lean ====
section
/-!
DEFINITION. A host read of a word of register space (R604–R608, R617): the words that show live state, the windows, the LO/HI latch (R54, R606),
and what a read changes.
-/
namespace Sys2Proof.Machine

/-! ## Live values -/

/-- POS as POS_NOW shows it: low and high word (R53, R54). -/
def posNowHi (s : State) : Nat :=
  s.pos.tick % 4096 + getF s Reg.POS_PASS * 2 ^ 12 + getF s Reg.POS_STATUS_COARSE * 2 ^ 20 + getF s Reg.POS_STATUS_STALE * 2 ^ 21

/-- FAULT_N asserted (R557): until the seal, under any safe state, or while the log holds an unacknowledged entry at or above FAULTN_MIN. -/
def faultN (s : State) : Bool :=
  let tail := getF s Reg.FLT_LOG_TAIL
  !isSealed s || safeInForce s
    || s.evt.log.any fun e => decide (getF s Reg.SAFE_CFG_FAULTN_MIN ≤ sevOf e.2.flt.code)
        && decide ((e.2.seq + 2 ^ 32 - tail) % 2 ^ 32 < (getF s Reg.FLT_LOG_HEAD + 2 ^ 32 - tail) % 2 ^ 32)

/-- Word `w` of a fault log entry (R562). -/
def faultEntryWord (e : FaultEntry) (w : Nat) : Nat :=
  match w with
  | 0 => e.seq
  | 1 => e.flt.code + e.flt.account * 2 ^ 16
  | 2 => e.flt.stamp.lo
  | 3 => e.flt.stamp.hi
  | 4 => e.flt.data % 2 ^ 32
  | 5 => e.flt.data / 2 ^ 32
  | 6 => e.flt.page
  | _ => 0

/-- The word of the fault log that FLT_LOG_WIN_ADDR addresses (R562, R568); zero where no entry is held. -/
def fltLogWord (s : State) : Nat :=
  match s.evt.log.find? fun e => e.1 == getF s Reg.FLT_LOG_WIN_ADDR_ENTRY with
  | some e => faultEntryWord e.2 (getF s Reg.FLT_LOG_WIN_ADDR_WORD)
  | none => 0

/-- Word `w` of a retirement log entry (R362). -/
def rlogEntryWord (e : RlogEntry) (w : Nat) : Nat := fieldAt (rlogBytes e) (4 * w) 4

/-- The word of the retirement log that RLOG_WIN_ADDR addresses. -/
def rlogWord (s : State) : Nat :=
  match s.mem.rlog.find? fun e => e.1 == getF s Reg.RLOG_WIN_ADDR_ENTRY with
  | some e => rlogEntryWord e.2 (getF s Reg.RLOG_WIN_ADDR_WORD)
  | none => 0

/-- What the dump window shows (R549): the word's data, VERDICT and UNWRITTEN. Outside S3, and outside the pool's pages, zero. -/
def dumpView (s : State) : Word256 × Nat × Bool :=
  let p := getF s Reg.DUMP_ADDR_PAGE
  let w := getF s Reg.DUMP_ADDR_WORD
  if !s3InForce s ∨ slotsReady s ≤ p then (0, 0, false)
  else if !isWritten s p w then (0, 0, true)
  else
    let x := rawWord s p w
    match wDecode x.1 x.2 with
    | .clean => (x.1, 0, false)
    | .single y _ => (y, 1, false)
    | .uncorrectable => (0, 2, false)
    | .poisoned => (0, 3, false)

/-- Word `i` of the dump window's data. -/
def dumpData (i : Nat) (s : State) : Nat := slice (dumpView s).1.toNat (32 * i) 32

/-- The board window's word (R144, R184). -/
def brdWinWord (b : Nat) (s : State) : Nat :=
  let x := (band s b).buf (getF s (Reg.BRD_WIN_ADDR_BUF b))
  (Tbl.get 0 x.words (4 * getF s (Reg.BRD_WIN_ADDR_INDEX b) + getF s (Reg.BRD_WIN_ADDR_WORD b))).toNat

/-- The extension window's entry (R184): 192 entries. -/
def extWinWord (b : Nat) (s : State) : Nat :=
  let e := getF s (Reg.EXT_WIN_ADDR_ENTRY b)
  if e < 192 then (Tbl.get 0 ((band s b).buf (getF s (Reg.EXT_WIN_ADDR_BUF b))).ext e).toNat else 0

/-- The oldest command of a queue whose DATA_OUT is incomplete (R426): the executing command, then the entries in order. -/
def doTarget (s : State) (q : Nat) : Option QEntry :=
  let x := if q = 0 then s.que.exec else (side s q).exec
  let l := (x.map fun x => x.entry).toList ++ (if q = 0 then s.que.stream else (side s q).queue)
  l.find? fun e => decide (e.data.length < dataOutLen q e)

/-- TOK_WIN's COUNT and DEPTH (R423, R433). -/
def tokWin (s : State) : Nat × Nat :=
  let q := getF s Reg.TOK_WIN_ADDR_QUEUE
  let c := getF s Reg.TOK_WIN_ADDR_CLASS
  if getF s Reg.TOK_WIN_ADDR_DIR = 0 then (outstanding s c q, tokDepth c q)
  else if c = 1 ∧ q = 0 then (s.lnk.held0, 0)
  else if c = 3 ∧ q = 0 then (s.lnk.heldM0, 0)
  else if c = 3 ∧ q = 1 then (s.lnk.heldM1, 0)
  else (0, 0)

/-- The item of a tenant context that TEN_WIN_ADDR addresses (R470). -/
def tenWinWord (s : State) : Nat :=
  let n := getF s Reg.TEN_WIN_ADDR_CONTEXT
  let t := tenant s n
  match getF s Reg.TEN_WIN_ADDR_ITEM with
  | 0 => t.state
  | 1 => t.tag % 2 ^ 32
  | 2 => t.tag / 2 ^ 32
  | 3 => t.rcptNo
  | 4 => (ownedSlots s n).length
  | 5 => t.chain.grans % 2 ^ 32
  | _ => 0

/-- Payload data sets whose parity the open group's C3 has taken (R141): those of the group whose C3 data sets are not yet complete. -/
def c3Count (s : State) : Nat :=
  match s.fmt.c3Data.getLast? with
  | some e => (s.fmt.c3Data.filter fun x => x.1 / 32 == e.1 / 32).length
  | none => 0

/-- C3 parity of a wrap group is being accumulated (R141): from the group's opening until its C3 data sets are complete. -/
def c3Open (s : State) : Bool := s.fmt.group.isSome || !s.fmt.c3Data.isEmpty

/-- The next data set to be written (R115): the first that has not begun, or the one that the next write opens. -/
def dsnToWrite (s : State) : Nat := match s.fmt.sets.find? fun d => !d.begun with | some d => d.dsn | none => s.fmt.nextDsn

/-- A bit mask of the members of a list below `w`. -/
def maskOf (w : Nat) (l : List Nat) : Nat := sumN ((List.range w).map fun i => if l.contains i then 2 ^ i else 0)

/-- The live fields of FAULT, SAFE, CLK, PWR and POS. -/
def liveChip : List (Fld × (State → Nat)) := [
  (Reg.FLT_STATUS_ACTIVE, activeSev),
  (Reg.FLT_STATUS_DEPTH, fun s => s.evt.faultFifo.length),
  (Reg.FLT_STATUS_SAFETY_BUF, fun s => s.evt.safetyBuf.length),
  (Reg.FLT_LOG_WIN_DATA, fltLogWord),
  (Reg.SAFE_STATUS_FAULT_N, fun s => b2n (faultN s)),
  (Reg.SAFE_STATUS_CFG_OK, fun s => b2n (cfgOk s)),
  (Reg.DUMP_STATUS_VERDICT, fun s => (dumpView s).2.1),
  (Reg.DUMP_STATUS_UNWRITTEN, fun s => b2n (dumpView s).2.2),
  (Reg.DUMP_DATA 0, dumpData 0), (Reg.DUMP_DATA 1, dumpData 1), (Reg.DUMP_DATA 2, dumpData 2), (Reg.DUMP_DATA 3, dumpData 3),
  (Reg.DUMP_DATA 4, dumpData 4), (Reg.DUMP_DATA 5, dumpData 5), (Reg.DUMP_DATA 6, dumpData 6), (Reg.DUMP_DATA 7, dumpData 7),
  (Reg.PWR_STATUS, fun s => s.pins.rails),
  (Reg.POS_NOW_LO, fun s => s.pos.frame % 2 ^ 32),
  (Reg.POS_NOW_HI, posNowHi)]

/-- The live fields of FMT and OUTER (R115, R143, R181). -/
def liveFmt : List (Fld × (State → Nat)) := [
  (Reg.FMT_STATUS_WG_OPEN, fun s => b2n s.fmt.group.isSome),
  (Reg.FMT_DSN_NEXT, dsnToWrite),
  (Reg.FMT_WG, dsnToWrite),
  (Reg.FMT_GSN_LO, fun s => s.vol.nextGsn),
  (Reg.FMT_GSN_HI, fun s => s.vol.nextGsn / 2 ^ 32),
  (Reg.SPM_STATUS_READY, fun s => min 255 (readyCount s)),
  (Reg.SPM_STATUS_RUNNING, fun s => b2n s.fmt.running),
  (Reg.OUTER_OUT_STATUS_C3_OPEN, fun s => b2n (c3Open s)),
  (Reg.OUTER_OUT_STATUS_C3_COUNT, c3Count)]

/-- The live fields of BSEQb (R184). -/
def liveBseq (b : Nat) : List (Fld × (State → Nat)) := [
  (Reg.BRD_STATUS_RUNNING b, fun s => b2n (band s b).running),
  (Reg.BRD_STATUS_BUF b, fun s => (band s b).cur),
  (Reg.BRD_STATUS_ARMED_A b, fun s => b2n ((band s b).a.armed && !((band s b).running && (band s b).cur == 0))),
  (Reg.BRD_STATUS_ARMED_B b, fun s => b2n ((band s b).b.armed && !((band s b).running && (band s b).cur == 1))),
  (Reg.BRD_STATUS_HOLD b, fun s => b2n ((band s b).running && (band s b).hold)),
  (Reg.BRD_STATUS_TAIL b, fun s => b2n ((band s b).running && (band s b).tail)),
  (Reg.BRD_STATUS_INDEX b, fun s => (band s b).index),
  (Reg.WG_STATUS b, fun s => wgClosedBy s b),
  (Reg.BRD_WIN_DATA b, brdWinWord b),
  (Reg.EXT_WIN_DATA b, extWinWord b)]

/-- The live fields of RCHb (R226, R227). -/
def liveRch (b : Nat) : List (Fld × (State → Nat)) := [
  (Reg.RCH_STATUS_MRD_ACTIVE b, fun s => b2n (mrdActive s b)),
  (Reg.RCH_STATUS_WINDOWS b, fun s => windowCount s b),
  (Reg.TRK_WIN_DATA b, fun s => trackItem s b (getF s (Reg.TRK_WIN_ADDR_TRACK b)) (getF s (Reg.TRK_WIN_ADDR_MODULE b)) (getF s (Reg.TRK_WIN_ADDR_ITEM b)))]

/-- The live fields of LDPC, VERIFY, CAL, RECOV (R229, R250, R283, R284). -/
def liveRead : List (Fld × (State → Nat)) := [
  (Reg.LDPC_STATUS, poolUsed),
  (Reg.RW_STATUS_BACKLOG, fun s => min 2047 s.fmt.rewrite.length),
  (Reg.CAL_WIN_DATA, calItem),
  (Reg.RCV_STATUS_WEAK_COUNT, fun s => s.rch.weak.length),
  (Reg.WEAK_WIN_DATA, fun s => s.rch.weak.getD (getF s Reg.WEAK_WIN_ADDR_ENTRY) 0)]

/-- The live fields of CMP, CIPH and KEYS (R307, R334, R335). -/
def liveGran : List (Fld × (State → Nat)) := [
  (Reg.CMP_STATUS_BUSY, fun s => maskOf 16 (s.cmp.busy.map Prod.fst)),
  (Reg.CIPH_STATUS_BUSY, fun s => maskOf 8 (s.ciph.runs.flatMap CipherRun.lanes)),
  (Reg.CIPH_STATUS_NO_PAIR, fun s => b2n (noPair s)),
  (Reg.CIPH_QDEPTH_WR, fun s => min 255 s.ciph.wr.length),
  (Reg.CIPH_QDEPTH_RD, fun s => min 255 s.ciph.rd.length),
  (Reg.CIPH_QDEPTH_FW, fun s => min 255 s.ciph.fw.length),
  (Reg.CIPH_QDEPTH_HOST, fun s => min 255 s.ciph.host.length),
  (Reg.KEY_STATUS_LOADED, fun s => (s.keys.data.filter fun e => e.2.state == 1).length),
  (Reg.KEY_STATUS_KEK_LOADED, fun s => maskOf 16 (s.keys.kek.map Prod.fst)),
  (Reg.KEYS_SLOT_WIN_DATA_STATE, fun s => (keySlot s (getF s Reg.KEYS_SLOT_WIN_ADDR_SLOT)).state),
  (Reg.KEYS_SLOT_WIN_DATA_TENANT, fun s => (keySlot s (getF s Reg.KEYS_SLOT_WIN_ADDR_SLOT)).tenant),
  (Reg.SLOT_WIN_TAG, fun s => (keySlot s (getF s Reg.KEYS_SLOT_WIN_ADDR_SLOT)).tag)]

/-- The live fields of DDRn: the mode register read, whose value comes from the DRAM (R372). -/
def liveDdr (n : Nat) : List (Fld × (State → Nat)) := [(Reg.DDR_MR_DATA n, fun s => (freeVal 8 s).toNat)]

/-- The live fields of MEMECC and SREP (R373, R374). -/
def liveMem : List (Fld × (State → Nat)) := [
  (Reg.MEM_STATUS_SCRUB_RUN, fun s => b2n (getB s Reg.MEM_STATUS_READY && getB s Reg.MEM_CTRL_EN && getB s Reg.MEM_CTRL_SCRUB_EN)),
  (Reg.RLOG_WIN_DATA, rlogWord),
  (Reg.RETIRE_STATUS_RETIRED, retiredCount),
  (Reg.RETIRE_STATUS_PENDING, pendingCount),
  (Reg.QUAR_STATUS, quarCount),
  (Reg.RET_WIN_DATA_PAGE, fun s => s.mem.retire.getD (getF s Reg.RET_WIN_ADDR_ENTRY) 0),
  (Reg.RET_WIN_DATA_PENDING, fun s => match s.mem.retire[getF s Reg.RET_WIN_ADDR_ENTRY]? with | some p => b2n (page s p).pending | none => 0),
  (Reg.SREP_WIN_DATA, fun s => Tbl.get 0 s.mem.soft (getF s Reg.SREP_WIN_ADDR_ENTRY)),
  (Reg.SREP_FUSE_DATA_FUSE_ROWS, fun s => repRows s.fuseMap.entries (getF s Reg.SREP_FUSE_ADDR)),
  (Reg.SREP_FUSE_DATA_FUSE_COL, fun s => b2n (repCol s.fuseMap.entries (getF s Reg.SREP_FUSE_ADDR))),
  (Reg.SREP_FUSE_DATA_SOFT_ROWS, fun s => repRows s.mem.inForce (getF s Reg.SREP_FUSE_ADDR)),
  (Reg.SREP_FUSE_DATA_SOFT_COL, fun s => b2n (repCol s.mem.inForce (getF s Reg.SREP_FUSE_ADDR))),
  (Reg.SREP_CAND_CNT_ENTRIES, fun s => s.mem.cands.length),
  (Reg.SREP_CAND_DATA, fun s => s.mem.cands.getD (getF s Reg.SREP_CAND_ADDR) 0)]

/-- The live fields of POOL and ACCT (R395, R396). -/
def livePool : List (Fld × (State → Nat)) := [
  (Reg.POOL_STATUS_FLOOR_LOW, fun s => b2n (floorLow s)),
  (Reg.POOL_CAP, capacity),
  (Reg.POOL_FREE, fun s => s.pool.free),
  (Reg.POOL_CACHE, fun s => s.pool.cache.length),
  (Reg.POOL_RING, ringCount),
  (Reg.WAIT_STATUS, fun s => min 256 s.pool.waiters.length),
  (Reg.ACCT_WIN_DATA, acctWinData),
  (Reg.MIN_SUM, minSum),
  (Reg.UNMET_SUM, unmetSum)]

/-- The live fields of EPBX (R433). -/
def liveLink : List (Fld × (State → Nat)) := [
  (Reg.LNK_SEQ_TX_NEXT, fun s => s.lnk.txSeq),
  (Reg.LNK_SEQ_TX_OLDEST, txOldest),
  (Reg.LNK_RXSEQ, fun s => s.lnk.rxSeq),
  (Reg.LNK_HELD, heldFlits),
  (Reg.TOK_WIN_DATA_COUNT, fun s => (tokWin s).1),
  (Reg.TOK_WIN_DATA_DEPTH, fun s => (tokWin s).2),
  (Reg.DO_WIN_TAG_TAG, fun s => match doTarget s (getF s Reg.DO_WIN_ADDR) with | some e => dTag e.desc | none => 0),
  (Reg.DO_WIN_TAG_ACTIVE, fun s => b2n (doTarget s (getF s Reg.DO_WIN_ADDR)).isSome),
  (Reg.DO_WIN_BYTES, fun s => match doTarget s (getF s Reg.DO_WIN_ADDR) with | some e => e.data.length | none => 0),
  (Reg.EPBX_OUT_STATUS_COMPL_WAIT, fun s => s.que.out.length),
  (Reg.EPBX_OUT_STATUS_EVT_WAIT, fun s => s.evt.fifo.length)]

/-- TAG of an executing command, zero while there is none. -/
def execTag (x : Option ExecSt) : Nat := match x with | some x => dTag x.entry.desc | none => 0

/-- Name of the bracket that entries now entering join (R457). -/
def minuteName (s : State) : Nat := match s.mtr.brackets.getLast? with | some b => b.name | none => 0xFFFFFFFFFFFFFFFF

/-- The live fields of QUE, TEN and METER (R469–R471). -/
def liveQue : List (Fld × (State → Nat)) := [
  (Reg.QUE_STATUS_HALTED, fun s => b2n s.que.halt.isSome),
  (Reg.QUE_STATUS_BUSY, fun s => b2n s.que.exec.isSome),
  (Reg.QUE_STATUS_DEPTH, fun s => s.que.stream.length),
  (Reg.QUE_STATUS_HALT_STATUS, fun s => s.que.halt.getD 0),
  (Reg.STREAM_EXEC_TAG, fun s => execTag s.que.exec),
  (Reg.STREAM_EXEC_OPCODE, fun s => match s.que.exec with | some x => dOpcode x.entry.desc | none => 0),
  (Reg.MINUTE_LO, minuteName),
  (Reg.MINUTE_HI, fun s => minuteName s / 2 ^ 32),
  (Reg.SQ_WIN_DATA_WAITING, fun s => (side s (getF s Reg.SQ_WIN_ADDR)).queue.length),
  (Reg.SQ_WIN_DATA_BUSY, fun s => b2n (side s (getF s Reg.SQ_WIN_ADDR)).exec.isSome),
  (Reg.SQ_WIN_DATA_TAG, fun s => execTag (side s (getF s Reg.SQ_WIN_ADDR)).exec),
  (Reg.CMD_SEQ, fun s => s.que.cmdSeq),
  (Reg.TEN_STATUS, fun s => (s.ten.filter fun e => e.2.state != 0).length),
  (Reg.TEN_WIN_DATA, tenWinWord),
  (Reg.MTR_STATUS_PENDING, fun s => b2n (mtrPending s))]

/-- The live fields of MOTx (R505). -/
def liveMot (x : Nat) : List (Fld × (State → Nat)) := [
  (Reg.MOT_STATUS_STO x, fun s => b2n (reelSto s)),
  (Reg.MOT_STATUS_RUNNING x, fun s => b2n (getB s (Reg.MOT_STATUS_RUNNING x) && getB s (Reg.MOT_CTRL_EN x) && !reelSto s))]

/-- The live fields of ACT, ADC, LOOP, LCAP and LREP (R507, R539, R541–R543). -/
def liveLoop : List (Fld × (State → Nat)) := [
  (Reg.ACT_STATUS_LAT_STO, fun s => b2n (actSto s)),
  (Reg.ACT_STATUS_TILT_STO, fun s => b2n (actSto s)),
  (Reg.ACT_STATUS_LAT_RUN, fun s => b2n (getB s Reg.ACT_STATUS_LAT_RUN && getB s Reg.ACT_CTRL_LAT_EN && !actSto s)),
  (Reg.ACT_STATUS_TILT_RUN, fun s => b2n (getB s Reg.ACT_STATUS_TILT_RUN && getB s Reg.ACT_CTRL_TILT_EN && !actSto s)),
  (Reg.ADC_WIN_DATA, fun s => Tbl.get 0 s.mot.adc (getF s Reg.ADC_WIN_ADDR)),
  (Reg.LOOP_STATUS_SAT, fun s => maskOf 16 ((s.mot.slots.filter fun e => e.2.sat != 0).map Prod.fst)),
  (Reg.LOOP_STATUS_SP_LIMITED, fun s => maskOf 16 ((s.mot.slots.filter fun e => e.2.limited).map Prod.fst)),
  (Reg.LOOP_FLAGS_COMMIT_PEND, fun s => b2n (s.mot.slots.any fun e => e.2.commit)),
  (Reg.LOOP_FLAGS_DECEL_HALF, fun s => b2n (decelHalf s)),
  (Reg.LOOP_SLOT_WIN_DATA, slotWinRead),
  (Reg.CAP_WIN_DATA, capRead),
  (Reg.BIN_WIN_DATA, fun s => ofS 16 (bin s (getF s Reg.BIN_WIN_ADDR_REEL) (getF s Reg.BIN_WIN_ADDR_BIN)))]

/-- The live fields of a page. -/
def liveOf (p : Nat) : List (Fld × (State → Nat)) :=
  if p < 0x09 then liveChip
  else if p = 0x12 ∨ p = 0x49 then liveFmt
  else if 0x14 ≤ p ∧ p < 0x1C then liveBseq (p - 0x14)
  else if 0x40 ≤ p ∧ p < 0x48 then liveRch (p - 0x40)
  else if 0x48 ≤ p ∧ p < 0x50 then liveRead
  else if 0x50 ≤ p ∧ p < 0x53 then liveGran
  else if 0x58 ≤ p ∧ p < 0x5C then liveDdr (p - 0x58)
  else if p = 0x5C ∨ p = 0x5D then liveMem
  else if p = 0x60 ∨ p = 0x61 then livePool
  else if p = 0x68 then liveLink
  else if p = 0x69 ∨ p = 0x70 ∨ p = 0x71 then liveQue
  else if p = 0x78 ∨ p = 0x79 then liveMot (p - 0x78)
  else if 0x7A ≤ p ∧ p < 0x7F then liveLoop
  else []

/-! ## Reading -/

/-- A page's header word: PAGE_STATUS and PAGE_SEAL show what is in force (R607). -/
def headerWord (s : State) (p off : Nat) : Nat :=
  let w := (rd s (0x1000 * p + off)).toNat
  if off = 0x00C then
    let w := setSlice w 0 1 (getF s (hdrEN p))
    let w := setSlice w 2 1 (getF s (hdrLOCK p))
    setSlice w 5 1 (b2n (getF s (hdrEVT_STATUS p) &&& getF s (hdrEVT_ENABLE p) != 0))
  else if off = 0x028 then setSlice w 1 1 (b2n (isSealed s))
  else w

/-- The value a word has now, the host's latch apart: zero on an unallocated page (R604) and on a block whose clocks are stopped (R608). -/
def liveWord (s : State) (addr : Nat) : Nat :=
  let p := addr / 0x1000
  match pageInfo p with
  | none => 0
  | some i =>
    if addr % 0x1000 < 0x40 then headerWord s p (addr % 0x1000)
    else if i.enCtl && !pageRuns s p then 0
    else ((liveOf p).filter fun e => e.1.addr == addr).foldl (fun w e => setSlice w e.1.lo e.1.width (e.2 s)) (rd s addr).toNat

/-- The HI word that a read of this LO word latches (R54, R307, R334, R469, R542, R606, R607). -/
def hiOf (addr : Nat) : Option Nat :=
  let off := addr % 0x1000
  if off = 0x020 then some (addr + 4)
  else if [0x08048, 0x5004C, 0x50054, 0x50070, 0x51050, 0x51058, 0x51070, 0x6904C, 0x7D060].contains addr then some (addr + 4)
  else none

/-- An index of a window moves on: to the next value, or back to 0 with a carry into the next index named (R617). -/
def bump : List (Fld × Nat) → State → State
  | [], s => s
  | (f, n) :: t, s => if getF s f + 1 < n then setF f (getF s f + 1) s else bump t (setF f 0 s)

/-- The windows that advance on a read: AUTOINC, and the indices in the order the chapter gives, with how many values each has (R617). -/
def readWindow (addr : Nat) : Option (Fld × List (Fld × Nat)) :=
  let p := addr / 0x1000
  let off := addr % 0x1000
  let b := p - 0x14
  let r := p - 0x40
  if 0x14 ≤ p ∧ p < 0x1C ∧ off = 0x060 then some (Reg.BRD_WIN_ADDR_AUTOINC b, [(Reg.BRD_WIN_ADDR_WORD b, 4), (Reg.BRD_WIN_ADDR_INDEX b, 8192)])
  else if 0x14 ≤ p ∧ p < 0x1C ∧ off = 0x068 then some (Reg.EXT_WIN_ADDR_AUTOINC b, [(Reg.EXT_WIN_ADDR_ENTRY b, 192)])
  else if 0x40 ≤ p ∧ p < 0x48 ∧ off = 0x074 then some (Reg.TRK_WIN_ADDR_AUTOINC r, [(Reg.TRK_WIN_ADDR_ITEM r, 33)])
  else if addr = Reg.FLT_LOG_WIN_DATA.addr then some (Reg.FLT_LOG_WIN_ADDR_AUTOINC, [(Reg.FLT_LOG_WIN_ADDR_WORD, 8), (Reg.FLT_LOG_WIN_ADDR_ENTRY, 1024)])
  else if addr = Reg.CAL_WIN_DATA.addr then some (Reg.CAL_WIN_ADDR_AUTOINC, [(Reg.CAL_WIN_ADDR_ITEM, 4)])
  else if addr = Reg.WEAK_WIN_DATA.addr then some (Reg.WEAK_WIN_ADDR_AUTOINC, [(Reg.WEAK_WIN_ADDR_ENTRY, 256)])
  else if addr = Reg.SLOT_WIN_TAG.addr then some (Reg.KEYS_SLOT_WIN_ADDR_AUTOINC, [(Reg.KEYS_SLOT_WIN_ADDR_SLOT, 1024)])
  else if addr = Reg.RLOG_WIN_DATA.addr then some (Reg.RLOG_WIN_ADDR_AUTOINC, [(Reg.RLOG_WIN_ADDR_WORD, 8), (Reg.RLOG_WIN_ADDR_ENTRY, 4096)])
  else if addr = Reg.RET_WIN_DATA_PAGE.addr then some (Reg.RET_WIN_ADDR_AUTOINC, [(Reg.RET_WIN_ADDR_ENTRY, 32768)])
  else if addr = Reg.SREP_WIN_DATA.addr then some (Reg.SREP_WIN_ADDR_AUTOINC, [(Reg.SREP_WIN_ADDR_ENTRY, 512)])
  else if addr = Reg.ACCT_WIN_DATA.addr then some (Reg.ACCT_WIN_ADDR_AUTOINC, [(Reg.ACCT_WIN_ADDR_ITEM, 8), (Reg.ACCT_WIN_ADDR_ACCOUNT, 272)])
  else if addr = Reg.TEN_WIN_DATA.addr then some (Reg.TEN_WIN_ADDR_AUTOINC, [(Reg.TEN_WIN_ADDR_ITEM, 6), (Reg.TEN_WIN_ADDR_CONTEXT, 256)])
  else if addr = Reg.LOOP_SLOT_WIN_DATA.addr then some (Reg.LOOP_SLOT_WIN_ADDR_AUTOINC, [(Reg.LOOP_SLOT_WIN_ADDR_ITEM, 104)])
  else if addr = Reg.CAP_WIN_DATA.addr then some (Reg.CAP_WIN_ADDR_AUTOINC, [(Reg.CAP_WIN_ADDR_SAMPLE, 8192)])
  else if addr = Reg.BIN_WIN_DATA.addr then some (Reg.BIN_WIN_ADDR_AUTOINC, [(Reg.BIN_WIN_ADDR_BIN, 256)])
  else none

/-- The window's address advances after a data access, if AUTOINC is set (R617). -/
def windowNext (addr : Nat) (s : State) : State :=
  match readWindow addr with
  | some (auto, idx) => if getB s auto then bump idx s else s
  | none => s

/-- The block of the page is reached: the page is allocated and its clocks run, or the word is one of the header's (R604, R608). -/
def reached (s : State) (addr : Nat) : Bool :=
  match pageInfo (addr / 0x1000) with
  | none => false
  | some i => decide (addr % 0x1000 < 0x40) || !i.enCtl || pageRuns s (addr / 0x1000)

/-- What a read of a word changes (R606): the latch, a window's address, and the free value that a mode register read took. -/
def afterRead (addr : Nat) (s : State) : State :=
  if !reached s addr then s
  else
    let s := match hiOf addr with
      | some h => { s with latch := Tbl.set s.latch h (BitVec.ofNat 32 (liveWord s h)) }
      | none => s
    let s := if 0x58 ≤ addr / 0x1000 ∧ addr / 0x1000 < 0x5C ∧ addr % 0x1000 = 0x04C then takeFree s else s
    windowNext addr s

/-- The word a host read returns: the latched value on a HI word (R54). -/
def readWord (s : State) (addr : Nat) : Word :=
  if reached s addr && decide (4 ≤ addr) && (hiOf (addr - 4)).isSome then Tbl.get (resetWord addr) s.latch addr
  else BitVec.ofNat 32 (liveWord s addr)

/-- A host read of the word at `addr`. -/
def hostRead (addr : Nat) (s : State) : Word × State := (readWord s addr, afterRead addr s)

/-! ## Meanings -/

/-- LO_WORD_READ: a read of the LO word at `addr` (R54). -/
def execLoWordRead (addr : Nat) (s : State) : Host.Outcome State Fault Refusal := .next (if (hiOf addr).isSome then afterRead addr s else s)

end Sys2Proof.Machine
end

