-- ==== Sys2Proof/Machine/HostWrite.lean ====
section
/-!
DEFINITION. A host write of a word of register space (R604–R617): the access codes of each field, the header's registers, LOCK, clock enables and
quiescing, and for each block the registers whose write does more than store. REG_IMAGE (R439), which writes a list of them.
-/
namespace Sys2Proof.Machine

/-! ## Fields by access code (R605, R610) -/

/-- A word's value after one field of it has been written: RW and RWT store, RWS stores until the seal, W1C clears, RO and WO keep. -/
def storeField (sealed : Bool) (v : Nat) (old : Nat) (f : FieldSpec) : Nat :=
  let new := slice v f.lo f.width
  match f.acc with
  | .rw => setSlice old f.lo f.width new
  | .rwt => setSlice old f.lo f.width new
  | .rws => if sealed then old else setSlice old f.lo f.width new
  | .w1c => setSlice old f.lo f.width (slice old f.lo f.width - (slice old f.lo f.width &&& new))
  | .ro => old
  | .wo => old

/-- A write would change an RWS field (R605). -/
def rwsDiffers (v old : Nat) (f : FieldSpec) : Bool := f.acc == .rws && slice v f.lo f.width != slice old f.lo f.width

/-- A write of the fields of a word, each by its own code (R605). -/
def storeWord32 (addr v : Nat) (fs : List FieldSpec) (s : State) : State :=
  let old := (rd s addr).toNat
  let s := if fs.isEmpty then s else wr addr (BitVec.ofNat 32 (fs.foldl (storeField (rwsLocked s) v) old)) s
  if rwsLocked s && fs.any (rwsDiffers v old) then setF (hdrRWS_WR (addr / 0x1000)) 1 s else s

/-- A write that only the access codes govern. -/
def store (addr v : Nat) (s : State) : State := storeWord32 addr v (fieldsAt addr) s

/-- The fields that LOCK locks (R610). -/
def lockable (f : FieldSpec) : Bool := f.acc == .rw || f.acc == .rwt || f.acc == .rws || f.acc == .wo

/-- A write to a block word of a locked page (R610): W1C fields are cleared as before, the others keep their values and LOCK_WR is set. -/
def lockedWrite (addr v : Nat) (s : State) : State :=
  let fs := fieldsAt addr
  let s := storeWord32 addr v (fs.filter fun f => f.acc == .w1c) s
  if fs.any lockable then setF (hdrLOCK_WR (addr / 0x1000)) 1 s else s

/-! ## The header (R607–R610, R613, R614) -/

/-- A page's block registers go back to their reset values, and so does what the block keeps beside them (R608). -/
def restoreBlock (p : Nat) (s : State) : State :=
  let s := { s with regs := s.regs.filter fun e => !(e.1 / 0x1000 == p && decide (0x40 ≤ e.1 % 0x1000)) }
  if p = 0x7D then setMot { s.mot with cap := {} } s
  else if p = 0x7E then setMot { s.mot with bins := [] } s
  else if 0x09 ≤ p ∧ p < 0x12 then setReader (p - 0x09) 0 {} (setReader (p - 0x09) 1 {} s)
  else s

/-- The readers' qualification follows a change of a SERVO page (R43, R608). -/
def servoChanged (p : Nat) (s : State) : State := if 0x09 ≤ p ∧ p < 0x12 then requalify s else s

/-- A write of PAGE_CTRL.EN (R608): after the seal it is fixed, and one that differs sets RWS_WR. -/
def pageEn (p : Nat) (en : Bool) (s : State) : State :=
  match pageInfo p with
  | none => s
  | some i =>
    if !i.enCtl ∨ pageRuns s p = en then s
    else if rwsLocked s then setF (hdrRWS_WR p) 1 s
    else servoChanged p (if en then restoreBlock p (setF (hdrEN p) 1 s) else setF (hdrEN p) 0 s)

/-- What a quiesced block starts again once QUIESCE is clear: CMP hands out granules (R609). -/
def resumeBlock (p : Nat) (s : State) : State := if p = 0x50 then handOut s else s

/-- A write of PAGE_CTRL.QUIESCE (R609, R610). -/
def pageQuiesce (p : Nat) (q : Bool) (s : State) : State :=
  match pageInfo p with
  | none => s
  | some i =>
    if !i.quiesce then s
    else lockGate p (fun s =>
      if q then setF (hdrQUIESCE p) 1 s else resumeBlock p (setF (hdrQUIESCED p) 0 (setF (hdrQUIESCE p) 0 s))) s

/-- The work that a quiesced block was to finish is done (R609). -/
def quiesceDone (p : Nat) (s : State) : Bool :=
  if 0x14 ≤ p ∧ p < 0x1C then !(band s (p - 0x14)).running
  else if p = 0x50 then s.cmp.busy.isEmpty
  else if p = 0x51 then s.ciph.runs.isEmpty
  else if p = 0x4B then s.cal.applyAt.isNone
  else false

/-- The quiesce is complete (R609). -/
def pageQuiesced (p : Nat) (s : State) : State :=
  let s := if p = 0x50 then freeEngines s else s
  if getB s (hdrQUIESCE p) ∧ quiesceDone p s then setF (hdrQUIESCED p) 1 s else s

/-- A write that sets LOCK: ignored before the seal (R610). -/
def pageLock (p : Nat) (s : State) : State := if (pageInfo p).isSome ∧ isSealed s then setF (hdrLOCK p) 1 s else s

/-- One forced event (R613). -/
def forceEvent (p bit : Nat) (s : State) : State :=
  let was := getB s (evtBit p bit)
  let st := stampNow s
  let s := markEvent p bit 0 true s
  if getB s (evtEnBit p bit) && !was && svc3Runs s then sendEvent p bit 0 0x1FF 0 st s else s

/-- A write of EVT_FORCE: each defined bit written 1, the lowest first (R613, R614). -/
def forceEvents (p v : Nat) (s : State) : State := forEach (maskList 32 (v &&& definedEvents p)) (forceEvent p) s

/-- A write of 1 to EVT_FIRST.VALID (R614). -/
def firstClear (p : Nat) (s : State) : State :=
  if (pageInfo p).isNone then s else setF (hdrERR_POS_HI p) 0 (setF (hdrERR_POS_LO p) 0 (setF (hdrEVT_FIRST p) 0 s))

/-- A write of a header word of an allocated page. -/
def headerWrite (p off v : Nat) (s : State) : State :=
  if off = 0x008 then
    let s := pageQuiesce p (v.testBit 1) (pageEn p (v.testBit 0) s)
    if v.testBit 2 then pageLock p s else s
  else if off = 0x00C then storeWord32 (0x1000 * p + off) v (fieldsAt (0x1000 * p + off)) s
  else if off = 0x010 then storeWord32 (0x1000 * p + off) v (fieldsAt (0x1000 * p + off)) s
  else if off = 0x014 then setF (hdrEVT_ENABLE p) (v &&& definedEvents p) s
  else if off = 0x018 then forceEvents p v s
  else if off = 0x01C ∧ v.testBit 31 then firstClear p s
  else s

/-! ## Blocks whose writes do more than store -/

/-- An action that a written 1 of a bit calls for. -/
def onBit (v bit : Nat) (act : State → State) (s : State) : State := if v.testBit bit then act s else s

/-- SEC (R571, R579, R585, R591): boot control, the image aperture, the seal, the entropy retest, whose raw bits are free. -/
def writeSec (off v : Nat) (s : State) : State :=
  if off = 0x044 then onBit v 1 clearRegion (onBit v 0 bootGo s)
  else if off = 0x058 then onBit v 0 configSeal s
  else if off = 0x060 then
    onBit v 0 (fun s => entropyTest (lsbBits 4096 (freeVal 4096 s).toNat) (takeFree s)) s
  else if 0x200 ≤ off ∧ off < 0x280 then apertureWrite ((off - 0x200) / 4) v s
  else store (0x3000 + off) v s

/-- A write to a board buffer's word, extension entry, origin or information: locked while the buffer is armed (R159). -/
def whileUnarmed (b buf : Nat) (act : State → State) (s : State) : State :=
  if ((band s b).buf buf).armed then notify (bseqPage b) 6 0 s else act s

/-- A write of BRD_WIN_DATA (R159, R184, R185). -/
def brdWinWrite (b v : Nat) (s : State) : State :=
  let buf := getF s (Reg.BRD_WIN_ADDR_BUF b)
  let k := 4 * getF s (Reg.BRD_WIN_ADDR_INDEX b) + getF s (Reg.BRD_WIN_ADDR_WORD b)
  windowNext (Reg.BRD_WIN_DATA b).addr <| whileUnarmed b buf (fun s =>
    if getB s (Reg.BRD_CTRL_HOST b) then
      setBand b ((band s b).setBuf buf { (band s b).buf buf with dsn := none, words := Tbl.set ((band s b).buf buf).words k (BitVec.ofNat 32 v) }) s
    else s) s

/-- A write of EXT_WIN_DATA (R159, R184, R185). -/
def extWinWrite (b v : Nat) (s : State) : State :=
  let buf := getF s (Reg.EXT_WIN_ADDR_BUF b)
  let k := getF s (Reg.EXT_WIN_ADDR_ENTRY b)
  windowNext (Reg.EXT_WIN_DATA b).addr <| whileUnarmed b buf (fun s =>
    if getB s (Reg.BRD_CTRL_HOST b) ∧ k < 192 then
      setBand b ((band s b).setBuf buf { (band s b).buf buf with dsn := none, ext := Tbl.set ((band s b).buf buf).ext k (BitVec.ofNat 32 (v % 2 ^ 20)) }) s
    else s) s

/-- BSEQb (R159, R184, R185): of several bits of one BRD_CTRL write, EN and HOST take effect first, then the requests in ascending order. -/
def writeBseq (b off v : Nat) (s : State) : State :=
  let addr := 0x1000 * bseqPage b + off
  if off = 0x040 then
    let s := setB (Reg.BRD_CTRL_EN b) (v.testBit 0) s
    let s := if v.testBit 5 then brdHostSet b s else setF (Reg.BRD_CTRL_HOST b) 0 s
    onBit v 7 (brdDisarm b 1) (onBit v 6 (brdDisarm b 0) (onBit v 4 (brdStop b) (onBit v 3 (brdStart b) (onBit v 2 (brdArm b 1) (onBit v 1 (brdArm b 0) s)))))
  else if off = 0x048 ∨ off = 0x050 then whileUnarmed b 0 (store addr v) s
  else if off = 0x04C ∨ off = 0x054 then whileUnarmed b 1 (store addr v) s
  else if off = 0x060 then brdWinWrite b v s
  else if off = 0x068 then extWinWrite b v s
  else if 0x100 ≤ off ∧ off < 0x178 then
    if getB s (Reg.BRD_CTRL_HOST b) ∧ !(band s b).running then store addr v s else s
  else store addr v s

/-- HFEn (R73, R77, R174, R250): link permissions, and writer and reader registers, which are forwarded. -/
def writeHfe (n off v : Nat) (s : State) : State :=
  let addr := 0x1000 * hfePage n + off
  if off = 0x040 then onBit v 3 (retrainHfe n true) (clPermission n (v.testBit 0) (v.testBit 1) (v.testBit 2) s)
  else if 0x100 ≤ off ∧ off < 0x200 ∧ off % 0x10 = 0xC then calValueWrite addr v s
  else if (0x100 ≤ off ∧ off < 0x200) ∨ (0x200 ≤ off ∧ off < 0x300 ∧ off % 8 = 0) then forwardHfe n off (store addr v s)
  else store addr v s

/-- RCHb (R226, R227). -/
def writeRch (b off v : Nat) (s : State) : State :=
  let addr := 0x1000 * rchPage b + off
  if off = 0x048 ∨ off = 0x050 then
    let s := store addr v s
    if isSealed s then s else wr (addr + 4) (rd s addr) s
  else if off = 0x074 then trackWrite b v s
  else store addr v s

/-- CAL (R245, R250, R251): the calibration values, and clearing a freeze, which clears the element's rollbacks and its hold. With EN cleared no new
cycle is in progress (R250). -/
def writeCal (off v : Nat) (s : State) : State :=
  let addr := 0x4B000 + off
  if off = 0x044 then
    let s := if v.testBit 5 ∧ getB s Reg.CAL_STATUS_SERVO_FREEZE then setCal { s.cal with servo := { s.cal.servo with rolls := [], hold := 0 } } s else s
    let s := if v.testBit 6 ∧ getB s Reg.CAL_STATUS_TILT_FREEZE then setCal { s.cal with tilt := { s.cal.tilt with rolls := [], hold := 0 } } s else s
    store addr v s
  else if off = 0x040 then
    let s := store addr v s
    if !getB s Reg.CAL_CTRL_EN ∧ s.cal.applyAt.isNone then setF Reg.CAL_STATUS_ACTIVE 0 s else s
  else if off = 0x054 ∨ off = 0x05C then calValueWrite addr v s
  else if off = 0x064 then calWinWrite v s
  else store addr v s

/-- MEMECC (R339, R363, R364, R366, R370, R373): a write of RATE = 3 leaves RATE. -/
def writeMem (off v : Nat) (s : State) : State :=
  let addr := 0x5C000 + off
  if off = 0x040 then store addr (if slice v 1 2 = 3 then setSlice v 1 2 (getF s Reg.MEM_CFG_RATE) else v) s
  else if off = 0x044 then onBit v 2 trainStart (store addr v s)
  else if off = 0x07C then rlogTail v s
  else if off = 0x08C then retirePage (v % 2 ^ 23) s
  else if off = 0x090 then releasePage (v % 2 ^ 23) s
  else if off = 0x0A4 then onBit v 4 (splitPcheck false) (onBit v 3 (splitRead false) (onBit v 2 (splitWrite false) (store addr v s)))
  else store addr v s

/-- A write of SREP_WIN_DATA, an RWS window (R368, R605, R617). -/
def softWrite (v : Nat) (s : State) : State :=
  let k := getF s Reg.SREP_WIN_ADDR_ENTRY
  let v := v % 2 ^ 23 + slice v 31 1 * 2 ^ 31
  let s := if rwsLocked s then (if Tbl.get 0 s.mem.soft k = v then s else setF (hdrRWS_WR 0x5D) 1 s)
    else setMem { s.mem with soft := Tbl.set s.mem.soft k v } s
  windowNext Reg.SREP_WIN_DATA.addr s

/-- POOL (R389, R394): EN is RWS, and setting it builds the free store. -/
def writePool (off v : Nat) (s : State) : State :=
  if off = 0x040 then
    if rwsLocked s then store 0x60040 v s else if v.testBit 0 then buildStart s else setF Reg.POOL_CTRL 0 s
  else if off = 0x058 then onBit v 5 portCancel (onBit v 4 portGo (store 0x60058 v s))
  else store (0x60000 + off) v s

/-- MOTx (R490, R492, R504). -/
def writeMot (x off v : Nat) (s : State) : State :=
  let addr := 0x1000 * motPage x + off
  if off = 0x040 then
    let s := store addr (setSlice v 0 1 (getF s (Reg.MOT_CTRL_EN x))) s
    if v.testBit 0 then motEnable x s else driveOff x (setF (Reg.MOT_CTRL_EN x) 0 s)
  else if off = 0x0D8 ∧ x = 0 then radSeed v s
  else store addr v s

/-- LOOP (R515, R522, R530, R536, R540, R616). -/
def writeLoop (off v : Nat) (s : State) : State :=
  let addr := 0x7C000 + off
  if off = 0x040 then loopCommit (slice v 16 16) (store addr v s)
  else if off = 0x04C then spdSource (v % 4) (setB Reg.SPD_CTRL_SPDREF_DIR (v.testBit 2) s)
  else if off = 0x07C then
    let s := store addr v s
    if isSealed s then s else setF Reg.LAT_OFS_ACT v s
  else if off = 0x084 then
    let s := store addr v s
    if isSealed s then s else setF Reg.RD_OFS_ACT v s
  else if off = 0x0C8 then onBit v 9 injEnd (onBit v 8 injGo (store addr v s))
  else if off = 0x0DC then slotWinWrite v s
  else store addr v s

/-- ACT (R541): an enable that is cleared turns its actuator off. -/
def writeAct (off v : Nat) (s : State) : State :=
  if off = 0x040 then
    let lat := getB s Reg.ACT_CTRL_LAT_EN && !v.testBit 0
    let tilt := getB s Reg.ACT_CTRL_TILT_EN && !v.testBit 1
    let s := store 0x7A040 v s
    let s := if lat then actOff 0 s else s
    if tilt then actOff 1 s else s
  else store (0x7A000 + off) v s

/-- A write of a block word of a page that is not locked. -/
def blockWrite (p off v : Nat) (s : State) : State :=
  let addr := 0x1000 * p + off
  if p = 0x01 then (if off = 0x050 then fltLogTail v s else store addr v s)
  else if p = 0x02 then (if off = 0x068 ∧ !s3InForce s then s else store addr v s)
  else if p = 0x03 then writeSec off v s
  else if 0x09 ≤ p ∧ p < 0x12 then (if off = 0x050 ∨ off = 0x058 then calValueWrite addr v s else servoChanged p (store addr v s))
  else if p = 0x12 then (if off = 0x080 then onBit v 0 encInject s else store addr v s)
  else if 0x14 ≤ p ∧ p < 0x1C then writeBseq (p - 0x14) off v s
  else if 0x20 ≤ p ∧ p < 0x40 then writeHfe (p - 0x20) off v s
  else if 0x40 ≤ p ∧ p < 0x48 then writeRch (p - 0x40) off v s
  else if p = 0x49 then
    if off = 0x040 then outCtrl (v.testBit 0) (v.testBit 1) (setF Reg.OUT_CTRL_C2_MARGIN (v / 2 ^ 8) (setB Reg.OUT_CTRL_C3_ERR_EN (v.testBit 2) s))
    else store addr v s
  else if p = 0x4B then writeCal off v s
  else if p = 0x4C then
    if off = 0x040 then onBit v 31 clearWeak (store addr v s) else if off = 0x068 then weakWrite v s else store addr v s
  else if p = 0x50 then
    if off = 0x040 then handOut (onBit v 1 dvInject (store addr v s)) else if off = 0x048 then handOut (store addr v s) else store addr v s
  else if p = 0x51 then
    if off = 0x040 then onBit v 2 pairInject (store addr v s)
    else if off = 0x048 then pairCheck (noPair s) (store addr v s)
    else store addr v s
  else if p = 0x5C then writeMem off v s
  else if p = 0x5D then (if off = 0x040 then onBit v 0 srepApply s else if off = 0x04C then softWrite v s else store addr v s)
  else if p = 0x60 then writePool off v s
  else if p = 0x61 then (if off = 0x044 then acctWinWrite v s else store addr v s)
  else if p = 0x68 then
    if off = 0x040 then
      let s := store addr v s
      setLnk { s.lnk with retrainDue := s.lnk.retrainDue || v.testBit 0, resetDue := s.lnk.resetDue || v.testBit 1 } s
    else store addr v s
  else if p = 0x69 then (if off = 0x040 then queuesStart (store addr v s) else store addr v s)
  else if p = 0x71 then (if off = 0x048 then mtrAck v s else store addr v s)
  else if p = 0x78 ∨ p = 0x79 then writeMot (p - 0x78) off v s
  else if p = 0x7A then writeAct off v s
  else if p = 0x7C then writeLoop off v s
  else if p = 0x7D then (if off = 0x040 then onBit v 1 capAbort (onBit v 0 capArm (store addr v s)) else store addr v s)
  else if p = 0x7E then
    if off = 0x040 then repClear (v.testBit 2) (v.testBit 3) (store addr v s) else if off = 0x05C then binWrite v s else store addr v s
  else store addr v s

/-- A write of a mailbox slot's word (R21–R23): while BUSY, MB_CMD and the arguments are refused with OVERRUN. -/
def mailboxWrite (p off v : Nat) (s : State) : State :=
  let k := off / 0x100 - 1
  let r := off % 0x100
  if off < 0x100 ∨ mailboxSlots p ≤ k then s
  else if r = 0 then mailboxRequest p k (BitVec.ofNat 32 v) s
  else if 0x10 ≤ r ∧ r < 0x50 ∧ getB s (mbBUSY p k) then mbOverrun p k s
  else if getB s (hdrLOCK p) then lockedWrite (0x1000 * p + off) v s
  else store (0x1000 * p + off) v s

/-- A host write of the word at `addr`: nothing on an unallocated page (R604) or on a block whose clocks are stopped (R608). -/
def hostWrite (addr v : Nat) (s : State) : State :=
  let p := addr / 0x1000
  let off := addr % 0x1000
  if !reached s addr then s
  else if off < 0x40 then headerWrite p off v s
  else if mailboxSlots p ≠ 0 then mailboxWrite p off v s
  else if getB s (hdrLOCK p) then lockedWrite addr v s
  else blockWrite p off v s

/-- The word address of a byte address of register space. -/
def wordAddr (a : Nat) : Nat := a % 2 ^ 20 / 4 * 4

/-- The addresses of STG registers (R616). -/
def isStg (addr : Nat) : Bool :=
  let p := addr / 0x1000
  let off := addr % 0x1000
  (decide (0x09 ≤ p ∧ p < 0x12) && (off == 0x050 || off == 0x058)) || (decide (0x40 ≤ p ∧ p < 0x48) && (off == 0x048 || off == 0x050))
    || addr == 0x4B054 || addr == 0x7C07C || addr == 0x7C084

/-! ## REG_IMAGE (R439) -/

/-- The entries written in list order; the list stops at an entry whose address is not a word of register space. Answers how many were
written and whether all were. -/
def imageWrite : List (Nat × Nat) → Nat → State → (Nat × Bool) × State
  | [], n, s => ((n, true), s)
  | (a, v) :: t, n, s => if a % 4 ≠ 0 ∨ 0x100000 ≤ a then ((n, false), s) else imageWrite t (n + 1) (hostWrite a v s)

/-- The entries of a REG_IMAGE's data: an address and a value of 4 bytes each. -/
def imageEntries (d : List Byte) : List (Nat × Nat) := (List.range (d.length / 8)).map fun i => (fieldAt d (8 * i) 4, fieldAt d (8 * i + 4) 4)

/-- REG_IMAGE once its data has come. -/
def regImage (q : Nat) (x : ExecSt) (s : State) : State :=
  if !dataHere x then s
  else
    let r := imageWrite (imageEntries (x.entry.data.take (dDataLen x.entry.desc))) 0 s
    let st := if r.1.2 then stOK else stBAD_DESCRIPTOR
    linkDue (finishSide q st 0 r.1.1 (statusDetail r.2 st) r.2)

/-! ## Meanings -/

/-- REGISTER_WRITE. -/
def execRegisterWrite (addr : Nat) (value : Word) (s : State) : Host.Outcome State Fault Refusal := .next (linkDue (hostWrite (wordAddr addr) value.toNat s))

/-- WINDOW_DATA_ACCESS: a write of `value`, or a read, of the window DATA register at `addr` (R617). -/
def execWindowDataAccess (addr : Nat) (value : Option Word) (s : State) : Host.Outcome State Fault Refusal :=
  .next (if (readWindow addr).isNone then s else match value with
    | some v => hostWrite addr v.toNat s
    | none => afterRead addr s)

/-- PAGE_EN. -/
def execPageEn (page : Nat) (en : Bool) (s : State) : Host.Outcome State Fault Refusal := .next (pageEn page en s)

/-- PAGE_QUIESCE. -/
def execPageQuiesce (page : Nat) (on : Bool) (s : State) : Host.Outcome State Fault Refusal := .next (pageQuiesce page on s)

/-- PAGE_QUIESCED. -/
def execPageQuiesced (page : Nat) (s : State) : Host.Outcome State Fault Refusal := .next (pageQuiesced page s)

/-- PAGE_LOCK. -/
def execPageLock (page : Nat) (s : State) : Host.Outcome State Fault Refusal := .next (pageLock page s)

/-- EVT_FORCE. -/
def execEvtForce (page bits : Nat) (s : State) : Host.Outcome State Fault Refusal := .next (forceEvents page bits s)

/-- EVT_FIRST_CLEAR. -/
def execEvtFirstClear (page : Nat) (s : State) : Host.Outcome State Fault Refusal := .next (firstClear page s)

/-- STG_REGISTER_WRITE. -/
def execStgRegisterWrite (addr : Nat) (value : Word) (s : State) : Host.Outcome State Fault Refusal :=
  .next (if isStg addr then hostWrite addr value.toNat s else s)

/-- REG_IMAGE. -/
def execRegImage (queue : Nat) (s : State) : Host.Outcome State Fault Refusal := .next (sideRow opREG_IMAGE queue (regImage queue) s)

end Sys2Proof.Machine
end

