-- ==== Sys2Proof/Machine/Packets.lean ====
section
/-!
DEFINITION. Packets on the host link (R418–R431): what the host may send and how each packet is checked and taken, register access, and the
packets the formatter sends.
-/
namespace Sys2Proof.Machine

/-! ## Header fields (R418, R421) -/

/-- `n` bytes of a packet's HEAD body from byte `off`, as a number. -/
def hdField (h : Word256) (off n : Nat) : Nat := slice h.toNat (8 * off) (8 * n)

def pktPTYPE (h : Word256) : Nat := hdField h 0x00 1
def pktQUEUE (h : Word256) : Nat := hdField h 0x02 1
def pktPFLAGS (h : Word256) : Nat := hdField h 0x03 1
def pktTAG (h : Word256) : Nat := hdField h 0x04 2
def pktCOUNT (h : Word256) : Nat := pktPFLAGS h % 8
def pktACKREQ (h : Word256) : Bool := (pktPFLAGS h).testBit 3
def pktADDR (h : Word256) : Nat := hdField h 0x08 4
def pktOFFSET (h : Word256) : Nat := hdField h 0x08 4
def pktLAST_BYTES (h : Word256) : Nat := hdField h 0x18 1

/-- Grant entry `i` of a TOKEN packet (R424): COUNT, QUEUE, CLASS and the reserved byte. -/
def grantEntry (h : Word256) (i : Nat) : Nat × Nat × Nat × Nat :=
  let e := hdField h (0x08 + 4 * i) 4
  (slice e 0 16, slice e 16 6, slice e 22 2, slice e 24 8)

/-- The packet types the host sends (R418). -/
def hostSends (t : Nat) : Bool := [0x01, 0x02, 0x03, 0x04, 0x08, 0x09].contains t

/-- LEN in the range of its type (R418). -/
def lenOk (t len : Nat) : Bool :=
  if t = 0x03 then len % 2 == 0 && 2 ≤ len && len ≤ 64 else if t = 0x04 then 1 ≤ len && len ≤ 64 else len == 0

/-- A reserved or unnamed header field is not zero (R418, R422, R424, R429). -/
def reservedBad (h : Word256) : Bool :=
  let t := pktPTYPE h
  let flags := if t = 0x01 then pktPFLAGS h / 8 else if t = 0x02 then pktPFLAGS h / 16 else pktPFLAGS h
  let rest :=
    if t = 0x01 then pktADDR h / 2 ^ 20 + hdField h 0x0C 20
    else if t = 0x02 then pktADDR h / 2 ^ 20
    else if t = 0x03 then hdField h 0x08 24
    else if t = 0x04 then hdField h 0x0C 12 + hdField h 0x19 7
    else if t = 0x08 then sumN ((List.range 6).map fun i => (grantEntry h i).2.2.2)
    else hdField h 0x10 16
  pktQUEUE h / 64 != 0 || hdField h 0x06 2 != 0 || flags != 0 || rest != 0

/-- The tokens a packet spends (R418, R423): class, queue, how many; TOKEN packets need none. -/
def tokenCost (h : Word256) : Nat × Nat × Nat :=
  let t := pktPTYPE h
  if t = 0x03 then (0, pktQUEUE h % 64, pktLEN h / 2)
  else if t = 0x09 then (0, 0, 1)
  else if t = 0x04 then (1, 0, 1)
  else if t = 0x08 then (0, 0, 0)
  else (2, 0, 1)

/-- A protocol error (R422): counted, recorded, raised. -/
def protoErr (code ptype queue : Nat) (s : State) : State :=
  let s := setF Reg.PROTO_ERR_VALID 1 <| setF Reg.PROTO_ERR_QUEUE queue <| setF Reg.PROTO_ERR_PTYPE ptype <| setF Reg.PROTO_ERR_CODE code <| incF Reg.PROTO_CNT s
  raiseB 0x68 3 0 0x06 noAcct code s

/-! ## CMD, MINUTE, DATA_OUT, TOKEN (R420–R426, R436, R457) -/

/-- A descriptor with this TAG is incomplete in the queue (R436). -/
def tagBusy (s : State) (q tag : Nat) : Bool :=
  let x := if q = 0 then s.que.exec else (side s q).exec
  let l := if q = 0 then s.que.stream else (side s q).queue
  ((x.map fun x => x.entry).toList ++ l).any fun e => match e.body with | .cmd d => dTag d == tag | .minute _ => false

/-- A descriptor enters its queue (R420): a stream command joins the open bracket and the count of stream commands (R457, R466). -/
def enqueue (q : Nat) (desc : List Byte) (s : State) : State :=
  let s := incF Reg.CMD_CNT s
  let dup := tagBusy s q (dTag desc)
  if q = 0 then
    let e : QEntry := { body := .cmd desc, bracket := bracketNow s, seq := s.que.cmdSeq + 1, dupTag := dup }
    let s := onBracket e.bracket (fun b => { b with live := b.live + 1 }) s
    setQue { s.que with stream := s.que.stream ++ [e], cmdSeq := s.que.cmdSeq + 1 } s
  else
    let z := side s q
    setSide q { z with queue := z.queue ++ [{ body := .cmd desc, seq := s.que.cmdSeq, dupTag := dup }] } s

/-- The descriptors of a CMD packet enter in order (R420): two BODY flits each. -/
def takeCmd (h : Word256) (body : List Word256) (s : State) : State :=
  let bytes := body.flatMap bodyBytes
  forEach (List.range (pktLEN h / 2)) (fun i s => enqueue (pktQUEUE h) (bytesAt bytes (64 * i) 64) s) s

/-- A MINUTE enters the stream queue and opens its bracket (R420, R457). -/
def takeMinute (h : Word256) (s : State) : State :=
  let n := hdField h 0x08 8
  let m := s.mtr
  let closed := match m.brackets.reverse with | b :: t => (({ b with closed := true } :: t).reverse) | [] => []
  let s := setMtr { m with brackets := closed ++ [{ idx := m.nextIdx, name := n }], nextIdx := m.nextIdx + 1 } s
  setQue { s.que with stream := s.que.stream ++ [{ body := .minute n, bracket := m.nextIdx, seq := s.que.cmdSeq }] } s

/-- The bytes a DATA_OUT packet carries (R421). -/
def dataOutBytes (h : Word256) (body : List Word256) : List Byte := (body.flatMap bodyBytes).take (32 * (pktLEN h - 1) + pktLAST_BYTES h)

/-- A DATA_OUT packet meets R426 for the command it would go to. -/
def dataOutOk (q : Nat) (h : Word256) (e : QEntry) : Bool :=
  let last := pktLAST_BYTES h
  let stop := pktOFFSET h + 32 * (pktLEN h - 1) + last
  dTag e.desc == pktTAG h && e.data.length == pktOFFSET h && 1 ≤ last && last ≤ 32 && stop ≤ dataOutLen q e && (last == 32 || stop == dataOutLen q e)

/-- Bytes are added to the first entry of a list whose data is incomplete. -/
def addData (q : Nat) (bytes : List Byte) : List QEntry → List QEntry
  | [] => []
  | e :: t => if e.data.length < dataOutLen q e then { e with data := e.data ++ bytes } :: t else e :: addData q bytes t

/-- The bytes reach the oldest command of the queue whose data is incomplete (R426). -/
def takeData (q : Nat) (bytes : List Byte) (s : State) : State :=
  let short (x : ExecSt) : Bool := decide (x.entry.data.length < dataOutLen q x.entry)
  let give (x : ExecSt) : ExecSt := { x with entry := { x.entry with data := x.entry.data ++ bytes } }
  if q = 0 then
    match s.que.exec with
    | some x => if short x then setQue { s.que with exec := some (give x) } s else setQue { s.que with stream := addData q bytes s.que.stream } s
    | none => setQue { s.que with stream := addData q bytes s.que.stream } s
  else
    let z := side s q
    match z.exec with
    | some x => if short x then setSide q { z with exec := some (give x) } s else setSide q { z with queue := addData q bytes z.queue } s
    | none => setSide q { z with queue := addData q bytes z.queue } s

/-- The host's grants (R424): DATA of queue 0 and MSG of queues 0 and 1, saturating at 65,535; packets that waited for them may go. -/
def takeGrants (h : Word256) (s : State) : State :=
  pumpAll <| forEach (List.range 6) (fun i s =>
    let e := grantEntry h i
    let up (n : Nat) : Nat := min 65535 (n + e.1)
    if e.2.2.1 = 1 ∧ e.2.1 = 0 then setLnk { s.lnk with held0 := up s.lnk.held0 } s
    else if e.2.2.1 = 3 ∧ e.2.1 = 0 then setLnk { s.lnk with heldM0 := up s.lnk.heldM0 } s
    else if e.2.2.1 = 3 ∧ e.2.1 = 1 then setLnk { s.lnk with heldM1 := up s.lnk.heldM1 } s
    else s) s

/-! ## Register access (R429–R431) -/

/-- STATUS of a register request (R429). -/
def regStatus (h : Word256) : Nat :=
  let a := pktADDR h
  if a % 4 ≠ 0 then 1 else if pktCOUNT h = 0 ∨ 5 < pktCOUNT h ∨ 0x1000 < a % 0x1000 + 4 * pktCOUNT h then 2 else 0

/-- The words of a request are read in ascending address (R430). -/
def regReads (a : Nat) : Nat → State → List Word × State
  | 0, s => ([], s)
  | n + 1, s =>
    let r := hostRead a s
    let t := regReads (a + 4) n r.2
    (r.1 :: t.1, t.2)

/-- A response (R429): RESP and STATUS, the TAG and address echoed, the words of a read. -/
def regResponse (h : Word256) (words : List Word) : List Word256 :=
  [headOf (pktPTYPE h) 0 0 (pktPFLAGS h % 16 + 0x10 + regStatus h * 0x20) (pktTAG h) (leBytes 4 (pktADDR h) ++ words.flatMap fun w => leBytes 4 w.toNat)]

/-- REG_RD. -/
def takeRead (h : Word256) (s : State) : State :=
  let r := if regStatus h = 0 then regReads (pktADDR h) (pktCOUNT h) s else ([], s)
  linkDue (sendFree (regResponse h r.1) (giveBack 2 0 1 r.2))

/-- REG_WR. -/
def takeWrite (h : Word256) (s : State) : State :=
  let s := if regStatus h = 0 then
      forEach (List.range (pktCOUNT h)) (fun i s => hostWrite (pktADDR h + 4 * i) (hdField h (0x0C + 4 * i) 4) s) s
    else s
  let s := giveBack 2 0 1 s
  linkDue (if pktACKREQ h then sendFree (regResponse h []) s else s)

/-! ## A packet arrives (R422) -/

/-- A DATA_OUT packet reaches the command it belongs to, or is a protocol error (R426). -/
def takeDataOut (h : Word256) (body : List Word256) (s : State) : State :=
  let q := pktQUEUE h
  let s := giveBack 1 0 1 s
  match doTarget s q with
  | some e => if dataOutOk q h e then takeData q (dataOutBytes h body) s else protoErr 0x6 0x04 q s
  | none => protoErr 0x6 0x04 q s

/-- A packet that has been found good and has spent its tokens. -/
def takePacket (h : Word256) (body : List Word256) (s : State) : State :=
  match pktPTYPE h with
  | 0x01 => takeRead h s
  | 0x02 => takeWrite h s
  | 0x03 => takeCmd h body s
  | 0x08 => takeGrants h s
  | 0x09 => takeMinute h s
  | _ => takeDataOut h body s

/-- A packet from the host: HEAD and BODY flits. The checks of R422 in their order; QUE_CTRL.EN clear discards CMD, MINUTE and DATA_OUT (R469);
one that passes is taken by `take`. -/
def checkPacket (take : State → State) (h : Word256) (body : List Word256) (s : State) : State :=
  let t := pktPTYPE h
  let q := pktQUEUE h % 64
  let c := tokenCost h
  if pktLEN h ≤ 64 ∧ body.length ≠ pktLEN h then protoErr 0x4 t q s
  else if !hostSends t then protoErr 0x2 t q s
  else if !lenOk t (pktLEN h) then protoErr 0x3 t q s
  else if reservedBad h then protoErr 0x5 t q s
  else if outstanding s c.1 c.2.1 < c.2.2 then protoErr 0x1 t q s
  else
    let s := takeTokens c.1 c.2.1 c.2.2 s
    if c.1 ≠ 2 ∧ c.2.2 ≠ 0 ∧ !getB s Reg.QUE_CTRL then protoErr 0x1 t q (giveBack c.1 c.2.1 c.2.2 s)
    else take s

/-- Any packet from the host. -/
def packetIn (h : Word256) (body : List Word256) (s : State) : State := checkPacket (takePacket h body) h body s

/-- A packet of the type a row names. -/
def packetOf (t : Nat) (take : State → State) (h : Word256) (body : List Word256) (s : State) : State :=
  if pktPTYPE h = t then checkPacket take h body s else s

/-- What the receiver makes of a flit, and the packet it completes (R402, R410, R418, R422). -/
def flitReceived (lanes : List (BitVec 288)) (s : State) : State :=
  let r := flitIn lanes s
  let whole (p : Option (List Word256)) (s : State) : State := match p with | some (h :: b) => packetIn h b s | _ => s
  match r.1 with
  | .none_ => r.2
  | .packet p => whole (some p) r.2
  | .broken h next =>
    whole next (match h with
      | some h => protoErr 0x4 (pktPTYPE h) (pktQUEUE h % 64) r.2
      | none => protoErr 0x4 0 0 r.2)

/-! ## What the formatter sends (R419, R425, R427, R428) -/

/-- The commands that only waited for their DATA_IN to go, or for room in the completion FIFO, complete. -/
def finishAll (s : State) : State := forEach (List.range 64) (fun q s => if q = 0 then tryFinish s else sideFinish q s) s

/-- A packet that spends a token of class `cls` is sent. -/
def sendPacket (cls : Nat) (words : List Word256) (s : State) : State := transmit cls words (spend cls s)

/-- A word of a DATA_IN packet is poisoned (R360): neither it nor the rest of the command's data is sent. A READ ends with its granule counted as
failing its tag, with status BUFFER_DATA_LOST and a RETRACT for what has gone out of it (R332, R359); other data is as a system slot's. -/
def dataInLost (p : DinPkt) (s : State) : State :=
  let s := setQue { s.que with din := s.que.din.filter fun d => !(d.queue == p.queue && d.tag == p.tag) } s
  if p.queue ≠ 0 then
    match (side s p.queue).exec with
    | some x => finishSide p.queue stBUFFER_DATA_LOST x.record 0 codePoison s
    | none => s
  else
    match s.que.exec with
    | none => s
    | some x =>
      match x.marks.find? fun m => m.1 == p.gsn with
      | none => s
      | some (g, first, count, bytes) =>
        let gone : Option (Nat × Nat × Nat) := match x.sentLast with | some (k, r) => if k = g then some (first, max first r, stBUFFER_DATA_LOST) else none | none => none
        let s := onExec (fun x => { x with retract := gone, rd := none, part := [] }) (setVol { s.vol with posRecord := first, atEod := false } s)
        endExec stBUFFER_DATA_LOST first count bytes codePoison s

/-- DATA_IN: the oldest packet waiting goes once a DATA token is held (R425, R427). `poison`: the slot of a word of it that is poisoned. -/
def dataInSend (poison : Option Nat) (s : State) : State :=
  match s.que.din with
  | [] => s
  | p :: rest =>
    if !mayStart s 1 (dinPacket p) then s
    else match poison with
      | some slot => dataInLost p (if p.queue = 0 then raisePoison (slotOwner s slot) slot s else systemLoss slot s)
      | none =>
        if p.poison then dataInLost p s
        else
          let s := sendPacket 1 (dinPacket p) (setQue { s.que with din := rest } s)
          finishAll (if p.queue = 0 then onExec (fun x => { x with sentLast := some (p.gsn, p.recno) }) s else s)

/-- The packet of an entry of the completion FIFO. -/
def outPacket : OutPkt → List Word256
  | .compl q t st r c b d => complPacket q t st r c b d
  | .retract q t f l r => retractPacket q t f l r

/-- The entry is a RETRACT. -/
def isRetract : OutPkt → Bool
  | .retract .. => true
  | .compl .. => false

/-- The oldest entry of the completion FIFO goes once a MSG token of queue 0 is held (R425); a RETRACT is counted (R334). -/
def outSend (retract : Bool) (s : State) : State :=
  match s.que.out with
  | [] => s
  | p :: rest =>
    if isRetract p ≠ retract ∨ !mayStart s 2 (outPacket p) then s
    else
      let s := sendPacket 2 (outPacket p) (setQue { s.que with out := rest } s)
      finishAll (if retract then incF Reg.RETRACT_CNT s else s)

/-- The oldest EVENT goes once a MSG token of queue 1 is held (R425). -/
def eventSend (s : State) : State :=
  match s.evt.fifo with
  | [] => s
  | e :: rest => if mayStart s 3 (eventPacket e) then sendPacket 3 (eventPacket e) { s with evt := { s.evt with fifo := rest } } else s

/-! ## Meanings -/

/-- FLIT_RECEIVED. -/
def execFlitReceived (lanes : List (BitVec 288)) (s : State) : Host.Outcome State Fault Refusal := .next (flitReceived lanes s)

/-- CMD. -/
def execCmd (head : Word256) (body : List Word256) (s : State) : Host.Outcome State Fault Refusal := .next (packetOf 0x03 (takeCmd head body) head body s)

/-- DATA_OUT. -/
def execDataOut (head : Word256) (body : List Word256) (s : State) : Host.Outcome State Fault Refusal := .next (packetOf 0x04 (takeDataOut head body) head body s)

/-- MINUTE. -/
def execMinute (head : Word256) (body : List Word256) (s : State) : Host.Outcome State Fault Refusal := .next (packetOf 0x09 (takeMinute head) head body s)

/-- TOKEN. -/
def execToken (head : Word256) (body : List Word256) (s : State) : Host.Outcome State Fault Refusal := .next (packetOf 0x08 (takeGrants head) head body s)

/-- REG_RD. -/
def execRegRd (head : Word256) (body : List Word256) (s : State) : Host.Outcome State Fault Refusal := .next (packetOf 0x01 (takeRead head) head body s)

/-- REG_WR. -/
def execRegWr (head : Word256) (body : List Word256) (s : State) : Host.Outcome State Fault Refusal := .next (packetOf 0x02 (takeWrite head) head body s)

/-- DATA_IN_SEND. -/
def execDataInSend (poison : Option Nat) (s : State) : Host.Outcome State Fault Refusal := .next (dataInSend poison s)

/-- COMPL_SEND. -/
def execComplSend (s : State) : Host.Outcome State Fault Refusal := .next (outSend false s)

/-- RETRACT_SEND. -/
def execRetractSend (s : State) : Host.Outcome State Fault Refusal := .next (outSend true s)

/-- EVENT_SEND. -/
def execEventSend (s : State) : Host.Outcome State Fault Refusal := .next (eventSend s)

/-- QUE_EN: the host sets QUE_CTRL.EN (R469, R600). -/
def execQueEn (s : State) : Host.Outcome State Fault Refusal := .next (lockGate 0x69 (fun s => queuesStart (setF Reg.QUE_CTRL 1 s)) s)

end Sys2Proof.Machine
end

