-- ==== Sys2Proof/Machine/Power.lean ====
section
/-!
DEFINITION. Power and resets (spec/19): rails and their order (R592, R593), leaving reset (R594, R578), the reset by PORST_N and by a
brown-out (R595, R596), what the island's domain keeps (R598), and the CART_PRES_N filter (R627).
-/

namespace Sys2Proof.Machine

/-- The group in which a rail powers up, the rails numbered as RAIL_OK numbers them (R592, R598). -/
def railGroup (rail : Nat) : Nat := [3, 4, 8, 7, 5, 6, 2, 1, 2].getD rail 0

/-- All nine rails in range. -/
def allRails : Nat := 0x1FF

/-- The number of VSAFE. -/
def vsafeRail : Nat := 7

/-- Carry the value of a field from one state to another. -/
def keepF (old : State) (f : Fld) (s : State) : State := setF f (getF old f) s

/-- The state in reset (R595): every block as at State.reset, everything that R3 names lost. Kept: the fuses, the fuse repair map and the
levels on the pins, of which the CART_PRES_N declaration is one; RESET_CAUSE and RESET_CNT, which lie in the island's domain (R598), a
BUS_CLAMP_REQ that was asserted (R500), and ORDER and STEPPING of CHIP_ID, which are the part's. The queue of waiting commands and the count of free values are the model's own and go on. -/
def resetPart (s : State) : State :=
  let fresh : State := { State.reset with
    sec := { State.reset.sec with fuses := s.sec.fuses }
    fuseMap := s.fuseMap
    pins := { s.pins with inReset := true }
    freeCount := s.freeCount
    pending := s.pending }
  [Reg.RESET_CAUSE_POWER_UP, Reg.RESET_CAUSE_PORST_PIN, Reg.RESET_CAUSE_BROWNOUT, Reg.RESET_CAUSE_SEQ_ERR, Reg.RESET_CAUSE_RAIL, Reg.RESET_CNT,
    Reg.SAFE_STATUS_BUS_CLAMP, Reg.SAFE_STATUS_SSN_PIN, Reg.CHIP_ID_ORDER, Reg.CHIP_ID_STEPPING].foldl (fun (t : State) f => keepF s f t) fresh

/-- RESET_CAUSE after a reset by the pin, or by a rail (R598); SEQ_ERR is of the last power-up and stays. -/
def setCause (pin : Bool) (rail : Option Nat) (s : State) : State :=
  setF Reg.RESET_CAUSE_RAIL (rail.getD 0) (setB Reg.RESET_CAUSE_BROWNOUT rail.isSome
    (setB Reg.RESET_CAUSE_PORST_PIN pin (setF Reg.RESET_CAUSE_POWER_UP 0 s)))

/-- The island has lost its supply: RESET_CAUSE shows POWER_UP only, RESET_CNT starts again and the clamp output falls (R596, R598, R626). -/
def islandLost (s : State) : State :=
  setF Reg.SAFE_STATUS_BUS_CLAMP 0 (setF Reg.RESET_CNT 0 (setF Reg.RESET_CAUSE_SEQ_ERR 0
    (setF Reg.RESET_CAUSE_POWER_UP 1 (setF Reg.RESET_CAUSE_RAIL 0 (setF Reg.RESET_CAUSE_BROWNOUT 0 (setF Reg.RESET_CAUSE_PORST_PIN 0 s))))))

def setRails (rails : Nat) (s : State) : State := { s with pins := { s.pins with rails := rails } }

/-- A mask of rails with one of them in range, or out of it. -/
def railMask (rails rail : Nat) (ok : Bool) : Nat :=
  setSlice rails rail 1 (b2n ok)

/-- PORST_N low while the formatter runs (R595). In reset already: nothing more to reset. -/
def porstAssert (s : State) : State :=
  if s.pins.inReset then s else setCause true none (incF Reg.RESET_CNT (resetPart s))

/-- A rail has been below its threshold for 2 µs while the formatter runs (R596). -/
def brownout (rail : Nat) (s : State) : State :=
  if s.pins.inReset ∨ 9 ≤ rail then s
  else
    let t := setRails (railMask s.pins.rails rail false) (resetPart s)
    if rail = vsafeRail then islandLost t else setCause false (some rail) (incF Reg.RESET_CNT t)

/-- A rail enters or leaves its range (R593). One that reaches it before a rail of a lower group has: SEQ_ERR. When VSAFE leaves it, the
island loses what it kept, whether the part was in reset or not (R598). -/
def railChange (rail : Nat) (ok : Bool) (s : State) : State :=
  if 9 ≤ rail ∨ s.pins.rails.testBit rail = ok then s
  else
    let rails := railMask s.pins.rails rail ok
    if ok then
      let early := (List.range 9).any fun i => decide (railGroup i < railGroup rail) && !rails.testBit i
      setRails rails (if early then setF Reg.RESET_CAUSE_SEQ_ERR 1 s else s)
    else if rail = vsafeRail then islandLost (setRails rails (resetPart s))
    else setRails rails s

/-- The formatter leaves reset (R593, R594): PORST_N is high, every rail in range. The clocks show what the monitor and the PLLs report (R620);
the clamp output falls unless its comparator is active (R500); the link trains by itself (R414); the boot ROM works through FUSE and
ENTROPY (R578), or stops in HALT at a fuse error (R570); factory test never leaves FUSE (R622).
`locks`: which PLLs have locked, as CLK_STATUS [4:1]; `count`: REFCLK edges in an island window; `raw`: the raw bits of the start-up test. -/
def porstRelease (testEn vbusOver : Bool) (raw : List Bool) (locks count : Nat) (s : State) : State :=
  if !s.pins.inReset ∨ s.pins.rails ≠ allRails then s
  else
    let s := { s with pins := { s.pins with inReset := false } }
    let s := setF Reg.CLK_REF_MEAS count (setF Reg.CLK_STATUS_REFCLK_OK 1 s)
    let s := setB Reg.CLK_STATUS_CORE_LOCK (locks.testBit 0) (setB Reg.CLK_STATUS_LINK_LOCK (locks.testBit 1) s)
    let s := setB Reg.CLK_STATUS_CARR_LOCK (locks.testBit 2) (setB Reg.CLK_STATUS_DDR_LOCK (locks.testBit 3) s)
    let s := if vbusOver then s else setF Reg.SAFE_STATUS_BUS_CLAMP 0 s
    if testEn then s
    else
      let s := readFuses s
      if fuseErr s then bootHalt (setF Reg.SEC_STATUS_FUSE_ERR 1 s)
      else toBoot 2 (entropyTest raw (toBoot 1 s))

/-- The declaration of CART_PRES_N (R627). -/
def cartFault (faulty : Bool) (s : State) : State := { s with pins := { s.pins with cartFaulty := faulty } }

/-! ## Pads (R626) -/

/-- What a pad does. -/
inductive Pad where
  | low
  | high
  | off
  deriving DecidableEq, Repr

/-- VSAFE is in range: the island has its supply. -/
def islandUp (s : State) : Bool := s.pins.rails.testBit vsafeRail

/-- STO of the inverters, of the H-bridges, BUS_CLAMP_REQ and FAULT_N (R500, R533, R553, R557, R626); STO is asserted by a low pad. -/
def stoReelsPad (s : State) : Pad := if islandUp s && !s.pins.inReset && !reelSto s then .high else .low
def stoActPad (s : State) : Pad := if islandUp s && !s.pins.inReset && !actSto s then .high else .low
def busClampPad (s : State) : Pad := if islandUp s && getB s Reg.SAFE_STATUS_BUS_CLAMP then .high else .low
def faultNPad (s : State) : Pad := if islandUp s && (s.pins.inReset || faultN s) then .low else .off

/-! ## Meanings -/

/-- PORST_RELEASE (R578, R594). -/
def execPorstRelease (testEn vbusOver : Bool) (raw : List Bool) (locks count : Nat) (s : State) : Host.Outcome State Fault Refusal :=
  .next (porstRelease testEn vbusOver raw locks count s)

/-- PORST_ASSERT (R595). -/
def execPorstAssert (s : State) : Host.Outcome State Fault Refusal := .next (porstAssert s)

/-- RAIL_CHANGE (R593). -/
def execRailChange (rail : Nat) (inRange : Bool) (s : State) : Host.Outcome State Fault Refusal := .next (railChange rail inRange s)

/-- BROWNOUT (R596). -/
def execBrownout (rail : Nat) (s : State) : Host.Outcome State Fault Refusal := .next (brownout rail s)

/-- CART_PRES_FAULT (R627). -/
def execCartPresFault (s : State) : Host.Outcome State Fault Refusal := .next (cartFault true s)

/-- CART_PRES_FAULT_CLEAR (R627). -/
def execCartPresFaultClear (s : State) : Host.Outcome State Fault Refusal := .next (cartFault false s)

end Sys2Proof.Machine
end

