-- ==== Sys2Proof/Machine/Dispatch.lean ====
section
/-!
DEFINITION. One arm per command: each calls its meaning.
-/
namespace Sys2Proof.Machine

/-- The effect of a command on everything but the queue. -/
def exec (i : Instr) (s : State) : Host.Outcome State Fault Refusal :=
  match i with
  | .regRd head body => Sys2Proof.Machine.execRegRd head body s
  | .regWr head body => Sys2Proof.Machine.execRegWr head body s
  | .registerWrite addr value => Sys2Proof.Machine.execRegisterWrite addr value s
  | .loWordRead addr => Sys2Proof.Machine.execLoWordRead addr s
  | .windowDataAccess addr value => Sys2Proof.Machine.execWindowDataAccess addr value s
  | .pageEn page en => Sys2Proof.Machine.execPageEn page en s
  | .pageQuiesce page on => Sys2Proof.Machine.execPageQuiesce page on s
  | .pageQuiesced page => Sys2Proof.Machine.execPageQuiesced page s
  | .pageLock page => Sys2Proof.Machine.execPageLock page s
  | .evtForce page bits => Sys2Proof.Machine.execEvtForce page bits s
  | .evtFirstClear page => Sys2Proof.Machine.execEvtFirstClear page s
  | .stgRegisterWrite addr value => Sys2Proof.Machine.execStgRegisterWrite addr value s
  | .mailboxRequest page slot value => Sys2Proof.Machine.execMailboxRequest page slot value s
  | .mailboxComplete page slot res => Sys2Proof.Machine.execMailboxComplete page slot res s
  | .lockstepMismatch pair => Sys2Proof.Machine.execLockstepMismatch pair s
  | .internalWordHop page account word chk => Sys2Proof.Machine.execInternalWordHop page account word chk s
  | .fifoEntryWritten page account fifo size holdsToken word chk => Sys2Proof.Machine.execFifoEntryWritten page account fifo size holdsToken word chk s
  | .fifoEntryRemoved fifo size unit row upset => Sys2Proof.Machine.execFifoEntryRemoved fifo size unit row upset s
  | .servoFrameDecoded band reader symbols tone a b c d => Sys2Proof.Machine.execServoFrameDecoded band reader symbols tone a b c d s
  | .servoFrameBoundary speed late => Sys2Proof.Machine.execServoFrameBoundary speed late s
  | .posLockLost => Sys2Proof.Machine.execPosLockLost s
  | .frameSlip => Sys2Proof.Machine.execFrameSlip s
  | .posCoarseEnter speed => Sys2Proof.Machine.execPosCoarseEnter speed s
  | .posCoarseExit speed => Sys2Proof.Machine.execPosCoarseExit speed s
  | .posLockFail => Sys2Proof.Machine.execPosLockFail s
  | .posStillTimeout => Sys2Proof.Machine.execPosStillTimeout s
  | .posStillClear reverse speed => Sys2Proof.Machine.execPosStillClear reverse speed s
  | .servoIdLost => Sys2Proof.Machine.execServoIdLost s
  | .servoBurstReceived link blocks => Sys2Proof.Machine.execServoBurstReceived link blocks s
  | .downlinkBurstLaunch hfe frame bit correction => Sys2Proof.Machine.execDownlinkBurstLaunch hfe frame bit correction s
  | .uplinkBurstReceived hfe module blocks lockLost => Sys2Proof.Machine.execUplinkBurstReceived hfe module blocks lockLost s
  | .loopReset band track module => Sys2Proof.Machine.execLoopReset band track module s
  | .mgmtResponseReceived hfe block => Sys2Proof.Machine.execMgmtResponseReceived hfe block s
  | .mgmtTimeout hfe tag => Sys2Proof.Machine.execMgmtTimeout hfe tag s
  | .hfeStatusRefresh hfe => Sys2Proof.Machine.execHfeStatusRefresh hfe s
  | .clLinkStateAdvance link delay block => Sys2Proof.Machine.execClLinkStateAdvance link delay block s
  | .clLinkTimeout link => Sys2Proof.Machine.execClLinkTimeout link s
  | .clLinkDown link => Sys2Proof.Machine.execClLinkDown link s
  | .clRetrain hfe => Sys2Proof.Machine.execClRetrain hfe s
  | .passEnd => Sys2Proof.Machine.execPassEnd s
  | .outCtrlWrite c2En c3En => Sys2Proof.Machine.execOutCtrlWrite c2En c3En s
  | .dataSetRowsComplete dsn => Sys2Proof.Machine.execDataSetRowsComplete dsn s
  | .brdArm band buf => Sys2Proof.Machine.execBrdArm band buf s
  | .brdStart band => Sys2Proof.Machine.execBrdStart band s
  | .brdStop band => Sys2Proof.Machine.execBrdStop band s
  | .brdDisarm band buf => Sys2Proof.Machine.execBrdDisarm band buf s
  | .brdHostSet band => Sys2Proof.Machine.execBrdHostSet band s
  | .waitFrame band => Sys2Proof.Machine.execWaitFrame band s
  | .emitGap band => Sys2Proof.Machine.execEmitGap band s
  | .emitSync band => Sys2Proof.Machine.execEmitSync band s
  | .emitHeader band => Sys2Proof.Machine.execEmitHeader band s
  | .emitRow band => Sys2Proof.Machine.execEmitRow band s
  | .bandFill band => Sys2Proof.Machine.execBandFill band s
  | .verifyOpen band => Sys2Proof.Machine.execVerifyOpen band s
  | .verifyClose band => Sys2Proof.Machine.execVerifyClose band s
  | .applyStaged band => Sys2Proof.Machine.execApplyStaged band s
  | .markEvent band => Sys2Proof.Machine.execMarkEvent band s
  | .jump band => Sys2Proof.Machine.execJump band s
  | .end_ band => Sys2Proof.Machine.execEnd band s
  | .rowFetch dsn track slot upset1 upset2 => Sys2Proof.Machine.execRowFetch dsn track slot upset1 upset2 s
  | .encInject => Sys2Proof.Machine.execEncInject s
  | .dataSetReady => Sys2Proof.Machine.execDataSetReady s
  | .boardCompile plan => Sys2Proof.Machine.execBoardCompile plan s
  | .repositionComplete => Sys2Proof.Machine.execRepositionComplete s
  | .threadingDone => Sys2Proof.Machine.execThreadingDone s
  | .detectorRepass band track slot dsn d => Sys2Proof.Machine.execDetectorRepass band track slot dsn d s
  | .rowDecodeDone band track slot dsn => Sys2Proof.Machine.execRowDecodeDone band track slot dsn s
  | .decLate band track slot dsn => Sys2Proof.Machine.execDecLate band track slot dsn s
  | .mrdLowGain band => Sys2Proof.Machine.execMrdLowGain band s
  | .trkWinWrite band value => Sys2Proof.Machine.execTrkWinWrite band value s
  | .recoveryRungDone => Sys2Proof.Machine.execRecoveryRungDone s
  | .weakWinWrite dsn => Sys2Proof.Machine.execWeakWinWrite dsn s
  | .weakClr => Sys2Proof.Machine.execWeakClr s
  | .calCycleCompute cycle => Sys2Proof.Machine.execCalCycleCompute cycle s
  | .calLate => Sys2Proof.Machine.execCalLate s
  | .csoStandstillUpdate => Sys2Proof.Machine.execCsoStandstillUpdate s
  | .calValueWrite addr value => Sys2Proof.Machine.execCalValueWrite addr value s
  | .calWinWrite value => Sys2Proof.Machine.execCalWinWrite value s
  | .granuleCompressed gsn upset1 upset2 => Sys2Proof.Machine.execGranuleCompressed gsn upset1 upset2 s
  | .dvInject => Sys2Proof.Machine.execDvInject s
  | .granulePacked => Sys2Proof.Machine.execGranulePacked s
  | .cipherLaneStart => Sys2Proof.Machine.execCipherLaneStart s
  | .cipherRequestDone lane upset => Sys2Proof.Machine.execCipherRequestDone lane upset s
  | .pairInject => Sys2Proof.Machine.execPairInject s
  | .keyEraseComplete slot => Sys2Proof.Machine.execKeyEraseComplete slot s
  | .kekEraseComplete slot => Sys2Proof.Machine.execKekEraseComplete slot s
  | .keyImportUnwrapDone queue upset => Sys2Proof.Machine.execKeyImportUnwrapDone queue upset s
  | .memTrain => Sys2Proof.Machine.execMemTrain s
  | .ddrTrainStepDone channel result => Sys2Proof.Machine.execDdrTrainStepDone channel result s
  | .ddrRefresh channel rate hot => Sys2Proof.Machine.execDdrRefresh channel rate hot s
  | .ddrOscTrack channel reading => Sys2Proof.Machine.execDdrOscTrack channel reading s
  | .ddrZqLatch channel code => Sys2Proof.Machine.execDdrZqLatch channel code s
  | .bufferRead slot word upset => Sys2Proof.Machine.execBufferRead slot word upset s
  | .bufferWrite slot word offset bytes account upset => Sys2Proof.Machine.execBufferWrite slot word offset bytes account upset s
  | .scrubVisit upset stuck => Sys2Proof.Machine.execScrubVisit upset stuck s
  | .rlogTailWrite value => Sys2Proof.Machine.execRlogTailWrite value s
  | .retire page => Sys2Proof.Machine.execRetire page s
  | .memRelease page => Sys2Proof.Machine.execMemRelease page s
  | .sramWordRead unit row word chk => Sys2Proof.Machine.execSramWordRead unit row word chk s
  | .srepApply => Sys2Proof.Machine.execSrepApply s
  | .splitWrite internal => Sys2Proof.Machine.execSplitWrite internal s
  | .splitRead internal => Sys2Proof.Machine.execSplitRead internal s
  | .splitPcheck internal => Sys2Proof.Machine.execSplitPcheck internal s
  | .alloc src account => Sys2Proof.Machine.execAlloc src account s
  | .free src page account => Sys2Proof.Machine.execFree src page account s
  | .handoff src page account target => Sys2Proof.Machine.execHandoff src page account target s
  | .addref src page => Sys2Proof.Machine.execAddref src page s
  | .poolRelease src page => Sys2Proof.Machine.execPoolRelease src page s
  | .query src page => Sys2Proof.Machine.execQuery src page s
  | .poolBadOp op => Sys2Proof.Machine.execPoolBadOp op s
  | .poolCancel => Sys2Proof.Machine.execPoolCancel s
  | .cacheFill => Sys2Proof.Machine.execCacheFill s
  | .poolBuild => Sys2Proof.Machine.execPoolBuild s
  | .poolBuildDone => Sys2Proof.Machine.execPoolBuildDone s
  | .acctWinWrite value => Sys2Proof.Machine.execAcctWinWrite value s
  | .flitReceived lanes => Sys2Proof.Machine.execFlitReceived lanes s
  | .ctrlFlitReceived body recent => Sys2Proof.Machine.execCtrlFlitReceived body recent s
  | .replayTimeout => Sys2Proof.Machine.execReplayTimeout s
  | .markerReceived lane marker skew => Sys2Proof.Machine.execMarkerReceived lane marker skew s
  | .epbxLinkTimeout => Sys2Proof.Machine.execEpbxLinkTimeout s
  | .lnkRetrain => Sys2Proof.Machine.execLnkRetrain s
  | .lnkReset => Sys2Proof.Machine.execLnkReset s
  | .cmd head body => Sys2Proof.Machine.execCmd head body s
  | .dataOut head body => Sys2Proof.Machine.execDataOut head body s
  | .minute head body => Sys2Proof.Machine.execMinute head body s
  | .token head body => Sys2Proof.Machine.execToken head body s
  | .tokenReturn => Sys2Proof.Machine.execTokenReturn s
  | .dataInSend poison => Sys2Proof.Machine.execDataInSend poison s
  | .complSend => Sys2Proof.Machine.execComplSend s
  | .retractSend => Sys2Proof.Machine.execRetractSend s
  | .eventSend => Sys2Proof.Machine.execEventSend s
  | .queEn => Sys2Proof.Machine.execQueEn s
  | .load present hkTags rows cal tags => Sys2Proof.Machine.execLoad present hkTags rows cal tags s
  | .unload => Sys2Proof.Machine.execUnload s
  | .format => Sys2Proof.Machine.execFormat s
  | .write => Sys2Proof.Machine.execWrite s
  | .filemark => Sys2Proof.Machine.execFilemark s
  | .flush => Sys2Proof.Machine.execFlush s
  | .read tags => Sys2Proof.Machine.execRead tags s
  | .locate tags => Sys2Proof.Machine.execLocate tags s
  | .refresh => Sys2Proof.Machine.execRefresh s
  | .selectMap tags => Sys2Proof.Machine.execSelectMap tags s
  | .receipt => Sys2Proof.Machine.execReceipt s
  | .openTenant => Sys2Proof.Machine.execOpenTenant s
  | .closeTenant => Sys2Proof.Machine.execCloseTenant s
  | .keyImport queue => Sys2Proof.Machine.execKeyImport queue s
  | .keyErase queue => Sys2Proof.Machine.execKeyErase queue s
  | .kekAgree queue => Sys2Proof.Machine.execKekAgree queue s
  | .kekErase queue => Sys2Proof.Machine.execKekErase queue s
  | .cipher queue => Sys2Proof.Machine.execCipher queue s
  | .meterRead queue => Sys2Proof.Machine.execMeterRead queue s
  | .setQuota queue => Sys2Proof.Machine.execSetQuota queue s
  | .attest queue => Sys2Proof.Machine.execAttest queue s
  | .safeClear queue ssnHigh vbusOver tenOver persist bad rows => Sys2Proof.Machine.execSafeClear queue ssnHigh vbusOver tenOver persist bad rows s
  | .regImage queue => Sys2Proof.Machine.execRegImage queue s
  | .minuteExecute => Sys2Proof.Machine.execMinuteExecute s
  | .bracketFinal => Sys2Proof.Machine.execBracketFinal s
  | .mtrTailWrite value => Sys2Proof.Machine.execMtrTailWrite value s
  | .pwmPeriod reel x => Sys2Proof.Machine.execPwmPeriod reel x s
  | .curPlaus reel => Sys2Proof.Machine.execCurPlaus reel s
  | .hallEdge reel code interval => Sys2Proof.Machine.execHallEdge reel code interval s
  | .obsLost reel => Sys2Proof.Machine.execObsLost reel s
  | .motEn reel => Sys2Proof.Machine.execMotEn reel s
  | .pulseStartDone reel peaks => Sys2Proof.Machine.execPulseStartDone reel peaks s
  | .startTimeout reel => Sys2Proof.Machine.execStartTimeout reel s
  | .reelRevolution reel tick other => Sys2Proof.Machine.execReelRevolution reel tick other s
  | .radSeed value => Sys2Proof.Machine.execRadSeed value s
  | .vbusSample code late => Sys2Proof.Machine.execVbusSample code late s
  | .busUv => Sys2Proof.Machine.execBusUv s
  | .chopperFault => Sys2Proof.Machine.execChopperFault s
  | .busOvervolt => Sys2Proof.Machine.execBusOvervolt s
  | .reelOverspeed reel => Sys2Proof.Machine.execReelOverspeed reel s
  | .loopSample10khz aux late => Sys2Proof.Machine.execLoopSample10khz aux late s
  | .overtension => Sys2Proof.Machine.execOvertension s
  | .overtensionHw => Sys2Proof.Machine.execOvertensionHw s
  | .slackTape => Sys2Proof.Machine.execSlackTape s
  | .actPwmPeriod act cur pos late overrun => Sys2Proof.Machine.execActPwmPeriod act cur pos late overrun s
  | .actSense act => Sys2Proof.Machine.execActSense act s
  | .loopFollow slot => Sys2Proof.Machine.execLoopFollow slot s
  | .loopCommit mask => Sys2Proof.Machine.execLoopCommit mask s
  | .slotWinWrite value => Sys2Proof.Machine.execSlotWinWrite value s
  | .spdSrcWrite src => Sys2Proof.Machine.execSpdSrcWrite src s
  | .spdrefLost => Sys2Proof.Machine.execSpdrefLost s
  | .injGo => Sys2Proof.Machine.execInjGo s
  | .injStop => Sys2Proof.Machine.execInjStop s
  | .injDone => Sys2Proof.Machine.execInjDone s
  | .capArm => Sys2Proof.Machine.execCapArm s
  | .capAbort => Sys2Proof.Machine.execCapAbort s
  | .capDone => Sys2Proof.Machine.execCapDone s
  | .repClr a b => Sys2Proof.Machine.execRepClr a b s
  | .binWinWrite value => Sys2Proof.Machine.execBinWinWrite value s
  | .s1Timeout => Sys2Proof.Machine.execS1Timeout s
  | .safeStop => Sys2Proof.Machine.execSafeStop s
  | .stoReadback => Sys2Proof.Machine.execStoReadback s
  | .clkFail island count => Sys2Proof.Machine.execClkFail island count s
  | .safeCfgMismatch pair value => Sys2Proof.Machine.execSafeCfgMismatch pair value s
  | .faultHandle => Sys2Proof.Machine.execFaultHandle s
  | .fltLogTailWrite value => Sys2Proof.Machine.execFltLogTailWrite value s
  | .turn bad rows => Sys2Proof.Machine.execTurn bad rows s
  | .turnForceStart => Sys2Proof.Machine.execTurnForceStart s
  | .turnOverdue => Sys2Proof.Machine.execTurnOverdue s
  | .porstRelease testEn vbusOver raw locks count => Sys2Proof.Machine.execPorstRelease testEn vbusOver raw locks count s
  | .porstAssert => Sys2Proof.Machine.execPorstAssert s
  | .railChange rail inRange => Sys2Proof.Machine.execRailChange rail inRange s
  | .brownout rail => Sys2Proof.Machine.execBrownout rail s
  | .cartPresFault => Sys2Proof.Machine.execCartPresFault s
  | .cartPresFaultClear => Sys2Proof.Machine.execCartPresFaultClear s
  | .imgApertureWrite index value => Sys2Proof.Machine.execImgApertureWrite index value s
  | .bootGo => Sys2Proof.Machine.execBootGo s
  | .bootClear => Sys2Proof.Machine.execBootClear s
  | .imageVerifyDone => Sys2Proof.Machine.execImageVerifyDone s
  | .roleStartDone ok => Sys2Proof.Machine.execRoleStartDone ok s
  | .lcAdvanceOemOpen => Sys2Proof.Machine.execLcAdvanceOemOpen s
  | .lcAdvanceDeployed => Sys2Proof.Machine.execLcAdvanceDeployed s
  | .lcAdvanceRma => Sys2Proof.Machine.execLcAdvanceRma s
  | .oemHashProgram => Sys2Proof.Machine.execOemHashProgram s
  | .entropyFail before window => Sys2Proof.Machine.execEntropyFail before window s
  | .entRetest raw => Sys2Proof.Machine.execEntRetest raw s
  | .configSeal => Sys2Proof.Machine.execConfigSeal s
  | .sealComplete => Sys2Proof.Machine.execSealComplete s
  | .clCtrlPermission hfe dl ul0 ul1 => Sys2Proof.Machine.execClCtrlPermission hfe dl ul0 ul1 s
  | .spdrefEdge at_ => Sys2Proof.Machine.execSpdrefEdge at_ s
  | .lnkLockElapsed => Sys2Proof.Machine.execLnkLockElapsed s

end Sys2Proof.Machine
end

