-- ==== Sys2Proof/Safety.lean ====
section
/-!
DEFINITION. What counts as safe, in the terms the claims use: torque off, write gates closed, settings locked, and fuses that only ever
advance. Also the sense in which a meaning keeps a property of the state.
-/
namespace Sys2Proof.Machine

/-- STO is asserted on both inverters and both H-bridges (R552). -/
def torqueOff (s : State) : Bool := getB s Reg.SAFE_STATUS_STO_REELS && getB s Reg.SAFE_STATUS_STO_ACT

/-- No band's write gate is open (R166). -/
def gatesClosed (s : State) : Bool := (List.range 8).all fun b => !(band s b).gateOpen

/-- Some safe state is in force (R544). -/
def inSafeState (s : State) : Bool := getB s Reg.SAFE_STATUS_S1 || getB s Reg.SAFE_STATUS_S2 || getB s Reg.SAFE_STATUS_S3

/-- Every bit of `a` is set in `b`. -/
def within (a b : Nat) : Bool := a &&& b == a

/-- The lifecycle fuses of `t` hold every bit that those of `s` hold, and ID_KILL once set stays (R570: a fuse is programmed once). -/
def fusesAdvance (s t : State) : Bool :=
  within s.sec.fuses.lc0 t.sec.fuses.lc0 && within s.sec.fuses.lc1 t.sec.fuses.lc1 &&
  (!s.sec.fuses.kill0 || t.sec.fuses.kill0) && (!s.sec.fuses.kill1 || t.sec.fuses.kill1)

/-- The buffer's memory is in its canonical form: addresses rising, no byte listed that an unlisted address reads as. -/
def memoryOk (s : State) : Bool := Memory.wf s.mem.cells

/-- A step that goes on keeps a property. -/
def StepKeeps (P : State → Prop) : Prop := ∀ s t, P s → step s = .next t → P t

/-! ## What a command leaves alone -/

/-- The parts of the state, as the frame of a command names them: the fields of State, with the buffer's cells and the fuses on their own. -/
inductive Part where
  | regs | latch | evt | core | pos | links | que | mtr | ten | vol | fmt | band | enc | cal | rch | cmp | keys | ciph | mot | mem | cells | pool | fuseMap | lnk | sec | fuses | pins | freeCount | pending
  deriving DecidableEq, Repr

/-- One part is the same in two states. -/
def samePart (s t : State) : Part → Prop
  | .regs => t.regs = s.regs
  | .latch => t.latch = s.latch
  | .evt => t.evt = s.evt
  | .core => t.core = s.core
  | .pos => t.pos = s.pos
  | .links => t.links = s.links
  | .que => t.que = s.que
  | .mtr => t.mtr = s.mtr
  | .ten => t.ten = s.ten
  | .vol => t.vol = s.vol
  | .fmt => t.fmt = s.fmt
  | .band => t.band = s.band
  | .enc => t.enc = s.enc
  | .cal => t.cal = s.cal
  | .rch => t.rch = s.rch
  | .cmp => t.cmp = s.cmp
  | .keys => t.keys = s.keys
  | .ciph => t.ciph = s.ciph
  | .mot => t.mot = s.mot
  | .mem => { t.mem with cells := s.mem.cells } = s.mem
  | .cells => t.mem.cells = s.mem.cells
  | .pool => t.pool = s.pool
  | .fuseMap => t.fuseMap = s.fuseMap
  | .lnk => t.lnk = s.lnk
  | .sec => { t.sec with fuses := s.sec.fuses } = s.sec
  | .fuses => t.sec.fuses = s.sec.fuses
  | .pins => t.pins = s.pins
  | .freeCount => t.freeCount = s.freeCount
  | .pending => t.pending = s.pending

/-- From `s` to `t` nothing has changed but the parts named: the frame of a command. -/
def OnlyTouches (ps : List Part) (s t : State) : Prop := ∀ p, p ∉ ps → samePart s t p

/-- What a command may change at most: its row's sub-effects in spec/95, and what the rules they name bring with them (a fault's stop, a
halt's rollback, the completion). -/
def touches : Instr → List Part
  | .regRd _ _ => [.regs, .latch, .evt, .lnk, .freeCount]
  | .regWr _ _ | .registerWrite _ _ | .stgRegisterWrite _ _ | .regImage _ =>
      [.regs, .evt, .core, .pos, .links, .que, .mtr, .ten, .vol, .fmt, .band, .enc, .cal, .rch, .cmp, .ciph, .mot, .mem, .cells, .pool, .lnk, .sec, .freeCount]
  | .loWordRead _ => [.regs, .latch, .freeCount]
  | .windowDataAccess _ _ | .flitReceived _ =>
      [.regs, .latch, .evt, .core, .pos, .links, .que, .mtr, .ten, .vol, .fmt, .band, .enc, .cal, .rch, .cmp, .ciph, .mot, .mem, .cells, .pool, .lnk, .sec, .freeCount]
  | .pageEn _ _ => [.regs, .pos, .mot]
  | .pageQuiesce _ _ | .pageQuiesced _ | .dvInject => [.regs, .cmp]
  | .pageLock _ | .evtFirstClear _ | .posStillClear _ _ | .brdHostSet _ | .rlogTailWrite _ | .mtrTailWrite _ | .radSeed _ | .spdSrcWrite _
  | .capAbort | .capDone | .fltLogTailWrite _ | .turnForceStart | .bootGo | .configSeal => [.regs]
  | .evtForce _ _ | .csoStandstillUpdate | .injStop | .injDone | .faultHandle | .turnOverdue | .entropyFail _ _ => [.regs, .evt]
  | .mailboxRequest _ _ _ | .mailboxComplete _ _ _ => [.regs, .evt, .core]
  | .lockstepMismatch _ | .internalWordHop _ _ _ _ | .fifoEntryWritten _ _ _ _ _ _ _ =>
      [.regs, .evt, .core, .que, .mtr, .ten, .vol, .fmt, .band, .cal, .rch, .mot]
  | .fifoEntryRemoved _ _ _ _ _ => [.regs, .evt, .core, .que, .mtr, .ten, .vol, .fmt, .band, .cal, .rch, .mot, .mem]
  | .servoFrameDecoded _ _ _ _ _ _ _ _ | .posCoarseEnter _ => [.regs, .evt, .pos]
  | .servoFrameBoundary _ _ | .frameSlip | .posCoarseExit _ | .servoIdLost | .loopSample10khz _ _ =>
      [.regs, .evt, .pos, .que, .mtr, .ten, .vol, .fmt, .band, .cal, .rch, .mot]
  | .posLockLost | .outCtrlWrite _ _ | .brdStop _ | .brdDisarm _ _ | .pwmPeriod _ _ | .curPlaus _ | .hallEdge _ _ _ | .obsLost _ | .motEn _
  | .pulseStartDone _ _ | .busUv | .chopperFault | .busOvervolt | .reelOverspeed _ | .overtension | .overtensionHw | .slackTape
  | .actPwmPeriod _ _ _ _ _ | .actSense _ | .loopFollow _ | .s1Timeout | .safeStop | .stoReadback | .clkFail _ _ | .safeCfgMismatch _ _ =>
      [.regs, .evt, .que, .mtr, .ten, .vol, .fmt, .band, .cal, .rch, .mot]
  | .posLockFail => [.regs, .evt, .pos, .que, .mtr, .ten, .vol, .fmt, .mot]
  | .posStillTimeout => [.regs, .fmt, .mot]
  | .servoBurstReceived _ _ => [.regs, .pos]
  | .downlinkBurstLaunch _ _ _ _ | .mgmtTimeout _ _ | .clLinkDown _ | .clRetrain _ | .clCtrlPermission _ _ _ _ =>
      [.regs, .evt, .links, .que, .mtr, .ten, .vol, .fmt, .band, .cal, .rch, .mot]
  | .uplinkBurstReceived _ _ _ _ => [.regs, .evt, .links, .rch]
  | .loopReset _ _ _ | .dataSetRowsComplete _ | .mrdLowGain _ | .recoveryRungDone => [.regs, .evt, .rch]
  | .mgmtResponseReceived _ _ | .calCycleCompute _ | .calLate | .calWinWrite _ => [.regs, .evt, .links, .cal]
  | .hfeStatusRefresh _ => [.links]
  | .clLinkStateAdvance _ _ _ => [.regs, .pos, .links]
  | .clLinkTimeout _ => [.regs, .evt, .links, .que, .mtr, .ten]
  | .passEnd => [.regs, .evt, .links, .que, .ten, .vol, .fmt, .band, .rch, .mot]
  | .brdArm _ _ | .emitRow _ => [.regs, .evt, .band]
  | .brdStart _ => [.regs, .band]
  | .waitFrame _ => [.regs, .evt, .que, .mtr, .ten, .vol, .fmt, .band, .mot]
  | .emitGap _ | .emitSync _ | .emitHeader _ | .bandFill _ | .jump _ => [.band]
  | .verifyOpen _ => [.regs, .evt, .band, .rch]
  | .verifyClose _ | .end_ _ | .boardCompile _ | .rowDecodeDone _ _ _ _ | .decLate _ _ _ _ =>
      [.regs, .evt, .que, .mtr, .ten, .vol, .fmt, .band, .enc, .cal, .rch, .mot]
  | .applyStaged _ => [.regs, .links, .band, .cal, .rch]
  | .markEvent _ => [.regs, .evt, .fmt, .band, .mot]
  | .rowFetch _ _ _ _ _ => [.regs, .evt, .que, .mtr, .ten, .vol, .fmt, .band, .enc, .cal, .rch, .cmp, .ciph, .mot, .mem, .cells, .pool]
  | .encInject => [.regs, .enc]
  | .dataSetReady => [.vol, .fmt]
  | .repositionComplete => [.regs, .pos, .links, .fmt, .band, .mot]
  | .threadingDone => [.regs, .evt, .que, .mtr, .ten, .vol, .fmt, .rch]
  | .detectorRepass _ _ _ _ _ => [.rch]
  | .trkWinWrite _ _ => [.regs, .evt, .cal, .rch]
  | .weakWinWrite _ | .weakClr => [.regs, .rch]
  | .calValueWrite _ _ => [.regs, .links, .cal]
  | .granuleCompressed _ _ _ | .cipherRequestDone _ _ | .bufferRead _ _ _ | .bufferWrite _ _ _ _ _ _ | .scrubVisit _ _ =>
      [.regs, .evt, .que, .mtr, .ten, .vol, .fmt, .band, .cal, .rch, .cmp, .ciph, .mot, .mem, .cells, .pool]
  | .granulePacked => [.ten, .fmt]
  | .cipherLaneStart => [.regs, .evt, .que, .vol, .fmt, .ciph]
  | .pairInject => [.regs, .ciph]
  | .keyEraseComplete _ | .kekEraseComplete _ => [.regs, .evt, .que, .keys]
  | .keyImportUnwrapDone _ _ => [.regs, .evt, .que, .keys, .ciph]
  | .memTrain => [.regs, .mem]
  | .ddrTrainStepDone _ _ | .ddrRefresh _ _ _ | .splitRead _ | .splitPcheck _ => [.regs, .evt, .mem]
  | .ddrOscTrack _ _ | .ddrZqLatch _ _ => [.mem]
  | .retire _ | .memRelease _ | .alloc _ _ | .free _ _ _ | .handoff _ _ _ _ | .addref _ _ | .poolRelease _ _ | .query _ _ | .poolBadOp _
  | .cacheFill | .poolBuildDone | .acctWinWrite _ => [.regs, .evt, .mem, .pool]
  | .sramWordRead _ _ _ _ => [.regs, .evt, .que, .mtr, .ten, .vol, .fmt, .band, .cal, .rch, .mot, .mem]
  | .srepApply => [.regs, .evt, .mem, .sec]
  | .splitWrite _ => [.regs, .evt, .mem, .cells]
  | .poolCancel => [.regs, .evt, .pool]
  | .poolBuild => [.regs, .pool]
  | .ctrlFlitReceived _ _ | .replayTimeout | .markerReceived _ _ _ | .epbxLinkTimeout | .lnkRetrain | .lnkReset | .token _ _
  | .lnkLockElapsed => [.regs, .evt, .lnk]
  | .cmd _ _ | .minute _ _ => [.regs, .evt, .que, .mtr, .lnk]
  | .dataOut _ _ | .kekErase _ | .meterRead _ | .attest _ => [.regs, .evt, .que, .lnk]
  | .tokenReturn => [.lnk]
  | .dataInSend _ => [.regs, .evt, .que, .mtr, .ten, .vol, .fmt, .band, .cal, .rch, .mot, .lnk]
  | .complSend | .retractSend => [.regs, .evt, .que, .mtr, .ten, .lnk]
  | .eventSend => [.evt, .lnk]
  | .queEn => [.regs, .lnk]
  | .load _ _ _ _ _ => [.regs, .evt, .links, .que, .mtr, .ten, .vol, .fmt, .cal, .rch, .cmp, .mot, .lnk]
  | .unload | .format | .write | .filemark | .locate _ | .refresh => [.regs, .evt, .que, .mtr, .ten, .vol, .fmt, .rch, .cmp, .lnk]
  | .flush | .selectMap _ | .receipt | .minuteExecute => [.regs, .evt, .que, .mtr, .ten, .vol, .fmt, .cmp, .lnk]
  | .read _ => [.regs, .evt, .que, .mtr, .ten, .vol, .fmt, .rch, .cmp, .ciph, .lnk]
  | .openTenant => [.regs, .evt, .que, .mtr, .ten, .vol, .fmt, .cmp, .mem, .pool, .lnk]
  | .closeTenant => [.regs, .evt, .que, .mtr, .ten, .vol, .fmt, .cmp, .keys, .mem, .pool, .lnk]
  | .keyImport _ => [.regs, .evt, .que, .ciph, .lnk]
  | .keyErase _ => [.regs, .evt, .que, .keys, .lnk]
  | .kekAgree _ => [.regs, .evt, .que, .keys, .lnk, .freeCount]
  | .cipher _ => [.regs, .evt, .que, .mtr, .ten, .vol, .fmt, .band, .cal, .rch, .cmp, .ciph, .mot, .mem, .cells, .pool, .lnk]
  | .setQuota _ => [.regs, .evt, .que, .mem, .pool, .lnk]
  | .safeClear _ _ _ _ _ _ _ => [.regs, .evt, .que, .mtr, .ten, .vol, .fmt, .band, .cal, .rch, .mot, .mem, .lnk, .freeCount]
  | .bracketFinal => [.regs, .evt, .mtr]
  | .startTimeout _ => [.regs, .evt, .que, .mtr, .ten, .mot]
  | .reelRevolution _ _ _ | .loopCommit _ | .injGo | .capArm | .repClr _ _ | .binWinWrite _ | .spdrefEdge _ => [.regs, .mot]
  | .vbusSample _ _ | .slotWinWrite _ | .spdrefLost => [.regs, .evt, .mot]
  | .turn _ _ => [.regs, .evt, .que, .mtr, .ten, .vol, .fmt, .band, .cal, .rch, .mot, .mem, .freeCount]
  | .porstRelease _ _ _ _ _ => [.regs, .evt, .core, .sec, .pins, .freeCount]
  | .porstAssert | .railChange _ _ | .brownout _ =>
      [.regs, .latch, .evt, .core, .pos, .links, .que, .mtr, .ten, .vol, .fmt, .band, .enc, .cal, .rch, .cmp, .keys, .ciph, .mot, .mem, .cells, .pool, .lnk, .sec, .pins]
  | .cartPresFault | .cartPresFaultClear => [.pins]
  | .imgApertureWrite _ _ | .imageVerifyDone | .sealComplete => [.regs, .evt, .sec]
  | .bootClear => [.regs, .sec]
  | .roleStartDone _ => [.regs, .evt, .core, .lnk, .sec, .freeCount]
  | .lcAdvanceOemOpen | .lcAdvanceRma => [.regs, .evt, .core, .sec, .fuses, .freeCount]
  | .lcAdvanceDeployed | .oemHashProgram => [.regs, .evt, .core, .sec, .fuses]
  | .entRetest _ => [.regs, .evt, .sec, .freeCount]

/-! ## What the statements say of a command -/

/-- The command runs in `s`: exec answers a next state (no fault, no refusal), and `Q` holds of that state. -/
def Runs (c : Instr) (s : State) (Q : State → Prop) : Prop := ∃ t, exec c s = .next t ∧ Q t

/-- Every word of register space whose address is not among those `w` names reads as before. -/
def WordsKept (w : Nat → Prop) (s t : State) : Prop := ∀ a, ¬ w a → rd t a = rd s a

/-- Every byte of the buffer's memory whose key is not among those `w` names reads as before. -/
def CellsKept (w : Nat → Prop) (s t : State) : Prop := ∀ k, ¬ w k → Memory.get t.mem.cells k = Memory.get s.mem.cells k

/-- The header words that an occurrence of one of the page's events changes: EVT_STATUS, EVT_FIRST and ERR_POS (R612–R614). -/
def evtWord (p a : Nat) : Prop := a = 0x1000 * p + 0x010 ∨ a = 0x1000 * p + 0x01C ∨ a = 0x1000 * p + 0x020 ∨ a = 0x1000 * p + 0x024

/-- The words that an event without a fault code may change: its page's, and, where the event FIFO is full, EVT_LOST_CNT, EPBX's event words
and the count of lost faults (R425, R560, R612). -/
def noticeWord (p a : Nat) : Prop := evtWord p a ∨ evtWord 0x68 a ∨ a = Reg.EVT_LOST_CNT.addr ∨ a = Reg.FAULT_LOST.addr

/-- The words that an event with a fault code may change: its page's, the count of lost faults, and what the last SAFETY fault leaves (R560,
R561, R612). -/
def faultWord (p a : Nat) : Prop := evtWord p a ∨ a = Reg.FAULT_LOST.addr ∨ a = Reg.SAFETY_LAST.addr ∨ a = Reg.SAFETY_CNT.addr

/-- The words that a stop into a safe state may change (R545–R548): FAULT's, SAFE's, the sequencers', VERIFY's, EPBX's, QUE's, and the
injection's control word (R537), and the count of unplanned stops (R161). -/
def stopWord (a : Nat) : Prop :=
  a / 0x1000 ∈ [0x01, 0x02, 0x14, 0x15, 0x16, 0x17, 0x18, 0x19, 0x1A, 0x1B, 0x4A, 0x68, 0x69] ∨ a = Reg.INJ_CTRL_RUN.addr ∨
  a = Reg.SPM_BACKHITCH_CNT.addr

/-- The parts of the state that a stop into a safe state may change. -/
def stopParts : List Part := [.regs, .evt, .que, .mtr, .ten, .vol, .fmt, .band, .cal, .rch, .mot]

/-- A safe state's entry (R545): its bit of SAFE_STATUS is set, the cause is recorded, and every write gate is closed. -/
def Stopped (f : Fld) (code : Nat) (t : State) : Prop := getF t f = 1 ∧ getF t Reg.SAFE_CAUSE_CODE = code ∧ gatesClosed t = true

/-- What a completion says: its queue, tag, status and detail. -/
def OutPkt.says : OutPkt → Option (Nat × Nat × Nat × Nat)
  | .compl q tag status _ _ _ detail => some (q, tag, status, detail)
  | .retract _ _ _ _ _ => none

/-- The newest packet of the completion FIFO is the completion of a command of queue `q` with this tag, status and detail (R425, R447). -/
def Completes (q tag status detail : Nat) (t : State) : Prop := t.que.out.getLast?.bind OutPkt.says = some (q, tag, status, detail)

/-- The executing stream command `x` may complete at once: the completion FIFO has room, none of its DATA_IN waits, and no RETRACT is due (R425,
R428). -/
def mayFinish (x : ExecSt) (s : State) : Bool :=
  s.que.exec == some x && decide (s.que.out.length < 1024) && !dinWaiting 0 (dTag x.entry.desc) s && x.retract.isNone

/-- The side command `x` of queue `q` may complete at once (R425, R444). -/
def mayFinishSide (q : Nat) (x : ExecSt) (s : State) : Bool :=
  (side s q).exec == some x && decide (s.que.out.length < 1024) && !dinWaiting q (dTag x.entry.desc) s

/-- A packet of type `t` passes every check of R422 and has a queue to go to (R418, R422, R469). -/
def packetGood (t : Nat) (h : Word256) (body : List Word256) (s : State) : Bool :=
  pktPTYPE h == t && hostSends t && body.length == pktLEN h && lenOk t (pktLEN h) && !reservedBad h &&
    decide ((tokenCost h).2.2 ≤ outstanding s (tokenCost h).1 (tokenCost h).2.1) &&
    ((tokenCost h).1 == 2 || (tokenCost h).2.2 == 0 || getB s Reg.QUE_CTRL)

/-- No command executes, in the stream or in a side queue. -/
def nothingRuns (s : State) : Bool := s.que.exec == none && (List.range 64).all fun q => (side s q).exec == none

/-- The stream command `x` of opcode `op` executes, and nothing holds its work back: its data has not begun to leave, CMD runs, and no closure
that ends the volume is under way (R268, R440). -/
def runsOp (op : Nat) (x : ExecSt) (s : State) : Bool :=
  s.que.exec == some x && dOpcode x.entry.desc == op && x.phase != .sending && cmdRuns s && s.fmt.ending.isNone

/-- The side command `x` of opcode `op` executes in queue `q` (R444). -/
def runsSide (op q : Nat) (x : ExecSt) (s : State) : Bool :=
  decide (1 ≤ q) && decide (q < 64) && (side s q).exec == some x && dOpcode x.entry.desc == op && x.phase != .sending && cmdRuns s

/-- The opcode that a stream row carries out (R437). -/
def streamOp : Instr → Option Nat
  | .load _ _ _ _ _ => some opLOAD
  | .unload => some opUNLOAD
  | .format => some opFORMAT
  | .write => some opWRITE
  | .filemark => some opFILEMARK
  | .flush => some opFLUSH
  | .read _ => some opREAD
  | .locate _ => some opLOCATE
  | .refresh => some opREFRESH
  | .selectMap _ => some opSELECT_MAP
  | .receipt => some opRECEIPT
  | .openTenant => some opOPEN_TENANT
  | .closeTenant => some opCLOSE_TENANT
  | _ => none

/-- The opcode that a side row carries out, and its queue (R437). -/
def sideOp : Instr → Option (Nat × Nat)
  | .keyImport q => some (opKEY_IMPORT, q)
  | .keyErase q => some (opKEY_ERASE, q)
  | .kekAgree q => some (opKEK_AGREE, q)
  | .kekErase q => some (opKEK_ERASE, q)
  | .cipher q => some (opCIPHER, q)
  | .meterRead q => some (opMETER_READ, q)
  | .setQuota q => some (opSET_QUOTA, q)
  | .attest q => some (opATTEST, q)
  | .safeClear q _ _ _ _ _ _ => some (opSAFE_CLEAR, q)
  | .regImage q => some (opREG_IMAGE, q)
  | _ => none

/-- No link action waits: no retraining or reset that a register write asked for is due (R416). -/
def linkQuiet (s : State) : Bool := !s.lnk.retrainDue && !s.lnk.resetDue

/-- The event bit of the page is set; and where nothing was captured before, the occurrence is captured with its fault code (R612, R614). -/
def Recorded (p bit code : Nat) (s t : State) : Prop :=
  getF t (evtBit p bit) = 1 ∧ (getB s (hdrEVT_FIRST_VALID p) = false → getF t (hdrEVT_FIRST p) = bit + code * 2 ^ 8 + 2 ^ 31)

end Sys2Proof.Machine
end

