-- ==== Sys2Proof/Certificates/Slice0/Obligations.lean ====
section
/-!
DEFINITION. The statements for the provers, in the order of OBLIGATIONS.json.
-/
open Sys2Proof Sys2Proof.Machine

/-- The step and the queue of waiting commands are the model's; the queue's order is first in, first out. That an empty queue idles is the model's choice
(DESIGN CHOICE, log entry 1). -/
def Obligations.StepRunsFront : Prop :=
  (∀ (c : Instr) (rest : List Instr) (s : State), step { s with pending := c :: rest } = exec c { s with pending := rest }) ∧
  (∀ (s : State), s.pending = [] → step s = .next s)

/-- The frame of every command of the table, in every state: what its row's sub-effects (spec/95) and the rules they name may change. Every part
that `touches` leaves out is the same afterwards: registers, latch, event FIFO and fault log, cluster, position, links, queues, meter, tenants,
volume, formatter, sequencers, encoders, calibration, read channel, compression, keys, cipher, motion, memory and its cells, pool, fuses, pins. -/
def Obligations.CommandFrames : Prop :=
  ∀ (c : Instr) (s : State), Runs c s (OnlyTouches (touches c) s)

/-- The canonical form of the buffer's cells is an invariant of every step, so that equal memories are equal data. -/
def Obligations.MemoryStaysCanonical : Prop :=
  StepKeeps fun s => memoryOk s = true

/-- A fuse is programmed once (R570): whatever the command, resets and power losses included, the lifecycle fuses only gain bits. -/
def Obligations.FusesOnlyAdvance : Prop :=
  ∀ (s t : State), step s = .next t → fusesAdvance s t = true

/-- The reset values of R607's pages and of the rules named. The lifecycle state MANUFACTURE at reset is the model's choice (DESIGN CHOICE, log entry 22),
and so is the empty memory (log entry 20). -/
def Obligations.ResetState : Prop :=
  State.reset.pending = [] ∧ memoryOk State.reset = true ∧ (∀ a, rd State.reset a = resetWord a) ∧ torqueOff State.reset = true ∧
  gatesClosed State.reset = true ∧ inSafeState State.reset = false ∧ getF State.reset Reg.LNK_STATUS_STATE = 1 ∧ faultN State.reset = true ∧
  isSealed State.reset = false ∧ State.reset.sec.fuses.lc0 = 0 ∧ State.reset.sec.fuses.lc1 = 0 ∧ stampNow State.reset = { lo := 0, hi := 2 ^ 21 }

/-- R23, for the two ways a write reaches a busy slot. -/
def Obligations.BusyMailboxWrites : Prop :=
  (∀ (p k : Nat) (v : Word) (s : State),
    k < mailboxSlots p →
    getB s (mbBUSY p k) = true →
    Runs (.mailboxRequest p k v) s fun t =>
      getF t (mbOVERRUN p k) = 1 ∧ getB t (mbBUSY p k) = true ∧ t.core = s.core ∧ Recorded p (8 + k) 0 s t ∧ WordsKept (fun a => a = (mbBUSY p k).addr ∨ noticeWord p a) s t ∧ OnlyTouches [.regs, .evt] s t) ∧
  (∀ (p k i : Nat) (v : Word) (s : State),
    linkQuiet s = true →
    k < mailboxSlots p →
    i < 16 →
    getB s (mbBUSY p k) = true →
    getB s (hdrLOCK p) = false →
    Runs (.registerWrite (mbARG p k i).addr v) s fun t =>
      getF t (mbOVERRUN p k) = 1 ∧ getB t (mbBUSY p k) = true ∧ rd t (mbARG p k i).addr = rd s (mbARG p k i).addr ∧ t.core = s.core ∧
      Recorded p (8 + k) 0 s t ∧ WordsKept (fun a => a = (mbBUSY p k).addr ∨ noticeWord p a) s t ∧ OnlyTouches [.regs, .evt] s t)

/-- R19: the entry is discarded, FIFO_OVERRUN is raised under the unit of the block whose FIFO it is, and S3 entered. -/
def Obligations.FullFifoWrite : Prop :=
  ∀ (p account i n : Nat) (w : Word256) (c : Chk) (s : State),
    (pageInfo p).isSome →
    (fifo s i n).full = true →
    Runs (.fifoEntryWritten p account i n false w c) s fun t =>
      t.core = s.core ∧ Recorded p 31 (0x40F2 + 0x100 * unitOf p) s t ∧ Stopped Reg.SAFE_STATUS_S3 (0x40F2 + 0x100 * unitOf p) t ∧ WordsKept (fun a => stopWord a ∨ faultWord p a) s t ∧
      OnlyTouches stopParts s t

/-- R54: the high word is latched by the low word's read, and until the next such read POS_NOW_HI returns it. -/
def Obligations.PositionLatch : Prop :=
  (∀ (s : State),
    Runs (.loWordRead Reg.POS_NOW_LO.addr) s fun t =>
      readWord t Reg.POS_NOW_HI.addr = BitVec.ofNat 32 (posNowHi s) ∧ WordsKept (fun _ => False) s t ∧ OnlyTouches [.latch] s t) ∧
  (∀ (s t u : State),
    exec (.loWordRead Reg.POS_NOW_LO.addr) s = .next t →
    u.latch = t.latch →
    readWord u Reg.POS_NOW_HI.addr = BitVec.ofNat 32 (posNowHi s))

/-- REGISTER_WRITE (R604, R605, R607): an unallocated page ignores the write; a RW word takes the value; EVT_ENABLE takes its defined bits; an RWS word takes
its fields until the configuration is sealed, and after that a write that differs sets RWS_WR and nothing else. LO_WORD_READ (R606): the HI word is
latched, and a read of it answers the latched value. WINDOW_DATA_ACCESS (R617): the fault log's window (WORD, then ENTRY, in R568's order) advances
with AUTOINC set, and only then. -/
def Obligations.RegisterAccess : Prop :=
  (∀ (addr : Nat) (v : Word) (s : State),
    linkQuiet s = true →
    pageInfo (wordAddr addr / 0x1000) = none →
    exec (.registerWrite addr v) s = .next s) ∧
  (∀ (i : Nat) (v : Word) (s : State),
    linkQuiet s = true →
    i < 4 →
    getB s (hdrLOCK 0) = false →
    Runs (.registerWrite (Reg.CHIP_SCRATCH i).addr v) s fun t =>
      rd t (Reg.CHIP_SCRATCH i).addr = v ∧ WordsKept (· = (Reg.CHIP_SCRATCH i).addr) s t ∧ OnlyTouches [.regs] s t) ∧
  (∀ (p : Nat) (v : Word) (s : State),
    linkQuiet s = true →
    p < 0x100 →
    (pageInfo p).isSome →
    Runs (.registerWrite (hdrEVT_ENABLE p).addr v) s fun t =>
      getF t (hdrEVT_ENABLE p) = v.toNat &&& definedEvents p ∧ WordsKept (· = (hdrEVT_ENABLE p).addr) s t ∧ OnlyTouches [.regs] s t) ∧
  (∀ (v : Word) (s : State),
    linkQuiet s = true →
    getB s (hdrLOCK 2) = false →
    rwsLocked s = false →
    Runs (.registerWrite Reg.SAFE_CFG_S1_TMAX.addr v) s fun t =>
      getF t Reg.SAFE_CFG_SSN_MODE = slice v.toNat 0 1 ∧ getF t Reg.SAFE_CFG_TEN_CMP_EN = slice v.toNat 1 1 ∧
      getF t Reg.SAFE_CFG_FAULTN_MIN = slice v.toNat 8 3 ∧ getF t Reg.SAFE_CFG_S1_TMAX = slice v.toNat 16 16 ∧
      WordsKept (· = Reg.SAFE_CFG_S1_TMAX.addr) s t ∧ OnlyTouches [.regs] s t) ∧
  (∀ (v : Word) (s : State),
    linkQuiet s = true →
    getB s (hdrLOCK 2) = false →
    rwsLocked s = true →
    slice v.toNat 16 16 ≠ getF s Reg.SAFE_CFG_S1_TMAX →
    Runs (.registerWrite Reg.SAFE_CFG_S1_TMAX.addr v) s fun t =>
      getB t (hdrRWS_WR 2) = true ∧ WordsKept (· = (hdrRWS_WR 2).addr) s t ∧ OnlyTouches [.regs] s t) ∧
  (∀ (p : Nat) (s : State),
    (pageInfo p).isSome →
    Runs (.loWordRead (hdrERR_POS_LO p).addr) s fun t =>
      readWord t (hdrERR_POS_HI p).addr = rd s (hdrERR_POS_HI p).addr ∧ WordsKept (fun _ => False) s t ∧ OnlyTouches [.latch] s t) ∧
  (∀ (addr : Nat) (s : State),
    hiOf addr = none →
    exec (.loWordRead addr) s = .next s) ∧
  (∀ (s : State),
    getB s Reg.FLT_LOG_WIN_ADDR_AUTOINC = true →
    getF s Reg.FLT_LOG_WIN_ADDR_WORD < 7 →
    Runs (.windowDataAccess Reg.FLT_LOG_WIN_DATA.addr none) s fun t =>
      getF t Reg.FLT_LOG_WIN_ADDR_WORD = getF s Reg.FLT_LOG_WIN_ADDR_WORD + 1 ∧ getF t Reg.FLT_LOG_WIN_ADDR_ENTRY = getF s Reg.FLT_LOG_WIN_ADDR_ENTRY ∧
      WordsKept (· = Reg.FLT_LOG_WIN_ADDR_WORD.addr) s t ∧ OnlyTouches [.regs] s t) ∧
  (∀ (s : State),
    getB s Reg.FLT_LOG_WIN_ADDR_AUTOINC = true →
    getF s Reg.FLT_LOG_WIN_ADDR_WORD = 7 →
    Runs (.windowDataAccess Reg.FLT_LOG_WIN_DATA.addr none) s fun t =>
      getF t Reg.FLT_LOG_WIN_ADDR_WORD = 0 ∧ getF t Reg.FLT_LOG_WIN_ADDR_ENTRY = (getF s Reg.FLT_LOG_WIN_ADDR_ENTRY + 1) % 1024 ∧
      WordsKept (· = Reg.FLT_LOG_WIN_ADDR_WORD.addr) s t ∧ OnlyTouches [.regs] s t) ∧
  (∀ (s : State),
    getB s Reg.FLT_LOG_WIN_ADDR_AUTOINC = false →
    exec (.windowDataAccess Reg.FLT_LOG_WIN_DATA.addr none) s = .next s)

/-- PAGE_EN (R608), PAGE_QUIESCE and PAGE_QUIESCED (R609), PAGE_LOCK (R610), with what each leaves alone. -/
def Obligations.PageControl : Prop :=
  (∀ (s : State),
    rwsLocked s = false →
    pageRuns s 0x7E = false →
    Runs (.pageEn 0x7E true) s fun t =>
      pageRuns t 0x7E = true ∧ (∀ k, k < 1008 → rd t (0x7E040 + 4 * k) = resetWord (0x7E040 + 4 * k)) ∧
      WordsKept (fun a => a = 0x7E008 ∨ (0x7E040 ≤ a ∧ a < 0x7F000)) s t ∧ OnlyTouches [.regs, .mot] s t) ∧
  (∀ (p : Nat) (s : State),
    (p = 0x7D ∨ p = 0x7E) →
    rwsLocked s = false →
    pageRuns s p = true →
    Runs (.pageEn p false) s fun t => pageRuns t p = false ∧ WordsKept (· = 0x1000 * p + 0x008) s t ∧ OnlyTouches [.regs] s t) ∧
  (∀ (p : Nat) (en : Bool) (s : State),
    (∃ i ∈ pageInfo p, i.enCtl = true) →
    rwsLocked s = true →
    pageRuns s p = !en →
    Runs (.pageEn p en) s fun t => getB t (hdrRWS_WR p) = true ∧ WordsKept (· = 0x1000 * p + 0x00C) s t ∧ OnlyTouches [.regs] s t) ∧
  (∀ (p : Nat) (s : State),
    (∃ i ∈ pageInfo p, i.quiesce = true) →
    getB s (hdrLOCK p) = false →
    Runs (.pageQuiesce p true) s fun t => getB t (hdrQUIESCE p) = true ∧ WordsKept (· = 0x1000 * p + 0x008) s t ∧ OnlyTouches [.regs] s t) ∧
  (∀ (p : Nat) (s : State),
    (∃ i ∈ pageInfo p, i.quiesce = true) →
    p ≠ 0x50 →
    getB s (hdrLOCK p) = false →
    Runs (.pageQuiesce p false) s fun t => getB t (hdrQUIESCE p) = false ∧ getB t (hdrQUIESCED p) = false ∧
      WordsKept (fun a => a = 0x1000 * p + 0x008 ∨ a = 0x1000 * p + 0x00C) s t ∧ OnlyTouches [.regs] s t) ∧
  (∀ (p : Nat) (on : Bool) (s : State),
    (∃ i ∈ pageInfo p, i.quiesce = true) →
    getB s (hdrLOCK p) = true →
    Runs (.pageQuiesce p on) s fun t => getB t (hdrLOCK_WR p) = true ∧ WordsKept (· = 0x1000 * p + 0x00C) s t ∧ OnlyTouches [.regs] s t) ∧
  (∀ (b : Nat) (s : State),
    b < 8 →
    getB s (hdrQUIESCE (bseqPage b)) = true →
    (band s b).running = false →
    Runs (.pageQuiesced (bseqPage b)) s fun t => getB t (hdrQUIESCED (bseqPage b)) = true ∧ WordsKept (· = 0x1000 * bseqPage b + 0x00C) s t ∧ OnlyTouches [.regs] s t) ∧
  (∀ (b : Nat) (s : State),
    b < 8 →
    (band s b).running = true →
    exec (.pageQuiesced (bseqPage b)) s = .next s) ∧
  (∀ (p : Nat) (s : State),
    (pageInfo p).isSome →
    isSealed s = true →
    Runs (.pageLock p) s fun t => getB t (hdrLOCK p) = true ∧ WordsKept (· = 0x1000 * p + 0x008) s t ∧ OnlyTouches [.regs] s t) ∧
  (∀ (p : Nat) (s : State),
    isSealed s = false →
    exec (.pageLock p) s = .next s)

/-- EVT_FORCE (R613), EVT_FIRST_CLEAR (R614), STG_REGISTER_WRITE (R616; the clamp of the servo gains is R57's). That a calibration value written drops what a cycle staged for it is R250's: the frame names `cal` there. -/
def Obligations.EventForceAndClear : Prop :=
  (∀ (p bits : Nat) (s : State),
    Runs (.evtForce p bits) s fun t =>
      (∀ i < 32, (bits &&& definedEvents p).testBit i = true → getF t (evtBit p i) = 1) ∧
      (∀ i < 32, (bits &&& definedEvents p).testBit i = false → p ≠ 0x68 ∨ i ≠ 5 → getF t (evtBit p i) = getF s (evtBit p i)) ∧
      (∀ i < 32, (bits &&& definedEvents p).testBit i = true → (∀ j < i, (bits &&& definedEvents p).testBit j = false) → getB s (hdrEVT_FIRST_VALID p) = false →
        getF t (hdrEVT_FIRST p) = i + 2 ^ 7 + 2 ^ 31 ∧ getF t (hdrERR_POS_LO p) = (stampNow s).lo % 2 ^ 32 ∧ getF t (hdrERR_POS_HI p) = (stampNow s).hi % 2 ^ 32) ∧
      WordsKept (noticeWord p) s t ∧ OnlyTouches [.regs, .evt] s t) ∧
  (∀ (p : Nat) (s : State),
    (pageInfo p).isSome →
    Runs (.evtFirstClear p) s fun t =>
      getF t (hdrEVT_FIRST p) = 0 ∧ getF t (hdrERR_POS_LO p) = 0 ∧ getF t (hdrERR_POS_HI p) = 0 ∧ getF t (hdrEVT_STATUS p) = getF s (hdrEVT_STATUS p) ∧
      WordsKept (fun a => a = 0x1000 * p + 0x01C ∨ a = 0x1000 * p + 0x020 ∨ a = 0x1000 * p + 0x024) s t ∧ OnlyTouches [.regs] s t) ∧
  (∀ (p : Nat) (s : State),
    (pageInfo p).isNone →
    exec (.evtFirstClear p) s = .next s) ∧
  (∀ (b : Nat) (v : Word) (s : State),
    b < 8 →
    getB s (hdrLOCK (rchPage b)) = false →
    Runs (.stgRegisterWrite (Reg.LOOP_STG_KP_SH b).addr v) s fun t =>
      (∀ f ∈ [Reg.LOOP_STG_KP_SH b, Reg.LOOP_STG_KI_SH b, Reg.LOOP_STG_G_SH b, Reg.LOOP_STG_O_SH b, Reg.LOOP_STG_A_SH b], getF t f = slice v.toNat f.lo f.width) ∧
      rd t (Reg.LOOP_ACT_KP_SH b).addr = (if isSealed s then rd s (Reg.LOOP_ACT_KP_SH b).addr else rd t (Reg.LOOP_STG_KP_SH b).addr) ∧
      WordsKept (fun a => a = (Reg.LOOP_STG_KP_SH b).addr ∨ a = (Reg.LOOP_ACT_KP_SH b).addr) s t ∧ OnlyTouches [.regs] s t) ∧
  (∀ (b : Nat) (v : Word) (s : State),
    b < 8 →
    getB s (hdrLOCK (rchPage b)) = false →
    Runs (.stgRegisterWrite (Reg.EQ_STG_MU_SH b).addr v) s fun t =>
      (∀ f ∈ [Reg.EQ_STG_MU_SH b, Reg.EQ_STG_FREEZE b, Reg.EQ_STG_MUW_SH b, Reg.EQ_STG_MUF_SH b], getF t f = slice v.toNat f.lo f.width) ∧
      rd t (Reg.EQ_ACT_MU_SH b).addr = (if isSealed s then rd s (Reg.EQ_ACT_MU_SH b).addr else rd t (Reg.EQ_STG_MU_SH b).addr) ∧
      WordsKept (fun a => a = (Reg.EQ_STG_MU_SH b).addr ∨ a = (Reg.EQ_ACT_MU_SH b).addr) s t ∧ OnlyTouches [.regs] s t) ∧
  (∀ (b : Nat) (v : Word) (s : State),
    b < 9 →
    pageRuns s (servoPage b) = true →
    getB s (hdrLOCK (servoPage b)) = false →
    Runs (.stgRegisterWrite (Reg.SV_KAB_STG_RD0 b).addr v) s fun t =>
      getF t (Reg.SV_KAB_STG_RD0 b) = clampN 192 768 (slice v.toNat 0 16) ∧ getF t (Reg.SV_KAB_STG_RD1 b) = clampN 192 768 (slice v.toNat 16 16) ∧
      rd t (Reg.SV_KAB_ACT_RD0 b).addr = (if isSealed s then rd s (Reg.SV_KAB_ACT_RD0 b).addr else rd t (Reg.SV_KAB_STG_RD0 b).addr) ∧
      WordsKept (fun a => a / 0x1000 = servoPage b) s t ∧ OnlyTouches [.regs, .cal] s t) ∧
  (∀ (b : Nat) (v : Word) (s : State),
    b < 9 →
    pageRuns s (servoPage b) = true →
    getB s (hdrLOCK (servoPage b)) = false →
    Runs (.stgRegisterWrite (Reg.SV_KCD_STG_RD0 b).addr v) s fun t =>
      getF t (Reg.SV_KCD_STG_RD0 b) = clampN 192 768 (slice v.toNat 0 16) ∧ getF t (Reg.SV_KCD_STG_RD1 b) = clampN 192 768 (slice v.toNat 16 16) ∧
      rd t (Reg.SV_KCD_ACT_RD0 b).addr = (if isSealed s then rd s (Reg.SV_KCD_ACT_RD0 b).addr else rd t (Reg.SV_KCD_STG_RD0 b).addr) ∧
      WordsKept (fun a => a / 0x1000 = servoPage b) s t ∧ OnlyTouches [.regs, .cal] s t) ∧
  (∀ (v : Word) (s : State),
    getB s (hdrLOCK 0x4B) = false →
    Runs (.stgRegisterWrite Reg.CAL_TILT_STG_TRIM.addr v) s fun t =>
      getF t Reg.CAL_TILT_STG_TRIM = v.toNat % 2 ^ 16 ∧ getF t Reg.CAL_TILT_STG_TILT_K = slice v.toNat 16 8 ∧
      getF t Reg.CAL_TILT_ACT = (if isSealed s then getF s Reg.CAL_TILT_ACT else v.toNat % 2 ^ 16) ∧
      WordsKept (fun a => a = Reg.CAL_TILT_STG_TRIM.addr ∨ a = Reg.CAL_TILT_ACT.addr) s t ∧ OnlyTouches [.regs, .cal] s t) ∧
  (∀ (v : Word) (s : State),
    getB s (hdrLOCK 0x7C) = false →
    Runs (.stgRegisterWrite Reg.LAT_OFS_STG.addr v) s fun t =>
      getF t Reg.LAT_OFS_STG = v.toNat % 2 ^ 16 ∧ getF t Reg.LAT_OFS_ACT = (if isSealed s then getF s Reg.LAT_OFS_ACT else v.toNat % 2 ^ 16) ∧
      WordsKept (fun a => a = Reg.LAT_OFS_STG.addr ∨ a = Reg.LAT_OFS_ACT.addr) s t ∧ OnlyTouches [.regs] s t) ∧
  (∀ (v : Word) (s : State),
    getB s (hdrLOCK 0x7C) = false →
    Runs (.stgRegisterWrite Reg.RD_OFS_STG.addr v) s fun t =>
      getF t Reg.RD_OFS_STG = v.toNat % 2 ^ 16 ∧ getF t Reg.RD_OFS_ACT = (if isSealed s then getF s Reg.RD_OFS_ACT else v.toNat % 2 ^ 16) ∧
      WordsKept (· = Reg.RD_OFS_STG.addr) s t ∧ OnlyTouches [.regs] s t) ∧
  (∀ (a : Nat) (v : Word) (s : State),
    isStg a = false →
    exec (.stgRegisterWrite a v) s = .next s)

/-- MAILBOX_REQUEST and MAILBOX_COMPLETE (R21, R22): an opcode that no chapter defines completes with RESULT 0x01. FIFO_ENTRY_WRITTEN and
FIFO_ENTRY_REMOVED (R17, R18), with the FIFO's pointers of one bit more than its size and its producer's tokens. -/
def Obligations.MailboxesAndFifos : Prop :=
  (∀ (p k : Nat) (v : Word) (s : State),
    k < mailboxSlots p →
    getB s (mbBUSY p k) = false →
    getB s (hdrLOCK p) = false →
    Runs (.mailboxRequest p k v) s fun t =>
      getF t (mbBUSY p k) = 1 ∧ getF t (mbDONE p k) = 0 ∧
      Tbl.get { opcode := 0, args := 0, tag := 0, arg := [] } t.core.mailbox (mbKey p k) =
        { opcode := slice v.toNat 0 16, args := slice v.toNat 16 5, tag := slice v.toNat 24 8, arg := (List.range 16).map fun i => rd s (mbARG p k i).addr } ∧
      WordsKept (· = (mbBUSY p k).addr) s t ∧ OnlyTouches [.regs, .core] s t) ∧
  (∀ (p k : Nat) (res : List Word) (s : State),
    k < mailboxSlots p →
    mailboxCoreRuns p k s = true →
    getB s (mbBUSY p k) = true →
    mailboxDefined p (Tbl.get { opcode := 0, args := 0, tag := 0, arg := [] } s.core.mailbox (mbKey p k)).opcode = false →
    Runs (.mailboxComplete p k res) s fun t =>
      getF t (mbBUSY p k) = 0 ∧ getF t (mbDONE p k) = 1 ∧ getF t (mbRESULT p k) = 1 ∧
      getF t (mbTAG p k) = (Tbl.get { opcode := 0, args := 0, tag := 0, arg := [] } s.core.mailbox (mbKey p k)).tag % 2 ^ 8 ∧
      getF t (mbSEQ p k) = (getF s (mbSEQ p k) + 1) % 2 ^ 32 ∧ (∀ i < 16, rd t (mbRES p k i).addr = res.getD i 0) ∧ Recorded p k 0 s t ∧
      WordsKept (fun a => a = (mbBUSY p k).addr ∨ a = (mbSEQ p k).addr ∨ (∃ i < 16, a = (mbRES p k i).addr) ∨ noticeWord p a) s t ∧
      OnlyTouches [.regs, .core, .evt] s t) ∧
  (∀ (p k : Nat) (res : List Word) (s : State),
    (getB s (mbBUSY p k) = false ∨ mailboxCoreRuns p k s = false ∨ mailboxSlots p ≤ k ∨ mailboxDefined p (Tbl.get { opcode := 0, args := 0, tag := 0, arg := [] } s.core.mailbox (mbKey p k)).opcode = true) →
    exec (.mailboxComplete p k res) s = .next s) ∧
  (∀ (p account i n : Nat) (w : Word256) (c : Chk) (s : State),
    (fifo s i n).tokens ≠ 0 →
    (fifo s i n).full = false →
    Runs (.fifoEntryWritten p account i n true w c) s fun t =>
      (fifo t i n).entries = (fifo s i n).entries ++ [(w, c)] ∧ (fifo t i n).wr = ((fifo s i n).wr + 1) % 2 ^ ((fifo s i n).n + 1) ∧
      (fifo t i n).tokens = (fifo s i n).tokens - 1 ∧ (fifo t i n).rd = (fifo s i n).rd ∧ t.core.mailbox = s.core.mailbox ∧
      Tbl.erase t.core.fifos (fifoKey i n) = Tbl.erase s.core.fifos (fifoKey i n) ∧ OnlyTouches [.core] s t) ∧
  (∀ (p account i n : Nat) (w : Word256) (c : Chk) (s : State),
    (fifo s i n).tokens = 0 →
    exec (.fifoEntryWritten p account i n true w c) s = .next s) ∧
  (∀ (i n unit row : Nat) (upset : Word256 × Chk) (s : State),
    (fifo s i n).empty = false →
    wDecode (((fifo s i n).entries.headD (0, 0)).1 ^^^ upset.1) (((fifo s i n).entries.headD (0, 0)).2 ^^^ upset.2) = .clean →
    Runs (.fifoEntryRemoved i n unit row upset) s fun t =>
      (fifo t i n).entries = (fifo s i n).entries.tail ∧ (fifo t i n).rd = ((fifo s i n).rd + 1) % 2 ^ ((fifo s i n).n + 1) ∧
      (fifo t i n).tokens = (fifo s i n).tokens + 1 ∧ (fifo t i n).wr = (fifo s i n).wr ∧ t.core.mailbox = s.core.mailbox ∧
      Tbl.erase t.core.fifos (fifoKey i n) = Tbl.erase s.core.fifos (fifoKey i n) ∧ OnlyTouches [.core] s t) ∧
  (∀ (i n unit row : Nat) (upset : Word256 × Chk) (s : State),
    (fifo s i n).empty = false →
    unit < 288 →
    row < 8192 →
    wDecode (((fifo s i n).entries.headD (0, 0)).1 ^^^ upset.1) (((fifo s i n).entries.headD (0, 0)).2 ^^^ upset.2) = .uncorrectable →
    Runs (.fifoEntryRemoved i n unit row upset) s fun t =>
      (fifo t i n).entries = (fifo s i n).entries.tail ∧ (fifo t i n).tokens = (fifo s i n).tokens + 1 ∧ t.mem.cells = s.mem.cells ∧
      Recorded 0x5D 6 0x4A07 s t ∧ Stopped Reg.SAFE_STATUS_S3 0x4A07 t ∧ WordsKept (fun a => stopWord a ∨ a / 0x1000 = 0x5D ∨ faultWord 0x5D a) s t ∧
      OnlyTouches (.core :: .mem :: stopParts) s t) ∧
  (∀ (i n unit row : Nat) (upset : Word256 × Chk) (s : State),
    (fifo s i n).empty = true →
    exec (.fifoEntryRemoved i n unit row upset) s = .next s)

/-- LOCKSTEP_MISMATCH (R10, R24, R550) and INTERNAL_WORD_HOP (R13–R15). -/
def Obligations.CoreAndHopFaults : Prop :=
  (∀ (s : State),
    Runs (.lockstepMismatch 0) s fun t =>
      getF t Reg.CLU_RUN_CMD = 0 ∧ getF t Reg.CLU_LS_MISMATCH_CMD = 1 ∧ getF t (mbBUSY 0x81 0) = 0 ∧ (getB s (mbBUSY 0x81 0) = true → getF t (mbRESULT 0x81 0) = 0xFE) ∧
      Recorded 0x80 0 0x4001 s t ∧ Stopped Reg.SAFE_STATUS_S3 0x4001 t ∧ WordsKept (fun a => stopWord a ∨ a / 0x1000 = 0x80 ∨ a / 0x1000 = 0x81) s t ∧
      OnlyTouches (.core :: stopParts) s t) ∧
  (∀ (s : State),
    Runs (.lockstepMismatch 1) s fun t =>
      getF t Reg.CLU_RUN_SECU = 0 ∧ getF t Reg.CLU_LS_MISMATCH_SECU = 1 ∧ getF t (mbBUSY 0x82 0) = 0 ∧
      Recorded 0x80 0 0x4001 s t ∧ Stopped Reg.SAFE_STATUS_S3 0x4001 t ∧ WordsKept (fun a => stopWord a ∨ a / 0x1000 = 0x80 ∨ a / 0x1000 = 0x82) s t ∧
      OnlyTouches (.core :: stopParts) s t) ∧
  (∀ (i : Nat) (s : State),
    i < 4 →
    Runs (.lockstepMismatch (2 + i)) s fun t =>
      (getF t Reg.CLU_RUN_MOT).testBit i = false ∧ (getF t Reg.CLU_LS_MISMATCH_MOT).testBit i = true ∧ getF t (mbBUSY 0x83 i) = 0 ∧
      Recorded 0x80 0 0x4001 s t ∧ Stopped Reg.SAFE_STATUS_S2 0x4001 t ∧ torqueOff t = true ∧
      WordsKept (fun a => stopWord a ∨ a / 0x1000 = 0x80 ∨ a / 0x1000 = 0x83) s t ∧ OnlyTouches (.core :: stopParts) s t) ∧
  (∀ (p account : Nat) (w : Word256) (s : State),
    wDecode w (wChk w) = .clean →
    exec (.internalWordHop p account w (wChk w)) s = .next s) ∧
  (∀ (p account : Nat) (w : Word256) (c : Chk) (s : State),
    wDecode w c = .poisoned →
    exec (.internalWordHop p account w c) s = .next s) ∧
  (∀ (p account : Nat) (w w' : Word256) (c c' : Chk) (s : State),
    (pageInfo p).isSome →
    wDecode w c = .single w' c' →
    Runs (.internalWordHop p account w c) s fun t =>
      Tbl.get 0 t.core.hopCe p = Tbl.get 0 s.core.hopCe p + 1 ∧ Tbl.erase t.core.hopCe p = Tbl.erase s.core.hopCe p ∧
      t.core.mailbox = s.core.mailbox ∧ t.core.fifos = s.core.fifos ∧
      Recorded p 31 (0x10F0 + 0x100 * unitOf p) s t ∧ WordsKept (faultWord p) s t ∧ OnlyTouches [.regs, .evt, .core] s t) ∧
  (∀ (p account : Nat) (w : Word256) (c : Chk) (s : State),
    (pageInfo p).isSome →
    wDecode w c = .uncorrectable →
    Runs (.internalWordHop p account w c) s fun t =>
      Recorded p 31 (0x40F1 + 0x100 * unitOf p) s t ∧ Stopped Reg.SAFE_STATUS_S3 (0x40F1 + 0x100 * unitOf p) t ∧
      WordsKept (fun a => stopWord a ∨ faultWord p a) s t ∧ OnlyTouches stopParts s t)

/-- SERVO_FRAME_DECODED (R36–R43) and SERVO_BURST_RECEIVED (R60, R70), each with its frame. -/
def Obligations.ServoReaders : Prop :=
  (∀ (b r : Nat) (y : BitVec 64) (tone pa pb pc pd stripe frame : Nat) (v : Int) (s : State),
    b < 9 →
    r < 2 →
    pageRuns s (servoPage b) = true →
    getF s (slState r) = 4 →
    servoIdentity b (recordedSymbols s y) = some (stripe, frame) →
    lateral stripe pa pb pc pd (getF s (svKab b r)) (getF s (svKcd b r)) = some v →
    ((reader s b r).hasLat = false ∨ (v - getS s (svLat b r)).natAbs ≤ 768) →
    Runs (.servoFrameDecoded b r y tone pa pb pc pd) s fun t =>
      getF t (svStripe b r) = stripe % 2 ^ 7 ∧ getF t (svLat b r) = ofS (svLat b r).width v ∧
      (reader t b r).amp = tone ∧ (reader t b r).sinceId = 0 ∧ t.pos.anyId = true ∧ t.pos.frame = s.pos.frame ∧ getF t Reg.POS_STATUS_QUAL = qualCount t ∧
      WordsKept (fun a => a = Reg.POS_STATUS_QUAL.addr ∨ (0x09 ≤ a / 0x1000 ∧ a / 0x1000 ≤ 0x11)) s t ∧ OnlyTouches [.regs, .pos] s t) ∧
  (∀ (b r : Nat) (y : BitVec 64) (tone pa pb pc pd stripe frame : Nat) (v : Int) (s : State),
    b < 9 →
    r < 2 →
    pageRuns s (servoPage b) = true →
    getF s (slState r) = 4 →
    servoIdentity b (recordedSymbols s y) = some (stripe, frame) →
    lateral stripe pa pb pc pd (getF s (svKab b r)) (getF s (svKcd b r)) = some v →
    (reader s b r).hasLat = true →
    (reader s b r).held = false →
    768 < (v - getS s (svLat b r)).natAbs →
    Runs (.servoFrameDecoded b r y tone pa pb pc pd) s fun t =>
      getF t (svLat b r) = getF s (svLat b r) ∧ getF t (Reg.SV_STATUS_LAT_JUMP b) = 1 ∧ (reader t b r).held = true ∧ Recorded (servoPage b) 3 0x0304 s t ∧
      WordsKept (fun a => a = Reg.POS_STATUS_QUAL.addr ∨ (0x09 ≤ a / 0x1000 ∧ a / 0x1000 ≤ 0x11) ∨ faultWord (servoPage b) a) s t ∧
      OnlyTouches [.regs, .pos, .evt] s t) ∧
  (∀ (b r : Nat) (y : BitVec 64) (tone pa pb pc pd : Nat) (s : State),
    b < 9 →
    r < 2 →
    pageRuns s (servoPage b) = true →
    getF s (slState r) = 4 →
    servoIdentity b (recordedSymbols s y) = none →
    (reader s b r).hasStripe = false →
    Runs (.servoFrameDecoded b r y tone pa pb pc pd) s fun t =>
      getF t (svIdErr b r) = satAdd (svIdErr b r).width (getF s (svIdErr b r)) 1 ∧ getF t (svStripe b r) = getF s (svStripe b r) ∧
      getF t (svLat b r) = getF s (svLat b r) ∧
      WordsKept (fun a => a = Reg.POS_STATUS_QUAL.addr ∨ (0x09 ≤ a / 0x1000 ∧ a / 0x1000 ≤ 0x11)) s t ∧ OnlyTouches [.regs, .pos] s t) ∧
  (∀ (l : Nat) (blocks : List (BitVec 64)) (s : State),
    l < 2 →
    getF s (slState l) = 4 →
    servoBurstOk l blocks = true →
    (s.pos.expect.all fun e => e.1 != l || e.2 == (blocks.headD 0).toNat / 2 ^ 32) →
    Runs (.servoBurstReceived l blocks) s fun t =>
      Tbl.get [] t.pos.samples l = (blocks.drop 1).take 9 ∧ Tbl.get 0 t.pos.expect l = ((blocks.headD 0).toNat / 2 ^ 32 + 8) % 2 ^ 32 ∧
      t.pos.readers = s.pos.readers ∧ t.pos.frame = s.pos.frame ∧ t.pos.votes = s.pos.votes ∧ WordsKept (fun _ => False) s t ∧ OnlyTouches [.pos] s t) ∧
  (∀ (blocks : List (BitVec 64)) (s : State),
    getF s (slState 0) = 4 →
    pageRuns s 0x08 = true →
    getB s Reg.POS_CTRL_EN = true →
    getB s Reg.POS_STATUS_COARSE = false →
    pllReaders s = [] →
    Runs (.servoBurstReceived 0 blocks) s fun t =>
      (48828125 * t.pos.tick + t.pos.sub : Int) = clampI 0 (4096 * 48828125 - 1) ((48828125 * s.pos.tick + s.pos.sub : Nat) + 32 * getS s Reg.POS_SPEED) ∧
      t.pos.sub < 48828125 ∧ t.pos.frame = s.pos.frame ∧ WordsKept (· = (slCrc 0).addr) s t ∧ OnlyTouches [.regs, .pos] s t) ∧
  (∀ (l : Nat) (blocks : List (BitVec 64)) (s : State),
    l < 2 →
    getF s (slState l) = 4 →
    servoBurstOk l blocks = false →
    Runs (.servoBurstReceived l blocks) s fun t =>
      getF t (slCrc l) = satAdd (slCrc l).width (getF s (slCrc l)) 1 ∧ Tbl.get [1] t.pos.samples l = [] ∧
      WordsKept (· = (slCrc l).addr) s t ∧ OnlyTouches [.regs, .pos] s t)

/-- POS_LOCK_LOST (R45, R47), FRAME_SLIP (R46, R47), SERVO_ID_LOST (R79), and when they do nothing. -/
def Obligations.PositionLoss : Prop :=
  (∀ (s : State),
    getB s Reg.POS_STATUS_LOCKED = true →
    (4 ≤ s.pos.bad ∨ 2 ≤ s.pos.short) →
    Runs .posLockLost s fun t =>
      getB t Reg.POS_STATUS_LOCKED = false ∧ getB t Reg.POS_STATUS_STALE = true ∧ Recorded 0x08 0 0x2301 s t ∧ gatesClosed t = true ∧
      t.pos = s.pos ∧ WordsKept (fun a => stopWord a ∨ a = Reg.POS_STATUS_LOCKED.addr ∨ faultWord 0x08 a) s t ∧ OnlyTouches stopParts s t) ∧
  (∀ (w : Nat) (s : State),
    getB s Reg.POS_STATUS_LOCKED = true →
    (4 ≤ s.pos.bad ∨ 2 ≤ s.pos.short) →
    setEmits s = true →
    s.fmt.writing = some w →
    (dataSet s w).isSome →
    ((List.range 8).all fun b => (band s b).windows.isEmpty) →
    Runs .posLockLost s fun t =>
      t.fmt.writing = none ∧ t.fmt.repos = some w ∧ t.fmt.running = false ∧ ((List.range 8).all fun b => !(band t b).running && !(band t b).a.armed && !(band t b).b.armed) = true) ∧
  (∀ (s : State),
    (getB s Reg.POS_STATUS_LOCKED = false ∨ (s.pos.bad < 4 ∧ s.pos.short < 2)) →
    exec .posLockLost s = .next s) ∧
  (∀ (m : Nat) (s : State),
    3 ≤ s.pos.disagree →
    s.pos.majority = some m →
    (getB s Reg.POS_STATUS_COARSE = false ∨ 8 < ((m : Int) - s.pos.frame).natAbs) →
    Runs .frameSlip s fun t =>
      t.pos = { s.pos with frame := m % 2 ^ 32, disagree := 0, noId := 0 } ∧ getF t Reg.POS_SLIP_CNT = satAdd 32 (getF s Reg.POS_SLIP_CNT) 1 ∧
      getB t Reg.POS_STATUS_STALE = true ∧ Recorded 0x08 2 0x2303 s t ∧ gatesClosed t = true ∧
      WordsKept (fun a => stopWord a ∨ a = Reg.POS_STATUS_STALE.addr ∨ a = Reg.POS_SLIP_CNT.addr ∨ faultWord 0x08 a) s t ∧ OnlyTouches (.pos :: stopParts) s t) ∧
  (∀ (m : Nat) (s : State),
    3 ≤ s.pos.disagree →
    s.pos.majority = some m →
    getB s Reg.POS_STATUS_COARSE = true →
    ((m : Int) - s.pos.frame).natAbs ≤ 8 →
    exec .frameSlip s = .next { s with pos := { s.pos with frame := m % 2 ^ 32, disagree := 0, noId := 0 } }) ∧
  (∀ (s : State),
    (s.pos.disagree < 3 ∨ s.pos.majority = none) →
    exec .frameSlip s = .next s) ∧
  (∀ (s : State),
    64 ≤ s.pos.noId →
    Runs .servoIdLost s fun t =>
      t.pos = { s.pos with noId := 0 } ∧ Recorded 0x08 3 0x2305 s t ∧ gatesClosed t = true ∧
      WordsKept (fun a => stopWord a ∨ faultWord 0x08 a) s t ∧ OnlyTouches (.pos :: stopParts) s t) ∧
  (∀ (s : State),
    s.pos.noId < 64 →
    exec .servoIdLost s = .next s)

/-- POS_COARSE_ENTER and POS_COARSE_EXIT (R48), POS_LOCK_FAIL (R49), POS_STILL_CLEAR and POS_STILL_TIMEOUT (R50), SERVO_FRAME_BOUNDARY (R44, R46, R79, R530, R616). The majority of a tie, and frames without an identity, are the model's choice (log entry 45). -/
def Obligations.CoarseCountingAndStandstill : Prop :=
  (∀ (v : Int) (s : State),
    getB s Reg.POS_CTRL_EN = true →
    getB s Reg.POS_STATUS_COARSE = false →
    v.natAbs < 200000 →
    Runs (.posCoarseEnter v) s fun t =>
      getB t Reg.POS_STATUS_COARSE = true ∧ getB t Reg.POS_STATUS_LOCKED = false ∧ getS t Reg.POS_SPEED = v ∧ Recorded 0x08 5 0 s t ∧
      t.pos = { s.pos with coarseRun := 0 } ∧
      WordsKept (fun a => a = Reg.POS_STATUS_COARSE.addr ∨ a = Reg.POS_SPEED.addr ∨ noticeWord 0x08 a) s t ∧ OnlyTouches [.regs, .evt, .pos] s t) ∧
  (∀ (v : Int) (s : State),
    (getB s Reg.POS_CTRL_EN = false ∨ getB s Reg.POS_STATUS_COARSE = true ∨ 200000 ≤ v.natAbs) →
    exec (.posCoarseEnter v) s = .next s) ∧
  (∀ (v : Int) (m : Nat) (s : State),
    getB s Reg.POS_STATUS_COARSE = true →
    300000 < v.natAbs →
    v.natAbs < 2 ^ 31 →
    lockOk s = true →
    s.pos.majority = some m →
    ((m : Int) - s.pos.frame).natAbs ≤ 8 →
    Runs (.posCoarseExit v) s fun t =>
      getB t Reg.POS_STATUS_COARSE = false ∧ getB t Reg.POS_STATUS_LOCKED = true ∧ getB t Reg.POS_STATUS_STALE = false ∧ getS t Reg.POS_SPEED = v ∧
      t.pos.frame = m % 2 ^ 32 ∧ t.pos.everLocked = true ∧ t.pos.retried = false ∧ getF t (evtBit 0x08 5) = 1 ∧
      (getB s Reg.POS_STATUS_LOCKED = false → Recorded 0x08 4 0 s t) ∧
      WordsKept (fun a => a = Reg.POS_STATUS_COARSE.addr ∨ a = Reg.POS_SPEED.addr ∨ noticeWord 0x08 a) s t ∧ OnlyTouches [.regs, .evt, .pos] s t) ∧
  (∀ (v : Int) (s : State),
    (getB s Reg.POS_STATUS_COARSE = false ∨ v.natAbs ≤ 300000 ∨ lockOk s = false ∨ s.pos.majority = none) →
    exec (.posCoarseExit v) s = .next s) ∧
  (∀ (s : State),
    getB s Reg.POS_STATUS_COARSE = true →
    getB s Reg.POS_STATUS_LOCKED = false →
    getF s Reg.POS_RELOCK_FRM ≤ s.pos.coarseRun →
    s.pos.retried = false →
    Runs .posLockFail s fun t =>
      Recorded 0x08 1 0x3302 s t ∧ t.pos.retried = true ∧ t.pos.coarseRun = 0 ∧
      t.pos.retryFrame = some (if getB s Reg.POS_STATUS_REVERSE then s.pos.frame + 100 else s.pos.frame - 100) ∧ t.mot.cmdTarget = 0 ∧
      t.fmt.runup = t.pos.retryFrame ∧ WordsKept (faultWord 0x08) s t ∧ OnlyTouches [.regs, .evt, .pos, .mot, .fmt] s t) ∧
  (∀ (x : ExecSt) (s : State),
    getB s Reg.POS_STATUS_COARSE = true →
    getB s Reg.POS_STATUS_LOCKED = false →
    getF s Reg.POS_RELOCK_FRM ≤ s.pos.coarseRun →
    s.pos.retried = true →
    (s.fmt.running = false ∧ s.fmt.writing = none ∧ s.fmt.repos = none) →
    mayFinish x s = true →
    touchesMedium (dOpcode x.entry.desc) = true →
    Runs .posLockFail s fun t =>
      Recorded 0x08 1 0x3302 s t ∧ t.que.exec = none ∧ Completes 0 (dTag x.entry.desc) stMEDIUM_ERROR 0x3302 t ∧ t.pos.retried = false ∧
      WordsKept (fun a => faultWord 0x08 a ∨ a / 0x1000 = 0x69) s t ∧ OnlyTouches [.regs, .evt, .pos, .mtr, .ten, .que] s t) ∧
  (∀ (s : State),
    (getB s Reg.POS_STATUS_COARSE = false ∨ getB s Reg.POS_STATUS_LOCKED = true ∨ s.pos.coarseRun < getF s Reg.POS_RELOCK_FRM) →
    exec .posLockFail s = .next s) ∧
  (∀ (rev : Bool) (v : Int) (s : State),
    getB s Reg.POS_STATUS_STILL = true →
    v.natAbs < 2 ^ 31 →
    Runs (.posStillClear rev v) s fun t =>
      getB t Reg.POS_STATUS_STILL = false ∧ getB t Reg.POS_STATUS_REVERSE = rev ∧ getS t Reg.POS_SPEED = v ∧
      WordsKept (fun a => a = Reg.POS_STATUS_STILL.addr ∨ a = Reg.POS_SPEED.addr) s t ∧ OnlyTouches [.regs] s t) ∧
  (∀ (rev : Bool) (v : Int) (s : State),
    getB s Reg.POS_STATUS_STILL = false →
    exec (.posStillClear rev v) s = .next s) ∧
  (∀ (s : State),
    Runs .posStillTimeout s fun t =>
      getB t Reg.POS_STATUS_STILL = true ∧ getF t Reg.POS_SPEED = 0 ∧ (s.fmt.runup = none → OnlyTouches [.regs] s t) ∧
      WordsKept (fun a => a = Reg.POS_STATUS_STILL.addr ∨ a = Reg.POS_SPEED.addr ∨ a = Reg.SAFE_STATUS_S1.addr) s t ∧ OnlyTouches [.regs, .fmt, .mot] s t) ∧
  (∀ (v : Int) (s : State),
    pageRuns s 0x08 = true →
    getB s Reg.POS_CTRL_EN = true →
    getB s Reg.POS_STATUS_STILL = false →
    getB s Reg.POS_STATUS_STALE = false →
    getB s Reg.POS_STATUS_COARSE = false →
    v ≠ 0 →
    v.natAbs < 2 ^ 31 →
    Runs (.servoFrameBoundary v []) s fun t =>
      t.pos.frame = (if v < 0 then (s.pos.frame + 2 ^ 32 - 1) % 2 ^ 32 else (s.pos.frame + 1) % 2 ^ 32) ∧ t.pos.tick = (if v < 0 then 4095 else 0) ∧
      t.pos.votes = [] ∧ t.pos.disagree = (match voteMajority s.pos.frame s.pos.votes with
        | some m => if m = s.pos.frame then 0 else s.pos.disagree + 1
        | none => s.pos.disagree) ∧
      t.pos.noId = (if s.pos.anyId then 0 else s.pos.noId + 1) ∧ getB t Reg.POS_STATUS_REVERSE = decide (v < 0) ∧
      getS t Reg.POS_SPEED = v ∧ getF t Reg.LAT_OFS_ACT = getF s Reg.LAT_OFS_STG ∧ getF t Reg.RD_OFS_ACT = getF s Reg.RD_OFS_STG ∧
      WordsKept (fun a => noticeWord 0x7C a ∨ noticeWord 0x08 a ∨ a / 0x1000 ∈ [0x08, 0x09, 0x0A, 0x0B, 0x0C, 0x0D, 0x0E, 0x0F, 0x10, 0x11, 0x40, 0x41, 0x42, 0x43, 0x44, 0x45, 0x46, 0x47, 0x4B, 0x7C, 0x7D] ∨
        (0x20 ≤ a / 0x1000 ∧ a / 0x1000 < 0x40)) s t ∧
      OnlyTouches [.regs, .evt, .pos, .mot, .band, .cal, .rch, .fmt] s t) ∧
  (∀ (v : Int) (late : List Nat) (s : State),
    (getB s Reg.POS_CTRL_EN = false ∨ getB s Reg.POS_STATUS_STILL = true) →
    exec (.servoFrameBoundary v late) s = .next s)

/-- CL_LINK_STATE_ADVANCE (R68, R76), CL_LINK_TIMEOUT (R77), CL_LINK_DOWN (R77, R79), for link 3n + l of HFE n. -/
def Obligations.LinkTraining : Prop :=
  (∀ (l d : Nat) (x : BitVec 64) (s : State),
    l < 98 →
    getF s (linkState l) = 0 →
    getB s (linkEnable l) = true →
    linkWanted s l = true →
    Runs (.clLinkStateAdvance l d x) s fun t =>
      getF t (linkState l) = 1 ∧ linkAttempts t l = 1 ∧ WordsKept (· = (linkState l).addr) s t ∧ OnlyTouches [.regs, .links] s t) ∧
  (∀ (l d : Nat) (x : BitVec 64) (s : State),
    getF s (linkState l) = 0 →
    getB s (linkEnable l) = false →
    exec (.clLinkStateAdvance l d x) s = .next s) ∧
  (∀ (l d : Nat) (x : BitVec 64) (s : State),
    l < 98 →
    getF s (linkState l) = 1 →
    Runs (.clLinkStateAdvance l d x) s fun t => getF t (linkState l) = 2 ∧ WordsKept (· = (linkState l).addr) s t ∧ OnlyTouches [.regs] s t) ∧
  (∀ (l d : Nat) (x : BitVec 64) (s : State),
    l < 96 →
    getF s (linkState l) = 2 →
    Runs (.clLinkStateAdvance l d x) s fun t =>
      getF t (linkState l) = 3 ∧ (hfeSt t (l / 3)).line = [BitVec.ofNat 66 ((scramble (hfeSt s (l / 3)).scr 0xE1).1 * 4 + 2)] ∧
      WordsKept (· = (linkState l).addr) s t ∧ OnlyTouches [.regs, .links] s t) ∧
  (∀ (n d : Nat) (x : BitVec 64) (s : State),
    n < 32 →
    getF s (linkState (3 * n)) = 3 →
    x.toNat % 256 = 0xE1 →
    Runs (.clLinkStateAdvance (3 * n) d x) s fun t =>
      getF t (linkState (3 * n)) = 4 ∧ getF t (Reg.CL_DELAY n) = d % 2 ^ (Reg.CL_DELAY n).width ∧ linkAttempts t (3 * n) = 0 ∧
      WordsKept (fun a => a = (linkState (3 * n)).addr ∨ a = (Reg.CL_DELAY n).addr) s t ∧ OnlyTouches [.regs, .links] s t) ∧
  (∀ (n m d : Nat) (x : BitVec 64) (s : State),
    n < 32 →
    m < 2 →
    getF s (linkState (3 * n + 1 + m)) = 3 →
    getB s (linkEnable (3 * n + 1 + m)) = true →
    s.fmt.running = false →
    x.toNat % 256 = 0xE1 →
    Runs (.clLinkStateAdvance (3 * n + 1 + m) d x) s fun t =>
      getF t (linkState (3 * n + 1 + m)) = 4 ∧ getF t (Reg.CL_DELAY n) = d % 2 ^ (Reg.CL_DELAY n).width ∧ linkAttempts t (3 * n + 1 + m) = 0 ∧
      (if m = 0 then (hfeSt t n).last0 else (hfeSt t n).last1) = none ∧
      WordsKept (fun a => (∃ k < 32, a = (Reg.CL_STATE_DL k).addr) ∨ a = (Reg.CL_DELAY n).addr) s t ∧ OnlyTouches [.regs, .links] s t) ∧
  (∀ (r d : Nat) (x : BitVec 64) (s : State),
    r < 2 →
    getF s (slState r) = 2 →
    x.toNat % 256 = 0xB4 →
    Runs (.clLinkStateAdvance (96 + r) d x) s fun t =>
      getF t (slState r) = 4 ∧ t.pos.expect = Tbl.erase s.pos.expect r ∧ linkAttempts t (96 + r) = 0 ∧ getF t Reg.POS_STATUS_QUAL = qualCount t ∧
      WordsKept (fun a => 0x08 ≤ a / 0x1000 ∧ a / 0x1000 ≤ 0x11) s t ∧ OnlyTouches [.regs, .links, .pos] s t) ∧
  (∀ (l d : Nat) (x : BitVec 64) (s : State),
    l < 98 →
    (4 ≤ getF s (linkState l) ∨ (getF s (linkState l) = 3 ∧ x.toNat % 256 ≠ 0xE1)) →
    exec (.clLinkStateAdvance l d x) s = .next s) ∧
  (∀ (l : Nat) (s : State),
    l < 96 →
    (getF s (linkState l) = 1 ∨ getF s (linkState l) = 2 ∨ getF s (linkState l) = 3) →
    linkAttempts s l < 3 →
    Runs (.clLinkTimeout l) s fun t =>
      getF t (linkState l) = 1 ∧ linkAttempts t l = linkAttempts s l + 1 ∧ WordsKept (· = (linkState l).addr) s t ∧ OnlyTouches [.regs, .links] s t) ∧
  (∀ (l : Nat) (s : State),
    l < 96 →
    (getF s (linkState l) = 1 ∨ getF s (linkState l) = 2 ∨ getF s (linkState l) = 3) →
    3 ≤ linkAttempts s l →
    (s.fmt.running = false ∧ s.fmt.repos = none) →
    Runs (.clLinkTimeout l) s fun t =>
      getF t (linkState l) = 7 ∧ Recorded (hfePage (l / 3)) 0 0x3401 s t ∧
      WordsKept (fun a => a = (linkState l).addr ∨ faultWord (hfePage (l / 3)) a) s t ∧ OnlyTouches [.regs, .evt] s t) ∧
  (∀ (l : Nat) (s : State),
    l < 96 →
    (l % 3 ≠ 0 ∨ setEmits s = false) →
    getF s (linkState l) = 4 →
    Runs (.clLinkDown l) s fun t =>
      getF t (linkState l) = 2 ∧ linkAttempts t l = 1 ∧ Recorded (hfePage (l / 3)) 1 0x2402 s t ∧
      WordsKept (fun a => a = (linkState l).addr ∨ faultWord (hfePage (l / 3)) a) s t ∧ OnlyTouches [.regs, .evt, .links] s t) ∧
  (∀ (n : Nat) (s : State),
    n < 32 →
    setEmits s = true →
    getF s (linkState (3 * n)) = 4 →
    Runs (.clLinkDown (3 * n)) s fun t =>
      getF t (linkState (3 * n)) = 2 ∧ Recorded (hfePage n) 1 0x2402 s t ∧ gatesClosed t = true ∧
      WordsKept (fun a => stopWord a ∨ a = (linkState (3 * n)).addr ∨ faultWord (hfePage n) a) s t ∧ OnlyTouches (.links :: stopParts) s t) ∧
  (∀ (r : Nat) (s : State),
    r < 2 →
    getF s (slState r) = 4 →
    Runs (.clLinkDown (96 + r)) s fun t =>
      getF t (slState r) = 2 ∧ linkAttempts t (96 + r) = 1 ∧ Recorded 0x08 9 0x2402 s t ∧ getF t Reg.POS_STATUS_QUAL = qualCount t ∧
      WordsKept (fun a => (0x08 ≤ a / 0x1000 ∧ a / 0x1000 ≤ 0x11) ∨ faultWord 0x08 a) s t ∧ OnlyTouches [.regs, .evt, .links] s t) ∧
  (∀ (l : Nat) (s : State),
    getF s (linkState l) ≠ 4 →
    exec (.clLinkDown l) s = .next s)

/-- CL_CTRL_PERMISSION and CL_RETRAIN (R76, R78), MGMT_RESPONSE_RECEIVED and MGMT_TIMEOUT (R71, R72). -/
def Obligations.LinkPermissionAndManagement : Prop :=
  (∀ (n : Nat) (dl u0 u1 : Bool) (s : State),
    n < 32 →
    getB s (hdrLOCK (hfePage n)) = false →
    (dl = true ∨ getF s (Reg.CL_STATE_DL n) ≠ 4 ∨ setEmits s = false) →
    Runs (.clCtrlPermission n dl u0 u1) s fun t =>
      getB t (Reg.CL_CTRL_DL_EN n) = dl ∧ getB t (Reg.CL_CTRL_UL0_EN n) = u0 ∧ getB t (Reg.CL_CTRL_UL1_EN n) = u1 ∧
      (∀ k < 3, getB t (linkEnable (3 * n + k)) = false → getF t (linkState (3 * n + k)) = if getF s (linkState (3 * n + k)) = 7 then 7 else 0) ∧
      (∀ k < 3, getB t (linkEnable (3 * n + k)) = true → getF s (linkState (3 * n + k)) ≠ 0 → getF t (linkState (3 * n + k)) = getF s (linkState (3 * n + k))) ∧
      (s.fmt.running = false → ∀ k < 3, getB t (linkEnable (3 * n + k)) = true → getF s (linkState (3 * n + k)) = 0 → getF t (linkState (3 * n + k)) = 1) ∧
      WordsKept (fun a => a = (Reg.CL_CTRL_DL_EN n).addr ∨ a = (Reg.CL_STATE_DL n).addr ∨ faultWord (hfePage n) a) s t ∧ OnlyTouches [.regs, .links, .evt] s t) ∧
  (∀ (n : Nat) (u0 u1 : Bool) (s : State),
    n < 32 →
    getB s (hdrLOCK (hfePage n)) = false →
    getF s (Reg.CL_STATE_DL n) = 4 →
    setEmits s = true →
    Runs (.clCtrlPermission n false u0 u1) s fun t =>
      getF t (Reg.CL_STATE_DL n) = 0 ∧ gatesClosed t = true ∧ getF t (evtBit (hfePage n) 1) = 1 ∧
      WordsKept (fun a => stopWord a ∨ a = (Reg.CL_CTRL_DL_EN n).addr ∨ a = (Reg.CL_STATE_DL n).addr ∨ faultWord (hfePage n) a) s t ∧
      OnlyTouches (.links :: stopParts) s t) ∧
  (∀ (n : Nat) (dl u0 u1 : Bool) (s : State),
    n < 32 →
    getB s (hdrLOCK (hfePage n)) = true →
    Runs (.clCtrlPermission n dl u0 u1) s fun t =>
      getB t (hdrLOCK_WR (hfePage n)) = true ∧ WordsKept (· = (hdrLOCK_WR (hfePage n)).addr) s t ∧ OnlyTouches [.regs] s t) ∧
  (∀ (n : Nat) (s : State),
    n < 32 →
    getB s (hdrLOCK (hfePage n)) = false →
    (getF s (Reg.CL_STATE_DL n) ≠ 4 ∨ setEmits s = false) →
    s.fmt.running = false →
    Runs (.clRetrain n) s fun t =>
      (∀ k < 3, getF t (linkState (3 * n + k)) = if getB s (linkEnable (3 * n + k)) then 1 else getF s (linkState (3 * n + k))) ∧
      WordsKept (fun a => a = (Reg.CL_STATE_DL n).addr ∨ faultWord (hfePage n) a) s t ∧ OnlyTouches [.regs, .links, .evt] s t) ∧
  (∀ (n : Nat) (b : BitVec 64) (r : MgmtReq) (s : State),
    n < 32 →
    b.toNat % 256 = 0x69 →
    crc8Ok b = true →
    ((hfeSt s n).out.find? (fun r => r.tag == slice b.toNat 9 7 && r.addr % 256 == slice b.toNat 16 8) = some r) →
    (r.write = true ∨ b.toNat.testBit 8 = true) →
    (hfeSt s n).wait = [] →
    Runs (.mgmtResponseReceived n b) s fun t => hfeSt t n = { hfeSt s n with out := (hfeSt s n).out.erase r } ∧ OnlyTouches [.links] s t) ∧
  (∀ (n w : Nat) (b : BitVec 64) (r : MgmtReq) (s : State),
    n < 32 →
    w < 16 →
    b.toNat % 256 = 0x69 →
    crc8Ok b = true →
    b.toNat.testBit 8 = false →
    ((hfeSt s n).out.find? (fun r => r.tag == slice b.toNat 9 7 && r.addr % 256 == slice b.toNat 16 8) = some r) →
    r.write = false →
    4 * r.addr = 0x108 + 0x10 * w →
    Runs (.mgmtResponseReceived n b) s fun t =>
      getB t (Reg.WSTATE_INHIBIT n w) = (slice b.toNat 26 3 != 0) ∧ getB t (Reg.WSTATE_OPEN n w) = b.toNat.testBit 26 ∧
      getB t (Reg.WSTATE_SHORT n w) = b.toNat.testBit 27 ∧ getB t (Reg.WSTATE_DRV_FAULT n w) = b.toNat.testBit 28 ∧
      WordsKept (fun a => a = (Reg.WSTATE_INHIBIT n w).addr) s t ∧ OnlyTouches [.regs, .links, .cal] s t) ∧
  (∀ (n j : Nat) (b : BitVec 64) (r : MgmtReq) (s : State),
    n < 32 →
    j < 32 →
    b.toNat % 256 = 0x69 →
    crc8Ok b = true →
    b.toNat.testBit 8 = false →
    ((hfeSt s n).out.find? (fun r => r.tag == slice b.toNat 9 7 && r.addr % 256 == slice b.toNat 16 8) = some r) →
    r.write = false →
    4 * r.addr = 0x204 + 8 * j →
    Runs (.mgmtResponseReceived n b) s fun t =>
      getB t (Reg.RSTAT_INHIBIT n j) = (slice b.toNat 24 2 != 0) ∧
      (getB t (Reg.RSTAT_INHIBIT n j) = true → getB s (Reg.RSTAT_INHIBIT n j) = false → getF t (evtBit (rchPage (n / 4)) 30) = 1) ∧
      WordsKept (fun a => a = (Reg.RSTAT_INHIBIT n j).addr ∨ faultWord (rchPage (n / 4)) a) s t ∧ OnlyTouches [.regs, .evt, .links] s t) ∧
  (∀ (n : Nat) (b : BitVec 64) (s : State),
    (32 ≤ n ∨ b.toNat % 256 ≠ 0x69 ∨ crc8Ok b = false ∨ (hfeSt s n).out.find? (fun r => r.tag == slice b.toNat 9 7 && r.addr % 256 == slice b.toNat 16 8) = none) →
    exec (.mgmtResponseReceived n b) s = .next s) ∧
  (∀ (n tag : Nat) (r : MgmtReq) (s : State),
    n < 32 →
    ((hfeSt s n).out.find? (fun r => r.tag == tag) = some r) →
    r.tries < 2 →
    Runs (.mgmtTimeout n tag) s fun t =>
      (hfeSt t n).blocks = (hfeSt s n).blocks ++ [mgmtBlock r] ∧
      getF t (Reg.CL_MGMT_RETRY n) = satAdd (Reg.CL_MGMT_RETRY n).width (getF s (Reg.CL_MGMT_RETRY n)) 1 ∧
      WordsKept (· = (Reg.CL_MGMT_RETRY n).addr) s t ∧ OnlyTouches [.regs, .links] s t) ∧
  (∀ (n tag : Nat) (r : MgmtReq) (s : State),
    n < 32 →
    ((hfeSt s n).out.find? (fun r => r.tag == tag) = some r) →
    2 ≤ r.tries →
    setEmits s = false →
    Runs (.mgmtTimeout n tag) s fun t =>
      ((hfeSt s n).wait = [] → (hfeSt t n).out = (hfeSt s n).out.filter fun x => x.tag != tag) ∧ Recorded (hfePage n) 4 0x2405 s t ∧
      getF t (Reg.CL_MGMT_TIMEOUT n) = satAdd (Reg.CL_MGMT_TIMEOUT n).width (getF s (Reg.CL_MGMT_TIMEOUT n)) 1 ∧
      WordsKept (fun a => a = (Reg.CL_MGMT_TIMEOUT n).addr ∨ a = (Reg.CL_STATE_DL n).addr ∨ faultWord (hfePage n) a) s t ∧ OnlyTouches [.regs, .evt, .links] s t) ∧
  (∀ (n tag : Nat) (s : State),
    ((hfeSt s n).out.find? (fun r => r.tag == tag) = none) →
    exec (.mgmtTimeout n tag) s = .next s)

/-- DOWNLINK_BURST_LAUNCH (R60–R62, R75, R169). -/
def Obligations.DownlinkBursts : Prop :=
  (∀ (n frame bit : Nat) (corr : Int) (s : State),
    n < 32 →
    getF s (Reg.CL_STATE_DL n) = 4 →
    (band s (n / 4)).gateOpen = false →
    (inMain s (n / 4) = false ∨ wgClosedBy s (n / 4) &&& 0x56 = 0) →
    Runs (.downlinkBurstLaunch n frame bit corr) s fun t =>
      (hfeSt t n).blocks = [] ∧ (hfeSt t n).launched.take (hfeSt s n).blocks.length = (hfeSt s n).blocks ∧
      (hfeSt t n).launched.length = (hfeSt s n).blocks.length + 2 ∧
      ((hfeSt t n).launched.getD (hfeSt s n).blocks.length 0).toNat % 2 ^ 13 = 0xC5 + n * 2 ^ 8 ∧
      burstCrcOk ((hfeSt t n).launched.drop (hfeSt s n).blocks.length) = true ∧ WordsKept (fun _ => False) s t ∧ OnlyTouches [.links, .band] s t) ∧
  (∀ (n frame bit : Nat) (corr : Int) (s : State),
    n < 32 →
    getF s (Reg.CL_STATE_DL n) = 4 →
    wgClosedBy s (n / 4) = 0 →
    (band s (n / 4)).emissions = [] →
    Runs (.downlinkBurstLaunch n frame bit corr) s fun t =>
      (hfeSt t n).blocks = [] ∧ (hfeSt t n).launched.length = (hfeSt s n).blocks.length + 2 ∧
      ((hfeSt t n).launched.getD (hfeSt s n).blocks.length 0).toNat % 2 ^ 13 = 0xC5 + n * 2 ^ 8 ∧
      burstCrcOk ((hfeSt t n).launched.drop (hfeSt s n).blocks.length) = true ∧ WordsKept (fun _ => False) s t ∧ OnlyTouches [.links, .band] s t) ∧
  (∀ (n w frame bit : Nat) (corr : Int) (s : State),
    w < 16 →
    (writerMask s n).testBit w = true →
    bit < frameBits s (n / 4) (brdBits s (n / 4) (band s (n / 4)).cur) frame →
    (streamBit s (n / 4) (16 * (n % 4) + w) frame bit).isSome = true →
    n < 32 →
    getF s (Reg.CL_STATE_DL n) = 4 →
    (band s (n / 4)).gateOpen = true →
    wgClosedBy s (n / 4) = 0 →
    Runs (.downlinkBurstLaunch n frame bit corr) s fun t =>
      (hfeSt t n).blocks = [] ∧ (hfeSt t n).launched.length = (hfeSt s n).blocks.length + 14 ∧
      ((hfeSt t n).launched.getD (hfeSt s n).blocks.length 0).toNat % 2 ^ 13 = 0xC3 + n * 2 ^ 8 ∧
      burstCrcOk ((hfeSt t n).launched.drop (hfeSt s n).blocks.length) = true ∧ WordsKept (fun _ => False) s t ∧ OnlyTouches [.links, .band] s t) ∧
  (∀ (n frame bit : Nat) (corr : Int) (s : State),
    n < 32 →
    getF s (Reg.CL_STATE_DL n) ≠ 4 →
    (band s (n / 4)).gateOpen = false →
    (inMain s (n / 4) = false ∨ wgClosedBy s (n / 4) &&& 0x56 = 0) →
    exec (.downlinkBurstLaunch n frame bit corr) s = .next s) ∧
  (∀ (n frame bit : Nat) (corr : Int) (s : State),
    n < 32 →
    (band s (n / 4)).gateOpen = true →
    wgClosedBy s (n / 4) ≠ 0 →
    Runs (.downlinkBurstLaunch n frame bit corr) s fun t =>
      (band t (n / 4)).gateOpen = false ∧ WordsKept stopWord s t ∧ OnlyTouches (.links :: stopParts) s t)

/-- BRD_ARM, BRD_START, BRD_STOP, BRD_DISARM (R159, R164), BRD_HOST_SET (R185). -/
def Obligations.BoardArmStartStop : Prop :=
  (∀ (b i : Nat) (s : State),
    b < 8 →
    i < 2 →
    getB s (hdrLOCK (bseqPage b)) = false →
    getB s (Reg.BRD_CTRL_EN b) = true →
    ((band s b).buf i).armed = false →
    ((band s b).running = false ∨ (band s b).cur ≠ i) →
    boardCheck s b i = none →
    Runs (.brdArm b i) s fun t =>
      band t b = (band s b).setBuf i { (band s b).buf i with armed := true, armedAt := posTicks s } ∧
      Tbl.erase t.band b = Tbl.erase s.band b ∧ WordsKept (fun _ => False) s t ∧ OnlyTouches [.band] s t) ∧
  (∀ (b i code index : Nat) (s : State),
    b < 8 →
    i < 2 →
    getB s (hdrLOCK (bseqPage b)) = false →
    getB s (Reg.BRD_CTRL_EN b) = true →
    ((band s b).buf i).armed = false →
    ((band s b).running = false ∨ (band s b).cur ≠ i) →
    boardCheck s b i = some (code, index) →
    ((band s b).buf i).dsn = none →
    Runs (.brdArm b i) s fun t =>
      getF t (Reg.BRD_ERR_VALID b) = 1 ∧ getF t (Reg.BRD_ERR_CODE b) = code % 2 ^ (Reg.BRD_ERR_CODE b).width ∧
      getF t (Reg.BRD_ERR_INDEX b) = index % 2 ^ (Reg.BRD_ERR_INDEX b).width ∧ getF t (Reg.BRD_ERR_BUF b) = i ∧
      Recorded (bseqPage b) 4 0x0501 s t ∧ WordsKept (fun a => a = (Reg.BRD_ERR_VALID b).addr ∨ faultWord (bseqPage b) a) s t ∧ OnlyTouches [.regs, .evt] s t) ∧
  (∀ (b : Nat) (s : State),
    b < 8 →
    getB s (hdrLOCK (bseqPage b)) = false →
    getB s (Reg.BRD_CTRL_EN b) = true →
    getB s (hdrQUIESCE (bseqPage b)) = false →
    (band s b).running = false →
    ((band s b).a.armed = true ∨ (band s b).b.armed = true) →
    Runs (.brdStart b) s fun t =>
      band t b = { band s b with running := true, cur := (if (band s b).a.armed then 0 else 1), index := 0, hold := true, tail := false, loops := [] } ∧
      Tbl.erase t.band b = Tbl.erase s.band b ∧ getF t Reg.INJ_CTRL_RUN = 0 ∧ WordsKept (· = Reg.INJ_CTRL_RUN.addr) s t ∧ OnlyTouches [.regs, .band] s t) ∧
  (∀ (b : Nat) (s : State),
    b < 8 →
    getB s (hdrLOCK (bseqPage b)) = false →
    Runs (.brdStop b) s fun t =>
      (band t b).running = false ∧ (band t b).gateOpen = false ∧ (band t b).a.armed = false ∧ (band t b).b.armed = false ∧
      WordsKept stopWord s t ∧ OnlyTouches stopParts s t) ∧
  (∀ (b i : Nat) (s : State),
    b < 8 →
    i < 2 →
    getB s (hdrLOCK (bseqPage b)) = false →
    ((band s b).buf i).armed = true →
    ((band s b).running = false ∨ (band s b).cur ≠ i) →
    (s.fmt.sets.all (fun d => !d.compiled) = true) →
    Runs (.brdDisarm b i) s fun t =>
      band t b = (band s b).setBuf i { (band s b).buf i with armed := false } ∧ Tbl.erase t.band b = Tbl.erase s.band b ∧
      Recorded (bseqPage b) i 0 s t ∧ WordsKept (noticeWord (bseqPage b)) s t ∧ OnlyTouches [.regs, .evt, .band] s t) ∧
  (∀ (b i : Nat) (s : State),
    b < 8 →
    i < 2 →
    getB s (hdrLOCK (bseqPage b)) = false →
    ((band s b).buf i).armed = true →
    ((band s b).running = false ∨ (band s b).cur ≠ i) →
    Runs (.brdDisarm b i) s fun t =>
      ((band t b).buf i).armed = false ∧ getF t (evtBit (bseqPage b) i) = 1 ∧
      WordsKept stopWord s t ∧ OnlyTouches stopParts s t) ∧
  (∀ (b : Nat) (s : State),
    b < 8 →
    getB s (hdrLOCK (bseqPage b)) = false →
    ((List.range 8).all (fun i => !(band s i).running) = true) →
    mediumQueued s = false →
    Runs (.brdHostSet b) s fun t => getB t (Reg.BRD_CTRL_HOST b) = true ∧ WordsKept (· = (Reg.BRD_CTRL_HOST b).addr) s t ∧ OnlyTouches [.regs] s t) ∧
  (∀ (b : Nat) (s : State),
    getB s (hdrLOCK (bseqPage b)) = false →
    mediumQueued s = true →
    exec (.brdHostSet b) s = .next s)

/-- WAIT_FRAME (R156, R162), JUMP (R157), END (R160, R161). -/
def Obligations.BoardCourse : Prop :=
  (∀ (b : Nat) (s : State),
    b < 8 →
    (band s b).running = true →
    (band s b).hold = true →
    getB s Reg.POS_STATUS_STILL = false →
    waitOk s b (band s b).cur = true →
    brdRead s b (band s b).cur = false →
    Runs (.waitFrame b) s fun t =>
      band t b = { band s b with hold := false, index := 1, second := false, emitted := false } ∧ Tbl.erase t.band b = Tbl.erase s.band b ∧
      (∀ n ∈ ((band s b).buf (band s b).cur).dsn, t.fmt.writing = some n ∧ t.fmt.running = true) ∧ WordsKept (fun _ => False) s t ∧ OnlyTouches [.band, .fmt] s t) ∧
  (∀ (b : Nat) (s : State),
    b < 8 →
    (band s b).running = true →
    (band s b).hold = true →
    getB s Reg.POS_STATUS_STILL = false →
    waitOk s b (band s b).cur = false →
    ((band s b).buf (band s b).cur).dsn = none →
    Runs (.waitFrame b) s fun t =>
      band t b = { band s b with running := false, hold := false, second := true } ∧ Tbl.erase t.band b = Tbl.erase s.band b ∧
      Recorded (bseqPage b) 5 0x2503 s t ∧ WordsKept (faultWord (bseqPage b)) s t ∧ OnlyTouches [.regs, .evt, .band] s t) ∧
  (∀ (b n : Nat) (s : State),
    b < 8 →
    (band s b).running = true →
    (band s b).hold = true →
    getB s Reg.POS_STATUS_STILL = false →
    waitOk s b (band s b).cur = false →
    ((band s b).buf (band s b).cur).dsn = some n →
    (band s b).second = false →
    Runs (.waitFrame b) s fun t =>
      band t b = { band s b with running := false, hold := false, second := true } ∧ Tbl.erase t.band b = Tbl.erase s.band b ∧
      Recorded (bseqPage b) 5 0x2503 s t ∧ t.fmt.repos = some n ∧
      WordsKept (fun a => faultWord (bseqPage b) a ∨ a = Reg.SPM_BACKHITCH_CNT.addr) s t ∧ OnlyTouches [.regs, .evt, .band, .fmt, .mot] s t) ∧
  (∀ (b : Nat) (q : Square) (s : State),
    squareNow s b 0x0B = some q →
    (band s b).loops = [] →
    Runs (.jump b) s fun t =>
      band t b = { band s b with index := q.arg0, loops := [{ at_ := (band s b).index, left := q.arg1 - 1, j := 1 }] } ∧
      Tbl.erase t.band b = Tbl.erase s.band b ∧ OnlyTouches [.band] s t) ∧
  (∀ (b : Nat) (q : Square) (l : LoopSt) (s : State),
    squareNow s b 0x0B = some q →
    (band s b).loops = [l] →
    l.at_ = (band s b).index →
    l.left ≠ 0 →
    Runs (.jump b) s fun t =>
      band t b = { band s b with index := q.arg0, loops := [{ l with left := l.left - 1, j := l.j + 1 }] } ∧
      Tbl.erase t.band b = Tbl.erase s.band b ∧ OnlyTouches [.band] s t) ∧
  (∀ (b : Nat) (q : Square) (l : LoopSt) (s : State),
    squareNow s b 0x0B = some q →
    (band s b).loops = [l] →
    l.at_ = (band s b).index →
    l.left = 0 →
    Runs (.jump b) s fun t =>
      band t b = { band s b with index := (band s b).index + 1, loops := [] } ∧ Tbl.erase t.band b = Tbl.erase s.band b ∧ OnlyTouches [.band] s t) ∧
  (∀ (b : Nat) (q : Square) (s : State),
    squareNow s b 0x0C = some q →
    q.arg0 = 1 →
    (band s b).cur = 0 →
    ((band s b).a.dsn = none ∧ (band s b).b.dsn = none) →
    (band s b).b.armed = true →
    8192 ≤ (squarePos s b - (band s b).b.armedAt).natAbs →
    waitOk s b 1 = true →
    brdRead s b 1 = false →
    getB s (hdrQUIESCE (bseqPage b)) = false →
    Runs (.end_ b) s fun t =>
      (band t b).cur = 1 ∧ (band t b).index = 1 ∧ (band t b).tail = false ∧ (band t b).emitted = false ∧ (band t b).a.armed = false ∧ Recorded (bseqPage b) 0 0 s t ∧
      Tbl.erase t.band b = Tbl.erase s.band b ∧ WordsKept (noticeWord (bseqPage b)) s t ∧ OnlyTouches [.regs, .evt, .band] s t) ∧
  (∀ (b n : Nat) (q : Square) (d : DataSet) (s : State),
    squareNow s b 0x0C = some q →
    q.arg0 = 1 →
    ((band s b).buf (band s b).cur).dsn = some n →
    brdRead s b (band s b).cur = false →
    dataSet s n = some d →
    (d.compiled = true ∧ d.dsn = n) →
    (b :: d.ended).eraseDups.length = 8 →
    Runs (.end_ b) s fun t =>
      getF t Reg.FMT_EXT_LAST_FRAMES = d.k % 2 ^ Reg.FMT_EXT_LAST_FRAMES.width ∧ getF t Reg.FMT_EXT_LAST_ROWS = d.ext.length % 2 ^ Reg.FMT_EXT_LAST_ROWS.width) ∧
  (∀ (b : Nat) (q : Square) (s : State),
    squareNow s b 0x0C = some q →
    q.arg0 = 1 →
    ((band s b).buf (band s b).cur).dsn = none →
    ((band s b).buf (1 - (band s b).cur)).armed = false →
    Runs (.end_ b) s fun t =>
      (band t b).tail = true ∧ (band t b).gateOpen = false ∧ (band t b).index = (band s b).index + 1 ∧ (band t b).running = true ∧
      Tbl.erase t.band b = Tbl.erase s.band b ∧ WordsKept (fun a => noticeWord (bseqPage b) a ∨ faultWord (bseqPage b) a ∨ a = (Reg.WG_CLOSE_CNT b).addr) s t ∧
      OnlyTouches [.regs, .evt, .band] s t) ∧
  (∀ (b : Nat) (q : Square) (s : State),
    squareNow s b 0x0C = some q →
    q.arg0 ≠ 1 →
    (band s b).windows = [] →
    s.fmt.running = false →
    (band s b).cur < 2 →
    Runs (.end_ b) s fun t =>
      (band t b).running = false ∧ (band t b).gateOpen = false ∧ ((band t b).buf (band s b).cur).armed = false ∧ getF t (evtBit (bseqPage b) (band s b).cur) = 1 ∧
      Tbl.erase t.band b = Tbl.erase s.band b ∧ WordsKept (fun a => noticeWord (bseqPage b) a ∨ faultWord (bseqPage b) a ∨ a = (Reg.WG_CLOSE_CNT b).addr) s t ∧
      OnlyTouches [.regs, .evt, .band] s t)

/-- EMIT_GAP, EMIT_SYNC, EMIT_HEADER, EMIT_ROW and BAND_FILL (R148, R150, R151, R169, R178). -/
def Obligations.BoardEmissions : Prop :=
  (∀ (b : Nat) (q : Square) (s : State),
    squareNow s b 0x04 = some q →
    Runs (.emitGap b) s fun t =>
      (∃ e ∈ (band t b).emissions.head?, e.op = 4 ∧ e.frame = squareFrame s b ∧ e.len = 64 ∧ e.first = emitFrom (band s b) (squareFrame s b) ∧
        e.arg = resyncPattern * 2 ^ 16 + frameTag (q.arg0 / 2 ^ 14) (slice q.arg0 8 6 + loopIndex ((band s b).buf (band s b).cur) (band s b).loops (band s b).index) (slice q.arg0 4 4)) ∧
      (band t b).gateOpen = ((band s b).gateOpen || wgClosedBy s b == 0) ∧ (band t b).index = (band s b).index + 1 ∧
      Tbl.erase t.band b = Tbl.erase s.band b ∧ WordsKept (fun _ => False) s t ∧ OnlyTouches [.band] s t) ∧
  (∀ (b : Nat) (q : Square) (s : State),
    squareNow s b 0x01 = some q →
    Runs (.emitSync b) s fun t =>
      (∃ e ∈ (band t b).emissions.head?, e.op = 1 ∧ e.frame = squareFrame s b ∧ e.len = 32 ∧ e.slot = q.slot ∧ e.first = emitFrom (band s b) (squareFrame s b)) ∧
      (band t b).index = (band s b).index + 1 ∧ Tbl.erase t.band b = Tbl.erase s.band b ∧ WordsKept (fun _ => False) s t ∧ OnlyTouches [.band] s t) ∧
  (∀ (b : Nat) (q : Square) (s : State),
    squareNow s b 0x02 = some q →
    Runs (.emitHeader b) s fun t =>
      (∃ e ∈ (band t b).emissions.head?, e.op = 2 ∧ e.frame = squareFrame s b ∧ e.len = 64 ∧ e.slot = q.slot ∧ e.dsn = emitDsn (band s b) q ∧
        e.first = emitFrom (band s b) (squareFrame s b)) ∧
      (band t b).index = (band s b).index + 1 ∧ Tbl.erase t.band b = Tbl.erase s.band b ∧ WordsKept (fun _ => False) s t ∧ OnlyTouches [.band] s t) ∧
  (∀ (b : Nat) (q : Square) (s : State),
    squareNow s b 0x05 = some q →
    Runs (.bandFill b) s fun t =>
      (∃ e ∈ (band t b).emissions.head?, e.op = 5 ∧ e.frame = squareFrame s b ∧ e.first = emitFrom (band s b) (squareFrame s b) ∧
        e.len = q.bits (brdBits s b (band s b).cur) e.first) ∧
      (band t b).index = (band s b).index + 1 ∧ Tbl.erase t.band b = Tbl.erase s.band b ∧ WordsKept (fun _ => False) s t ∧ OnlyTouches [.band] s t) ∧
  (∀ (b : Nat) (q : Square) (s : State),
    squareNow s b 0x03 = some q →
    (q.arg1 ≠ 0 ∨ ((maskTracks s b q.mask).all fun k => ((slotRow s b k { frame := 0, first := 0, len := 0, op := 3, mask := q.mask, slot := q.slot, arg := 0, dsn := emitDsn (band s b) q, buf := (band s b).cur }).map fun x => (encRow s x.1 x.2.1).isSome).getD true) = true) →
    Runs (.emitRow b) s fun t =>
      (∃ e ∈ (band t b).emissions.head?, e.op = 3 ∧ e.frame = squareFrame s b ∧ e.len = q.arg2 % 2 ^ 15 ∧ e.arg = q.arg1 ∧ e.slot = q.slot ∧
        e.first = emitFrom (band s b) (squareFrame s b)) ∧
      (band t b).filled = (band s b).filled ∧ (band t b).index = (band s b).index + 1 ∧ Tbl.erase t.band b = Tbl.erase s.band b ∧
      WordsKept (fun _ => False) s t ∧ OnlyTouches [.band] s t) ∧
  (∀ (b : Nat) (q : Square) (s : State),
    squareNow s b 0x03 = some q →
    q.arg1 = 0 →
    (((maskTracks s b q.mask).any fun k => ((slotRow s b k { frame := 0, first := 0, len := 0, op := 3, mask := q.mask, slot := q.slot, arg := 0, dsn := emitDsn (band s b) q, buf := (band s b).cur }).map fun x => (encRow s x.1 x.2.1).isNone).getD false) = true) →
    Runs (.emitRow b) s fun t =>
      Recorded 0x12 5 0x2506 s t ∧ (band t b).index = (band s b).index + 1 ∧ Tbl.erase t.band b = Tbl.erase s.band b ∧
      WordsKept (fun a => faultWord 0x12 a ∨ a = Reg.ENC_LATE_CNT.addr) s t ∧ OnlyTouches [.regs, .evt, .band] s t)

/-- UPLINK_BURST_RECEIVED (R60, R66, R67), LOOP_RESET (R197), HFE_STATUS_REFRESH (R73, R175, R225). -/
def Obligations.HeadBursts : Prop :=
  (∀ (n m : Nat) (blocks : List (BitVec 64)) (lost : Bool) (s : State),
    n < 32 →
    m < 2 →
    getF s (linkState (3 * n + 1 + m)) = 4 →
    blocks.length = 34 →
    uplinkOwn n m blocks = true →
    uplinkCrcOk blocks = true →
    ((blocks.getD 33 0).toNat.testBit 8 = false ∧ (blocks.getD 33 0).toNat.testBit 10 = false) →
    Runs (.uplinkBurstReceived n m blocks lost) s fun t =>
      ((if m = 0 then (hfeSt t n).last0 else (hfeSt t n).last1).map fun p => (p.seq, p.frame, p.bit)) =
        some (slice (blocks.getD 0 0).toNat 48 8,
          burstPlace (getB s Reg.POS_STATUS_REVERSE) (frameSamples s (n / 4)) (nearFrame s.pos.frame (slice (blocks.getD 0 0).toNat 32 16)) (slice (blocks.getD 0 0).toNat 16 13) 16) ∧
      getF t (Reg.CL_UL_CRC_UL0 n) = getF s (Reg.CL_UL_CRC_UL0 n) ∧ getF t (Reg.CL_UL_CRC_UL1 n) = getF s (Reg.CL_UL_CRC_UL1 n) ∧
      WordsKept (fun a => a / 0x1000 = 0x40 + n / 4) s t ∧ OnlyTouches [.regs, .links, .rch] s t) ∧
  (∀ (n m : Nat) (blocks : List (BitVec 64)) (lost : Bool) (s : State),
    n < 32 →
    m < 2 →
    getF s (linkState (3 * n + 1 + m)) = 4 →
    blocks.length = 34 →
    uplinkOwn n m blocks = true →
    uplinkCrcOk blocks = true →
    Runs (.uplinkBurstReceived n m blocks lost) s fun t =>
      getF t (Reg.CL_DL_DROP_DLCRC n) = satAdd (Reg.CL_DL_DROP_DLCRC n).width (getF s (Reg.CL_DL_DROP_DLCRC n)) ((blocks.getD 33 0).toNat.testBit 8).toNat ∧
      getF t (Reg.CL_DL_DROP_LATE n) = satAdd (Reg.CL_DL_DROP_LATE n).width (getF s (Reg.CL_DL_DROP_LATE n)) ((blocks.getD 33 0).toNat.testBit 10).toNat ∧
      ((blocks.getD 33 0).toNat.testBit 8 = true → getF t (evtBit (hfePage n) 1) = 1) ∧ ((blocks.getD 33 0).toNat.testBit 10 = true → getF t (evtBit (hfePage n) 0) = 1)) ∧
  (∀ (n m : Nat) (blocks : List (BitVec 64)) (lost : Bool) (s : State),
    n < 32 →
    m < 2 →
    getF s (linkState (3 * n + 1 + m)) = 4 →
    (blocks.length ≠ 34 ∨ uplinkCrcOk blocks = false) →
    Runs (.uplinkBurstReceived n m blocks lost) s fun t =>
      getF t (if m = 0 then Reg.CL_UL_CRC_UL0 n else Reg.CL_UL_CRC_UL1 n) =
        satAdd (Reg.CL_UL_CRC_UL0 n).width (getF s (if m = 0 then Reg.CL_UL_CRC_UL0 n else Reg.CL_UL_CRC_UL1 n)) 1 ∧
      ((if m = 0 then (hfeSt t n).last0 else (hfeSt t n).last1).map fun p => (p.seq, p.frame, p.bit)) =
        (if m = 0 then (hfeSt s n).last0 else (hfeSt s n).last1).map (fun p => ((p.seq + 1) % 256,
          burstPlace (getB s Reg.POS_STATUS_REVERSE) (frameSamples s (n / 4)) p.frame p.bit 16)) ∧
      WordsKept (fun a => a = (Reg.CL_UL_CRC_UL0 n).addr ∨ a / 0x1000 = 0x40 + n / 4) s t ∧ OnlyTouches [.regs, .links, .rch] s t) ∧
  (∀ (n m : Nat) (blocks : List (BitVec 64)) (lost : Bool) (s : State),
    getF s (linkState (3 * n + 1 + m)) ≠ 4 →
    exec (.uplinkBurstReceived n m blocks lost) s = .next s) ∧
  (∀ (n m : Nat) (blocks : List (BitVec 64)) (lost : Bool) (s : State),
    blocks.length = 34 →
    uplinkCrcOk blocks = true →
    uplinkOwn n m blocks = false →
    exec (.uplinkBurstReceived n m blocks lost) s = .next s) ∧
  (∀ (b k m : Nat) (s : State),
    b < 8 →
    k < 64 →
    m < 2 →
    4096 ≤ (chainSt s (64 * b + k) m).clamped →
    Runs (.loopReset b k m) s fun t =>
      chainSt t (64 * b + k) m = seedChain (chainSt s (64 * b + k) m) ∧
      getF t (Reg.LOOP_RESET_CNT b) = satAdd (Reg.LOOP_RESET_CNT b).width (getF s (Reg.LOOP_RESET_CNT b)) 1 ∧ Recorded (rchPage b) 1 0x0605 s t ∧
      WordsKept (fun a => a = (Reg.LOOP_RESET_CNT b).addr ∨ faultWord (rchPage b) a) s t ∧ OnlyTouches [.regs, .evt, .rch] s t) ∧
  (∀ (n : Nat) (s : State),
    n < 32 →
    (hfeSt s n).wait = [] →
    Runs (.hfeStatusRefresh n) s fun t =>
      ((hfeSt t n).out ++ (hfeSt t n).wait.filterMap (fun x => match x with | .req r => some r | .apply _ => none)).map (fun r => (r.write, 4 * r.addr)) =
        (hfeSt s n).out.map (fun r => (r.write, 4 * r.addr)) ++ ((List.range 16).map fun w => (false, 0x108 + 0x10 * w)) ++ ((List.range 32).map fun j => (false, 0x204 + 8 * j)) ∧
      WordsKept (fun _ => False) s t ∧ OnlyTouches [.links] s t) ∧
  (∀ (n : Nat) (r : MgmtReq) (s : State),
    HItem.req r ∈ (hfeSt s n).wait →
    r.write = false →
    exec (.hfeStatusRefresh n) s = .next s)

/-- VERIFY_OPEN and VERIFY_CLOSE (R149, R153, R206), MRD_LOW_GAIN (R219), TRK_WIN_WRITE (R227). -/
def Obligations.VerifyWindows : Prop :=
  (∀ (b : Nat) (q : Square) (s : State),
    squareNow s b 0x06 = some q →
    ((maskTracks s b q.mask).any (fun k => decide ((windowsOn s b k).length < 2)) = true) →
    (q.arg0.testBit 15 = false ∨ skewOver s b = false) →
    Runs (.verifyOpen b) s fun t =>
      (∃ w ∈ (band t b).windows.head?, (band t b).windows = w :: (band s b).windows ∧ w.slot = q.slot ∧ w.dsn = q.arg1 ∧ w.read = q.arg0.testBit 15 ∧
        w.tracks = (maskTracks s b q.mask).filter (fun k => decide ((windowsOn s b k).length < 2)) ∧
        w.dual = (q.arg0.testBit 15 && getB s (Reg.RCH_CTRL_MRD_EN b) && (soloModule s).isNone) ∧
        w.pred = (if getB s Reg.POS_STATUS_REVERSE then -(squareFrame s b : Int) else squareFrame s b) * frameCells s b + (q.arg2 % 2 ^ 13 : Nat)
          - (getF s (Reg.VFY_DIST b) * frameCells s b / 4096 : Nat)
          + (if q.arg2 % 2 ^ 13 < effOffset ((band s b).buf (band s b).cur) (band s b).loops (band s b).index % 4096 * frameCells s b / 4096 then (frameCells s b : Int) else 0)) ∧
      (band t b).index = (band s b).index + 1 ∧ Tbl.erase t.band b = Tbl.erase s.band b ∧ WordsKept (· = (Reg.RCH_STATUS_SKEW_OVF b).addr) s t ∧ OnlyTouches [.regs, .band, .rch] s t) ∧
  (∀ (b : Nat) (q : Square) (s : State),
    squareNow s b 0x06 = some q →
    ((maskTracks s b q.mask).all (fun k => decide (2 ≤ (windowsOn s b k).length)) = true) →
    q.arg0.testBit 15 = false →
    Runs (.verifyOpen b) s fun t => band t b = { band s b with index := (band s b).index + 1 } ∧ Tbl.erase t.band b = Tbl.erase s.band b ∧ OnlyTouches [.band] s t) ∧
  (∀ (b : Nat) (q : Square) (s : State),
    squareNow s b 0x06 = some q →
    q.arg0.testBit 15 = true →
    getB s (Reg.RCH_CTRL_MRD_EN b) = true →
    getB s Reg.RCV_STATUS_ACTIVE = false →
    skewOver s b = true →
    Runs (.verifyOpen b) s fun t =>
      mrdActive t b = false ∧ getB t (Reg.RCH_STATUS_SKEW_OVF b) = true ∧ getF t (evtBit (rchPage b) 2) = 1 ∧ (band t b).index = (band s b).index + 1 ∧
      Tbl.erase t.band b = Tbl.erase s.band b ∧ WordsKept (fun a => a = (Reg.RCH_STATUS_SKEW_OVF b).addr ∨ faultWord (rchPage b) a) s t ∧
      OnlyTouches [.regs, .evt, .band, .rch] s t) ∧
  (∀ (b : Nat) (q : Square) (w : Window) (s : State),
    squareNow s b 0x07 = some q →
    q.arg0.testBit 15 = true →
    (band s b).windows = [w] →
    (w.slot = q.slot ∧ w.dsn = q.arg1 ∧ w.read = true) →
    maskTracks s b q.mask = w.tracks →
    getB s Reg.RCV_STATUS_ACTIVE = false →
    s.fmt.sets = [] →
    (s.fmt.group = none ∧ s.fmt.rewrite = []) →
    Runs (.verifyClose b) s fun t =>
      (band t b).windows = [] ∧ (band t b).index = (band s b).index + 1 ∧
      t.rch.ctx.map (fun c => (c.band, c.k, c.slot, c.dsn, c.read, c.pred)) =
        s.rch.ctx.map (fun c => (c.band, c.k, c.slot, c.dsn, c.read, c.pred)) ++ w.tracks.map (fun k => (b, k, w.slot, w.dsn, true, w.pred)) ∧
      Tbl.erase t.band b = Tbl.erase s.band b ∧ WordsKept (fun a => a / 0x1000 = rchPage b) s t ∧ OnlyTouches [.regs, .band, .rch] s t) ∧
  (∀ (b : Nat) (s : State),
    b < 8 →
    1024 ≤ (Tbl.get {} s.rch.gains b).low →
    Runs (.mrdLowGain b) s fun t =>
      (Tbl.get {} t.rch.gains b).low = 0 ∧ Recorded (rchPage b) 3 0x0608 s t ∧ WordsKept (faultWord (rchPage b)) s t ∧ OnlyTouches [.regs, .evt, .rch] s t) ∧
  (∀ (b v : Nat) (s : State),
    b < 8 →
    getB s (hdrLOCK (rchPage b)) = false →
    getB s (Reg.TRK_WIN_ADDR_AUTOINC b) = false →
    (getF s (Reg.TRK_WIN_ADDR_ITEM b) < 16 ∧ getF s (Reg.TRK_WIN_ADDR_ITEM b) ≠ 7) →
    readerBusy s b (getF s (Reg.TRK_WIN_ADDR_TRACK b)) (getF s (Reg.TRK_WIN_ADDR_MODULE b)) = false →
    Runs (.trkWinWrite b v) s fun t =>
      chainSt t (64 * b + getF s (Reg.TRK_WIN_ADDR_TRACK b)) (getF s (Reg.TRK_WIN_ADDR_MODULE b)) =
        { chainSt s (64 * b + getF s (Reg.TRK_WIN_ADDR_TRACK b)) (getF s (Reg.TRK_WIN_ADDR_MODULE b)) with
          seeds := Tbl.set (chainSt s (64 * b + getF s (Reg.TRK_WIN_ADDR_TRACK b)) (getF s (Reg.TRK_WIN_ADDR_MODULE b))).seeds (getF s (Reg.TRK_WIN_ADDR_ITEM b)) (toS 32 v), fresh := true } ∧
      WordsKept (fun _ => False) s t ∧ OnlyTouches [.cal, .rch] s t) ∧
  (∀ (b v : Nat) (s : State),
    b < 8 →
    getB s (hdrLOCK (rchPage b)) = false →
    getB s (Reg.TRK_WIN_ADDR_AUTOINC b) = false →
    (21 ≤ getF s (Reg.TRK_WIN_ADDR_ITEM b) ∧ getF s (Reg.TRK_WIN_ADDR_ITEM b) ≤ 32) →
    readerBusy s b (getF s (Reg.TRK_WIN_ADDR_TRACK b)) (getF s (Reg.TRK_WIN_ADDR_MODULE b)) = false →
    Runs (.trkWinWrite b v) s fun t =>
      combSt t (64 * b + getF s (Reg.TRK_WIN_ADDR_TRACK b)) =
        { combSt s (64 * b + getF s (Reg.TRK_WIN_ADDR_TRACK b)) with
          seeds := Tbl.set (combSt s (64 * b + getF s (Reg.TRK_WIN_ADDR_TRACK b))).seeds (getF s (Reg.TRK_WIN_ADDR_ITEM b)) (itemValue (getF s (Reg.TRK_WIN_ADDR_ITEM b)) (toS 32 v)), fresh := true } ∧
      WordsKept (fun _ => False) s t ∧ OnlyTouches [.cal, .rch] s t) ∧
  (∀ (b v : Nat) (s : State),
    b < 8 →
    getB s (hdrLOCK (rchPage b)) = false →
    getB s (Reg.TRK_WIN_ADDR_AUTOINC b) = false →
    readerBusy s b (getF s (Reg.TRK_WIN_ADDR_TRACK b)) (getF s (Reg.TRK_WIN_ADDR_MODULE b)) = true →
    Runs (.trkWinWrite b v) s fun t => Recorded (rchPage b) 4 0 s t ∧ WordsKept (noticeWord (rchPage b)) s t ∧ OnlyTouches [.regs, .evt] s t) ∧
  (∀ (b v : Nat) (s : State),
    b < 8 →
    getB s (hdrLOCK (rchPage b)) = false →
    getB s (Reg.TRK_WIN_ADDR_AUTOINC b) = false →
    getF s (Reg.TRK_WIN_ADDR_ITEM b) = 7 →
    Runs (.trkWinWrite b v) s fun t => Recorded (rchPage b) 4 0 s t ∧ WordsKept (noticeWord (rchPage b)) s t ∧ OnlyTouches [.regs, .evt] s t)

/-- DETECTOR_REPASS (R204), ROW_DECODE_DONE (R135, R136, R203–R210), DEC_LATE (R206). -/
def Obligations.RowDecoding : Prop :=
  (∀ (b k slot dsn : Nat) (d : Int) (c : RowCtx) (s : State),
    ctxOf s b k slot dsn = some c →
    c.inPool = true →
    c.peak = false →
    d.natAbs ≤ 4 →
    Runs (.detectorRepass b k slot dsn d) s fun t =>
      t.rch.ctx = s.rch.ctx.map (fun z => if z == c ∧ headerCrcOk (trialHeader c (trialOf c c.bits [] d)) = true
        then { c with decs := Tbl.set c.decs (d + 4).toNat (decodeRound c (trialOf c c.bits [] d) (decoderOf c (trialOf c c.bits [] d))) } else z) ∧
      WordsKept (fun _ => False) s t ∧ OnlyTouches [.rch] s t) ∧
  (∀ (b k slot dsn : Nat) (d : Int) (s : State),
    ctxOf s b k slot dsn = none →
    exec (.detectorRepass b k slot dsn d) s = .next s ∧ exec (.rowDecodeDone b k slot dsn) s = .next s ∧ exec (.decLate b k slot dsn) s = .next s) ∧
  (∀ (b k slot dsn : Nat) (c : RowCtx) (sr : Search) (s : State),
    ctxOf s b k slot dsn = some c →
    c.inPool = true →
    c.read = true →
    (sr = searchRounds c (match c.found with | some f => f - c.pred | none => 0) 5 0 0) →
    Runs (.rowDecodeDone b k slot dsn) s fun t =>
      getF t Reg.DEC_ROWS_CNT = satAdd 32 (getF s Reg.DEC_ROWS_CNT) sr.taken.isSome.toNat ∧ getF t Reg.DEC_FAIL_CNT = satAdd 32 (getF s Reg.DEC_FAIL_CNT) sr.taken.isNone.toNat ∧
      getF t Reg.DEC_ITER_SUM = satAdd Reg.DEC_ITER_SUM.width (getF s Reg.DEC_ITER_SUM) sr.iters ∧
      t.rch.ctx.length + 1 = s.rch.ctx.length ∧ t.rch.sets.map (·.dsn) = s.rch.sets.map (·.dsn) ∧
      (∀ e ∈ sr.taken, ∀ r ∈ readSet s dsn,
        (headerValid (trialHeader c e.1) = true ∧ trialHeader c e.1 / 2 ^ 40 = dsn % 2 ^ 24 ∧ slice (trialHeader c e.1) 25 2 = 0 ∧
          trialHeader c e.1 % 2 ^ 22 / 2 ^ 16 = r.pass ∧ r.rows.all (fun x => x.1 != 32 * slice (trialHeader c e.1) 27 8 + slice (trialHeader c e.1) 35 5) = true) →
        (readSet t dsn).map (fun x => x.rows) = some (Tbl.set r.rows (32 * slice (trialHeader c e.1) 27 8 + slice (trialHeader c e.1) 35 5) (decidedBytes e.2))) ∧
      WordsKept (fun a => a = Reg.DEC_ROWS_CNT.addr ∨ a = Reg.DEC_FAIL_CNT.addr ∨ a = Reg.DEC_ITER_SUM.addr ∨ a = Reg.C1_MISCORR_CNT.addr ∨ a / 0x1000 = rchPage b ∨ faultWord (rchPage b) a) s t ∧
      OnlyTouches [.regs, .evt, .cal, .rch] s t) ∧
  (∀ (b k slot dsn : Nat) (c : RowCtx) (r : RwRow) (sr : Search) (s : State),
    ctxOf s b k slot dsn = some c →
    c.inPool = true →
    c.read = false →
    rowAt s dsn (64 * b + k) slot = some r →
    (sr = searchRounds c (match c.found with | some f => f - c.pred | none => 0) 5 0 0) →
    s.fmt.ending = none →
    Runs (.rowDecodeDone b k slot dsn) s fun t =>
      getF t Reg.DEC_ROWS_CNT = satAdd 32 (getF s Reg.DEC_ROWS_CNT) sr.taken.isSome.toNat ∧
      (verdict s c r sr ≠ some 5 →
        getF t Reg.VFY_ROWS_CNT = satAdd Reg.VFY_ROWS_CNT.width (getF s Reg.VFY_ROWS_CNT) 1 ∧
        getF t Reg.VFY_FAIL_CNT = satAdd Reg.VFY_FAIL_CNT.width (getF s Reg.VFY_FAIL_CNT) (verdict s c r sr).isSome.toNat) ∧
      t.rch.ctx.length + 1 ≤ s.rch.ctx.length) ∧
  (∀ (b k slot dsn : Nat) (c : RowCtx) (s : State),
    ctxOf s b k slot dsn = some c →
    c.ladder = false →
    c.read = true →
    6 ≤ ((s.pos.frame : Int) - c.closed).natAbs →
    Runs (.decLate b k slot dsn) s fun t =>
      getF t Reg.DEC_LATE_CNT = satAdd 32 (getF s Reg.DEC_LATE_CNT) 1 ∧ t.rch.ctx.length + 1 = s.rch.ctx.length ∧ Recorded 0x48 5 0x2606 s t ∧
      WordsKept (fun a => a = Reg.DEC_LATE_CNT.addr ∨ faultWord 0x48 a) s t ∧ OnlyTouches [.regs, .evt, .rch] s t) ∧
  (∀ (b k slot dsn : Nat) (c : RowCtx) (s : State),
    ctxOf s b k slot dsn = some c →
    (c.ladder = true ∨ ((s.pos.frame : Int) - c.closed).natAbs < 6) →
    exec (.decLate b k slot dsn) s = .next s)

/-- MARK_EVENT and APPLY_STAGED (R31, R74, R154, R155, R181, R226), for boards of a data set and for the host's. -/
def Obligations.MarksAndStagedSettings : Prop :=
  (∀ (b : Nat) (q : Square) (s : State),
    squareNow s b 0x09 = some q →
    (((band s b).buf (band s b).cur).dsn = none ∨ q.arg0 ≠ 1) →
    Runs (.markEvent b) s fun t =>
      getF t (Reg.MARK_LAST b) = q.arg0 ∧ getF t (Reg.MARK_DATA b) = q.arg1 % 2 ^ 32 ∧
      getF t (Reg.MARK_POS_LO b) = (stampNow s).lo % 2 ^ 32 ∧ getF t (Reg.MARK_POS_HI b) = (stampNow s).hi % 2 ^ 32 ∧
      Recorded (bseqPage b) 2 0 s t ∧ (band t b).index = (band s b).index + 1 ∧ Tbl.erase t.band b = Tbl.erase s.band b ∧
      WordsKept (fun a => a = (Reg.MARK_LAST b).addr ∨ a = (Reg.MARK_DATA b).addr ∨ a = (Reg.MARK_POS_LO b).addr ∨ a = (Reg.MARK_POS_HI b).addr ∨ noticeWord (bseqPage b) a) s t ∧
      OnlyTouches [.regs, .evt, .band] s t) ∧
  (∀ (n : Nat) (d : DataSet) (q : Square) (s : State),
    squareNow s 0 0x09 = some q →
    ((band s 0).buf (band s 0).cur).dsn = some n →
    q.arg0 = 1 →
    hostMode s = false →
    dataSet s n = some d →
    (d.compiled = true ∧ d.marked = false) →
    getB s Reg.SPM_CTRL_EN = false →
    Runs (.markEvent 0) s fun t =>
      t.fmt = { s.fmt with sets := s.fmt.sets.map fun d => if d.dsn = n then (if d.compiled then { d with begun := true, marked := true } else d) else d } ∧
      getF t Reg.SPM_STATUS_STEP = min (getF s Reg.SPM_CTRL_STEP_FIX) (getF s Reg.SPM_STATUS_CEIL) % 16 ∧
      getF t (Reg.MARK_LAST 0) = 1 ∧ (band t 0).index = (band s 0).index + 1 ∧ OnlyTouches [.regs, .evt, .band, .fmt, .mot] s t) ∧
  (∀ (n : Nat) (d : DataSet) (q : Square) (s : State),
    squareNow s 0 0x09 = some q →
    ((band s 0).buf (band s 0).cur).dsn = some n →
    dataSet s n = some d →
    d.marked = true →
    Runs (.markEvent 0) s fun t => getF t Reg.SPM_STATUS_STEP = getF s Reg.SPM_STATUS_STEP ∧ t.mot = s.mot ∧ Recorded (bseqPage 0) 2 0 s t) ∧
  (∀ (b : Nat) (q : Square) (s : State),
    squareNow s b 0x08 = some q →
    ((band s b).buf (band s b).cur).dsn = none →
    q.arg0 % 8 = 4 →
    Runs (.applyStaged b) s fun t =>
      rd t (0x4004C + 0x1000 * b) = rd s (0x40048 + 0x1000 * b) ∧ rd t (0x40054 + 0x1000 * b) = rd s (0x40050 + 0x1000 * b) ∧
      (band t b).index = (band s b).index + 1 ∧ Tbl.erase t.band b = Tbl.erase s.band b ∧
      WordsKept (fun a => a = 0x4004C + 0x1000 * b ∨ a = 0x40054 + 0x1000 * b) s t ∧ OnlyTouches [.regs, .band] s t) ∧
  (∀ (b : Nat) (q : Square) (s : State),
    squareNow s b 0x08 = some q →
    ((band s b).buf (band s b).cur).dsn = none →
    q.arg0 % 8 = 1 →
    (∀ i < 4, (hfeSt s (4 * b + i)).wait = []) →
    Runs (.applyStaged b) s fun t =>
      (∀ i < 4, (hfeSt t (4 * b + i)).blocks = (hfeSt s (4 * b + i)).blocks ++
        [applyBlock (4 * b + i) (cdiv (effOffset ((band s b).buf (band s b).cur) (band s b).loops (band s b).index % 4096 * brdBits s b (band s b).cur) 4096) (squareFrame s b) (q.arg1 % 256)]) ∧
      (band t b).index = (band s b).index + 1 ∧ Tbl.erase t.band b = Tbl.erase s.band b ∧ WordsKept (fun _ => False) s t ∧ OnlyTouches [.band, .links] s t) ∧
  (∀ (b : Nat) (s : State),
    squareNow s b 0x09 = none →
    squareNow s b 0x08 = none →
    exec (.markEvent b) s = .next s ∧ exec (.applyStaged b) s = .next s)

/-- DATA_SET_ROWS_COMPLETE (R139, R270, R274), RECOVERY_RUNG_DONE (R273, R274), WEAK_WIN_WRITE and WEAK_CLR (R276). -/
def Obligations.RecoveryOfDataSets : Prop :=
  (∀ (n : Nat) (d : ReadSet) (s : State),
    readSet s n = some d →
    (d.done = false ∧ d.lost = false) →
    readThrough s n = true →
    getB s Reg.OUT_CTRL_C2_EN = true →
    getB s Reg.RCV_STATUS_ACTIVE = false →
    Runs (.dataSetRowsComplete n) s fun t =>
      ((readSet t n).map (fun e => (e.done, e.payload)) = (readSet (decodeSet n (min 8 (getF s Reg.OUT_CTRL_C2_MARGIN)) 0 s) n).map (fun e => (e.done, e.payload))) ∧
      ((readSet t n).map (fun e => e.done) = some true ∨ isC3 n = true ∨
        (getB t Reg.RCV_STATUS_ACTIVE = true ∧ getF t Reg.RCV_DSN = n % 2 ^ 24 ∧ nextRung s 0 = some (getF t Reg.RCV_STATUS_LEVEL)) ∨
        ((readSet t n).map (fun e => e.lost) = some true ∧ getF t Reg.RCV_FAIL_CNT = satAdd 32 (getF s Reg.RCV_FAIL_CNT) 1 ∧ getF t (evtBit 0x4C 11) = 1)) ∧
      OnlyTouches [.regs, .evt, .rch] s t) ∧
  (∀ (n : Nat) (s : State),
    (readSet s n = none ∨ readThrough s n = false ∨ getB s Reg.OUT_CTRL_C2_EN = false ∨ getB s Reg.RCV_STATUS_ACTIVE = true) →
    exec (.dataSetRowsComplete n) s = .next s) ∧
  (∀ (s : State),
    getB s Reg.RCV_STATUS_ACTIVE = true →
    rungRead s = true →
    s.rch.ctx = [] →
    (readSet s (getF s Reg.RCV_DSN)).isSome = true →
    Runs .recoveryRungDone s fun t =>
      ((getB t Reg.RCV_STATUS_ACTIVE = false ∧ (readSet t (getF s Reg.RCV_DSN)).map (fun e => e.done) = some true) ∨
        (getB t Reg.RCV_STATUS_ACTIVE = true ∧ getF s Reg.RCV_STATUS_LEVEL < getF t Reg.RCV_STATUS_LEVEL ∧ getF t Reg.RCV_STATUS_LEVEL ≤ getF s Reg.RCV_CTRL_MAX_LEVEL) ∨
        (getB t Reg.RCV_STATUS_ACTIVE = false ∧ (readSet t (getF s Reg.RCV_DSN)).map (fun e => e.lost) = some true ∧
          getF t Reg.RCV_FAIL_CNT = satAdd 32 (getF s Reg.RCV_FAIL_CNT) 1)) ∧
      OnlyTouches [.regs, .evt, .rch] s t) ∧
  (∀ (s : State),
    (getB s Reg.RCV_STATUS_ACTIVE = false ∨ rungRead s = false ∨ (s.rch.ctx.any fun c => c.read) = true) →
    exec .recoveryRungDone s = .next s) ∧
  (∀ (v : Nat) (s : State),
    getB s (hdrLOCK 0x4C) = false →
    Runs (.weakWinWrite v) s fun t =>
      t.rch.weak = (if getF s Reg.WEAK_WIN_ADDR_ENTRY < s.rch.weak.length then s.rch.weak.set (getF s Reg.WEAK_WIN_ADDR_ENTRY) v
        else if getF s Reg.WEAK_WIN_ADDR_ENTRY = s.rch.weak.length then s.rch.weak ++ [v] else s.rch.weak) ∧
      WordsKept (fun a => a = Reg.WEAK_WIN_ADDR_ENTRY.addr ∧ getB s Reg.WEAK_WIN_ADDR_AUTOINC = true) s t ∧ OnlyTouches [.regs, .rch] s t) ∧
  (∀ (s : State),
    getB s (hdrLOCK 0x4C) = false →
    exec .weakClr s = .next (setRch { s.rch with weak := [] } s))

/-- CAL_CYCLE_COMPUTE (R231, R232, R237), CAL_LATE (R233), CSO_STANDSTILL_UPDATE (R242), CAL_VALUE_WRITE (R250, R611) and CAL_WIN_WRITE (R251). -/
def Obligations.Calibration : Prop :=
  (∀ (c : Nat) (s : State),
    getB s Reg.CAL_CTRL_EN = true →
    getB s (hdrQUIESCE 0x4B) = false →
    s.cal.applyAt = none →
    pairDecoded s c = true →
    gapReached s (4 * c + 3) = false →
    Runs (.calCycleCompute c) s fun t =>
      t.cal.applyAt = some (4 * c + 3) ∧ t.cal.phase = 0 ∧ getB t Reg.CAL_STATUS_ACTIVE = true ∧
      t.cal.acc = s.cal.acc.filter (fun x => decide (4 * c + 4 ≤ x.dsn)) ∧ t.cal.frames = s.cal.frames.filter (fun x => decide (4 * c + 4 ≤ x.dsn)) ∧
      OnlyTouches [.regs, .evt, .links, .cal] s t) ∧
  (∀ (c w : Nat) (s : State),
    (getB s Reg.CAL_CTRL_EN = true ∧ getB s Reg.CAL_CTRL_WCUR_EN = true) →
    (getB s Reg.CAL_CTRL_CSO_EN = false ∧ getB s Reg.CAL_CTRL_SERVO_EN = false ∧ getB s Reg.CAL_CTRL_TILT_EN = false) →
    getB s (hdrQUIESCE 0x4B) = false →
    s.cal.applyAt = none →
    pairDecoded s c = true →
    gapReached s (4 * c + 3) = false →
    w < 512 →
    measuredTracks s c = [w] →
    (enoughRows w (verifyAccs s (4 * c) w) = true ∧ enoughRows w (verifyAccs s (4 * c + 1) w) = true) →
    (getB s (Reg.WSTATE_INHIBIT (w / 16) (w % 16)) = false ∧ getB s (Reg.WCAL_FREEZE (w / 16) (w % 16)) = false ∧ s.cal.out = []) →
    c % 3 = 0 →
    ((calWriter s w).changed = none ∧ (calWriter s w).hold ≤ c) →
    (s.cal.servo.changed = none ∧ s.cal.tilt.changed = none ∧ s.cal.readers = [] ∧ s.cal.bands = [] ∧ s.cal.applied = []) →
    slopeHi s * (2 * dither s) ≤ accSnr (verifyAccs s (4 * c) w) - accSnr (verifyAccs s (4 * c + 1) w) →
    ((calWriter s w).refCur - 16 ≤ (calWriter s w).base + 1 ∧ (calWriter s w).base + 1 ≤ (calWriter s w).refCur + 16) →
    (0 ≤ (getF s (Reg.WCUR_LEVEL (w / 16) (w % 16)) : Int) + (calWriter s w).base + 1 ∧ (getF s (Reg.WCUR_LEVEL (w / 16) (w % 16)) : Int) + (calWriter s w).base + 1 ≤ 255) →
    Runs (.calCycleCompute c) s fun t =>
      t.cal.staged = s.cal.staged ++ [.cur w ((calWriter s w).base + 1)] ∧
      (calWriter t w).changed = some (c, (accSnr (verifyAccs s (4 * c) w) + accSnr (verifyAccs s (4 * c + 1) w), 2), [(0, (calWriter s w).base)]) ∧
      getF t Reg.CAL_CHANGE_CNT = satAdd Reg.CAL_CHANGE_CNT.width (getF s Reg.CAL_CHANGE_CNT) 1 ∧ t.cal.applyAt = some (4 * c + 3) ∧
      WordsKept (fun a => a = Reg.CAL_CHANGE_CNT.addr ∨ a = Reg.CAL_STATUS_ACTIVE.addr) s t ∧ OnlyTouches [.regs, .cal] s t) ∧
  (∀ (c : Nat) (s : State),
    (getB s Reg.CAL_CTRL_EN = false ∨ getB s (hdrQUIESCE 0x4B) = true ∨ s.cal.applyAt.isSome = true ∨ pairDecoded s c = false) →
    exec (.calCycleCompute c) s = .next s) ∧
  (∀ (c : Nat) (s : State),
    getB s Reg.CAL_CTRL_EN = true →
    getB s (hdrQUIESCE 0x4B) = false →
    s.cal.applyAt = none →
    pairDecoded s c = true →
    gapReached s (4 * c + 3) = true →
    Runs (.calCycleCompute c) s fun t =>
      t.cal.applyAt = none ∧ t.cal.staged = [] ∧ getB t Reg.CAL_STATUS_ACTIVE = false ∧
      getF t Reg.CAL_LATE_CNT = satAdd Reg.CAL_LATE_CNT.width (getF s Reg.CAL_LATE_CNT) 1 ∧ getF t (evtBit 0x4B 30) = 1 ∧ OnlyTouches [.regs, .evt, .links, .cal] s t) ∧
  (∀ (n : Nat) (s : State),
    s.cal.applyAt = some n →
    gapReached s n = true →
    s.cal.phase = 0 →
    Runs .calLate s fun t =>
      t.cal.staged = [] ∧ t.cal.applyAt = none ∧ getB t Reg.CAL_STATUS_ACTIVE = false ∧
      getF t Reg.CAL_LATE_CNT = satAdd Reg.CAL_LATE_CNT.width (getF s Reg.CAL_LATE_CNT) 1 ∧ Recorded 0x4B 30 0x0701 s t ∧
      WordsKept (fun a => a = Reg.CAL_LATE_CNT.addr ∨ a = Reg.CAL_STATUS_ACTIVE.addr ∨ faultWord 0x4B a ∨ (0x20 ≤ a / 0x1000 ∧ a / 0x1000 < 0x40)) s t ∧
      OnlyTouches [.regs, .evt, .links, .cal] s t) ∧
  (∀ (s : State),
    (s.cal.applyAt.all (fun n => !gapReached s n || s.cal.phase != 0) = true) →
    exec .calLate s = .next s) ∧
  (∀ (a b : List Int) (s : State),
    (getB s Reg.POS_STATUS_STILL = true ∧ getB s Reg.CAL_CTRL_EN = true ∧ getB s Reg.CAL_CTRL_CSO_EN = true) →
    getB s (hdrQUIESCE 0x4B) = false →
    (4096 ≤ (reel s 0).zeros.length ∧ 4096 ≤ (reel s 1).zeros.length) →
    (a = (reel s 0).zeros.filterMap (fun z => z.map fun v => ((v % 4096 : Nat) : Int) - 2048) ∧ a ≠ []) →
    (b = (reel s 1).zeros.filterMap (fun z => z.map fun v => ((v % 4096 : Nat) : Int) - 2048) ∧ b ≠ []) →
    ((sumI a - a.length * getS s Reg.CAL_CSO_REEL_A).natAbs ≤ 64 * a.length ∧ (sumI b - b.length * getS s Reg.CAL_CSO_REEL_B).natAbs ≤ 64 * b.length) →
    ((Tbl.get 0 s.cal.refCso 0 - getS s Reg.CAL_CSO_REEL_A).natAbs ≤ 62 ∧ (Tbl.get 0 s.cal.refCso 1 - getS s Reg.CAL_CSO_REEL_B).natAbs ≤ 62) →
    (-2000 ≤ getS s Reg.CAL_CSO_REEL_A ∧ getS s Reg.CAL_CSO_REEL_A ≤ 2000 ∧ -2000 ≤ getS s Reg.CAL_CSO_REEL_B ∧ getS s Reg.CAL_CSO_REEL_B ≤ 2000) →
    Runs .csoStandstillUpdate s fun t =>
      getS t Reg.CAL_CSO_REEL_A = towards 2 (getS s Reg.CAL_CSO_REEL_A) (rdiv (sumI a) a.length) ∧ getS t Reg.CAL_CSO_REEL_B = towards 2 (getS s Reg.CAL_CSO_REEL_B) (rdiv (sumI b) b.length) ∧
      WordsKept (fun x => x = Reg.CAL_CSO_REEL_A.addr) s t ∧ OnlyTouches [.regs] s t) ∧
  (∀ (s : State),
    (getB s Reg.POS_STATUS_STILL = false ∨ getB s Reg.CAL_CTRL_EN = false ∨ getB s Reg.CAL_CTRL_CSO_EN = false) →
    exec .csoStandstillUpdate s = .next s) ∧
  (∀ (v : Nat) (s : State),
    getB s (hdrLOCK 0x4B) = false →
    getB s Reg.CAL_WIN_ADDR_AUTOINC = false →
    getF s Reg.CAL_WIN_ADDR_ELEMENT < 512 →
    getF s Reg.CAL_WIN_ADDR_KIND = 0 →
    getF s Reg.CAL_WIN_ADDR_ITEM = 0 →
    Runs (.calWinWrite v) s fun t =>
      calWriter t (getF s Reg.CAL_WIN_ADDR_ELEMENT) =
        { calWriter s (getF s Reg.CAL_WIN_ADDR_ELEMENT) with base := toS 8 v, refCur := toS 8 v, changed := none } ∧
      getF t (curTrim (getF s Reg.CAL_WIN_ADDR_ELEMENT)) = v % 2 ^ 8 ∧
      WordsKept (fun a => a = (curTrim (getF s Reg.CAL_WIN_ADDR_ELEMENT)).addr) s t ∧ OnlyTouches [.regs, .links, .cal] s t) ∧
  (∀ (v : Nat) (s : State),
    getB s (hdrLOCK 0x4B) = false →
    Runs (.calValueWrite Reg.CAL_CSO_REEL_A.addr v) s fun t =>
      getF t Reg.CAL_CSO_REEL_A = v % 2 ^ Reg.CAL_CSO_REEL_A.width ∧ getF t Reg.CAL_CSO_REEL_B = v / 2 ^ 16 % 2 ^ Reg.CAL_CSO_REEL_B.width ∧
      t.cal.staged = s.cal.staged.filter (fun x => match x with | .cso _ _ => false | _ => true) ∧
      Tbl.get 0 t.cal.refCso 0 = getS t Reg.CAL_CSO_REEL_A ∧ Tbl.get 0 t.cal.refCso 1 = getS t Reg.CAL_CSO_REEL_B ∧
      WordsKept (fun a => a = Reg.CAL_CSO_REEL_A.addr) s t ∧ OnlyTouches [.regs, .cal] s t) ∧
  (∀ (a v : Nat) (s : State),
    getB s (hdrLOCK (a / 0x1000)) = true →
    exec (.calValueWrite a v) s = .next (setF (hdrLOCK_WR (a / 0x1000)) 1 s)) ∧
  (∀ (v : Nat) (s : State),
    getB s (hdrLOCK 0x4B) = false →
    getB s Reg.CAL_WIN_ADDR_AUTOINC = false →
    getF s Reg.CAL_WIN_ADDR_ELEMENT < 512 →
    (getF s Reg.CAL_WIN_ADDR_KIND = 1 ∨ getF s Reg.CAL_WIN_ADDR_KIND = 2) →
    getF s Reg.CAL_WIN_ADDR_ITEM = 0 →
    Runs (.calWinWrite v) s fun t =>
      calReader t (getF s Reg.CAL_WIN_ADDR_ELEMENT) (getF s Reg.CAL_WIN_ADDR_KIND - 1) =
        { calReader s (getF s Reg.CAL_WIN_ADDR_ELEMENT) (getF s Reg.CAL_WIN_ADDR_KIND - 1) with base := toS 32 v, changed := none } ∧
      WordsKept (fun _ => False) s t ∧ OnlyTouches [.cal] s t) ∧
  (∀ (v : Nat) (s : State),
    getB s (hdrLOCK 0x4B) = false →
    getB s Reg.CAL_WIN_ADDR_AUTOINC = false →
    (getF s Reg.CAL_WIN_ADDR_ITEM = 1 ∨ getF s Reg.CAL_WIN_ADDR_ITEM = 2 ∨ getF s Reg.CAL_WIN_ADDR_KIND = 3 ∨ 512 ≤ getF s Reg.CAL_WIN_ADDR_ELEMENT) →
    Runs (.calWinWrite v) s fun t => Recorded 0x4B 0 0 s t ∧ WordsKept (noticeWord 0x4B) s t ∧ OnlyTouches [.regs, .evt] s t)

/-- PASS_END (R84, R85), REPOSITION_COMPLETE (R162, R181, R182) and OUT_CTRL_WRITE (R142, R610). -/
def Obligations.PassesAndWriteEnables : Prop :=
  (∀ (d : DataSet) (s : State),
    (s.fmt.sets.find? (fun x => !x.ready) = some d) →
    d.dsn % 32 = 0 →
    ((s.fmt.sets.filter fun x => decide (x.dsn < d.dsn)).all (fun x => x.compiled && x.begun) = true) →
    s.fmt.running = false →
    passFull s d = true →
    s.fmt.nextPass < 47 →
    Runs .passEnd s fun t =>
      t.fmt = { s.fmt with nextPass := s.fmt.nextPass + 1, nextFrame := passStart (s.fmt.nextPass + 1) (uaEnd s), repos := none, runup := none } ∧
      getF t Reg.POS_PASS = s.fmt.nextPass + 1 ∧ t.mot.cmdTarget = 0 ∧
      WordsKept (fun a => a = Reg.POS_PASS.addr ∨ ∃ l < 96, a = (linkState l).addr) s t ∧ OnlyTouches [.regs, .fmt, .mot, .links, .rch] s t) ∧
  (∀ (d : DataSet) (s : State),
    (s.fmt.sets.find? (fun x => !x.ready) = some d) →
    dataSet s d.dsn = some d →
    d.dsn % 32 = 0 →
    ((s.fmt.sets.filter fun x => decide (x.dsn < d.dsn)).all (fun x => x.compiled && x.begun) = true) →
    s.fmt.running = false →
    passFull s d = true →
    s.fmt.nextPass = 47 →
    Runs .passEnd s fun t =>
      t.fmt.ending = some (stEND_OF_MEDIUM, 0) ∧
      t.fmt.sets = s.fmt.sets.filter (fun x => decide (x.dsn < d.dsn)) ++
        [{ dsn := d.dsn, kind := .eodMap, closed := true, firstGsn := d.firstGsn, recBefore := d.recBefore, fmBefore := d.fmBefore }] ∧
      t.vol.posRecord = d.recBefore ∧ t.vol.atEod = true ∧ OnlyTouches [.regs, .evt, .fmt, .vol, .que, .band, .rch, .ten, .mot] s t) ∧
  (∀ (d : DataSet) (s : State),
    (s.fmt.sets.find? (fun x => !x.ready) = some d) →
    (d.dsn % 32 ≠ 0 ∨ passFull s d = false ∨ s.fmt.running = true) →
    exec .passEnd s = .next s) ∧
  (∀ (n : Nat) (d : DataSet) (s : State),
    s.fmt.repos = some n →
    s.pos.retryFrame = none →
    safeInForce s = false →
    ((List.range 8).any (fun b => (band s b).running) = false) →
    dataSet s n = some d →
    d.compiled = true →
    d.pass < 48 →
    Runs .repositionComplete s fun t =>
      getF t Reg.POS_PASS = d.pass ∧
      t.mot.cmdTarget = (if passReverse d.pass then -(stepSpeed (getF s Reg.SPM_STATUS_STEP)) else stepSpeed (getF s Reg.SPM_STATUS_STEP)) ∧
      (∀ b < 8, getB s (Reg.BRD_CTRL_EN b) = true ∧ getB s (hdrQUIESCE (bseqPage b)) = false ∧ ((band s b).a.armed || (band s b).b.armed) = true →
        (band t b).running = true ∧ (band t b).hold = true ∧ (band t b).index = 0) ∧
      WordsKept (fun a => a = Reg.POS_PASS.addr ∨ a = Reg.INJ_CTRL_RUN.addr ∨ ∃ l < 96, a = (linkState l).addr) s t ∧
      t.fmt.sets = s.fmt.sets ∧ t.fmt.running = true ∧ t.fmt.runup = none ∧ OnlyTouches [.regs, .fmt, .band, .mot, .links] s t) ∧
  (∀ (f : Nat) (s : State),
    s.pos.retryFrame = some f →
    safeInForce s = false →
    Runs .repositionComplete s fun t =>
      t.pos = { s.pos with retryFrame := none } ∧ t.fmt = { s.fmt with runup := none } ∧
      t.mot.cmdTarget = (if passReverse (getF s Reg.POS_PASS) then -(stepSpeed (getF s Reg.SPM_STATUS_STEP)) else stepSpeed (getF s Reg.SPM_STATUS_STEP)) ∧
      WordsKept (fun _ => False) s t ∧ OnlyTouches [.pos, .fmt, .mot] s t) ∧
  (∀ (s : State),
    safeInForce s = true →
    exec .repositionComplete s = .next s) ∧
  (∀ (c2 c3 : Bool) (s : State),
    getB s (hdrLOCK 0x49) = false →
    (writeQueued s = false ∨ (c2 = true ∧ c3 = true)) →
    Runs (.outCtrlWrite c2 c3) s fun t =>
      getB t Reg.OUT_CTRL_C2_EN = c2 ∧ getB t Reg.OUT_CTRL_C3_EN = c3 ∧ WordsKept (· = Reg.OUT_CTRL_C2_EN.addr) s t ∧ OnlyTouches [.regs] s t) ∧
  (∀ (c3 : Bool) (x : ExecSt) (s : State),
    getB s (hdrLOCK 0x49) = false →
    getB s Reg.OUT_CTRL_C2_EN = true →
    writeQueued s = true →
    mayFinish x s = true →
    s.que.loss = none →
    (∀ b < 8, (band s b).windows = []) →
    Runs (.outCtrlWrite false c3) s fun t =>
      getB t Reg.OUT_CTRL_C2_EN = false ∧ t.que.exec = none ∧ Completes 0 (dTag x.entry.desc) stILLEGAL_COMMAND 0x0C08 t ∧
      t.fmt.running = false ∧ t.fmt.writing = none ∧ (∀ b < 8, (band t b).running = false ∧ (band t b).gateOpen = false) ∧
      OnlyTouches [.regs, .evt, .band, .fmt, .que, .mtr, .ten] s t)

/-- DATA_SET_READY (R98, R103, R142, R180) and BOARD_COMPILE (R258, R259). -/
def Obligations.DataSetsBecomeBoards : Prop :=
  (∀ (d e : DataSet) (s : State),
    (s.fmt.sets.find? (fun x => !x.ready) = some d) →
    d.kind = .payload →
    d.closed = true →
    (codesOn s = true ∧ getB s Reg.FMT_CTRL = true) →
    d.dsn % 32 ≠ 0 →
    ((s.fmt.sets.filter fun x => decide (x.dsn < d.dsn)).getLast? = some e) →
    Runs .dataSetReady s fun t =>
      (∃ p, p = payloadOf { d with pass := e.pass } (s.vol.nonce.getD 0) (match s.vol.map with | some m => m.volumeId | none => zeros 16) d.stream ∧
        t.fmt = { s.fmt with
          sets := s.fmt.sets.map fun x => if x.dsn = d.dsn then { d with pass := e.pass, ready := true, payload := p } else x
          c3Data := Tbl.set s.fmt.c3Data d.dsn p }) ∧
      OnlyTouches [.fmt] s t) ∧
  (∀ (d : DataSet) (s : State),
    (s.fmt.sets.find? (fun x => !x.ready) = some d) →
    (d.closed = false ∨ codesOn s = false ∨ getB s Reg.FMT_CTRL = false) →
    exec .dataSetReady s = .next s) ∧
  (∀ (plan : Option ReadPlan) (d : DataSet) (s : State),
    canCompile s = true →
    (getB s Reg.FMT_CTRL = true ∧ codesOn s = true) →
    s.fmt.repos = none →
    (s.fmt.sets.find? (fun x => !x.compiled) = some d) →
    dataSet s d.dsn = some d →
    (d.ready = true ∧ d.ended = [] ∧ d.passed = [] ∧ d.abandoned = []) →
    outcomesFinal s d.dsn = true →
    (s.fmt.rewrite.all (fun r => decide (d.dsn < r.m + 4)) = true) →
    Runs (.boardCompile plan) s fun t =>
      (∀ b < 8, ((band t b).buf (freeBuffer (band s b))).words =
          boardWords (writeBoard s b d.dsn (extensionOf s d.dsn d.pass).1 (extensionOf s d.dsn d.pass).2 (getB s Reg.VFY_CTRL_EN)) ∧
        ((band t b).buf (freeBuffer (band s b))).dsn = some d.dsn) ∧
      (refusedIn t d.dsn = [] → (dataSet t d.dsn).map (fun x => (x.compiled, x.k, x.ext, x.origin)) =
        some (true, (extensionOf s d.dsn d.pass).1, (extensionOf s d.dsn d.pass).2, s.fmt.nextFrame)) ∧
      OnlyTouches [.regs, .evt, .band, .fmt, .enc, .que, .mtr, .ten, .vol, .rch, .mot] s t) ∧
  (∀ (p : ReadPlan) (s : State),
    canCompile s = true →
    (getB s Reg.FMT_CTRL = true ∧ getB s Reg.OUT_CTRL_C2_EN = true) →
    s.fmt.repos = none →
    s.fmt.sets = [] →
    planOk s p = true →
    (s.rch.sets.any (fun d => d.dsn == p.dsn) = false) →
    Runs (.boardCompile (some p)) s fun t =>
      (∀ b < 8, ((band t b).buf (freeBuffer (band s b))).dsn = some p.dsn) ∧
      t.rch.sets = s.rch.sets ++ [{ dsn := p.dsn, origin := p.origin, pass := p.pass, k := p.k }] ∧
      OnlyTouches [.regs, .evt, .band, .fmt, .que, .mtr, .ten, .vol, .rch, .mot] s t)

/-- ROW_FETCH and ENC_INJECT (R176, R177, R179), GRANULE_COMPRESSED and DV_INJECT (R302, R303), GRANULE_PACKED (R99, R101, R464). -/
def Obligations.EncodersAndEngines : Prop :=
  (∀ (n k p : Nat) (r : RwRow) (l : List Byte) (s : State),
    k < 512 →
    (rowAt s n k p = some r ∨ (rowAt s n k p = none ∧ hostRow s n k p = some r)) →
    rowBytes s r = some l →
    fetchCopy (rowPages s r) s = (true, s) →
    s.enc.inject = false →
    Runs (.rowFetch n k p false false) s fun t =>
      t.enc = { s.enc with rows := { dsn := r.m, g := r.g, data := l, parity := parityBytes l } :: (s.enc.rows.filter fun x => !(x.dsn == r.m && x.g == r.g)) } ∧
      WordsKept (fun _ => False) s t ∧ OnlyTouches [.enc] s t) ∧
  (∀ (n k p : Nat) (r : RwRow) (l : List Byte) (s : State),
    k < 512 →
    (rowAt s n k p = some r ∨ (rowAt s n k p = none ∧ hostRow s n k p = some r)) →
    rowBytes s r = some l →
    fetchCopy (rowPages s r) s = (true, s) →
    Runs (.rowFetch n k p true true) s fun t =>
      getF t Reg.ENC_STATUS_FAILED = 1 ∧ getF t Reg.ENC_MISMATCH_CNT = satAdd 32 (satAdd 32 (getF s Reg.ENC_MISMATCH_CNT) 1) 1 ∧
      Stopped Reg.SAFE_STATUS_S3 0x4505 t ∧ t.enc = { s.enc with inject := false } ∧
      WordsKept (fun a => stopWord a ∨ a / 0x1000 = 0x12) s t ∧ OnlyTouches (.enc :: stopParts) s t) ∧
  (∀ (n k p : Nat) (u v : Bool) (s : State),
    ((rowAt s n k p = none ∧ hostRow s n k p = none) ∨ 512 ≤ k) →
    exec (.rowFetch n k p u v) s = .next s) ∧
  (∀ (s : State),
    (getB s (hdrLOCK 0x12) = false ∧ getB s (hdrLOCK 0x50) = false) →
    exec .encInject s = .next { s with enc := { s.enc with inject := true } } ∧ exec .dvInject s = .next { s with cmp := { s.cmp with inject := true } }) ∧
  (∀ (n : Nat) (g : Gran) (s : State),
    (s.fmt.grans.find? (fun x => x.gsn == n && x.stage == .cut) = some g) →
    (s.cmp.busy.any (fun b => b.2 == n) = true) →
    fetchCopy (granPages s n) s = (true, s) →
    s.cmp.inject = false →
    g.enc = false →
    s.fmt.grans = [g] →
    g.gsn = n →
    Runs (.granuleCompressed n false false) s fun t =>
      t.fmt.grans = [{ g with body := (Pgc.compress g.profile g.plain).1, stage := .sealed }] ∧
      getF t Reg.CMP_GRAN_CNT = satAdd Reg.CMP_GRAN_CNT.width (getF s Reg.CMP_GRAN_CNT) 1 ∧
      (t.cmp.busy.any fun b => b.2 == n) = false ∧
      WordsKept (fun a => a ∈ [Reg.CMP_GRAN_CNT.addr, Reg.CMP_STORED_CNT.addr, Reg.CMP_IN_LO.addr, Reg.CMP_IN_HI.addr, Reg.CMP_OUT_LO.addr, Reg.CMP_OUT_HI.addr]) s t ∧
      OnlyTouches [.regs, .fmt, .cmp, .mtr, .ciph] s t) ∧
  (∀ (n : Nat) (g : Gran) (s : State),
    (s.fmt.grans.find? (fun x => x.gsn == n && x.stage == .cut) = some g) →
    (s.cmp.busy.any (fun b => b.2 == n) = true) →
    fetchCopy (granPages s n) s = (true, s) →
    Runs (.granuleCompressed n true true) s fun t =>
      getF t Reg.CMP_STATUS_DV_FAILED = 1 ∧ Stopped Reg.SAFE_STATUS_S3 0x4802 t ∧ t.cmp = { s.cmp with inject := false } ∧
      WordsKept (fun a => stopWord a ∨ a / 0x1000 = 0x50) s t ∧ OnlyTouches (.cmp :: stopParts) s t) ∧
  (∀ (g : Gran) (s : State),
    (s.fmt.grans.find? (fun x => x.stage != .packed) = some g) →
    g.stage = .sealed →
    getB s Reg.FMT_CTRL = true →
    s.fmt.closeReq = false →
    Runs .granulePacked s fun t =>
      (∀ x ∈ t.fmt.grans, x.gsn = g.gsn → x.stage = .packed) ∧ t.fmt.grans.map (fun x => x.gsn) = s.fmt.grans.map (fun x => x.gsn) ∧
      t.fmt.recDone = s.fmt.recDone + g.records ∧ t.fmt.fmDone = s.fmt.fmDone + b2n g.filemark ∧
      (tenant t g.tenant).chain.h = Crypto.sha512 ((tenant s g.tenant).chain.h ++ granBytes g) ∧
      (tenant t g.tenant).chain.records = (tenant s g.tenant).chain.records + g.records ∧
      WordsKept (fun _ => False) s t ∧ OnlyTouches [.fmt, .ten] s t) ∧
  (∀ (g : Gran) (s : State),
    (s.fmt.grans.find? (fun x => x.stage != .packed) = some g) →
    g.stage ≠ .sealed →
    exec .granulePacked s = .next s)

/-- CIPHER_LANE_START, CIPHER_REQUEST_DONE and PAIR_INJECT (R309–R318, R547). -/
def Obligations.CipherRequests : Prop :=
  (∀ (n p : Nat) (g : Gran) (s : State),
    s.fmt.grans = [g] →
    g.gsn = n →
    g.stage = .requested →
    (s.ciph.fw = [] ∧ s.ciph.rd = [] ∧ s.ciph.host = [] ∧ s.ciph.retry = []) →
    s.ciph.wr = [.enc n] →
    freePair s none = some p →
    (getB s Reg.CIPH_CTRL_EN = true ∧ getB s (hdrQUIESCE 0x51) = false) →
    s3InForce s = false →
    Runs .cipherLaneStart s fun t =>
      t.ciph.runs = s.ciph.runs ++ [{ lane := 2 * p, pair := true, work := .enc n, key := (keySlot s g.slot).key, inj := s.ciph.inject }] ∧
      t.ciph.wr = [] ∧ t.ciph.inject = false ∧ WordsKept (fun _ => False) s t ∧ OnlyTouches [.ciph] s t) ∧
  (∀ (q l : Nat) (w : List CipherWork) (s : State),
    s.fmt.grans = [] →
    (s.ciph.fw = [] ∧ s.ciph.rd = [] ∧ s.ciph.retry = [] ∧ s.ciph.wr = []) →
    s.ciph.host = .host q :: w →
    freeLane s = some l →
    (getB s Reg.CIPH_CTRL_EN = true ∧ getB s (hdrQUIESCE 0x51) = false) →
    s3InForce s = false →
    Runs .cipherLaneStart s fun t =>
      t.ciph.runs = s.ciph.runs ++ [{ lane := l, pair := false, work := .host q, key := startKey s (.host q) }] ∧ t.ciph.host = w ∧ t.ciph.skips = 0 ∧
      WordsKept (fun _ => False) s t ∧ OnlyTouches [.ciph] s t) ∧
  (∀ (q : Nat) (x : ExecSt) (s : State),
    (s.ciph.host = [.host q] ∧ s.ciph.fw = []) →
    s.fmt.grans = [] →
    s3InForce s = true →
    mayFinishSide q x s = true →
    Runs .cipherLaneStart s fun t =>
      t.ciph.host = [] ∧ t.ciph.runs = s.ciph.runs ∧ (side t q).exec = none ∧ Completes q (dTag x.entry.desc) stSAFE_STATE (getF s Reg.SAFE_CAUSE_CODE) t ∧
      WordsKept (fun _ => False) s t ∧ OnlyTouches [.ciph, .que] s t) ∧
  (∀ (l n : Nat) (r : CipherRun) (g : Gran) (s : State),
    (s.ciph.runs.find? (fun r => r.lane == l) = some r) →
    r.work = .enc n →
    r.inj = false →
    (s.fmt.grans.find? (fun g => g.gsn == n && g.stage == .requested) = some g) →
    g.gsn = n →
    Runs (.cipherRequestDone l false) s fun t =>
      t.fmt = { s.fmt with grans := s.fmt.grans.map fun x => if x.gsn = n then
        { x with body := (Crypto.gcmEnc r.key (granIv g) (granAad g g.body.length) g.body).1, tag := (Crypto.gcmEnc r.key (granIv g) (granAad g g.body.length) g.body).2, stage := .sealed } else x } ∧
      t.ciph = { s.ciph with runs := s.ciph.runs.filter fun r => r.lane != l } ∧
      WordsKept (fun a => a = Reg.ENC_BYTES_LO.addr ∨ a = Reg.ENC_BYTES_HI.addr) s t ∧ OnlyTouches [.regs, .fmt, .ciph] s t) ∧
  (∀ (l n : Nat) (r : CipherRun) (s : State),
    (s.ciph.runs.find? (fun r => r.lane == l) = some r) →
    r.work = .enc n →
    r.again = false →
    Runs (.cipherRequestDone l true) s fun t =>
      t.ciph.retry = s.ciph.retry ++ [{ r with again := true, inj := false }] ∧ t.ciph.runs = s.ciph.runs.filter (fun r => r.lane != l) ∧
      getF t Reg.PAIR_MISMATCH_CNT = satAdd Reg.PAIR_MISMATCH_CNT.width (getF s Reg.PAIR_MISMATCH_CNT) 1 ∧ Recorded 0x51 0 0x1901 s t ∧
      WordsKept (fun a => a = Reg.PAIR_MISMATCH_CNT.addr ∨ faultWord 0x51 a) s t ∧ OnlyTouches [.regs, .evt, .ciph] s t) ∧
  (∀ (l n : Nat) (r : CipherRun) (s : State),
    (s.ciph.runs.find? (fun r => r.lane == l) = some r) →
    r.work = .enc n →
    r.again = true →
    Runs (.cipherRequestDone l true) s fun t =>
      getF t Reg.CIPH_STATUS_FAILED = 1 ∧ Stopped Reg.SAFE_STATUS_S3 0x4902 t ∧
      getF t Reg.PAIR_MISMATCH_CNT = satAdd Reg.PAIR_MISMATCH_CNT.width (getF s Reg.PAIR_MISMATCH_CNT) 1 ∧
      WordsKept (fun a => stopWord a ∨ a / 0x1000 = 0x51) s t ∧ OnlyTouches (.ciph :: stopParts) s t) ∧
  (∀ (l q : Nat) (r : CipherRun) (x : ExecSt) (s : State),
    (s.ciph.runs.find? (fun r => r.lane == l) = some r) →
    r.work = .host q →
    mayFinishSide q x s = true →
    cMODE x.entry.desc = 4 →
    ((stringWords (x.seen.take (cPages (cSRC_OFS x.entry.desc) (cSrcLen x.entry.desc))) (cSRC_OFS x.entry.desc) (cSrcLen x.entry.desc)).all (fun e => wordState s e.1 e.2 == .clean) = true) →
    Runs (.cipherRequestDone l true) s fun t =>
      Completes q (dTag x.entry.desc) stTAG_FAIL 0 t ∧ (side t q).exec = none ∧ t.ciph = { s.ciph with runs := s.ciph.runs.filter fun r => r.lane != l } ∧
      getF t Reg.TAG_FAIL_CNT = satAdd Reg.TAG_FAIL_CNT.width (getF s Reg.TAG_FAIL_CNT) 1 ∧
      WordsKept (· = Reg.TAG_FAIL_CNT.addr) s t ∧ OnlyTouches [.regs, .ciph, .que] s t) ∧
  (∀ (s : State),
    getB s (hdrLOCK 0x51) = false →
    exec .pairInject s = .next (setCiph { s.ciph with inject := true } s))

/-- KEY_IMPORT_UNWRAP_DONE (R319, R328), KEY_ERASE_COMPLETE and KEK_ERASE_COMPLETE (R322, R325). -/
def Obligations.KeysImportedAndErased : Prop :=
  (∀ (q kek : Nat) (r : CipherRun) (key blob : List Byte) (x : ExecSt) (s : State),
    (s.ciph.runs.find? (fun r => match r.work with | .unwrap k _ _ _ => k == q | _ => false) = some r) →
    r.work = .unwrap q kek key blob →
    mayFinishSide q x s = true →
    importCheck s (dTenant x.entry.desc) true (dField x.entry.desc 0x12 2) = stOK →
    Runs (.keyImportUnwrapDone q false) s fun t =>
      (match Crypto.kwpUnwrap key blob with
        | some p =>
          if p.length = 48 ∧ bytesAt p 0x2C 4 = zeros 4 then
            if leNat (bytesAt p 0x20 8) = (tenant s (dTenant x.entry.desc)).tag then
              keySlot t (dField x.entry.desc 0x12 2) = { state := 1, tenant := dTenant x.entry.desc, tag := leNat (bytesAt p 0x28 4), key := p.take 32 } ∧
              Completes q (dTag x.entry.desc) stOK 0 t
            else t.keys = s.keys ∧ Completes q (dTag x.entry.desc) stKEY_NOT_OWNED 0x0907 t ∧
              getF t Reg.KEY_BIND_FAIL_CNT = satAdd Reg.KEY_BIND_FAIL_CNT.width (getF s Reg.KEY_BIND_FAIL_CNT) 1
          else t.keys = s.keys ∧ Completes q (dTag x.entry.desc) stTAG_FAIL 0x0906 t ∧
            getF t Reg.KEY_UNWRAP_FAIL_CNT = satAdd Reg.KEY_UNWRAP_FAIL_CNT.width (getF s Reg.KEY_UNWRAP_FAIL_CNT) 1
        | none => t.keys = s.keys ∧ Completes q (dTag x.entry.desc) stTAG_FAIL 0x0906 t ∧
            getF t Reg.KEY_UNWRAP_FAIL_CNT = satAdd Reg.KEY_UNWRAP_FAIL_CNT.width (getF s Reg.KEY_UNWRAP_FAIL_CNT) 1) ∧
      t.ciph.runs = s.ciph.runs.filter (fun z => z.lane != r.lane) ∧ (side t q).exec = none ∧
      WordsKept (fun a => a ∈ [Reg.DEC_BYTES_LO.addr, Reg.DEC_BYTES_HI.addr, Reg.KEY_BIND_FAIL_CNT.addr, Reg.KEY_UNWRAP_FAIL_CNT.addr] ∨ faultWord 0x52 a) s t ∧
      OnlyTouches [.regs, .evt, .ciph, .keys, .que] s t) ∧
  (∀ (q : Nat) (upset : Bool) (s : State),
    (s.ciph.runs.find? (fun r => match r.work with | .unwrap k _ _ _ => k == q | _ => false) = none) →
    exec (.keyImportUnwrapDone q upset) s = .next s) ∧
  (∀ (n q : Nat) (x : ExecSt) (s : State),
    (keySlot s n).state = 2 →
    slotInUse s n = false →
    (1 ≤ q ∧ q < 64) →
    (x.phase = .work ∧ dOpcode x.entry.desc = opKEY_ERASE ∧ dField x.entry.desc 0x12 2 = n) →
    mayFinishSide q x s = true →
    ((List.range 64).all (fun k => k == q || (side s k).exec == none) = true) →
    Runs (.keyEraseComplete n) s fun t =>
      keySlot t n = {} ∧ t.keys.data = Tbl.erase s.keys.data n ∧ Completes q (dTag x.entry.desc) stOK 0 t ∧ (side t q).exec = none ∧
      WordsKept (fun _ => False) s t ∧ OnlyTouches [.keys, .que] s t) ∧
  (∀ (n : Nat) (s : State),
    (keySlot s n).state = 2 →
    slotInUse s n = false →
    Runs (.keyEraseComplete n) s fun t => keySlot t n = {} ∧ t.keys.data = Tbl.erase s.keys.data n ∧ t.keys.kek = s.keys.kek ∧ OnlyTouches [.regs, .evt, .keys, .que] s t) ∧
  (∀ (n : Nat) (s : State),
    ((keySlot s n).state ≠ 2 ∨ slotInUse s n = true) →
    exec (.keyEraseComplete n) s = .next s) ∧
  (∀ (n q : Nat) (x : ExecSt) (s : State),
    (s.ciph.fw = [] ∧ s.ciph.runs = []) →
    (1 ≤ q ∧ q < 64) →
    (x.phase = .work ∧ dOpcode x.entry.desc = opKEK_ERASE ∧ dField x.entry.desc 0x10 1 = n) →
    mayFinishSide q x s = true →
    ((List.range 64).all (fun k => k == q || (side s k).exec == none) = true) →
    Runs (.kekEraseComplete n) s fun t =>
      t.keys = { s.keys with kek := Tbl.erase s.keys.kek n } ∧ Completes q (dTag x.entry.desc) stOK 0 t ∧ (side t q).exec = none ∧
      WordsKept (fun _ => False) s t ∧ OnlyTouches [.keys, .que] s t) ∧
  (∀ (n q : Nat) (x : ExecSt) (s : State),
    q < 64 →
    (side s q).exec = some x →
    (x.phase = .work ∧ dOpcode x.entry.desc = opKEK_ERASE ∧ dField x.entry.desc 0x10 1 = n) →
    ((s.ciph.fw.any (fun w => match w with | .unwrap _ k _ _ => k == n | _ => false)) = false) →
    ((s.ciph.runs.any (fun r => match r.work with | .unwrap _ k _ _ => k == n | _ => false)) = false) →
    Runs (.kekEraseComplete n) s fun t => t.keys.kek = Tbl.erase s.keys.kek n ∧ t.keys.data = s.keys.data ∧ OnlyTouches [.regs, .evt, .keys, .que] s t) ∧
  (∀ (n : Nat) (s : State),
    (s.ciph.fw.any (fun w => match w with | .unwrap _ k _ _ => k == n | _ => false) = true) →
    exec (.kekEraseComplete n) s = .next s)

/-- MEM_TRAIN, DDR_TRAIN_STEP_DONE (R339, R340), DDR_REFRESH, DDR_OSC_TRACK and DDR_ZQ_LATCH (R338, R339, R356, R372). -/
def Obligations.MemoryTraining : Prop :=
  (∀ (s : State),
    getB s (hdrLOCK 0x5C) = false →
    getB s Reg.MEM_CTRL_EN = true →
    getB s Reg.MEM_STATUS_TRAIN_BUSY = false →
    ((List.range 4).any (fun n => getF s (Reg.DDR_STATUS_STATE n) != 3) = true) →
    Runs .memTrain s fun t =>
      getB t Reg.MEM_STATUS_TRAIN_BUSY = true ∧
      (∀ n < 4, getF s (Reg.DDR_STATUS_STATE n) ≠ 3 → getF t (Reg.DDR_STATUS_STATE n) = 1 ∧ getF t (Reg.DDR_STATUS_TRAINED n) = 0 ∧ (ddr t n).step = 0 ∧ (ddr t n).attempts = 0) ∧
      (∀ n < 4, getF s (Reg.DDR_STATUS_STATE n) = 3 → getF t (Reg.DDR_STATUS_STATE n) = 3 ∧ ddr t n = ddr s n) ∧
      WordsKept (fun a => a = Reg.MEM_STATUS_TRAIN_BUSY.addr ∨ ∃ n < 4, a = (Reg.DDR_STATUS_STATE n).addr) s t ∧ OnlyTouches [.regs, .mem] s t) ∧
  (∀ (n : Nat) (s : State),
    n < 4 →
    (getF s (Reg.DDR_STATUS_STATE n) = 1 ∨ getF s (Reg.DDR_STATUS_STATE n) = 2) →
    (ddr s n).step < 7 →
    Runs (.ddrTrainStepDone n .pass) s fun t =>
      getF t (Reg.DDR_STATUS_TRAINED n) = getF s (Reg.DDR_STATUS_TRAINED n) ||| 2 ^ (ddr s n).step ∧ getF t (Reg.DDR_STATUS_STATE n) = 2 ∧
      ddr t n = { ddr s n with step := (ddr s n).step + 1, attempts := 0 } ∧ WordsKept (· = (Reg.DDR_STATUS_STATE n).addr) s t ∧ OnlyTouches [.regs, .mem] s t) ∧
  (∀ (n : Nat) (s : State),
    n < 4 →
    (getF s (Reg.DDR_STATUS_STATE n) = 1 ∨ getF s (Reg.DDR_STATUS_STATE n) = 2) →
    (ddr s n).step = 7 →
    (∀ m < 4, m ≠ n → getF s (Reg.DDR_STATUS_STATE m) = 3) →
    Runs (.ddrTrainStepDone n .pass) s fun t =>
      getF t (Reg.DDR_STATUS_STATE n) = 3 ∧ getB t Reg.MEM_STATUS_READY = true ∧ getB t Reg.MEM_STATUS_TRAIN_BUSY = false ∧ getF t Reg.POOL_SLOTS = poolPages s ∧
      WordsKept (fun a => a = Reg.MEM_STATUS_READY.addr ∨ a = Reg.POOL_SLOTS.addr ∨ a = (Reg.DDR_STATUS_STATE n).addr) s t ∧ OnlyTouches [.regs] s t) ∧
  (∀ (n lane : Nat) (s : State),
    n < 4 →
    lane < 4 →
    (getF s (Reg.DDR_STATUS_STATE n) = 1 ∨ getF s (Reg.DDR_STATUS_STATE n) = 2) →
    ((ddr s n).attempts = 2 ∧ (ddr s n).step < 8) →
    Runs (.ddrTrainStepDone n (.fail lane)) s fun t =>
      getF t (Reg.DDR_STATUS_STATE n) = 7 ∧ getF t (Reg.DDR_TRAIN_ERR_VALID n) = 1 ∧ getF t (Reg.DDR_TRAIN_ERR_STEP n) = (ddr s n).step ∧
      getF t (Reg.DDR_TRAIN_ERR_LANE n) = lane ∧ Recorded (0x58 + n) 7 0x3A08 s t ∧ getB t Reg.MEM_STATUS_READY = getB s Reg.MEM_STATUS_READY ∧
      WordsKept (fun a => a = Reg.MEM_STATUS_TRAIN_BUSY.addr ∨ a = (Reg.DDR_STATUS_STATE n).addr ∨ a = (Reg.DDR_TRAIN_ERR_VALID n).addr ∨ faultWord (0x58 + n) a) s t ∧
      OnlyTouches [.regs, .evt] s t) ∧
  (∀ (n lane : Nat) (s : State),
    n < 4 →
    (getF s (Reg.DDR_STATUS_STATE n) = 1 ∨ getF s (Reg.DDR_STATUS_STATE n) = 2) →
    (ddr s n).attempts < 2 →
    Runs (.ddrTrainStepDone n (.fail lane)) s fun t =>
      ddr t n = { ddr s n with attempts := (ddr s n).attempts + 1 } ∧ getF t (Reg.DDR_RETRAIN_CNT n) = satAdd (Reg.DDR_RETRAIN_CNT n).width (getF s (Reg.DDR_RETRAIN_CNT n)) 1 ∧
      WordsKept (· = (Reg.DDR_RETRAIN_CNT n).addr) s t ∧ OnlyTouches [.regs, .mem] s t) ∧
  (∀ (n rate : Nat) (s : State),
    n < 4 →
    getF s (Reg.DDR_STATUS_STATE n) = 3 →
    Runs (.ddrRefresh n rate false) s fun t =>
      ddr t n = { ddr s n with refi := (ddr s n).refi + 1 } ∧ getF t (Reg.DDR_STATUS_REF_RATE n) = rate % 2 ^ (Reg.DDR_STATUS_REF_RATE n).width ∧
      WordsKept (· = (Reg.DDR_STATUS_REF_RATE n).addr) s t ∧ OnlyTouches [.regs, .mem] s t) ∧
  (∀ (n v : Nat) (s : State),
    n < 4 →
    getF s (Reg.DDR_STATUS_STATE n) = 3 →
    (ddr s n).refi % 32768 = 0 →
    exec (.ddrOscTrack n v) s = .next (setDdr n { ddr s n with osc := v } s) ∧ exec (.ddrZqLatch n v) s = .next (setDdr n { ddr s n with zq := v } s)) ∧
  (∀ (n v : Nat) (s : State),
    n < 4 →
    (ddr s n).refi % 256 ≠ 0 →
    exec (.ddrOscTrack n v) s = .next s ∧ exec (.ddrZqLatch n v) s = .next s)

/-- BUFFER_WRITE and BUFFER_READ (R342, R345, R352, R353, R355, R359, R372). -/
def Obligations.BufferWords : Prop :=
  (∀ (z w a : Nat) (l : List Byte) (s : State),
    accessible s z w = true →
    l.length = 32 →
    isPage s z = true →
    (page s z).poisoned = false →
    Runs (.bufferWrite z w 0 l a []) s fun t =>
      rawWord t z w = (wordOf (l.map BitVec.toNat), wChk (wordOf (l.map BitVec.toNat))) ∧ isWritten t z w = true ∧
      page t z = { page s z with written := (page s z).written ||| 2 ^ w } ∧
      CellsKept (fun k => ∃ off ∈ wordBytesAt w ++ (List.range 128).map (4480 + ·), k = slotKey z off) s t ∧
      WordsKept (fun _ => False) s t ∧ OnlyTouches [.mem, .cells] s t) ∧
  (∀ (z w o a : Nat) (l : List Byte) (s : State),
    accessible s z w = true →
    l ≠ [] →
    o + l.length ≤ 32 →
    isPage s z = true →
    isWritten s z w = false →
    Runs (.bufferWrite z w o l a []) s fun t =>
      rawWord t z w = (mergeBytes 0 o l, wChk (mergeBytes 0 o l)) ∧ page t z = { page s z with written := (page s z).written ||| 2 ^ w } ∧
      CellsKept (fun k => ∃ off ∈ wordBytesAt w ++ (List.range 128).map (4480 + ·), k = slotKey z off) s t ∧
      WordsKept (fun _ => False) s t ∧ OnlyTouches [.mem, .cells] s t) ∧
  (∀ (z w : Nat) (s : State),
    accessible s z w = true →
    wordState s z w = .clean →
    exec (.bufferRead z w []) s = .next s) ∧
  (∀ (z w : Nat) (y : Word256) (k : Chk) (s : State),
    accessible s z w = true →
    wordState s z w = .single y k →
    s.mem.hot.length < 64 →
    s.mem.hot.contains z = false →
    s.mem.ceDone.contains z = false →
    Runs (.bufferRead z w []) s fun t =>
      t.mem.hot = s.mem.hot ++ [z] ∧ t.mem.ceDone = z :: s.mem.ceDone ∧ getF t Reg.CE_RD_CNT = satAdd Reg.CE_RD_CNT.width (getF s Reg.CE_RD_CNT) 1 ∧ Recorded 0x5C 30 0x1A01 s t ∧
      WordsKept (fun a => a = Reg.CE_RD_CNT.addr ∨ a = (Reg.DDR_CE_CNT (chunkChannel z (errorByte w (rawWord s z w) (y, k) / 64))).addr ∨ faultWord 0x5C a) s t ∧
      OnlyTouches [.regs, .evt, .mem] s t) ∧
  (∀ (z w : Nat) (s : State),
    accessible s z w = true →
    isPage s z = true →
    wordState s z w = .poisoned →
    ((page s z).alloc = true ∧ (page s z).use = .host) →
    Runs (.bufferRead z w []) s fun t =>
      getF t (evtBit 0x5C 30) = 1 ∧ t.mem.cells = s.mem.cells ∧ WordsKept (fun a => a / 0x1000 = 0x5C ∨ faultWord 0x5C a) s t ∧ OnlyTouches [.regs, .evt, .mem] s t) ∧
  (∀ (z w : Nat) (s : State),
    accessible s z w = true →
    isPage s z = false →
    wordState s z w = .poisoned →
    Runs (.bufferRead z w []) s fun t =>
      Stopped Reg.SAFE_STATUS_S3 0x4A06 t ∧ WordsKept (fun a => stopWord a ∨ a / 0x1000 = 0x5C) s t ∧ OnlyTouches (.mem :: stopParts) s t) ∧
  (∀ (z w o a : Nat) (l : List Byte) (e : List (Nat × Byte)) (s : State),
    accessible s z w = false →
    exec (.bufferRead z w e) s = .next s ∧ exec (.bufferWrite z w o l a e) s = .next s)

/-- SPLIT_WRITE, SPLIT_READ, SPLIT_PCHECK (R370, R395), SCRUB_VISIT (R356–R358). -/
def Obligations.SplitWordsAndScrubbing : Prop :=
  (∀ (s : State),
    getB s (hdrLOCK 0x5C) = false →
    splitOk false s = true →
    Runs (.splitWrite false) s fun t =>
      rawWord t (getF s Reg.SPLIT_ADDR_PAGE) (getF s Reg.SPLIT_ADDR_WORD) = ((splitPort false s).data, (splitPort false s).chk) ∧
      getF t Reg.SPLIT_RESULT_DONE = 1 ∧ Recorded 0x5C 2 0 s t ∧
      CellsKept (fun k => ∃ off ∈ wordBytesAt (getF s Reg.SPLIT_ADDR_WORD) ++ (List.range 128).map (4480 + ·), k = slotKey (getF s Reg.SPLIT_ADDR_PAGE) off) s t ∧
      WordsKept (fun a => a = Reg.SPLIT_RESULT_DONE.addr ∨ noticeWord 0x5C a) s t ∧ OnlyTouches [.regs, .evt, .mem, .cells] s t) ∧
  (∀ (s : State),
    getB s (hdrLOCK 0x5C) = false →
    splitOk false s = true →
    isWritten s (getF s Reg.SPLIT_ADDR_PAGE) (getF s Reg.SPLIT_ADDR_WORD) = false →
    Runs (.splitRead false) s fun t =>
      (∀ i < 8, getF t (Reg.SPLIT_DATA i) = 0) ∧ getF t Reg.SPLIT_CHK = 0 ∧ getF t Reg.SPLIT_RESULT_VERDICT = 0 ∧ getF t Reg.SPLIT_RESULT_DONE = 1 ∧ Recorded 0x5C 2 0 s t ∧
      WordsKept (fun a => a = Reg.SPLIT_RESULT_DONE.addr ∨ a = Reg.SPLIT_CHK.addr ∨ (∃ i < 8, a = (Reg.SPLIT_DATA i).addr) ∨ noticeWord 0x5C a) s t ∧ OnlyTouches [.regs, .evt] s t) ∧
  (∀ (s : State),
    getB s (hdrLOCK 0x5C) = false →
    splitOk false s = true →
    (page s (getF s Reg.SPLIT_ADDR_PAGE)).written = 0 →
    Runs (.splitPcheck false) s fun t =>
      getF t Reg.SPLIT_RESULT_VERDICT = 4 ∧ getF t Reg.SPLIT_RESULT_DONE = 1 ∧ Recorded 0x5C 2 0 s t ∧
      WordsKept (fun a => a = Reg.SPLIT_RESULT_DONE.addr ∨ noticeWord 0x5C a) s t ∧ OnlyTouches [.regs, .evt] s t) ∧
  (∀ (s : State),
    getB s (hdrLOCK 0x5C) = false →
    splitOk false s = false →
    ∀ c ∈ [Instr.splitWrite false, .splitRead false, .splitPcheck false], Runs c s fun t =>
      getF t Reg.SPLIT_RESULT_VERDICT = 7 ∧ getF t Reg.SPLIT_RESULT_SYN = 0 ∧ getF t Reg.SPLIT_RESULT_DONE = 1 ∧
      WordsKept (fun a => a = Reg.SPLIT_RESULT_DONE.addr ∨ noticeWord 0x5C a) s t ∧ OnlyTouches [.regs, .evt] s t) ∧
  (∀ (s : State),
    (getB s Reg.MEM_STATUS_READY = true ∧ getB s Reg.MEM_CTRL_SCRUB_EN = true ∧ (getF s Reg.CLU_RUN_SVC).testBit 0 = true) →
    s.mem.hot = [] →
    getF s Reg.SCRUB_POS + 1 < allSlots s →
    isPage s (getF s Reg.SCRUB_POS) = true →
    (scrubSkips s (getF s Reg.SCRUB_POS) = true ∨ ((page s (getF s Reg.SCRUB_POS)).alloc = true ∧ (page s (getF s Reg.SCRUB_POS)).written = 0)) →
    Runs (.scrubVisit [] []) s fun t =>
      getF t Reg.SCRUB_POS = getF s Reg.SCRUB_POS + 1 ∧ WordsKept (· = Reg.SCRUB_POS.addr) s t ∧ OnlyTouches [.regs] s t) ∧
  (∀ (s : State),
    (getB s Reg.MEM_STATUS_READY = true ∧ getB s Reg.MEM_CTRL_SCRUB_EN = true ∧ (getF s Reg.CLU_RUN_SVC).testBit 0 = true) →
    s.mem.hot = [] →
    getF s Reg.SCRUB_POS + 1 < allSlots s →
    isPage s (getF s Reg.SCRUB_POS) = true →
    scrubSkips s (getF s Reg.SCRUB_POS) = false →
    (page s (getF s Reg.SCRUB_POS)).alloc = false →
    Runs (.scrubVisit [] []) s fun t =>
      (∀ w < 128, rawWord t (getF s Reg.SCRUB_POS) w = (wordOf (List.replicate 32 ((getF s Reg.SCRUB_POS + w) % 256)), wChk (wordOf (List.replicate 32 ((getF s Reg.SCRUB_POS + w) % 256))))) ∧
      getF t Reg.SCRUB_POS = getF s Reg.SCRUB_POS + 1 ∧
      CellsKept (fun k => ∃ off < 4608, k = slotKey (getF s Reg.SCRUB_POS) off) s t ∧
      WordsKept (· = Reg.SCRUB_POS.addr) s t ∧ OnlyTouches [.regs, .cells, .mem] s t) ∧
  (∀ (u v : List (Nat × Byte)) (s : State),
    (getB s Reg.MEM_STATUS_READY = false ∨ getB s Reg.MEM_CTRL_SCRUB_EN = false ∨ (getF s Reg.CLU_RUN_SVC).testBit 0 = false) →
    exec (.scrubVisit u v) s = .next s)

/-- RETIRE (R364), MEM_RELEASE (R366), RLOG_TAIL_WRITE (R363), SRAM_WORD_READ (R367), SREP_APPLY (R369). -/
def Obligations.RetirementAndSram : Prop :=
  (∀ (p : Nat) (s : State),
    getB s (hdrLOCK 0x5C) = false →
    p < poolPages s →
    ((page s p).retired = false ∧ (page s p).pending = false ∧ (page s p).alloc = true) →
    retiredCount s + pendingCount s < 32768 →
    Runs (.retire p) s fun t =>
      page t p = { page s p with pending := true } ∧ t.mem.retire = s.mem.retire ++ [p] ∧ t.mem.hot = s.mem.hot.filter (· != p) ∧
      WordsKept (fun _ => False) s t ∧ OnlyTouches [.mem] s t) ∧
  (∀ (p : Nat) (s : State),
    getB s (hdrLOCK 0x5C) = false →
    p < poolPages s →
    ((page s p).retired = false ∧ (page s p).pending = false ∧ (page s p).alloc = false) →
    retiredCount s + pendingCount s < 32768 →
    Runs (.retire p) s fun t =>
      page t p = { page s p with retired := true, quar := false, gen := ((page s p).gen + 1) % 512 } ∧ t.mem.retire = s.mem.retire ++ [p] ∧
      t.pool.free = s.pool.free - (if getB s Reg.POOL_STATUS_BUILT && !(page s p).quar then 1 else 0) ∧
      WordsKept (fun a => a = Reg.POOL_STATUS_MIN_SHORT.addr ∨ faultWord 0x60 a) s t ∧ OnlyTouches [.regs, .evt, .mem, .pool] s t) ∧
  (∀ (p : Nat) (s : State),
    getB s (hdrLOCK 0x5C) = false →
    poolPages s ≤ p →
    ∀ c ∈ [Instr.retire p, .memRelease p], Runs c s fun t => Recorded 0x5C 1 0 s t ∧ WordsKept (noticeWord 0x5C) s t ∧ OnlyTouches [.regs, .evt] s t) ∧
  (∀ (p : Nat) (s : State),
    getB s (hdrLOCK 0x5C) = false →
    p < poolPages s →
    ((page s p).quar = true ∧ (page s p).poisoned = false) →
    getB s Reg.POOL_STATUS_BUILT = true →
    s.pool.waiters = [] →
    Runs (.memRelease p) s fun t =>
      page t p = { page s p with quar := false } ∧ t.pool = { s.pool with free := s.pool.free + 1, ring := s.pool.ring ++ [{ page := p, gen := (page s p).gen, len := 1 }] } ∧
      WordsKept (fun a => a = Reg.POOL_STATUS_MIN_SHORT.addr ∨ faultWord 0x60 a) s t ∧ OnlyTouches [.regs, .evt, .mem, .pool] s t) ∧
  (∀ (v : Nat) (s : State),
    getB s (hdrLOCK 0x5C) = false →
    Runs (.rlogTailWrite v) s fun t => getF t Reg.RLOG_TAIL = v % 2 ^ Reg.RLOG_TAIL.width ∧ WordsKept (· = Reg.RLOG_TAIL.addr) s t ∧ OnlyTouches [.regs] s t) ∧
  (∀ (u r : Nat) (w y : Word256) (k c : Chk) (s : State),
    u < 288 →
    r < 8192 →
    wDecode w k = .single y c →
    Runs (.sramWordRead u r w k) s fun t =>
      getF t Reg.SREP_CE_CNT = satAdd Reg.SREP_CE_CNT.width (getF s Reg.SREP_CE_CNT) 1 ∧
      (s.mem.ceRows.contains (8192 * u + r) = false → t.mem.ceRows = (8192 * u + r) :: s.mem.ceRows ∧ t.mem.cands = s.mem.cands) ∧
      (s.mem.ceRows.contains (8192 * u + r) = true → s.mem.cands.length < 64 → (u + r * 2 ^ 10 + 2 ^ 31) ∈ t.mem.cands) ∧
      WordsKept (fun a => a = Reg.SREP_CE_CNT.addr ∨ a = Reg.SREP_CAND_CNT_DROPPED.addr) s t ∧ OnlyTouches [.regs, .mem] s t) ∧
  (∀ (u r : Nat) (w : Word256) (k : Chk) (s : State),
    u < 288 →
    r < 8192 →
    wDecode w k = .uncorrectable →
    Runs (.sramWordRead u r w k) s fun t =>
      Stopped Reg.SAFE_STATUS_S3 0x4A07 t ∧ WordsKept (fun a => stopWord a ∨ a / 0x1000 = 0x5D) s t ∧ OnlyTouches (.mem :: stopParts) s t) ∧
  (∀ (i e : Nat) (s : State),
    getB s (hdrLOCK 0x5D) = false →
    (isSealed s = false ∧ rd s Reg.CLU_RUN_CMD.addr = 0 ∧ rd s Reg.CLU_CH_RUN.addr = 0) →
    s.mem.soft = [(i, e)] →
    e.testBit 31 = true →
    repCheck s.fuseMap.entries [] e = 0 →
    s.mem.inForce = [] →
    Runs .srepApply s fun t =>
      t.mem.inForce = [e] ∧ getF t Reg.SREP_STATUS_APPLIED = 1 ∧ getF t Reg.SREP_STATUS_ENTRIES = 1 ∧ getF t Reg.IMG_RCVD = 0 ∧ t.sec.region = [] ∧
      WordsKept (fun a => a ∈ [Reg.SREP_STATUS_APPLIED.addr, Reg.IMG_RCVD.addr, Reg.IMG_WIN_ADDR.addr]) s t ∧ OnlyTouches [.regs, .mem, .sec] s t) ∧
  (∀ (s : State),
    getB s (hdrLOCK 0x5D) = false →
    (isSealed s = true ∨ rd s Reg.CLU_RUN_CMD.addr ≠ 0 ∨ rd s Reg.CLU_CH_RUN.addr ≠ 0) →
    Runs .srepApply s fun t =>
      getF t Reg.SREP_ERR_VALID = 1 ∧ getF t Reg.SREP_ERR_CODE = 6 ∧ getF t Reg.SREP_ERR_INDEX = 0 ∧ WordsKept (· = Reg.SREP_ERR_VALID.addr) s t ∧ OnlyTouches [.regs] s t)

/-- ALLOC, FREE, HANDOFF, ADDREF, POOL_RELEASE, QUERY (R379, R380, R383, R384, R392–R394) and POOL_BAD_OP (R383); FREE in S3 (R545; the model's choice, log entry 93). -/
def Obligations.PoolRequests : Prop :=
  (∀ (u : PageUse) (a p g : Nat) (rest : List (Nat × Nat)) (s : State),
    getB s Reg.POOL_STATUS_BUILT = true →
    a < 272 →
    admitAlloc s a = psOK →
    s.pool.cache = (p, g) :: rest →
    (page s p).gen = g →
    Runs (.alloc (.core u) a) s fun t =>
      page t p = { page s p with alloc := true, owner := a, refcnt := b2n (acct s a).mode, refmode := (acct s a).mode, use := u } ∧
      (acct t a).used = (acct s a).used + 1 ∧ t.pool.free = s.pool.free - 1 ∧ t.pool.cache = rest ∧
      getF t Reg.ALLOC_CNT = satAdd Reg.ALLOC_CNT.width (getF s Reg.ALLOC_CNT) 1 ∧ WordsKept (· = Reg.ALLOC_CNT.addr) s t ∧ OnlyTouches [.regs, .mem, .pool] s t) ∧
  (∀ (a : Nat) (s : State),
    getB s (hdrLOCK 0x60) = false →
    getB s Reg.POOL_RESP_BUSY = false →
    getB s Reg.POOL_STATUS_BUILT = true →
    a < 256 →
    (acct s a).quota ≤ (acct s a).used →
    Runs (.alloc (.port false) a) s fun t =>
      getF t Reg.POOL_RESP_STATUS = psQUOTA ∧ getF t Reg.POOL_RESP_DONE = 1 ∧ getF t Reg.POOL_RESP_BUSY = 0 ∧
      (acct t a).denyQuota = satAdd 32 (acct s a).denyQuota 1 ∧ getF t Reg.QUOTA_CNT = satAdd Reg.QUOTA_CNT.width (getF s Reg.QUOTA_CNT) 1 ∧ Recorded 0x60 0 0 s t ∧
      WordsKept (fun b => b ∈ [Reg.POOL_REQ_OP.addr, Reg.POOL_REQ_PAGE.addr, Reg.POOL_REQ_TARGET.addr, Reg.POOL_REQ_ACCOUNT.addr, Reg.POOL_RESP_STATUS.addr, Reg.POOL_RESP_PAGE.addr, Reg.POOL_RESP_OWNER.addr, Reg.QUOTA_CNT.addr] ∨ noticeWord 0x60 b) s t ∧
      OnlyTouches [.regs, .evt, .pool] s t) ∧
  (∀ (u : PageUse) (p a : Nat) (s : State),
    getB s Reg.POOL_STATUS_BUILT = true →
    a < 272 →
    badPage s p = false →
    ((page s p).alloc = true ∧ (page s p).refmode = false ∧ (page s p).owner = a) →
    ((page s p).pending = false ∧ (page s p).poisoned = false) →
    keptInS3 s a = false →
    s.pool.waiters = [] →
    s.pool.cache.length < 3072 →
    Runs (.free (.core u) p a) s fun t =>
      page t p = { page s p with written := 0, gen := ((page s p).gen + 1) % 512, alloc := false, owner := 0x1FF, refcnt := 0, refmode := false, use := .host } ∧
      (acct t a).used = (acct s a).used - 1 ∧ t.pool.free = s.pool.free + 1 ∧ t.pool.cache = (p, ((page s p).gen + 1) % 512) :: s.pool.cache ∧
      getF t Reg.FREE_CNT = satAdd Reg.FREE_CNT.width (getF s Reg.FREE_CNT) 1 ∧ WordsKept (· = Reg.FREE_CNT.addr) s t ∧ OnlyTouches [.regs, .mem, .pool] s t) ∧
  (∀ (u : PageUse) (p a : Nat) (s : State),
    getB s Reg.POOL_STATUS_BUILT = true →
    a < 272 →
    badPage s p = false →
    ((page s p).alloc = true ∧ (page s p).refmode = false ∧ (page s p).owner = a) →
    keptInS3 s a = true →
    exec (.free (.core u) p a) s = .next s) ∧
  (∀ (u : PageUse) (p a : Nat) (s : State),
    getB s Reg.POOL_STATUS_BUILT = true →
    a < 272 →
    badPage s p = false →
    (page s p).alloc = false →
    Runs (.free (.core u) p a) s fun t =>
      getF t Reg.ERR_LAST_PAGE = p % 2 ^ Reg.ERR_LAST_PAGE.width ∧ getF t Reg.ERR_LAST_ACCT_STATUS = psDOUBLE_FREE ∧ getF t Reg.ERR_LAST_ACCT_REQUESTER = a ∧
      getF t Reg.MISUSE_CNT = satAdd Reg.MISUSE_CNT.width (getF s Reg.MISUSE_CNT) 1 ∧ Recorded 0x60 1 0x2B01 s t ∧
      WordsKept (fun b => b ∈ [Reg.ERR_LAST_PAGE.addr, Reg.ERR_LAST_ACCT_STATUS.addr, Reg.MISUSE_CNT.addr] ∨ faultWord 0x60 b) s t ∧ OnlyTouches [.regs, .evt] s t) ∧
  (∀ (u : PageUse) (p a b : Nat) (s : State),
    getB s Reg.POOL_STATUS_BUILT = true →
    handoffCheck { host := false, op := 3, acct := a, target := b, page := p, wait := true, use := u } s = psOK →
    admitHandoff s a b = psOK →
    a ≠ b →
    s.pool.waiters = [] →
    Runs (.handoff (.core u) p a b) s fun t =>
      page t p = { page s p with owner := b, use := u } ∧ (acct t a).used = (acct s a).used - 1 ∧ (acct t b).used = (acct s b).used + 1 ∧ t.pool.free = s.pool.free ∧
      getF t Reg.HANDOFF_CNT = satAdd Reg.HANDOFF_CNT.width (getF s Reg.HANDOFF_CNT) 1 ∧ WordsKept (· = Reg.HANDOFF_CNT.addr) s t ∧ OnlyTouches [.regs, .mem, .pool] s t) ∧
  (∀ (u : PageUse) (p : Nat) (s : State),
    getB s Reg.POOL_STATUS_BUILT = true →
    badPage s p = false →
    ((page s p).alloc = true ∧ (page s p).refmode = true) →
    (1 < (page s p).refcnt ∧ (page s p).refcnt < 255) →
    s.pool.waiters = [] →
    exec (.addref (.core u) p) s = .next (setPage p { page s p with refcnt := (page s p).refcnt + 1 } s) ∧
      exec (.poolRelease (.core u) p) s = .next (setPage p { page s p with refcnt := (page s p).refcnt - 1 } s)) ∧
  (∀ (u : PageUse) (p : Nat) (s : State),
    getB s Reg.POOL_STATUS_BUILT = true →
    badPage s p = false →
    ((page s p).alloc = true ∧ (page s p).refmode = true ∧ (page s p).refcnt ≤ 1) →
    ((page s p).pending = false ∧ (page s p).poisoned = false) →
    s.pool.waiters = [] →
    Runs (.poolRelease (.core u) p) s fun t => (page t p).alloc = false ∧ (page t p).owner = 0x1FF ∧ t.pool.free = s.pool.free + 1 ∧ OnlyTouches [.regs, .mem, .pool] s t) ∧
  (∀ (w : Bool) (p : Nat) (s : State),
    getB s (hdrLOCK 0x60) = false →
    getB s Reg.POOL_RESP_BUSY = false →
    getB s Reg.POOL_STATUS_BUILT = true →
    badPage s p = false →
    p < 2 ^ 23 →
    Runs (.query (.port w) p) s fun t =>
      getF t Reg.POOL_RESP_STATUS = psOK ∧ getF t Reg.POOL_RESP_PAGE = p ∧ getF t Reg.POOL_RESP_OWNER = (page s p).owner % 512 ∧
      getF t Reg.POOL_RESP_REFCNT = (page s p).refcnt % 256 ∧ getF t Reg.POOL_RESP_DONE = 1 ∧ getF t Reg.POOL_RESP_BUSY = 0 ∧ Recorded 0x60 0 0 s t ∧
      OnlyTouches [.regs, .evt] s t) ∧
  (∀ (o : Nat) (s : State),
    getB s (hdrLOCK 0x60) = false →
    getB s Reg.POOL_RESP_BUSY = false →
    (o = 0 ∨ o = 7) →
    Runs (.poolBadOp o) s fun t => getF t Reg.POOL_RESP_STATUS = psBAD_OP ∧ getF t Reg.POOL_RESP_DONE = 1 ∧ getF t Reg.POOL_RESP_BUSY = 0 ∧ Recorded 0x60 0 0 s t ∧ OnlyTouches [.regs, .evt] s t)

/-- POOL_BUILD, POOL_BUILD_DONE (R389), CACHE_FILL (R387), POOL_CANCEL (R391, R394), ACCT_WIN_WRITE (R378, R396). -/
def Obligations.PoolStore : Prop :=
  (∀ (s : State),
    getB s (hdrLOCK 0x60) = false →
    getB s Reg.MEM_STATUS_READY = true →
    getB s Reg.POOL_CTRL = false →
    Runs .poolBuild s fun t => t.pool = { s.pool with building := true } ∧ getB t Reg.POOL_CTRL = true ∧ WordsKept (· = Reg.POOL_CTRL.addr) s t ∧ OnlyTouches [.regs, .pool] s t) ∧
  (∀ (s : State),
    getB s (hdrLOCK 0x60) = false →
    getB s Reg.MEM_STATUS_READY = false →
    exec .poolBuild s = .next s) ∧
  (∀ (s : State),
    s.pool.building = true →
    s.pool.early = [] →
    Runs .poolBuildDone s fun t =>
      getB t Reg.POOL_STATUS_BUILT = true ∧ t.pool.building = false ∧ t.pool.free = capacity t ∧ (∀ a < 272, (acct t a).used = 0) ∧
      Recorded 0x60 3 0 s t ∧
      WordsKept (fun a => a = Reg.POOL_STATUS_BUILT.addr ∨ noticeWord 0x60 a ∨ faultWord 0x60 a) s t ∧ OnlyTouches [.regs, .evt, .mem, .pool] s t) ∧
  (∀ (s : State),
    s.pool.cache.length < 1024 →
    s.pool.ring ≠ [] →
    s.pool.stalled = [] →
    Runs .cacheFill s fun t =>
      t.pool = { s.pool with cache := s.pool.cache ++ (ringTake 1024 s.pool.ring).1, ring := (ringTake 1024 s.pool.ring).2
                             head := s.pool.head + (ringTake 1024 s.pool.ring).1.length, taken := (ringTake 1024 s.pool.ring).1.reverse ++ s.pool.taken } ∧
      getF t Reg.FILL_CNT = satAdd Reg.FILL_CNT.width (getF s Reg.FILL_CNT) 1 ∧ WordsKept (· = Reg.FILL_CNT.addr) s t ∧ OnlyTouches [.regs, .pool] s t) ∧
  (∀ (r : PoolReq) (s : State),
    getB s (hdrLOCK 0x60) = false →
    (s.pool.waiters.find? (fun r => r.host) = some r) →
    s.pool.held = [] →
    Runs .poolCancel s fun t =>
      t.pool = { s.pool with waiters := s.pool.waiters.erase r } ∧ getF t Reg.POOL_RESP_STATUS = psCANCELLED ∧ getF t Reg.POOL_RESP_BUSY = 0 ∧ getF t Reg.POOL_RESP_DONE = 1 ∧
      Recorded 0x60 0 0 s t ∧ OnlyTouches [.regs, .evt, .pool] s t) ∧
  (∀ (v : Nat) (s : State),
    getB s (hdrLOCK 0x61) = false →
    getB s Reg.ACCT_WIN_ADDR_AUTOINC = false →
    getF s Reg.ACCT_WIN_ADDR_ACCOUNT < 272 →
    getF s Reg.ACCT_WIN_ADDR_ITEM = 0 →
    s.pool.waiters = [] →
    Runs (.acctWinWrite v) s fun t =>
      (setBounds (getF s Reg.ACCT_WIN_ADDR_ACCOUNT) (v % 2 ^ 23) (acct s (getF s Reg.ACCT_WIN_ADDR_ACCOUNT)).min s = 0 →
        acct t (getF s Reg.ACCT_WIN_ADDR_ACCOUNT) = { acct s (getF s Reg.ACCT_WIN_ADDR_ACCOUNT) with quota := v % 2 ^ 23 } ∧
        WordsKept (fun a => a = Reg.POOL_STATUS_MIN_SHORT.addr ∨ faultWord 0x60 a) s t) ∧
      (setBounds (getF s Reg.ACCT_WIN_ADDR_ACCOUNT) (v % 2 ^ 23) (acct s (getF s Reg.ACCT_WIN_ADDR_ACCOUNT)).min s ≠ 0 →
        t.pool = s.pool ∧ getF t Reg.ACCT_ERR_VALID = 1 ∧ getF t Reg.ACCT_ERR_ITEM = 0 ∧ getF t Reg.ACCT_ERR_ACCOUNT = getF s Reg.ACCT_WIN_ADDR_ACCOUNT ∧
        getF t Reg.ACCT_ERR_REASON = setBounds (getF s Reg.ACCT_WIN_ADDR_ACCOUNT) (v % 2 ^ 23) (acct s (getF s Reg.ACCT_WIN_ADDR_ACCOUNT)).min s ∧
        Recorded 0x61 0 0 s t ∧ WordsKept (fun a => a = Reg.ACCT_ERR_VALID.addr ∨ noticeWord 0x61 a) s t) ∧
      OnlyTouches [.regs, .evt, .pool] s t)

/-- FLIT_RECEIVED (R402, R410, R418), CTRL_FLIT_RECEIVED (R408, R411), REPLAY_TIMEOUT (R412, R413). -/
def Obligations.FlitsAndReplay : Prop :=
  (∀ (l : Nat) (w : List (BitVec 288)) (s : State),
    lnkActive s = true →
    ((List.range 8).find? (fun l => (getF s Reg.LNK_STATUS_LANES).testBit l) = some l) →
    classify (flitOf (getF s Reg.LNK_STATUS_WIDTH) (l / widthOf (getF s Reg.LNK_STATUS_WIDTH)) s.lnk.slot w) = .bad →
    s.lnk.nak = false →
    Runs (.flitReceived w) s fun t =>
      getF t Reg.LNK_BAD_CNT = satAdd Reg.LNK_BAD_CNT.width (getF s Reg.LNK_BAD_CNT) 1 ∧ getF t Reg.LNK_NAK_CNT = satAdd Reg.LNK_NAK_CNT.width (getF s Reg.LNK_NAK_CNT) 1 ∧
      t.lnk = { (linkTime (288 / widthOf (getF s Reg.LNK_STATUS_WIDTH)) s).lnk with slot := s.lnk.slot + 1, nak := true } ∧ WordsKept (fun a => a = Reg.LNK_BAD_CNT.addr ∨ a = Reg.LNK_NAK_CNT.addr) s t ∧ OnlyTouches [.regs, .lnk] s t) ∧
  (∀ (l c : Nat) (b : Word256) (w : List (BitVec 288)) (s : State),
    lnkActive s = true →
    ((List.range 8).find? (fun l => (getF s Reg.LNK_STATUS_LANES).testBit l) = some l) →
    classify (flitOf (getF s Reg.LNK_STATUS_WIDTH) (l / widthOf (getF s Reg.LNK_STATUS_WIDTH)) s.lnk.slot w) = .good c b false →
    c % 4 = 1 →
    c / 8 = s.lnk.rxSeq % 32 →
    s.lnk.rxPkt = [] →
    (1 ≤ pktLEN b ∧ pktLEN b ≤ 64) →
    exec (.flitReceived w) s = .next (setLnk { (linkTime (288 / widthOf (getF s Reg.LNK_STATUS_WIDTH)) s).lnk with slot := s.lnk.slot + 1, rxSeq := (s.lnk.rxSeq + 1) % 4096, nak := false, flushing := false, rxPkt := [b] } s)) ∧
  (∀ (l c : Nat) (b : Word256) (w : List (BitVec 288)) (s : State),
    lnkActive s = true →
    ((List.range 8).find? (fun l => (getF s Reg.LNK_STATUS_LANES).testBit l) = some l) →
    classify (flitOf (getF s Reg.LNK_STATUS_WIDTH) (l / widthOf (getF s Reg.LNK_STATUS_WIDTH)) s.lnk.slot w) = .good c b false →
    (c % 4 = 1 ∨ c % 4 = 2) →
    c / 8 ≠ s.lnk.rxSeq % 32 →
    s.lnk.nak = false →
    Runs (.flitReceived w) s fun t =>
      getF t Reg.LNK_NAK_CNT = satAdd Reg.LNK_NAK_CNT.width (getF s Reg.LNK_NAK_CNT) 1 ∧ t.lnk = { (linkTime (288 / widthOf (getF s Reg.LNK_STATUS_WIDTH)) s).lnk with slot := s.lnk.slot + 1, nak := true } ∧
      WordsKept (· = Reg.LNK_NAK_CNT.addr) s t ∧ OnlyTouches [.regs, .lnk] s t) ∧
  (∀ (w : List (BitVec 288)) (s : State),
    lnkActive s = false →
    exec (.flitReceived w) s = .next s) ∧
  (∀ (b : Word256) (recent : Bool) (p : HeldPkt) (rest : List HeldPkt) (s : State),
    (ctlKIND b = 0 ∧ ctlNAK b = false) →
    lnkActive s = true →
    s.lnk.held = p :: rest →
    (s.lnk.resend = [] ∧ s.lnk.outbox = []) →
    ctlACK b = (p.seq + p.words.length) % 4096 →
    (0 < p.words.length ∧ heldFlits s < 4096) →
    (∀ i < rest.length, 0 < (rest.getD i p).words.length ∧ (rest.getD i p).seq = (p.seq + p.words.length + ((rest.take i).map (fun x => x.words.length)).foldl (· + ·) 0) % 4096) →
    p.seq < 4096 →
    Runs (.ctrlFlitReceived b recent) s fun t => t.lnk.held = rest ∧ t.lnk.ackSeq = ctlACK b ∧ WordsKept (fun _ => False) s t ∧ OnlyTouches [.lnk] s t) ∧
  (∀ (b : Word256) (recent : Bool) (s : State),
    ctlKIND b = 2 →
    lnkActive s = true →
    Runs (.ctrlFlitReceived b recent) s fun t =>
      lnkState t = 6 ∧ getF t Reg.LNK_RECOVER_CNT = satAdd Reg.LNK_RECOVER_CNT.width (getF s Reg.LNK_RECOVER_CNT) 1 ∧ getF t (evtBit 0x68 1) = 1 ∧ Recorded 0x68 0 0 s t ∧
      t.lnk.lanes = [] ∧ t.lnk.held = s.lnk.held ∧
      WordsKept (fun a => a = Reg.LNK_STATUS_STATE.addr ∨ a = Reg.LNK_RECOVER_CNT.addr ∨ noticeWord 0x68 a ∨ faultWord 0x68 a) s t ∧ OnlyTouches [.regs, .evt, .lnk] s t) ∧
  (∀ (b : Word256) (recent : Bool) (s : State),
    ctlKIND b = 3 →
    (lnkActive s = true ∨ lnkState s = 6) →
    s.lnk.wasUp = true →
    Runs (.ctrlFlitReceived b recent) s fun t =>
      lnkState t = 0 ∧ t.lnk.prevAck = some s.lnk.rxSeq ∧ t.lnk.lanes = [] ∧ t.lnk.held = s.lnk.held ∧ Recorded 0x68 0 0 s t ∧
      WordsKept (fun a => a = Reg.LNK_STATUS_STATE.addr ∨ noticeWord 0x68 a) s t ∧ OnlyTouches [.regs, .evt, .lnk] s t) ∧
  (∀ (s : State),
    lnkActive s = true →
    0 < heldFlits s →
    s.lnk.replays < 15 →
    Runs .replayTimeout s fun t =>
      t.lnk = { s.lnk with replays := s.lnk.replays + 1 } ∧ getF t Reg.LNK_REPLAY_CNT = satAdd Reg.LNK_REPLAY_CNT.width (getF s Reg.LNK_REPLAY_CNT) 1 ∧
      WordsKept (· = Reg.LNK_REPLAY_CNT.addr) s t ∧ OnlyTouches [.regs, .lnk] s t) ∧
  (∀ (s : State),
    lnkActive s = true →
    0 < heldFlits s →
    15 ≤ s.lnk.replays →
    Runs .replayTimeout s fun t =>
      lnkState t = 6 ∧ getF t Reg.LNK_REPLAY_CNT = satAdd Reg.LNK_REPLAY_CNT.width (getF s Reg.LNK_REPLAY_CNT) 1 ∧
      getF t Reg.LNK_RECOVER_CNT = satAdd Reg.LNK_RECOVER_CNT.width (getF s Reg.LNK_RECOVER_CNT) 1 ∧ t.lnk.held = s.lnk.held ∧ OnlyTouches [.regs, .evt, .lnk] s t)

/-- MARKER_RECEIVED (R405, R406, R416), EPBX_LINK_TIMEOUT and LNK_LOCK_ELAPSED (R414), LNK_RETRAIN and LNK_RESET (R416, R417). -/
def Obligations.LinkTrainingStates : Prop :=
  (∀ (l m : Nat) (b : BitVec 72) (k : Nat) (s : State),
    l < 8 →
    lnkState s = 2 →
    markerOk b = true →
    slice b.toNat 21 3 = l →
    laneDis s l = false →
    (lane s l).valid = 7 →
    (m < 8 ∧ m ≠ l ∧ laneDis s m = false ∧ (lane s m).locked = false) →
    Runs (.markerReceived l (some b) k) s fun t =>
      lane t l = { lane s l with valid := 8, locked := true, inv := false, id := l, missed := 0 } ∧ getB t Reg.LNK_STATUS_REVERSED = false ∧
      (getF t Reg.LNK_POL).testBit l = false ∧ lnkState t = 2 ∧
      WordsKept (fun a => a = Reg.LNK_STATUS_REVERSED.addr ∨ a = Reg.LNK_POL.addr) s t ∧ OnlyTouches [.regs, .lnk] s t) ∧
  (∀ (l k : Nat) (s : State),
    l < 8 →
    lnkActive s = true →
    (getF s Reg.LNK_STATUS_LANES).testBit l = true →
    1 ≤ (lane s l).missed →
    Runs (.markerReceived l none k) s fun t =>
      lnkState t = 6 ∧ getF t Reg.LNK_RECOVER_CNT = satAdd Reg.LNK_RECOVER_CNT.width (getF s Reg.LNK_RECOVER_CNT) 1 ∧ getF t (evtBit 0x68 1) = 1 ∧
      WordsKept (fun a => a = Reg.LNK_STATUS_STATE.addr ∨ a = Reg.LNK_RECOVER_CNT.addr ∨ noticeWord 0x68 a ∨ faultWord 0x68 a) s t ∧ OnlyTouches [.regs, .evt, .lnk] s t) ∧
  (∀ (l k : Nat) (s : State),
    l < 8 →
    lnkActive s = true →
    (getF s Reg.LNK_STATUS_LANES).testBit l = true →
    (lane s l).missed = 0 →
    Runs (.markerReceived l none k) s fun t => (lane t l).missed = 1 ∧ lnkActive t = true ∧ t.lnk.slot = 0 ∧ WordsKept (fun _ => False) s t ∧ OnlyTouches [.lnk] s t) ∧
  (∀ (s : State),
    lnkState s = 0 →
    Runs .epbxLinkTimeout s fun t =>
      lnkState t = 1 ∧ getF t Reg.LNK_STATUS_HALF = getF s Reg.LNK_CTRL_HALF_ONLY ∧ Recorded 0x68 0 0 s t ∧
      WordsKept (fun a => a = Reg.LNK_STATUS_STATE.addr ∨ noticeWord 0x68 a) s t ∧ OnlyTouches [.regs, .evt] s t) ∧
  (∀ (s : State),
    (lnkState s = 2 ∨ lnkState s = 3 ∨ lnkState s = 4) →
    Runs .epbxLinkTimeout s fun t =>
      lnkState t = 0 ∧ getF t Reg.LNK_TRAIN_ERR_VALID = 1 ∧ getF t Reg.LNK_TRAIN_ERR_STATE = lnkState s ∧ t.lnk.lanes = [] ∧ Recorded 0x68 4 0x2C04 s t ∧
      WordsKept (fun a => a = Reg.LNK_STATUS_STATE.addr ∨ a = Reg.LNK_TRAIN_ERR_VALID.addr ∨ noticeWord 0x68 a ∨ faultWord 0x68 a) s t ∧ OnlyTouches [.regs, .evt, .lnk] s t) ∧
  (∀ (s : State),
    lnkState s = 2 →
    ((List.range 8).any (fun l => (lane s l).locked) = true) →
    Runs .lnkLockElapsed s fun t => lnkState t = 3 ∧ t.lnk = s.lnk ∧ WordsKept (fun a => a = Reg.LNK_STATUS_STATE.addr ∨ noticeWord 0x68 a) s t ∧ OnlyTouches [.regs, .evt] s t) ∧
  (∀ (s : State),
    ((List.range 8).any (fun l => (lane s l).locked) = false) →
    exec .lnkLockElapsed s = .next s) ∧
  (∀ (s : State),
    getB s (hdrLOCK 0x68) = false →
    lnkActive s = true →
    Runs .lnkRetrain s fun t => lnkState t = 6 ∧ t.lnk.held = s.lnk.held ∧ t.lnk.lanes = [] ∧
      WordsKept (fun a => a = Reg.LNK_STATUS_STATE.addr ∨ a = Reg.LNK_RECOVER_CNT.addr ∨ noticeWord 0x68 a ∨ faultWord 0x68 a) s t ∧ OnlyTouches [.regs, .evt, .lnk] s t) ∧
  (∀ (s : State),
    getB s (hdrLOCK 0x68) = false →
    (lnkActive s = true ∨ lnkState s = 6) →
    Runs .lnkReset s fun t => lnkState t = 0 ∧ t.lnk.held = s.lnk.held ∧ t.lnk.outbox = [] ∧
      WordsKept (fun a => a = Reg.LNK_STATUS_STATE.addr ∨ noticeWord 0x68 a) s t ∧ OnlyTouches [.regs, .evt, .lnk] s t)

/-- CMD (R420), DATA_OUT (R426), MINUTE (R420, R457), TOKEN (R424), REG_RD and REG_WR (R429, R430), and the checks of R422 and R469. -/
def Obligations.PacketsFromTheHost : Prop :=
  (∀ (h : Word256) (body : List Word256) (s : State),
    packetGood 0x03 h body s = true →
    pktQUEUE h = 0 →
    Runs (.cmd h body) s fun t =>
      t.que.stream.map (fun e => e.body) = s.que.stream.map (fun e => e.body) ++ (List.range (pktLEN h / 2)).map (fun i => .cmd (bytesAt (body.flatMap bodyBytes) (64 * i) 64)) ∧
      t.que.cmdSeq = s.que.cmdSeq + pktLEN h / 2 ∧ outstanding t 0 0 = outstanding s 0 0 - pktLEN h / 2 ∧
      WordsKept (· = Reg.CMD_CNT.addr) s t ∧ OnlyTouches [.regs, .que, .mtr, .lnk] s t) ∧
  (∀ (h : Word256) (body : List Word256) (s : State),
    packetGood 0x03 h body s = true →
    pktQUEUE h ≠ 0 →
    Runs (.cmd h body) s fun t =>
      (side t (pktQUEUE h)).queue.map (fun e => e.body) = (side s (pktQUEUE h)).queue.map (fun e => e.body) ++ (List.range (pktLEN h / 2)).map (fun i => .cmd (bytesAt (body.flatMap bodyBytes) (64 * i) 64)) ∧
      (side t (pktQUEUE h)).exec = (side s (pktQUEUE h)).exec ∧ outstanding t 0 (pktQUEUE h) = outstanding s 0 (pktQUEUE h) - pktLEN h / 2 ∧
      t.que.stream = s.que.stream ∧ WordsKept (· = Reg.CMD_CNT.addr) s t ∧ OnlyTouches [.regs, .que, .lnk] s t) ∧
  (∀ (h : Word256) (body : List Word256) (x : ExecSt) (s : State),
    packetGood 0x04 h body s = true →
    pktQUEUE h = 0 →
    s.que.exec = some x →
    doTarget s 0 = some x.entry →
    x.entry.data.length < dataOutLen 0 x.entry →
    dataOutOk 0 h x.entry = true →
    Runs (.dataOut h body) s fun t =>
      t.que.exec = some { x with entry := { x.entry with data := x.entry.data ++ dataOutBytes h body } } ∧ t.que.stream = s.que.stream ∧
      WordsKept (fun _ => False) s t ∧ OnlyTouches [.que, .lnk] s t) ∧
  (∀ (h : Word256) (body : List Word256) (s : State),
    packetGood 0x04 h body s = true →
    doTarget s (pktQUEUE h) = none →
    Runs (.dataOut h body) s fun t =>
      getF t Reg.PROTO_ERR_VALID = 1 ∧ getF t Reg.PROTO_ERR_CODE = 6 ∧ getF t Reg.PROTO_ERR_PTYPE = 4 ∧ getF t Reg.PROTO_CNT = satAdd Reg.PROTO_CNT.width (getF s Reg.PROTO_CNT) 1 ∧
      Recorded 0x68 3 0x0C06 s t ∧ WordsKept (fun a => a = Reg.PROTO_ERR_VALID.addr ∨ a = Reg.PROTO_CNT.addr ∨ faultWord 0x68 a) s t ∧ OnlyTouches [.regs, .evt, .lnk] s t) ∧
  (∀ (h : Word256) (b : Bracket) (rest : List Bracket) (s : State),
    packetGood 0x09 h [] s = true →
    s.mtr.brackets = rest ++ [b] →
    Runs (.minute h []) s fun t =>
      t.mtr = { s.mtr with brackets := rest ++ [{ b with closed := true }, { idx := s.mtr.nextIdx, name := hdField h 0x08 8 }], nextIdx := s.mtr.nextIdx + 1 } ∧
      t.que.stream = s.que.stream ++ [{ body := .minute (hdField h 0x08 8), bracket := s.mtr.nextIdx, seq := s.que.cmdSeq }] ∧
      WordsKept (fun _ => False) s t ∧ OnlyTouches [.que, .mtr, .lnk] s t) ∧
  (∀ (h : Word256) (n : Nat) (s : State),
    packetGood 0x08 h [] s = true →
    grantEntry h 0 = (n, 0, 1, 0) →
    (∀ i < 6, i ≠ 0 → (grantEntry h i).1 = 0) →
    (s.lnk.resend = [] ∧ s.lnk.outbox = []) →
    (s.lnk.held0 ≤ 65535 ∧ s.lnk.heldM0 ≤ 65535 ∧ s.lnk.heldM1 ≤ 65535) →
    Runs (.token h []) s fun t =>
      t.lnk.held0 = min 65535 (s.lnk.held0 + n) ∧ t.lnk.heldM0 = s.lnk.heldM0 ∧ t.lnk.heldM1 = s.lnk.heldM1 ∧ WordsKept (fun _ => False) s t ∧ OnlyTouches [.lnk] s t) ∧
  (∀ (h : Word256) (s : State),
    packetGood 0x02 h [] s = true →
    (pktCOUNT h = 1 ∧ pktADDR h % 4 = 0) →
    pktACKREQ h = false →
    Runs (.registerWrite (pktADDR h) (hdField h 0x0C 4)) (takeTokens 2 0 1 s) fun u => exec (.regWr h []) s = .next (linkDue (giveBack 2 0 1 u))) ∧
  (∀ (h : Word256) (s : State),
    packetGood 0x01 h [] s = true →
    (pktCOUNT h = 1 ∧ pktADDR h % 4 = 0) →
    linkQuiet s = true →
    (s.lnk.resend = [] ∧ s.lnk.outbox = []) →
    lnkActive s = true →
    heldFlits s < 4095 →
    Runs (.regRd h []) s fun t =>
      t.lnk.held = s.lnk.held ++ [{ seq := s.lnk.txSeq, cls := 0, words := regResponse h [(hostRead (pktADDR h) (takeTokens 2 0 1 s)).1] }] ∧
      OnlyTouches [.regs, .evt, .latch, .lnk, .freeCount] s t) ∧
  (∀ (h : Word256) (s : State),
    pktPTYPE h = 0x09 →
    pktLEN h = 0 →
    reservedBad h = true →
    Runs (.minute h []) s fun t =>
      getF t Reg.PROTO_ERR_VALID = 1 ∧ getF t Reg.PROTO_ERR_CODE = 5 ∧ getF t Reg.PROTO_ERR_PTYPE = 9 ∧ Recorded 0x68 3 0x0C06 s t ∧
      WordsKept (fun a => a = Reg.PROTO_ERR_VALID.addr ∨ a = Reg.PROTO_CNT.addr ∨ faultWord 0x68 a) s t ∧ OnlyTouches [.regs, .evt] s t)

/-- COMPL_SEND, RETRACT_SEND, DATA_IN_SEND, EVENT_SEND (R419, R425, R428, R334), TOKEN_RETURN (R424), QUE_EN (R469, R600). -/
def Obligations.PacketsToTheHost : Prop :=
  (∀ (q tag st_ r n b d : Nat) (rest : List OutPkt) (s : State),
    s.que.out = .compl q tag st_ r n b d :: rest →
    mayStart s 2 (complPacket q tag st_ r n b d) = true →
    nothingRuns s = true →
    Runs .complSend s fun t =>
      t.que = { s.que with out := rest } ∧ t.lnk.held = s.lnk.held ++ [{ seq := s.lnk.txSeq, cls := 2, words := complPacket q tag st_ r n b d }] ∧
      t.lnk.txSeq = (s.lnk.txSeq + 1) % 4096 ∧ t.lnk.heldM0 = s.lnk.heldM0 - 1 ∧ WordsKept (fun _ => False) s t ∧ OnlyTouches [.que, .lnk] s t) ∧
  (∀ (q tag f l r : Nat) (rest : List OutPkt) (s : State),
    s.que.out = .retract q tag f l r :: rest →
    mayStart s 2 (retractPacket q tag f l r) = true →
    nothingRuns s = true →
    Runs .retractSend s fun t =>
      t.que = { s.que with out := rest } ∧ t.lnk.held = s.lnk.held ++ [{ seq := s.lnk.txSeq, cls := 2, words := retractPacket q tag f l r }] ∧
      t.lnk.heldM0 = s.lnk.heldM0 - 1 ∧ getF t Reg.RETRACT_CNT = satAdd Reg.RETRACT_CNT.width (getF s Reg.RETRACT_CNT) 1 ∧
      WordsKept (· = Reg.RETRACT_CNT.addr) s t ∧ OnlyTouches [.regs, .que, .lnk] s t) ∧
  (∀ (p : OutPkt) (rest : List OutPkt) (s : State),
    s.que.out = p :: rest →
    (isRetract p = true → exec .complSend s = .next s) ∧ (isRetract p = false → exec .retractSend s = .next s)) ∧
  (∀ (p : DinPkt) (rest : List DinPkt) (s : State),
    s.que.din = p :: rest →
    mayStart s 1 (dinPacket p) = true →
    p.poison = false →
    nothingRuns s = true →
    Runs (.dataInSend none) s fun t =>
      t.que = { s.que with din := rest } ∧ t.lnk.held = s.lnk.held ++ [{ seq := s.lnk.txSeq, cls := 1, words := dinPacket p }] ∧ t.lnk.held0 = s.lnk.held0 - 1 ∧
      WordsKept (fun _ => False) s t ∧ OnlyTouches [.que, .lnk] s t) ∧
  (∀ (e : EventPkt) (rest : List EventPkt) (s : State),
    s.evt.fifo = e :: rest →
    mayStart s 3 (eventPacket e) = true →
    Runs .eventSend s fun t =>
      t.evt = { s.evt with fifo := rest } ∧ t.lnk.held = s.lnk.held ++ [{ seq := s.lnk.txSeq, cls := 3, words := eventPacket e }] ∧ t.lnk.heldM1 = s.lnk.heldM1 - 1 ∧
      WordsKept (fun _ => False) s t ∧ OnlyTouches [.evt, .lnk] s t) ∧
  (∀ (s : State),
    (s.lnk.heldM0 = 0 ∧ s.lnk.heldM1 = 0 ∧ s.lnk.held0 = 0) →
    exec .complSend s = .next s ∧ exec .retractSend s = .next s ∧ exec .eventSend s = .next s ∧ exec (.dataInSend none) s = .next s) ∧
  (∀ (k n : Nat) (s : State),
    s.lnk.toReturn = [(k, n)] →
    (0 < n ∧ n < 2 ^ 16) →
    lnkActive s = true →
    (s.lnk.resend = [] ∧ s.lnk.outbox = []) →
    heldFlits s < 4095 →
    Runs .tokenReturn s fun t =>
      Tbl.get 0 t.lnk.granted k = Tbl.get 0 s.lnk.granted k + n ∧ Tbl.get 0 t.lnk.toReturn k = 0 ∧
      t.lnk.held = s.lnk.held ++ [{ seq := s.lnk.txSeq, cls := 0, words := tokenPacket [(k, n)] }] ∧ WordsKept (fun _ => False) s t ∧ OnlyTouches [.lnk] s t) ∧
  (∀ (s : State),
    getB s (hdrLOCK 0x69) = false →
    cmdRuns s = true →
    s.lnk.queGrant = false →
    lnkActive s = true →
    Runs .queEn s fun t =>
      getB t Reg.QUE_CTRL = true ∧ t.lnk.queGrant = true ∧ Tbl.get 0 t.lnk.toReturn 64 = Tbl.get 0 s.lnk.toReturn 64 + 512 ∧
      (∀ q < 64, Tbl.get 0 t.lnk.toReturn q = Tbl.get 0 s.lnk.toReturn q + (tokDepth 0 q - queueHeld s q)) ∧ WordsKept (· = Reg.QUE_CTRL.addr) s t ∧ OnlyTouches [.regs, .lnk] s t)

/-- The stream and side rows when the head of their queue is refused (R440, R444, R445). -/
def Obligations.CommandChecks : Prop :=
  (∀ (c : Instr) (op : Nat) (d : List Byte) (e : QEntry) (rest : List QEntry) (s : State),
    streamOp c = some op →
    streamFree s = true →
    s.que.stream = e :: rest →
    (e.body = .cmd d ∧ dOpcode d = op) →
    (streamCheck e s).1 ≠ stOK →
    (s.que.out.length < 1024 ∧ dinWaiting 0 (dTag d) s = false ∧ s.que.loss = none) →
    (op = opCLOSE_TENANT → (tenant s (dTenant d)).state ≠ 2) →
    Runs c s fun t =>
      t.que.exec = none ∧ t.que.stream = rest ∧ Completes 0 (dTag d) (streamCheck e s).1 (streamCheck e s).2.1 t ∧
      t.lnk = (giveBack 0 0 1 s).lnk ∧ WordsKept (fun a => a = Reg.REJECT_CNT.addr ∨ faultWord 0x69 a) s t ∧ OnlyTouches [.regs, .evt, .que, .mtr, .lnk] s t) ∧
  (∀ (e : QEntry) (s : State),
    staticCheck 0 e ≠ stOK →
    streamCheck e s = (staticCheck 0 e, statusDetail s (staticCheck 0 e), s)) ∧
  (∀ (e : QEntry) (s : State),
    staticCheck 0 e = stOK →
    (needsCartridge (dOpcode e.desc) = true → s.vol.loaded = true) →
    isSealed s = false →
    streamCheck e s = (stNOT_SEALED, 0, s)) ∧
  (∀ (e : QEntry) (s : State),
    staticCheck 0 e = stOK →
    (needsCartridge (dOpcode e.desc) = true → s.vol.loaded = true) →
    isSealed s = true →
    (touchesMedium (dOpcode e.desc) = true ∧ safeInForce s = true) →
    streamCheck e s = (stSAFE_STATE, getF s Reg.SAFE_CAUSE_CODE, s)) ∧
  (∀ (e : QEntry) (h : Nat) (s : State),
    staticCheck 0 e = stOK →
    (needsCartridge (dOpcode e.desc) = true → s.vol.loaded = true) →
    isSealed s = true →
    (touchesMedium (dOpcode e.desc) = true ∧ safeInForce s = false) →
    (s.que.halt = some h ∧ (dFlags e.desc).testBit 7 = false) →
    streamCheck e s = (h, s.que.haltDet, s)) ∧
  (∀ (e : QEntry) (s : State),
    staticCheck 0 e = stOK →
    (needsCartridge (dOpcode e.desc) = true → s.vol.loaded = true) →
    (isSealed s = true ∧ safeInForce s = false ∧ s.que.halt = none) →
    (usesTenant (dOpcode e.desc) = true ∧ (tenant s (dTenant e.desc)).state ≠ 1) →
    streamCheck e s = (stTENANT_NOT_OPEN, 0, s)) ∧
  (∀ (e : QEntry) (s : State),
    staticCheck 0 e = stOK →
    (needsCartridge (dOpcode e.desc) = true → s.vol.loaded = true) →
    (isSealed s = true ∧ safeInForce s = false ∧ s.que.halt = none) →
    (usesTenant (dOpcode e.desc) = false ∧ getF s Reg.SPD_CTRL_SRC = 0) →
    (s.vol.blank = true ∧ touchesMedium (dOpcode e.desc) = true ∧ [opLOAD, opUNLOAD, opFORMAT].contains (dOpcode e.desc) = false) →
    streamCheck e s = (stBLANK, 0, s)) ∧
  (∀ (c : Instr) (op q : Nat) (d : List Byte) (e : QEntry) (rest : List QEntry) (s : State),
    sideOp c = some (op, q) →
    (1 ≤ q ∧ q < 64) →
    (cmdRuns s = true ∧ (side s q).exec = none) →
    (side s q).queue = e :: rest →
    (e.body = .cmd d ∧ dOpcode d = op) →
    sideCheck q e s ≠ stOK →
    (s.que.out.length < 1024 ∧ dinWaiting q (dTag d) s = false) →
    Runs c s fun t =>
      side t q = { queue := rest, exec := none } ∧ Completes q (dTag d) (sideCheck q e s) (statusDetail s (sideCheck q e s)) t ∧
      t.lnk = (giveBack 0 q 1 s).lnk ∧ WordsKept (fun a => a = Reg.REJECT_CNT.addr ∨ faultWord 0x69 a) s t ∧ OnlyTouches [.regs, .evt, .que, .lnk] s t) ∧
  (∀ (q : Nat) (e : QEntry) (s : State),
    staticCheck q e = stOK →
    [opREG_IMAGE, opATTEST, opSAFE_CLEAR].contains (dOpcode e.desc) = false →
    isSealed s = false →
    sideCheck q e s = stNOT_SEALED)

/-- WRITE, FILEMARK and FLUSH once they execute (R288, R440, R450). -/
def Obligations.StreamWriting : Prop :=
  (∀ (x : ExecSt) (s : State),
    (runsOp opWRITE x s = true ∧ mayFinish x s = true ∧ s.que.loss = none ∧ x.recovered = false) →
    (wREC_COUNT x.entry.desc = 1 ∧ wREC_LEN x.entry.desc < granMax) →
    dDataLen x.entry.desc ≤ x.entry.data.length →
    writeRefusal s = none →
    (s.vol.atEod = true ∧ s.vol.wrote = true ∧ s.vol.dirtyDue = false ∧ s.fmt.group.isSome = true) →
    readSet s s.vol.eodDsn = none →
    s.fmt.openGran = none →
    Runs .write s fun t =>
      t.fmt = { s.fmt with closedUp := false, openGran := some { (wrCtx s x.entry).gran (s.vol.nonce.getD 0) with
        records := 1, first := s.vol.posRecord, pieces := [(bytesAt x.entry.data 0 (wREC_LEN x.entry.desc)).length], plain := bytesAt x.entry.data 0 (wREC_LEN x.entry.desc),
        shares := [(x.entry.bracket, (bytesAt x.entry.data 0 (wREC_LEN x.entry.desc)).length)], bracket := x.entry.bracket } } ∧
      t.vol = { s.vol with posRecord := s.vol.posRecord + 1, issued := true } ∧ t.que.exec = none ∧ Completes 0 (dTag x.entry.desc) stOK 0 t ∧
      t.rch = (freshReads false x s).rch ∧ WordsKept (fun _ => False) s t ∧ OnlyTouches [.que, .mtr, .vol, .fmt, .rch] s t) ∧
  (∀ (x : ExecSt) (g : Gran) (s : State),
    (runsOp opWRITE x s = true ∧ mayFinish x s = true ∧ s.que.loss = none ∧ x.recovered = false) →
    (wREC_COUNT x.entry.desc = 1 ∧ 0 < wREC_LEN x.entry.desc) →
    (dDataLen x.entry.desc ≤ x.entry.data.length ∧ dDataLen x.entry.desc = wREC_LEN x.entry.desc) →
    writeRefusal s = none →
    (s.vol.atEod = true ∧ s.vol.wrote = true ∧ s.vol.dirtyDue = false ∧ s.fmt.group.isSome = true) →
    readSet s s.vol.eodDsn = none →
    s.fmt.openGran = some g →
    (wrCtx s x.entry).fits g = true →
    (g.plain.length + wREC_LEN x.entry.desc < granMax ∧ g.records < 65534 ∧ g.plain ≠ []) →
    Runs .write s fun t =>
      t.fmt = { s.fmt with closedUp := false, openGran := some { g with
        endsMid := false, records := g.records + 1, pieces := g.pieces ++ [wREC_LEN x.entry.desc], plain := g.plain ++ bytesAt x.entry.data 0 (wREC_LEN x.entry.desc),
        shares := Tbl.set g.shares x.entry.bracket (Tbl.get 0 g.shares x.entry.bracket + wREC_LEN x.entry.desc), bracket := x.entry.bracket,
        first := if g.pieces.isEmpty then s.vol.posRecord else g.first } } ∧
      t.vol = { s.vol with posRecord := s.vol.posRecord + 1, issued := true } ∧ t.que.exec = none ∧ Completes 0 (dTag x.entry.desc) stOK 0 t ∧
      t.rch = (freshReads false x s).rch ∧ WordsKept (fun _ => False) s t ∧ OnlyTouches [.que, .mtr, .vol, .fmt, .rch] s t) ∧
  (∀ (x : ExecSt) (s : State),
    (runsOp opWRITE x s = true ∧ mayFinish x s = true ∧ s.que.loss = none ∧ x.recovered = false) →
    wREC_COUNT x.entry.desc = 0 →
    writeRefusal s = none →
    Runs .write s fun t => t.que.exec = none ∧ Completes 0 (dTag x.entry.desc) stOK 0 t ∧ WordsKept (fun _ => False) s t ∧ OnlyTouches [.que, .mtr] s t) ∧
  (∀ (c : Instr) (op st : Nat) (x : ExecSt) (s : State),
    ((c = .write ∧ op = opWRITE) ∨ (c = .filemark ∧ op = opFILEMARK)) →
    (runsOp op x s = true ∧ mayFinish x s = true ∧ s.que.loss = none) →
    (x.phase = .data ∧ x.step = 0) →
    writeRefusal s = some st →
    Runs c s fun t => t.que.exec = none ∧ Completes 0 (dTag x.entry.desc) st (statusDetail s st) t ∧ OnlyTouches [.regs, .evt, .que, .mtr] s t) ∧
  (∀ (x : ExecSt) (s : State),
    (runsOp opFILEMARK x s = true ∧ mayFinish x s = true ∧ s.que.loss = none ∧ x.recovered = false) →
    dField x.entry.desc 0x10 2 = 1 →
    writeRefusal s = none →
    (s.vol.atEod = true ∧ s.vol.wrote = true ∧ s.vol.dirtyDue = false ∧ s.fmt.group.isSome = true) →
    readSet s s.vol.eodDsn = none →
    Runs .filemark s fun t =>
      t.fmt = { s.fmt with closedUp := false, grans := s.fmt.grans ++ [{ gsn := s.vol.nextGsn, filemark := true, tenant := dTenant x.entry.desc, session := (tenant s (dTenant x.entry.desc)).session, tenantTag := (tenant s (dTenant x.entry.desc)).tag, nonce := s.vol.nonce.getD 0, first := s.vol.posRecord, bracket := x.entry.bracket, stage := .sealed }] } ∧
      t.vol = { s.vol with nextGsn := s.vol.nextGsn + 1, posFm := s.vol.posFm + 1, issued := true } ∧ t.que.exec = none ∧
      Completes 0 (dTag x.entry.desc) stOK 0 t ∧ t.rch = (freshReads false x s).rch ∧ WordsKept (fun _ => False) s t ∧ OnlyTouches [.que, .mtr, .vol, .fmt, .rch] s t) ∧
  (∀ (x : ExecSt) (s : State),
    (runsOp opFLUSH x s = true ∧ mayFinish x s = true ∧ s.que.loss = none ∧ x.recovered = false) →
    x.phase = .settling →
    settledAll s = true →
    Runs .flush s fun t => t.que.exec = none ∧ Completes 0 (dTag x.entry.desc) stOK 0 t ∧ WordsKept (fun _ => False) s t ∧ OnlyTouches [.que, .mtr] s t) ∧
  (∀ (x : ExecSt) (s : State),
    runsOp opFLUSH x s = true →
    x.phase = .settling →
    settledAll s = false →
    exec .flush s = .next s)

/-- READ and LOCATE once everything accepted is on tape (R451, R452). -/
def Obligations.StreamReading : Prop :=
  (∀ (tags : List Nat) (x : ExecSt) (s : State),
    (runsOp opREAD x s = true ∧ mayFinish x s = true ∧ s.que.loss = none) →
    (x.phase = .work ∧ x.rd = none ∧ x.cursor = none ∧ x.count = 0) →
    readFull x 0 = false →
    (s.vol.atEod = true ∧ s.vol.eodKnown = true) →
    Runs (.read tags) s fun t => t.que.exec = none ∧ Completes 0 (dTag x.entry.desc) stEND_OF_DATA 0 t ∧ WordsKept (fun _ => False) s t ∧ OnlyTouches [.que, .mtr] s t) ∧
  (∀ (tags : List Nat) (n off len m o : Nat) (head b plain : List Byte) (dsns : List Nat) (x : ExecSt) (s : State),
    runsOp opREAD x s = true →
    (x.phase = .work ∧ x.rd = none ∧ x.cursor = some (n, off) ∧ x.count = 0 ∧ x.sent = 0 ∧ x.part = [] ∧ x.lostGrans = [] ∧ x.retract = none ∧ x.bytes = 0) →
    (dField x.entry.desc 0x10 4 = 1 ∧ (dFlags x.entry.desc).testBit 0 = false ∧ len ≤ dDataLen x.entry.desc) →
    headerAt s (walkFuel s) n off = .at_ n off head →
    headerOk head = true →
    getBytes s (walkFuel s) n off (granSpan (granHdr head)) = .bytes b m o dsns →
    (granHdr head).tenantTag = (tenant s (dTenant x.entry.desc)).tag →
    ((granHdr head).enc = false ∧ (granHdr head).filemark = false ∧ (granHdr head).startsMid = false ∧ (granHdr head).endsMid = false) →
    fieldsOk (granHdr head) (bytesAt b 64 (granHdr head).rmapLen) = true →
    rmapPieces (bytesAt b 64 (granHdr head).rmapLen) = [len] →
    Pgc.decompress (granHdr head).plainLen (bytesAt b (64 + (granHdr head).rmapLen) (granHdr head).bodyLen) = (0, plain) →
    (plain.length = len ∧ 0 < len) →
    s.vol.posRecord = (granHdr head).first →
    Runs (.read tags) s fun t =>
      t.que.din = s.que.din ++ dinPackets 0 (dTag x.entry.desc) 0 0 (granHdr head).first (granHdr head).gsn plain true ∧
      t.vol = { s.vol with posRecord := (granHdr head).first + 1 } ∧ t.que.exec.map (fun y => (y.phase, y.status, y.count, y.bytes)) = some (.sending, stOK, 1, len) ∧
      getF t Reg.DEC_GRAN_CNT = satAdd Reg.DEC_GRAN_CNT.width (getF s Reg.DEC_GRAN_CNT) 1 ∧ WordsKept (· = Reg.DEC_GRAN_CNT.addr) s t ∧
      OnlyTouches [.regs, .que, .vol] s t) ∧
  (∀ (tags : List Nat) (n off m o : Nat) (head b : List Byte) (dsns : List Nat) (x : ExecSt) (s : State),
    (runsOp opREAD x s = true ∧ mayFinish x s = true ∧ s.que.loss = none) →
    (x.phase = .work ∧ x.rd = none ∧ x.cursor = some (n, off) ∧ x.count = 0 ∧ readFull x 0 = false) →
    headerAt s (walkFuel s) n off = .at_ n off head →
    headerOk head = true →
    getBytes s (walkFuel s) n off (granSpan (granHdr head)) = .bytes b m o dsns →
    (granHdr head).tenantTag = (tenant s (dTenant x.entry.desc)).tag →
    (granHdr head).filemark = true →
    fieldsOk (granHdr head) (bytesAt b 64 (granHdr head).rmapLen) = true →
    Runs (.read tags) s fun t =>
      t.vol = { s.vol with posFm := s.vol.posFm + 1, atEod := false } ∧ t.que.exec = none ∧ Completes 0 (dTag x.entry.desc) stFILEMARK 0 t ∧
      WordsKept (fun _ => False) s t ∧ OnlyTouches [.que, .mtr, .vol] s t) ∧
  (∀ (tags : List Nat) (n off : Nat) (head : List Byte) (x : ExecSt) (s : State),
    (runsOp opREAD x s = true ∧ mayFinish x s = true ∧ s.que.loss = none) →
    (x.phase = .work ∧ x.rd = none ∧ x.cursor = some (n, off) ∧ x.count = 0 ∧ readFull x 0 = false) →
    headerAt s (walkFuel s) n off = .at_ n off head →
    headerOk head = true →
    (granHdr head).tenantTag ≠ (tenant s (dTenant x.entry.desc)).tag →
    Runs (.read tags) s fun t =>
      t.vol = { s.vol with posRecord := (granHdr head).first, atEod := false } ∧ t.que.exec = none ∧ t.que.din = s.que.din ∧
      Completes 0 (dTag x.entry.desc) stKEY_NOT_OWNED 0 t ∧ WordsKept (fun _ => False) s t ∧ OnlyTouches [.que, .mtr, .vol] s t) ∧
  (∀ (tags : List Nat) (r : Nat) (x : ExecSt) (s : State),
    (runsOp opLOCATE x s = true ∧ mayFinish x s = true ∧ s.que.loss = none ∧ x.recovered = false) →
    x.phase = .work →
    (dField x.entry.desc 0x10 8 = r ∧ (dFlags x.entry.desc).testBit 0 = false) →
    (s.vol.eodKnown = true ∧ s.vol.map.isSome = true ∧ s.vol.records ≤ r) →
    Runs (.locate tags) s fun t =>
      t.vol = { s.vol with posRecord := s.vol.records, posFm := s.vol.filemarks, atEod := true } ∧ t.que.exec = none ∧
      Completes 0 (dTag x.entry.desc) (if s.vol.records < r then stEND_OF_DATA else stOK) 0 t ∧ WordsKept (fun _ => False) s t ∧ OnlyTouches [.que, .mtr, .vol] s t) ∧
  (∀ (tags : List Nat) (r n off fm hdr : Nat) (h : GranHdr) (x : ExecSt) (s : State),
    (runsOp opLOCATE x s = true ∧ mayFinish x s = true ∧ s.que.loss = none ∧ x.recovered = false) →
    x.phase = .work →
    (dField x.entry.desc 0x10 8 = r ∧ (dFlags x.entry.desc).testBit 0 = false) →
    (s.vol.eodKnown = true ∧ r < s.vol.records) →
    seek s r none = .here n off h fm hdr →
    Runs (.locate tags) s fun t =>
      t.vol = { s.vol with posRecord := r, posFm := fm, atEod := false } ∧ t.que.exec = none ∧ Completes 0 (dTag x.entry.desc) stOK 0 t ∧
      WordsKept (fun _ => False) s t ∧ OnlyTouches [.que, .mtr, .vol] s t)

/-- LOAD, THREADING_DONE, UNLOAD, FORMAT, SELECT_MAP and REFRESH once they execute (R116, R277, R280, R448, R449). -/
def Obligations.StreamVolume : Prop :=
  (∀ (present : Bool) (hkTags tags : List Nat) (rows : List HkRow) (cal : LoadCal) (x : ExecSt) (s : State),
    (runsOp opLOAD x s = true ∧ mayFinish x s = true ∧ s.que.loss = none ∧ x.recovered = false) →
    x.phase = .data →
    (s.vol.loaded = true ∧ s.vol.wrote = false) →
    nonceUsed s (dField x.entry.desc 0x10 4) = false →
    Runs (.load present hkTags rows cal tags) s fun t =>
      t.vol = { s.vol with nonce := some (dField x.entry.desc 0x10 4) } ∧ t.que.exec = none ∧
      Completes 0 (dTag x.entry.desc) (if s.vol.blank then stBLANK else stOK) 0 t ∧ WordsKept (fun _ => False) s t ∧ OnlyTouches [.que, .mtr, .vol] s t) ∧
  (∀ (present : Bool) (hkTags tags : List Nat) (rows : List HkRow) (cal : LoadCal) (x : ExecSt) (s : State),
    (runsOp opLOAD x s = true ∧ mayFinish x s = true ∧ s.que.loss = none) →
    x.phase = .data →
    s.vol.loaded = true →
    (s.vol.wrote = true ∨ nonceUsed s (dField x.entry.desc 0x10 4) = true) →
    Runs (.load present hkTags rows cal tags) s fun t =>
      t.que.exec = none ∧ Completes 0 (dTag x.entry.desc) stILLEGAL_COMMAND 0x0C08 t ∧ t.vol = s.vol ∧
      WordsKept (fun a => a = Reg.REJECT_CNT.addr ∨ faultWord 0x69 a) s t ∧ OnlyTouches [.regs, .evt, .que, .mtr] s t) ∧
  (∀ (hkTags tags : List Nat) (rows : List HkRow) (cal : LoadCal) (x : ExecSt) (s : State),
    (runsOp opLOAD x s = true ∧ mayFinish x s = true ∧ s.que.loss = none) →
    (x.phase = .data ∧ dField x.entry.desc 0x10 4 ≠ 0xFFFFFFFF) →
    s.vol.loaded = false →
    Runs (.load false hkTags rows cal tags) s fun t =>
      t.que.exec = none ∧ Completes 0 (dTag x.entry.desc) stMEDIUM_ERROR 0 t ∧ WordsKept (fun _ => False) s t ∧ OnlyTouches [.que, .mtr] s t) ∧
  (∀ (hkTags tags : List Nat) (rows : List HkRow) (cal : LoadCal) (x : ExecSt) (s : State),
    runsOp opLOAD x s = true →
    (x.phase = .data ∧ dField x.entry.desc 0x10 4 ≠ 0xFFFFFFFF) →
    (s.vol.loaded = false ∧ s.pins.cartFaulty = false) →
    exec (.load true hkTags rows cal tags) s = .next (setQue { s.que with exec := some { x with phase := .settling } } s)) ∧
  (∀ (x : ExecSt) (s : State),
    (s.que.exec = some x ∧ dOpcode x.entry.desc = opLOAD) →
    (x.phase = .settling ∧ x.step = 0) →
    exec .threadingDone s = .next (setQue { s.que with exec := some { x with step := 1 } } s)) ∧
  (∀ (cal : LoadCal) (x : ExecSt) (s : State),
    (runsOp opLOAD x s = true ∧ mayFinish x s = true ∧ s.que.loss = none) →
    (x.phase = .settling ∧ x.step = 1 ∧ dField x.entry.desc 0x10 4 ≠ 0xFFFFFFFF) →
    getB s Reg.CAL_CTRL_LOAD_EN = false →
    Runs (.load true [] [] cal []) s fun t =>
      t.vol = { loaded := true, blank := true, nonce := some (dField x.entry.desc 0x10 4), eodKnown := false, atEod := false } ∧ t.fmt = {} ∧
      t.mot = { s.mot with bins := [] } ∧ t.que.exec = none ∧ Completes 0 (dTag x.entry.desc) stBLANK 0 t ∧ getF t Reg.POS_PASS = 0 ∧
      getF t Reg.FMT_STATUS_VM_VALID = 0 ∧ getF t Reg.FMT_STATUS_VM_DIRTY = 0 ∧ getF t Reg.FMT_STATUS_VM_CONFLICT = 0 ∧
      WordsKept (fun a => a = Reg.POS_PASS.addr ∨ a = Reg.FMT_STATUS_VM_VALID.addr) s t ∧ OnlyTouches [.regs, .que, .mtr, .vol, .fmt, .rch, .ten, .mot] s t) ∧
  (∀ (x : ExecSt) (s : State),
    (s.que.exec = some x ∧ dOpcode x.entry.desc = opUNLOAD) →
    (x.phase = .work ∧ x.step = 1 ∧ x.recovered = false) →
    (mayFinish x s = true ∧ s.que.loss = none) →
    (s.vol.loaded = true ∧ s.vol.blank = false) →
    Runs .threadingDone s fun t =>
      t.vol = {} ∧ t.fmt = {} ∧ t.rch.sets = [] ∧ t.que.exec = none ∧ Completes 0 (dTag x.entry.desc) stOK 0 t ∧ getF t Reg.FMT_STATUS_VM_VALID = 0 ∧
      WordsKept (fun a => a ∈ [Reg.FMT_STATUS_VM_VALID.addr, Reg.FMT_EOD_FRAME.addr, Reg.FMT_VM_GEN_HI.addr, Reg.FMT_VM_GEN_LO.addr]) s t ∧
      OnlyTouches [.regs, .que, .mtr, .vol, .fmt, .rch] s t) ∧
  (∀ (x : ExecSt) (s : State),
    (runsOp opUNLOAD x s = true ∧ mayFinish x s = true ∧ s.que.loss = none ∧ x.recovered = false) →
    x.phase = .work →
    s.vol.loaded = false →
    Runs .unload s fun t => t.que.exec = none ∧ Completes 0 (dTag x.entry.desc) stOK 0 t ∧ WordsKept (fun _ => False) s t ∧ OnlyTouches [.que, .mtr] s t) ∧
  (∀ (x : ExecSt) (s : State),
    runsOp opUNLOAD x s = true →
    (x.phase = .work ∧ x.step = 0) →
    (s.vol.loaded = true ∧ s.vol.wrote = false) →
    exec .unload s = .next (setQue { s.que with exec := some { x with step := 1 } } s)) ∧
  (∀ (x : ExecSt) (s : State),
    (runsOp opFORMAT x s = true ∧ mayFinish x s = true ∧ s.que.loss = none) →
    (x.phase = .data ∧ s.vol.blank = false ∧ (dFlags x.entry.desc).testBit 0 = false) →
    Runs .format s fun t =>
      t.que.exec = none ∧ Completes 0 (dTag x.entry.desc) stILLEGAL_COMMAND 0x0C08 t ∧
      WordsKept (fun a => a = Reg.REJECT_CNT.addr ∨ faultWord 0x69 a) s t ∧ OnlyTouches [.regs, .evt, .que, .mtr] s t) ∧
  (∀ (x : ExecSt) (s : State),
    runsOp opFORMAT x s = true →
    x.phase = .settling →
    (settledAll s = true ∧ s.rch.sets = []) →
    Runs .format s fun t =>
      t.vol.map = some { volumeId := bytesAt x.entry.desc 0x10 16, uaEnd := getF s Reg.FMT_UA_END, eodFrame := 100000 } ∧ t.vol.blank = false ∧
      t.vol.nextGsn = (if s.vol.issued then s.vol.nextGsn else 0) ∧ t.fmt = { sets := [{ dsn := 0, kind := .eodMap, closed := true }] } ∧
      t.que = { s.que with exec := some { x with phase := .work } } ∧ WordsKept (fun _ => False) s t ∧ OnlyTouches [.que, .vol, .fmt] s t) ∧
  (∀ (m : VolMap) (x : ExecSt) (s : State),
    (runsOp opFORMAT x s = true ∧ mayFinish x s = true ∧ s.que.loss = none ∧ x.recovered = false) →
    x.phase = .work →
    s.fmt.sets = [] →
    s.vol.map = some m →
    Runs .format s fun t =>
      t.vol.map = some { m with gen := s.vol.highGen + 1, dirty := false, mounts := [], relocs := [], nextGsn := 0 } ∧ t.vol.highGen = s.vol.highGen + 1 ∧
      t.vol.copies.map (fun c => (c.copy, c.gen)) = [(0, s.vol.highGen + 1), (1, s.vol.highGen + 1), (2, s.vol.highGen + 1)] ∧
      getF t Reg.FMT_STATUS_VM_VALID = 1 ∧ getF t Reg.FMT_VM_GEN_LO = (s.vol.highGen + 1) % 2 ^ 32 ∧ getF t Reg.FMT_EOD_FRAME = m.eodFrame % 2 ^ 32 ∧
      t.que.exec = none ∧ Completes 0 (dTag x.entry.desc) stOK 0 t ∧
      WordsKept (fun a => a ∈ [Reg.FMT_STATUS_VM_VALID.addr, Reg.FMT_EOD_FRAME.addr, Reg.FMT_VM_GEN_HI.addr, Reg.FMT_VM_GEN_LO.addr]) s t ∧
      OnlyTouches [.regs, .que, .mtr, .vol] s t) ∧
  (∀ (tags : List Nat) (m : VolMap) (x : ExecSt) (s : State),
    (runsOp opSELECT_MAP x s = true ∧ mayFinish x s = true ∧ s.que.loss = none ∧ x.recovered = false) →
    (x.phase = .work ∧ x.step = 0) →
    dField x.entry.desc 0x10 1 < 3 →
    (s.vol.copies.find? (fun m => m.copy == dField x.entry.desc 0x10 1) = some m) →
    (m.dirty = false ∧ s.rch.sets = []) →
    Runs (.selectMap tags) s fun t =>
      t.vol.map = some m ∧ t.vol.conflict = false ∧ t.vol.dirtyDue = true ∧ t.vol.eodDsn = m.eodDsn ∧ t.vol.nextGsn = (if s.vol.issued = true then max s.vol.nextGsn m.nextGsn else m.nextGsn) ∧
      getF t Reg.FMT_STATUS_VM_CONFLICT = 0 ∧ getF t Reg.FMT_STATUS_VM_DIRTY = 0 ∧ getF t Reg.FMT_STATUS_VM_VALID = 1 ∧
      t.fmt = { s.fmt with nextDsn := m.eodDsn, nextFrame := m.eodFrame, nextPass := m.eodPass, group := none } ∧
      t.que.exec = none ∧ Completes 0 (dTag x.entry.desc) stOK 0 t ∧
      WordsKept (fun a => a ∈ [Reg.FMT_STATUS_VM_VALID.addr, Reg.FMT_EOD_FRAME.addr, Reg.FMT_VM_GEN_HI.addr, Reg.FMT_VM_GEN_LO.addr]) s t ∧
      OnlyTouches [.regs, .que, .mtr, .vol, .fmt] s t) ∧
  (∀ (tags : List Nat) (x : ExecSt) (s : State),
    (runsOp opSELECT_MAP x s = true ∧ mayFinish x s = true ∧ s.que.loss = none) →
    (x.phase = .work ∧ x.step = 0) →
    dField x.entry.desc 0x10 1 < 3 →
    (s.vol.copies.find? (fun m => m.copy == dField x.entry.desc 0x10 1) = none) →
    s.rch.sets = [] →
    Runs (.selectMap tags) s fun t =>
      t.que.exec = none ∧ Completes 0 (dTag x.entry.desc) stILLEGAL_COMMAND 0x0C08 t ∧ t.vol = s.vol ∧
      WordsKept (fun a => a = Reg.REJECT_CNT.addr ∨ faultWord 0x69 a) s t ∧ OnlyTouches [.regs, .evt, .que, .mtr] s t) ∧
  (∀ (x : ExecSt) (s : State),
    (runsOp opREFRESH x s = true ∧ mayFinish x s = true ∧ s.que.loss = none ∧ x.recovered = false) →
    (x.phase = .work ∧ x.step = 0 ∧ x.status = 0 ∧ x.pairs = []) →
    (s.rch.weak = [] ∧ s.fmt.sets = [] ∧ s.fmt.group.isSome = true ∧ readSet s s.vol.eodDsn = none) →
    Runs .refresh s fun t => t.que.exec = none ∧ Completes 0 (dTag x.entry.desc) stOK 0 t ∧ WordsKept (fun _ => False) s t ∧ OnlyTouches [.que, .mtr] s t)

/-- OPEN_TENANT, RECEIPT, CLOSE_TENANT (R454, R455, R466), MINUTE_EXECUTE, BRACKET_FINAL, MTR_TAIL_WRITE and METER_READ (R457, R461–R463). -/
def Obligations.TenantsAndBrackets : Prop :=
  (∀ (n : Nat) (x : ExecSt) (s : State),
    (runsOp opOPEN_TENANT x s = true ∧ mayFinish x s = true ∧ s.que.loss = none ∧ x.recovered = false) →
    ((List.range 256).find? (fun n => (tenant s n).state == 0) = some n) →
    dField x.entry.desc 0x10 8 ≠ 0 →
    (s.ten.any (fun e => e.2.state != 0 && e.2.tag == dField x.entry.desc 0x10 8) = false) →
    setBounds n (dField x.entry.desc 0x18 4) (dField x.entry.desc 0x1C 4) s = 0 →
    (s.pool.waiters = [] ∧ s.pool.held = []) →
    Runs .openTenant s fun t =>
      tenant t n = { state := 1, tag := dField x.entry.desc 0x10 8, session := s.mtr.nextSess } ∧
      acct t n = { acct s n with quota := dField x.entry.desc 0x18 4, min := dField x.entry.desc 0x1C 4 } ∧
      t.mtr.sessions = s.mtr.sessions ++ [{ id := s.mtr.nextSess, ctx := n, tag := dField x.entry.desc 0x10 8 }] ∧ t.mtr.nextSess = s.mtr.nextSess + 1 ∧
      t.que.exec = none ∧ Completes 0 (dTag x.entry.desc) stOK 0 t ∧ WordsKept (· = Reg.POOL_STATUS_MIN_SHORT.addr) s t ∧
      OnlyTouches [.regs, .que, .mtr, .ten, .pool] s t) ∧
  (∀ (x : ExecSt) (s : State),
    (runsOp opOPEN_TENANT x s = true ∧ mayFinish x s = true ∧ s.que.loss = none) →
    (∀ n < 256, (tenant s n).state ≠ 0) →
    Runs .openTenant s fun t =>
      t.que.exec = none ∧ Completes 0 (dTag x.entry.desc) stTENANT_TABLE_FULL 0 t ∧ WordsKept (fun _ => False) s t ∧ OnlyTouches [.que, .mtr] s t) ∧
  (∀ (x : ExecSt) (s : State),
    runsOp opRECEIPT x s = true →
    (x.phase = .work ∧ x.retract = none) →
    Runs .receipt s fun t =>
      t.que.din = s.que.din ++ dinPackets 0 (dTag x.entry.desc) 0 0 0 0 (receipt s 1 (dTenant x.entry.desc) x.entry.seq) true ∧
      tenant t (dTenant x.entry.desc) = { tenant s (dTenant x.entry.desc) with rcptNo := ((tenant s (dTenant x.entry.desc)).rcptNo + 1) % 2 ^ 32 } ∧
      t.que.exec.map (fun y => (y.phase, y.status)) = some (.sending, stOK) ∧ getF t Reg.RCPT_CNT = satAdd Reg.RCPT_CNT.width (getF s Reg.RCPT_CNT) 1 ∧
      WordsKept (fun a => a = Reg.RCPT_CNT.addr ∨ noticeWord 0x71 a) s t ∧ OnlyTouches [.regs, .evt, .que, .ten] s t) ∧
  (∀ (x : ExecSt) (s : State),
    runsOp opCLOSE_TENANT x s = true →
    (x.phase = .work ∧ x.step = 0) →
    ownedSlots s (dTenant x.entry.desc) ≠ [] →
    Runs .closeTenant s fun t =>
      t.que.din = s.que.din ++ dinPackets 0 (dTag x.entry.desc) 0 0 0 0 (receipt s 2 (dTenant x.entry.desc) x.entry.seq) true ∧
      t.que.exec = some { x with step := 1 } ∧ (tenant t (dTenant x.entry.desc)).state = (tenant s (dTenant x.entry.desc)).state ∧
      (∀ k < 1024, keySlot t k = if (keySlot s k).tenant = dTenant x.entry.desc ∧ (keySlot s k).state = 1 then { keySlot s k with state := 2, eraseSeq := x.entry.seq } else keySlot s k) ∧
      WordsKept (fun a => a = Reg.RCPT_CNT.addr ∨ noticeWord 0x71 a) s t ∧ OnlyTouches [.regs, .evt, .que, .ten, .keys] s t) ∧
  (∀ (x : ExecSt) (s : State),
    (runsOp opCLOSE_TENANT x s = true ∧ mayFinish x s = true ∧ s.que.loss = none ∧ x.recovered = false) →
    (x.phase = .work ∧ x.step = 1) →
    ownedSlots s (dTenant x.entry.desc) = [] →
    (s.pool.waiters = [] ∧ s.pool.held = [] ∧ minSum s ≤ capacity s) →
    Runs .closeTenant s fun t =>
      tenant t (dTenant x.entry.desc) = {} ∧ acct t (dTenant x.entry.desc) = { acct s (dTenant x.entry.desc) with quota := 0, min := 0 } ∧
      t.que.exec = none ∧ Completes 0 (dTag x.entry.desc) stOK 0 t ∧ WordsKept (· = Reg.POOL_STATUS_MIN_SHORT.addr) s t ∧
      OnlyTouches [.regs, .que, .mtr, .ten, .pool] s t) ∧
  (∀ (n : Nat) (e : QEntry) (rest : List QEntry) (s : State),
    (s.que.stream = e :: rest ∧ e.body = .minute n) →
    streamFree s = true →
    257 ≤ mtrFree s →
    Runs .minuteExecute s fun t =>
      t.que = { s.que with stream := rest } ∧ t.lnk = (giveBack 0 0 1 s).lnk ∧ getB t Reg.MTR_STATUS_HELD = false ∧
      WordsKept (· = Reg.MTR_STATUS_HELD.addr) s t ∧ OnlyTouches [.regs, .que, .lnk] s t) ∧
  (∀ (n : Nat) (e : QEntry) (rest : List QEntry) (s : State),
    (s.que.stream = e :: rest ∧ e.body = .minute n) →
    streamFree s = true →
    (mtrFree s < 257 ∧ getB s Reg.MTR_STATUS_HELD = false) →
    Runs .minuteExecute s fun t =>
      getB t Reg.MTR_STATUS_HELD = true ∧ getF t Reg.MTR_HOLD_CNT = satAdd Reg.MTR_HOLD_CNT.width (getF s Reg.MTR_HOLD_CNT) 1 ∧ Recorded 0x71 1 0x0D01 s t ∧
      WordsKept (fun a => a = Reg.MTR_STATUS_HELD.addr ∨ a = Reg.MTR_HOLD_CNT.addr ∨ faultWord 0x71 a) s t ∧ OnlyTouches [.regs, .evt] s t) ∧
  (∀ (b : Bracket) (rest : List Bracket) (s : State),
    s.mtr.brackets = b :: rest →
    bracketFinal s b = true →
    (bracketSessions s b).length + 1 ≤ mtrFree s →
    Runs .bracketFinal s fun t =>
      t.mtr.brackets = rest ∧ getF t Reg.MTR_HEAD = (getF s Reg.MTR_HEAD + (bracketSessions s b).length + 1) % 2 ^ 32 ∧
      Tbl.get [] t.mtr.log ((getF s Reg.MTR_HEAD + (bracketSessions s b).length) % 2 ^ 32 % mtrDepth) =
        mtrRecord 2 0 (bracketSessions s b).length ((getF s Reg.MTR_HEAD + (bracketSessions s b).length) % 2 ^ 32) b.name 0
          ((((bracketSessions s b).foldl (fun u y => u.add y.2) ({} : Usage)).commands) + b.noTenant) ((bracketSessions s b).foldl (fun u y => u.add y.2) ({} : Usage)) ∧
      WordsKept (fun a => a = Reg.MTR_HEAD.addr ∨ noticeWord 0x71 a) s t ∧ OnlyTouches [.regs, .evt, .mtr] s t) ∧
  (∀ (b : Bracket) (rest : List Bracket) (s : State),
    s.mtr.brackets = b :: rest →
    bracketFinal s b = false →
    exec .bracketFinal s = .next s) ∧
  (∀ (v : Nat) (s : State),
    getB s (hdrLOCK 0x71) = false →
    (v < 2 ^ 32 ∧ (v + 2 ^ 32 - getF s Reg.MTR_TAIL) % 2 ^ 32 ≤ mtrHeld s) →
    Runs (.mtrTailWrite v) s fun t => getF t Reg.MTR_TAIL = v ∧ mtrHeld t = mtrHeld s - (v + 2 ^ 32 - getF s Reg.MTR_TAIL) % 2 ^ 32 ∧ WordsKept (· = Reg.MTR_TAIL.addr) s t ∧ OnlyTouches [.regs] s t) ∧
  (∀ (v : Nat) (s : State),
    getB s (hdrLOCK 0x71) = false →
    (v < 2 ^ 32 ∧ mtrHeld s < (v + 2 ^ 32 - getF s Reg.MTR_TAIL) % 2 ^ 32) →
    exec (.mtrTailWrite v) s = .next s) ∧
  (∀ (q n : Nat) (x : ExecSt) (bytes : List Byte) (s : State),
    runsSide opMETER_READ q x s = true →
    (getF s Reg.MTR_HEAD + 2 ^ 32 - dField x.entry.desc 0x10 4) % 2 ^ 32 ≤ mtrHeld s →
    n = min ((getF s Reg.MTR_HEAD + 2 ^ 32 - dField x.entry.desc 0x10 4) % 2 ^ 32) (min (dField x.entry.desc 0x14 4) (dDataLen x.entry.desc / 64)) →
    ((List.range n).flatMap (fun i => Tbl.get [] s.mtr.log ((dField x.entry.desc 0x10 4 + i) % 2 ^ 32 % mtrDepth)) = bytes) →
    bytes ≠ [] →
    Runs (.meterRead q) s fun t =>
      t.que.din = s.que.din ++ dinPackets q (dTag x.entry.desc) 0 0 0 0 bytes true ∧
      (side t q).exec.map (fun y => (y.phase, y.status, y.record, y.count)) = some (.sending, stOK, getF s Reg.MTR_HEAD, n) ∧
      getF t Reg.MTR_TAIL = (if (dFlags x.entry.desc).testBit 0 then dField x.entry.desc 0x10 4 % 2 ^ 32 else getF s Reg.MTR_TAIL) ∧
      WordsKept (· = Reg.MTR_TAIL.addr) s t ∧ OnlyTouches [.regs, .que] s t) ∧
  (∀ (q : Nat) (x : ExecSt) (s : State),
    (runsSide opMETER_READ q x s = true ∧ mayFinishSide q x s = true) →
    mtrHeld s < (getF s Reg.MTR_HEAD + 2 ^ 32 - dField x.entry.desc 0x10 4) % 2 ^ 32 →
    Runs (.meterRead q) s fun t =>
      (side t q).exec = none ∧ Completes q (dTag x.entry.desc) stILLEGAL_COMMAND 0x0C08 t ∧ WordsKept (fun a => a = Reg.REJECT_CNT.addr ∨ faultWord 0x69 a) s t ∧
      OnlyTouches [.regs, .evt, .que] s t)

/-- KEY_IMPORT, KEY_ERASE, KEK_ERASE, KEK_AGREE and CIPHER once they execute (R313, R323, R325, R327, R328). The device's private key is a free value. -/
def Obligations.SideKeys : Prop :=
  (∀ (q : Nat) (x : ExecSt) (k : Nat × List Byte) (s : State),
    runsSide opKEY_IMPORT q x s = true →
    (x.phase = .data ∧ dDataLen x.entry.desc ≤ x.entry.data.length) →
    (s.keys.kek.find? (fun e => e.1 == dField x.entry.desc 0x10 1) = some k) →
    importCheck s (dTenant x.entry.desc) true (dField x.entry.desc 0x12 2) = stOK →
    s.ciph.fw.length < 16 →
    Runs (.keyImport q) s fun t =>
      t.ciph = { s.ciph with fw := s.ciph.fw ++ [.unwrap q (dField x.entry.desc 0x10 1) k.2 (x.entry.data.take 56)] } ∧
      side t q = { side s q with exec := some { x with phase := .work } } ∧ WordsKept (fun _ => False) s t ∧ OnlyTouches [.ciph, .que] s t) ∧
  (∀ (q : Nat) (x : ExecSt) (s : State),
    (runsSide opKEY_IMPORT q x s = true ∧ mayFinishSide q x s = true) →
    (x.phase = .data ∧ dDataLen x.entry.desc ≤ x.entry.data.length) →
    (importCheck s (dTenant x.entry.desc) ((s.keys.kek.find? fun e => e.1 == dField x.entry.desc 0x10 1).isSome) (dField x.entry.desc 0x12 2) ≠ stOK) →
    Runs (.keyImport q) s fun t =>
      Completes q (dTag x.entry.desc) (if (tenant s (dTenant x.entry.desc)).state ≠ 1 then stTENANT_NOT_OPEN else stILLEGAL_COMMAND)
        (if (tenant s (dTenant x.entry.desc)).state ≠ 1 then 0 else 0x0C08) t ∧
      (side t q).exec = none ∧ t.ciph = s.ciph ∧ t.keys = s.keys ∧ WordsKept (fun a => a = Reg.REJECT_CNT.addr ∨ faultWord 0x69 a) s t ∧ OnlyTouches [.regs, .evt, .que] s t) ∧
  (∀ (q : Nat) (x : ExecSt) (s : State),
    (runsSide opKEY_ERASE q x s = true ∧ mayFinishSide q x s = true) →
    (x.phase = .data ∧ (keySlot s (dField x.entry.desc 0x12 2)).state = 0) →
    Runs (.keyErase q) s fun t => (side t q).exec = none ∧ Completes q (dTag x.entry.desc) stOK 0 t ∧ WordsKept (fun _ => False) s t ∧ OnlyTouches [.que] s t) ∧
  (∀ (q : Nat) (x : ExecSt) (s : State),
    runsSide opKEY_ERASE q x s = true →
    (x.phase = .data ∧ (keySlot s (dField x.entry.desc 0x12 2)).state = 1) →
    Runs (.keyErase q) s fun t =>
      keySlot t (dField x.entry.desc 0x12 2) = { keySlot s (dField x.entry.desc 0x12 2) with state := 2, eraseSeq := x.entry.seq } ∧
      side t q = { side s q with exec := some { x with phase := .work } } ∧ WordsKept (fun _ => False) s t ∧ OnlyTouches [.keys, .que] s t) ∧
  (∀ (q : Nat) (x : ExecSt) (s : State),
    (runsSide opKEK_ERASE q x s = true ∧ mayFinishSide q x s = true) →
    (x.phase = .data ∧ s.keys.kek.any (fun e => e.1 == dField x.entry.desc 0x10 1) = false) →
    Runs (.kekErase q) s fun t => (side t q).exec = none ∧ Completes q (dTag x.entry.desc) stOK 0 t ∧ WordsKept (fun _ => False) s t ∧ OnlyTouches [.que] s t) ∧
  (∀ (q : Nat) (x : ExecSt) (s : State),
    runsSide opKEK_ERASE q x s = true →
    (x.phase = .data ∧ s.keys.kek.any (fun e => e.1 == dField x.entry.desc 0x10 1) = true) →
    exec (.kekErase q) s = .next (setSide q { side s q with exec := some { x with phase := .work } } s)) ∧
  (∀ (q : Nat) (x : ExecSt) (s : State),
    (runsSide opKEK_AGREE q x s = true ∧ mayFinishSide q x s = true) →
    dDataLen x.entry.desc ≤ x.entry.data.length →
    (lcPermits s = true ∧ getB s Reg.SEC_STATUS_ID_OK = true ∧ getB s Reg.SEC_STATUS_ENTROPY_OK = true) →
    Runs (.kekAgree q) s fun t =>
      t.freeCount = s.freeCount + 1 ∧
      (if allZero (Crypto.x25519 (leBytes 32 (freeVal 256 s).toNat) (x.entry.data.take 32)) = true then
        (side t q).exec = none ∧ Completes q (dTag x.entry.desc) stBAD_DESCRIPTOR 0x0C08 t ∧ t.keys = s.keys
      else
        t.keys = { s.keys with kek := Tbl.set s.keys.kek (dField x.entry.desc 0x10 1) (Crypto.hkdf (zeros 64)
          (Crypto.x25519 (leBytes 32 (freeVal 256 s).toNat) (x.entry.data.take 32))
          (kekRecord s (x.entry.data.take 32) (Crypto.x25519 (leBytes 32 (freeVal 256 s).toNat) Crypto.x25519Base) (dField x.entry.desc 0x10 1)) 32) } ∧
        getF t Reg.KEK_AGREE_CNT = satAdd Reg.KEK_AGREE_CNT.width (getF s Reg.KEK_AGREE_CNT) 1 ∧
        (side t q).exec.map (fun y => (y.phase, y.status)) = some (.sending, stOK)) ∧
      WordsKept (fun a => a = Reg.KEK_AGREE_CNT.addr ∨ a = Reg.REJECT_CNT.addr ∨ faultWord 0x69 a) s t ∧ OnlyTouches [.regs, .evt, .keys, .que, .freeCount] s t) ∧
  (∀ (q : Nat) (x : ExecSt) (s : State),
    (runsSide opKEK_AGREE q x s = true ∧ mayFinishSide q x s = true) →
    dDataLen x.entry.desc ≤ x.entry.data.length →
    (lcPermits s = false ∨ getB s Reg.SEC_STATUS_ID_OK = false ∨ getB s Reg.SEC_STATUS_ENTROPY_OK = false) →
    Runs (.kekAgree q) s fun t =>
      (side t q).exec = none ∧ Completes q (dTag x.entry.desc) stILLEGAL_COMMAND 0x0C08 t ∧ WordsKept (fun a => a = Reg.REJECT_CNT.addr ∨ faultWord 0x69 a) s t ∧
      OnlyTouches [.regs, .evt, .que] s t) ∧
  (∀ (q : Nat) (es : List Nat) (x : ExecSt) (s : State),
    runsSide opCIPHER q x s = true →
    (x.phase = .data ∧ (tenant s (dTenant x.entry.desc)).state = 1) →
    (cData x.entry.desc = true ∧ (keySlot s (cSLOT x.entry.desc)).state = 1 ∧ (keySlot s (cSLOT x.entry.desc)).tenant = dTenant x.entry.desc) →
    (dAccount x.entry.desc = dTenant x.entry.desc ∧ s.ciph.host.length < 64) →
    cDstLen x.entry.desc = none →
    readList (cSRC_LIST x.entry.desc) (cPages (cSRC_OFS x.entry.desc) (cSrcLen x.entry.desc)) (dAccount x.entry.desc) s = ((es, false, false), s) →
    Runs (.cipher q) s fun t =>
      t.ciph = { s.ciph with host := s.ciph.host ++ [.host q] } ∧ side t q = { side s q with exec := some { x with phase := .work, seen := es } } ∧
      WordsKept (fun _ => False) s t ∧ OnlyTouches [.ciph, .que] s t) ∧
  (∀ (q : Nat) (x : ExecSt) (s : State),
    (runsSide opCIPHER q x s = true ∧ mayFinishSide q x s = true) →
    (x.phase = .data ∧ (tenant s (dTenant x.entry.desc)).state = 1) →
    cData x.entry.desc = true →
    ((keySlot s (cSLOT x.entry.desc)).state ≠ 1 ∨ (keySlot s (cSLOT x.entry.desc)).tenant ≠ dTenant x.entry.desc) →
    Runs (.cipher q) s fun t => (side t q).exec = none ∧ Completes q (dTag x.entry.desc) stKEY_NOT_OWNED 0 t ∧ t.ciph = s.ciph ∧ WordsKept (fun _ => False) s t ∧ OnlyTouches [.que] s t)

/-- SET_QUOTA (R456), ATTEST (R589), SAFE_CLEAR (R553, R558) and REG_IMAGE (R439) once they execute. -/
def Obligations.SideAccountsAndClearing : Prop :=
  (∀ (q : Nat) (x : ExecSt) (s : State),
    (runsSide opSET_QUOTA q x s = true ∧ mayFinishSide q x s = true) →
    (264 ≤ dAccount x.entry.desc ∨ (tenant s (dAccount x.entry.desc)).state ≠ 0 ∧ dAccount x.entry.desc < 256) →
    setBounds (dAccount x.entry.desc) (dField x.entry.desc 0x10 4) (dField x.entry.desc 0x14 4) s = 0 →
    (s.pool.waiters = [] ∧ s.pool.held = []) →
    Runs (.setQuota q) s fun t =>
      acct t (dAccount x.entry.desc) = { acct s (dAccount x.entry.desc) with quota := dField x.entry.desc 0x10 4, min := dField x.entry.desc 0x14 4 } ∧
      (side t q).exec = none ∧ Completes q (dTag x.entry.desc) stOK 0 t ∧ WordsKept (· = Reg.POOL_STATUS_MIN_SHORT.addr) s t ∧ OnlyTouches [.regs, .que, .pool] s t) ∧
  (∀ (q : Nat) (x : ExecSt) (s : State),
    (runsSide opSET_QUOTA q x s = true ∧ mayFinishSide q x s = true) →
    264 ≤ dAccount x.entry.desc →
    setBounds (dAccount x.entry.desc) (dField x.entry.desc 0x10 4) (dField x.entry.desc 0x14 4) s ≠ 0 →
    Runs (.setQuota q) s fun t =>
      (side t q).exec = none ∧ Completes q (dTag x.entry.desc) stILLEGAL_COMMAND (setBounds (dAccount x.entry.desc) (dField x.entry.desc 0x10 4) (dField x.entry.desc 0x14 4) s) t ∧
      getF t Reg.ACCT_ERR_REASON = setBounds (dAccount x.entry.desc) (dField x.entry.desc 0x10 4) (dField x.entry.desc 0x14 4) s ∧ getF t Reg.ACCT_ERR_ACCOUNT = dAccount x.entry.desc ∧ getB t Reg.ACCT_ERR_VALID = true ∧
      WordsKept (fun a => a = Reg.ACCT_ERR_VALID.addr ∨ a = Reg.REJECT_CNT.addr ∨ noticeWord 0x61 a ∨ faultWord 0x69 a) s t ∧ OnlyTouches [.regs, .evt, .que] s t) ∧
  (∀ (q : Nat) (x : ExecSt) (s : State),
    (runsSide opSET_QUOTA q x s = true ∧ mayFinishSide q x s = true) →
    (256 ≤ dAccount x.entry.desc ∧ dAccount x.entry.desc ≤ 263) →
    Runs (.setQuota q) s fun t =>
      (side t q).exec = none ∧ Completes q (dTag x.entry.desc) stILLEGAL_COMMAND 0x0C08 t ∧ WordsKept (fun a => a = Reg.REJECT_CNT.addr ∨ faultWord 0x69 a) s t ∧
      OnlyTouches [.regs, .evt, .que] s t) ∧
  (∀ (q : Nat) (x : ExecSt) (s : State),
    (runsSide opSET_QUOTA q x s = true ∧ mayFinishSide q x s = true) →
    (dAccount x.entry.desc < 256 ∧ (tenant s (dAccount x.entry.desc)).state = 0) →
    Runs (.setQuota q) s fun t => (side t q).exec = none ∧ Completes q (dTag x.entry.desc) stTENANT_NOT_OPEN 0 t ∧ WordsKept (fun _ => False) s t ∧ OnlyTouches [.que] s t) ∧
  (∀ (q : Nat) (x : ExecSt) (s : State),
    runsSide opATTEST q x s = true →
    (getB s Reg.SEC_STATUS_SEAL_BUSY = false ∧ lcPermits s = true ∧ getB s Reg.SEC_STATUS_ID_OK = true ∧ (dFlags x.entry.desc).testBit 0 = false) →
    Runs (.attest q) s fun t =>
      t.que.din = s.que.din ++ dinPackets q (dTag x.entry.desc) 0 0 0 0 (attestReport s (bytesAt x.entry.desc 0x10 32)) true ∧
      (side t q).exec.map (fun y => (y.phase, y.status)) = some (.sending, stOK) ∧ WordsKept (fun _ => False) s t ∧ OnlyTouches [.que] s t) ∧
  (∀ (q : Nat) (x : ExecSt) (s : State),
    runsSide opATTEST q x s = true →
    getB s Reg.SEC_STATUS_SEAL_BUSY = true →
    exec (.attest q) s = .next s) ∧
  (∀ (q : Nat) (x : ExecSt) (s : State),
    (runsSide opATTEST q x s = true ∧ mayFinishSide q x s = true) →
    getB s Reg.SEC_STATUS_SEAL_BUSY = false →
    (lcPermits s = false ∨ getB s Reg.SEC_STATUS_ID_OK = false) →
    Runs (.attest q) s fun t =>
      (side t q).exec = none ∧ Completes q (dTag x.entry.desc) stILLEGAL_COMMAND 0x0C08 t ∧ WordsKept (fun a => a = Reg.REJECT_CNT.addr ∨ faultWord 0x69 a) s t ∧
      OnlyTouches [.regs, .evt, .que] s t) ∧
  (∀ (q : Nat) (persist bad : Option Nat) (rows : List Nat) (x : ExecSt) (s : State),
    (runsSide opSAFE_CLEAR q x s = true ∧ mayFinishSide q x s = true) →
    dField x.entry.desc 0x10 1 = 2 →
    (s2InForce s = true ∧ getB s Reg.POS_STATUS_STILL = true) →
    (persist = none ∧ s.evt.latched = []) →
    (isSealed s = true ∧ cfgOk s = true ∧ getB s Reg.SAFE_STATUS_SSN_LATCHED = false) →
    Runs (.safeClear q true false false persist bad rows) s fun t =>
      s2InForce t = false ∧ torqueOff t = false ∧ getB t Reg.SAFE_STATUS_BUS_CLAMP = false ∧ s1InForce t = s1InForce s ∧ s3InForce t = s3InForce s ∧
      (side t q).exec = none ∧ Completes q (dTag x.entry.desc) stOK 0 t ∧ OnlyTouches [.regs, .que, .mot] s t) ∧
  (∀ (q : Nat) (persist : Option Nat) (rows : List Nat) (x : ExecSt) (s : State),
    (runsSide opSAFE_CLEAR q x s = true ∧ mayFinishSide q x s = true) →
    dField x.entry.desc 0x10 1 = 4 →
    s3InForce s = true →
    (persist = none ∧ s.evt.latched = []) →
    Runs (.safeClear q true false false persist none rows) s fun t =>
      s3InForce t = false ∧ s1InForce t = s1InForce s ∧ s2InForce t = s2InForce s ∧ getF t Reg.TURN_CYCLE_CNT = satAdd Reg.TURN_CYCLE_CNT.width (getF s Reg.TURN_CYCLE_CNT) 1 ∧
      getF t Reg.TURN_STATUS_DONE = 0 ∧ getF t Reg.TURN_AGE = 0 ∧ (side t q).exec = none ∧ Completes q (dTag x.entry.desc) stOK 0 t ∧
      OnlyTouches [.regs, .que, .mot, .freeCount] s t) ∧
  (∀ (q c : Nat) (vbus ten : Bool) (persist bad : Option Nat) (rows : List Nat) (x : ExecSt) (s : State),
    (runsSide opSAFE_CLEAR q x s = true ∧ mayFinishSide q x s = true) →
    (dField x.entry.desc 0x10 1 = 2 ∧ s2InForce s = true) →
    clearBlocked 2 true vbus ten persist s = some c →
    Runs (.safeClear q true vbus ten persist bad rows) s fun t =>
      (side t q).exec = none ∧ Completes q (dTag x.entry.desc) stSAFE_STATE c t ∧ s2InForce t = true ∧ s1InForce t = s1InForce s ∧ s3InForce t = s3InForce s ∧
      WordsKept (· = Reg.SAFE_STATUS_SSN_PIN.addr) s t ∧ OnlyTouches [.regs, .que] s t) ∧
  (∀ (q a v : Nat) (x : ExecSt) (s : State),
    runsSide opREG_IMAGE q x s = true →
    dDataLen x.entry.desc ≤ x.entry.data.length →
    imageEntries (x.entry.data.take (dDataLen x.entry.desc)) = [(a, v)] →
    (a % 4 = 0 ∧ a < 0x100000) →
    mayFinishSide q x (hostWrite a v s) = true →
    linkQuiet (hostWrite a v s) = true →
    Runs (.regImage q) s fun t =>
      t.regs = (hostWrite a v s).regs ∧ side t q = { side (hostWrite a v s) q with exec := none } ∧ Completes q (dTag x.entry.desc) stOK 0 t ∧
      OnlyTouches [.que] (hostWrite a v s) t) ∧
  (∀ (q a v : Nat) (l : List (Nat × Nat)) (x : ExecSt) (s : State),
    (runsSide opREG_IMAGE q x s = true ∧ mayFinishSide q x s = true) →
    dDataLen x.entry.desc ≤ x.entry.data.length →
    imageEntries (x.entry.data.take (dDataLen x.entry.desc)) = (a, v) :: l →
    (a % 4 ≠ 0 ∨ 0x100000 ≤ a) →
    linkQuiet s = true →
    Runs (.regImage q) s fun t =>
      (side t q).exec = none ∧ Completes q (dTag x.entry.desc) stBAD_DESCRIPTOR 0x0C08 t ∧ WordsKept (fun a => a = Reg.REJECT_CNT.addr ∨ faultWord 0x69 a) s t ∧
      OnlyTouches [.regs, .evt, .que] s t)

/-- PWM_PERIOD (R476, R480), HALL_EDGE (R484, R485), OBS_LOST (R487), MOT_EN (R497, R504), PULSE_START_DONE and START_TIMEOUT (R489, R490). The event of a refused enable is bit 4 of the page (the model's reading of R497, log entry 104). -/
def Obligations.ReelDrives : Prop :=
  (∀ (x : Nat) (p : PwmIn) (s : State),
    x < 2 →
    pageRuns s (motPage x) = true →
    (getB s (Reg.MOT_CTRL_EN x) = false ∨ reelSto s = true) →
    Runs (.pwmPeriod x p) s fun t =>
      getB t (Reg.MOT_STATUS_RUNNING x) = false ∧ (reel t x).xd = 0 ∧ (reel t x).xq = 0 ∧ (reel t x).start = 0 ∧ reel t (1 - x) = reel s (1 - x) ∧
      WordsKept (fun a => a / 0x1000 = motPage x ∨ noticeWord (motPage x) a) s t ∧ OnlyTouches [.regs, .evt, .mot] s t) ∧
  (∀ (x : Nat) (p : PwmIn) (s : State),
    x < 2 →
    pageRuns s (motPage x) = true →
    (getB s (Reg.MOT_CTRL_EN x) = true ∧ reelSto s = false ∧ getB s (Reg.MOT_STATUS_RUNNING x) = true) →
    (getF s (Reg.MOT_CTRL_SRC_FORCE x) = 1 ∧ srcValid s x 1 = true ∧ (reel s x).start = 0) →
    (p.late = false ∧ (reel s x).cmp = [300, 600, 900] ∧ minWin s x ≤ 300 ∧ getB s Reg.ADC_CTRL_EN = true) →
    let u := chooseSrc x (observe x (supervise x (advanceAngles x s)));
      Runs (.pwmPeriod x p) s fun t =>
      (reel t x).id = (park (shuntMa s x p.first) (- (shuntMa s x p.first - shuntMa s x p.second)) (- shuntMa s x p.second)
        (ofS 16 ((elecAngle u x : Int) + turnIn (getS u (Reg.SPEED x) * polePairs u x) (10 * (450 + getF s (Reg.PWM_CFG_SETTLE x))) / 2 ^ 16))).1 ∧
      (reel t x).iq = (park (shuntMa s x p.first) (- (shuntMa s x p.first - shuntMa s x p.second)) (- shuntMa s x p.second)
        (ofS 16 ((elecAngle u x : Int) + turnIn (getS u (Reg.SPEED x) * polePairs u x) (10 * (450 + getF s (Reg.PWM_CFG_SETTLE x))) / 2 ^ 16))).2 ∧
      getS t (Reg.IDQ_ID x) = sat16 (reel t x).id ∧ getS t (Reg.IDQ_IQ x) = sat16 (reel t x).iq ∧ getB t (Reg.MOT_STATUS_SS_HOLD x) = false ∧
      getB t (Reg.MOT_STATUS_RUNNING x) = true ∧ getF t (Reg.MOT_STATUS_SRC x) = 1 ∧ getF t (Reg.SS_MISS_CNT x) = getF s (Reg.SS_MISS_CNT x) ∧
      reel t (1 - x) = reel s (1 - x) ∧ OnlyTouches [.regs, .evt, .cal, .mot] s t) ∧
  (∀ (x : Nat) (p : PwmIn) (s : State),
    x < 2 →
    pageRuns s (motPage x) = true →
    (getB s (Reg.MOT_CTRL_EN x) = true ∧ reelSto s = false ∧ getB s (Reg.MOT_STATUS_RUNNING x) = true) →
    (getF s (Reg.MOT_CTRL_SRC_FORCE x) = 1 ∧ srcValid s x 1 = true ∧ (reel s x).start = 0) →
    p.late = true →
    Runs (.pwmPeriod x p) s fun t =>
      getF t (Reg.SS_MISS_CNT x) = satAdd (Reg.SS_MISS_CNT x).width (getF s (Reg.SS_MISS_CNT x)) 1 ∧ (reel t x).cmp = (reel s x).cmp ∧
      getB t (Reg.MOT_STATUS_RUNNING x) = true ∧ reel t (1 - x) = reel s (1 - x) ∧
      WordsKept (fun a => a / 0x1000 = motPage x ∨ noticeWord (motPage x) a) s t ∧ OnlyTouches [.regs, .evt, .cal, .mot] s t) ∧
  (∀ (x code k n iv : Nat) (s : State),
    (x < 2 ∧ code < 8) →
    hallSector code = some n →
    (getF s (Reg.HALL_STATUS_SECTOR x) = k ∧ k < 6 ∧ n = (k + 1) % 6) →
    5000000000 ≤ iv * polePairs s x * getF s (Reg.MOTOR_NMAX x) →
    Runs (.hallEdge x code iv) s fun t =>
      (reel t x).hallAt = n * 65536 / 6 ∧ (reel t x).hallDir = 1 ∧ (reel t x).hallAdv = 0 ∧ getF t (Reg.HALL_STATUS_CODE x) = code ∧ getF t (Reg.HALL_STATUS_SECTOR x) = n ∧
      reel t (1 - x) = reel s (1 - x) ∧ WordsKept (· = (Reg.HALL_STATUS_CODE x).addr) s t ∧ OnlyTouches [.regs, .mot] s t) ∧
  (∀ (x code iv : Nat) (s : State),
    (x < 2 ∧ code < 8) →
    hallSector code = none →
    (getB s (Reg.MOT_CTRL_HALL_FIT x) = true ∧ getB s (Reg.MOT_STATUS_HALL_OK x) = true ∧ getB s (Reg.MOT_STATUS_RUNNING x) = false) →
    getF s Reg.CAP_CTRL_TRIG ≠ 2 →
    Runs (.hallEdge x code iv) s fun t =>
      getB t (Reg.MOT_STATUS_HALL_OK x) = false ∧ getF t (Reg.HALL_STATUS_SECTOR x) = 7 ∧ Recorded (motPage x) 1 0x2E01 s t ∧
      WordsKept (fun a => a = (Reg.HALL_STATUS_CODE x).addr ∨ a = (Reg.MOT_STATUS_HALL_OK x).addr ∨ noticeWord (motPage x) a ∨ faultWord (motPage x) a) s t ∧
      OnlyTouches [.regs, .evt, .mot] s t) ∧
  (∀ (x : Nat) (s : State),
    x < 2 →
    (getB s (Reg.MOT_STATUS_OBS_VALID x) = true ∧ getF s (Reg.MOT_STATUS_SRC x) = 2 ∧ 2 ^ 32 ≤ (reel s x).obsBad) →
    (getF s (Reg.MOT_CTRL_SRC_FORCE x) = 0 ∧ srcValid s x 1 = true) →
    Runs (.obsLost x) s fun t =>
      getB t (Reg.MOT_STATUS_OBS_VALID x) = false ∧ getF t (Reg.MOT_STATUS_SRC x) = 1 ∧ Recorded (motPage x) 2 0x4E02 s t ∧ Stopped Reg.SAFE_STATUS_S1 0x4E02 t ∧
      WordsKept (fun a => stopWord a ∨ a = (Reg.MOT_STATUS_SRC x).addr ∨ a = Reg.CAP_STATUS_TRIGGERED.addr ∨ noticeWord (motPage x) a ∨ faultWord (motPage x) a) s t ∧
      OnlyTouches (.mot :: stopParts) s t) ∧
  (∀ (x : Nat) (s : State),
    x < 2 →
    (getB s (Reg.MOT_STATUS_OBS_VALID x) = true ∧ getF s (Reg.MOT_STATUS_SRC x) ≠ 2 ∧ 2 ^ 32 ≤ (reel s x).obsBad) →
    getF s Reg.CAP_CTRL_TRIG ≠ 2 →
    Runs (.obsLost x) s fun t =>
      getB t (Reg.MOT_STATUS_OBS_VALID x) = false ∧ Recorded (motPage x) 2 0x0E02 s t ∧
      WordsKept (fun a => a = (Reg.MOT_STATUS_OBS_VALID x).addr ∨ faultWord (motPage x) a) s t ∧ OnlyTouches [.regs, .evt, .mot] s t) ∧
  (∀ (x : Nat) (s : State),
    (getB s (Reg.MOT_STATUS_OBS_VALID x) = false ∨ (reel s x).obsBad < 2 ^ 32) →
    exec (.obsLost x) s = .next s) ∧
  (∀ (x : Nat) (s : State),
    x < 2 →
    getB s (hdrLOCK (motPage x)) = false →
    (getB s (Reg.MOT_CTRL_EN x) = false ∧ getB s (Reg.MOT_STATUS_RUNNING x) = false ∧ reelSto s = false ∧ (reel s x).start = 0) →
    (motReady s x = true ∧ busInRange s = true) →
    (srcValid s x 1 = true ∧ getF s (Reg.MOT_CTRL_SRC_FORCE x) = 0 ∧ safeInForce s = false) →
    Runs (.motEn x) s fun t =>
      getB t (Reg.MOT_CTRL_EN x) = true ∧ getB t (Reg.MOT_STATUS_RUNNING x) = true ∧ getF t (Reg.MOT_STATUS_SRC x) = 1 ∧ (reel t x).xd = 0 ∧ (reel t x).xq = 0 ∧
      WordsKept (fun a => a = (Reg.MOT_CTRL_EN x).addr ∨ a = (Reg.MOT_STATUS_RUNNING x).addr ∨ noticeWord (motPage x) a) s t ∧ OnlyTouches [.regs, .evt, .mot] s t) ∧
  (∀ (x : Nat) (s : State),
    x < 2 →
    getB s (hdrLOCK (motPage x)) = false →
    (getB s (Reg.MOT_CTRL_EN x) = false ∧ reelSto s = true ∧ motReady s x = true ∧ busInRange s = true) →
    exec (.motEn x) s = .next (setF (Reg.MOT_CTRL_EN x) 1 s)) ∧
  (∀ (x : Nat) (s : State),
    x < 2 →
    getB s (hdrLOCK (motPage x)) = false →
    getB s (Reg.MOT_CTRL_EN x) = false →
    (motReady s x = false ∨ busInRange s = false) →
    Runs (.motEn x) s fun t =>
      getB t (Reg.MOT_CTRL_EN x) = false ∧ Recorded (motPage x) 4 0 s t ∧ WordsKept (noticeWord (motPage x)) s t ∧ OnlyTouches [.regs, .evt] s t) ∧
  (∀ (x : Nat) (peaks : List Nat) (s : State),
    x < 2 →
    (reel s x).start = 1 →
    getF s (Reg.PULSE_CFG_SAL_MIN_PCT x) * peaks.foldl max 0 ≤ (peaks.foldl max 0 - peaks.foldl min (peaks.foldl max 0)) * 100 →
    (srcValid s x 1 = false ∧ srcValid s x 2 = false ∧ srcValid s x 3 = false) →
    Runs (.pulseStartDone x peaks) s fun t =>
      (reel t x).start = 2 ∧ (reel t x).startAt = northPole peaks * 65536 ∧ (reel t x).startAge = 0 ∧ getB t (Reg.MOT_STATUS_RUNNING x) = true ∧ getF t (Reg.MOT_STATUS_SRC x) = 4 ∧
      WordsKept (fun a => a = (Reg.MOT_STATUS_RUNNING x).addr ∨ noticeWord (motPage x) a) s t ∧ OnlyTouches [.regs, .evt, .mot] s t) ∧
  (∀ (x : Nat) (peaks : List Nat) (s : State),
    x < 2 →
    (reel s x).start = 1 →
    (peaks.foldl max 0 - peaks.foldl min (peaks.foldl max 0)) * 100 < getF s (Reg.PULSE_CFG_SAL_MIN_PCT x) * peaks.foldl max 0 →
    getF s Reg.CAP_CTRL_TRIG ≠ 2 →
    Runs (.pulseStartDone x peaks) s fun t =>
      (reel t x).start = 0 ∧ getB t (Reg.MOT_STATUS_RUNNING x) = false ∧ getB t (Reg.MOT_CTRL_EN x) = false ∧ Recorded (motPage x) 6 0x2E04 s t ∧
      WordsKept (fun a => a = (Reg.MOT_STATUS_RUNNING x).addr ∨ a = (Reg.MOT_CTRL_EN x).addr ∨ faultWord (motPage x) a) s t ∧ OnlyTouches [.regs, .evt, .mot] s t) ∧
  (∀ (x : Nat) (y : ExecSt) (s : State),
    x < 2 →
    ((reel s x).start = 2 ∧ 40 * getF s (Reg.PULSE_CFG_START_MAX x) ≤ (reel s x).startAge) →
    getF s Reg.CAP_CTRL_TRIG ≠ 2 →
    touchesMedium (dOpcode y.entry.desc) = true →
    (mayFinish y s = true ∧ s.que.loss = none) →
    (dOpcode y.entry.desc = opCLOSE_TENANT → (tenant s (dTenant y.entry.desc)).state ≠ 2) →
    Runs (.startTimeout x) s fun t =>
      (reel t x).start = 0 ∧ getB t (Reg.MOT_STATUS_RUNNING x) = false ∧ getB t (Reg.MOT_CTRL_EN x) = false ∧ Recorded (motPage x) 6 0x2E04 s t ∧
      t.que.exec = none ∧ Completes 0 (dTag y.entry.desc) stMOTION_FAULT 0x2E04 t ∧
      WordsKept (fun a => a = (Reg.MOT_STATUS_RUNNING x).addr ∨ a = (Reg.MOT_CTRL_EN x).addr ∨ faultWord (motPage x) a) s t ∧ OnlyTouches [.regs, .evt, .mot, .que, .mtr] s t)

/-- REEL_REVOLUTION and RAD_SEED (R492–R494), VBUS_SAMPLE (R497, R498), CUR_PLAUS, REEL_OVERSPEED, BUS_OVERVOLT, BUS_UV and CHOPPER_FAULT (R497, R499–R503). -/
def Obligations.ReelRadiusAndBus : Prop :=
  (∀ (x tick other : Nat) (at_ : Int) (s : State),
    x < 2 →
    (getB s Reg.POS_STATUS_LOCKED = true ∧ 500000 ≤ (getS s Reg.POS_SPEED).natAbs) →
    (reel s x).revAt = some at_ →
    (x = 1 ∨ (reel s 1).measured = false) →
    Runs (.reelRevolution x tick other) s fun t =>
      getF t (Reg.RADIUS x) = ((getF s (Reg.RADIUS x) : Int) + tdiv ((((tickPos s tick - at_).natAbs * 97140468195737 / 10 ^ 16 : Nat) : Int) - getF s (Reg.RADIUS x)) 8).toNat % 2 ^ (Reg.RADIUS x).width ∧
      (reel t x).revAt = some (tickPos s tick) ∧ (reel t x).revs = min 4 ((reel s x).revs + 1) ∧ (reel t x).measured = true ∧
      getB t (Reg.MOT_STATUS_RAD_VALID x) = (getB s (Reg.MOT_STATUS_RAD_VALID x) || decide (3 ≤ (reel s x).revs)) ∧ reel t (1 - x) = reel s (1 - x) ∧
      WordsKept (fun a => a = (Reg.RADIUS x).addr ∨ a = (Reg.MOT_STATUS_RAD_VALID x).addr) s t ∧ OnlyTouches [.regs, .mot] s t) ∧
  (∀ (x tick other : Nat) (s : State),
    x < 2 →
    (getB s Reg.POS_STATUS_LOCKED = true ∧ 500000 ≤ (getS s Reg.POS_SPEED).natAbs) →
    (reel s x).revAt = none →
    exec (.reelRevolution x tick other) s = .next (setReel x { reel s x with revAt := some (tickPos s tick), revs := 0 } s)) ∧
  (∀ (tick other : Nat) (s : State),
    getB s Reg.POS_STATUS_LOCKED = false →
    (getF s (Reg.RAD_K 0) ≠ 0 ∧ other ≠ 0) →
    Runs (.reelRevolution 0 tick other) s fun t =>
      getF t (Reg.RADIUS 0) = root (getF s (Reg.RAD_K 0) * 10000 * (other * other) / (2 ^ 32 + other * other)) % 2 ^ (Reg.RADIUS 0).width ∧
      getF t (Reg.RADIUS 1) = root (getF s (Reg.RAD_K 0) * 10000 * 2 ^ 32 / (2 ^ 32 + other * other)) % 2 ^ (Reg.RADIUS 1).width ∧
      getB t (Reg.MOT_STATUS_RAD_VALID 0) = true ∧ getB t (Reg.MOT_STATUS_RAD_VALID 1) = true ∧
      WordsKept (fun a => a ∈ [(Reg.RADIUS 0).addr, (Reg.RADIUS 1).addr, (Reg.MOT_STATUS_RAD_VALID 0).addr, (Reg.MOT_STATUS_RAD_VALID 1).addr]) s t ∧ OnlyTouches [.regs, .mot] s t) ∧
  (∀ (v : Nat) (s : State),
    getB s (hdrLOCK 0x78) = false →
    Runs (.radSeed v) s fun t =>
      getF t (Reg.RAD_K 0) = v % 2 ^ (Reg.RAD_K 0).width ∧ WordsKept (fun a => a = (Reg.RAD_K 0).addr ∨ a = (Reg.RAD_SEED 0).addr) s t ∧ OnlyTouches [.regs] s t) ∧
  (∀ (code : Nat) (s : State),
    (getB s Reg.ADC_CTRL_EN = true ∧ pageRuns s 0x78 = true ∧ code < 4096) →
    (getB s (Reg.CHOP_STATUS_ON 0) = false ∧ getB s (Reg.CHOP_STATUS_OVERLOAD 0) = false) →
    getF s Reg.CAP_CTRL_TRIG ≠ 2 →
    Runs (.vbusSample code false) s fun t =>
      vbus t = min 65535 (code * getF s (Reg.VBUS_SCALE 0) / 1000) ∧
      getB t (Reg.CHOP_STATUS_ON 0) = decide (getF s (Reg.VBUS_CHOP_ON 0) < min 65535 (code * getF s (Reg.VBUS_SCALE 0) / 1000)) ∧
      getF t (Reg.CHOP_CNT 0) = (if getF s (Reg.VBUS_CHOP_ON 0) < min 65535 (code * getF s (Reg.VBUS_SCALE 0) / 1000) then satAdd (Reg.CHOP_CNT 0).width (getF s (Reg.CHOP_CNT 0)) 1 else getF s (Reg.CHOP_CNT 0)) ∧
      WordsKept (fun a => a ∈ [(Reg.VBUS 0).addr, (Reg.CHOP_STATUS_ON 0).addr, (Reg.CHOP_CNT 0).addr] ∨ faultWord 0x78 a) s t ∧ OnlyTouches [.regs, .evt, .mot] s t) ∧
  (∀ (code : Nat) (late : Bool) (s : State),
    (getB s Reg.ADC_CTRL_EN = false ∨ pageRuns s 0x78 = false) →
    exec (.vbusSample code late) s = .next s) ∧
  (∀ (x : Nat) (s : State),
    x < 2 →
    shown (reel s x).bad 40 = true →
    Runs (.curPlaus x) s fun t =>
      Recorded (motPage x) 30 0x4E05 s t ∧ Stopped Reg.SAFE_STATUS_S2 0x4E05 t ∧ torqueOff t = true ∧ getB t Reg.SAFE_STATUS_UNCONTROLLED = true ∧
      WordsKept (fun a => stopWord a ∨ faultWord (motPage x) a ∨ a = Reg.CAP_STATUS_TRIGGERED.addr) s t ∧ OnlyTouches (.mot :: stopParts) s t) ∧
  (∀ (x : Nat) (s : State),
    shown (reel s x).bad 40 = false →
    exec (.curPlaus x) s = .next s) ∧
  (∀ (x : Nat) (s : State),
    x < 2 →
    shown (reel s x).speeding 40 = true →
    Runs (.reelOverspeed x) s fun t =>
      Recorded (motPage x) 30 0x4E06 s t ∧ Stopped Reg.SAFE_STATUS_S2 0x4E06 t ∧ torqueOff t = true ∧ getB t Reg.SAFE_STATUS_UNCONTROLLED = true ∧
      WordsKept (fun a => stopWord a ∨ faultWord (motPage x) a ∨ a = Reg.CAP_STATUS_TRIGGERED.addr) s t ∧ OnlyTouches (.mot :: stopParts) s t) ∧
  (∀ (x : Nat) (s : State),
    shown (reel s x).speeding 40 = false →
    exec (.reelOverspeed x) s = .next s) ∧
  (∀ (c : Instr) (code : Nat) (y : ExecSt) (s : State),
    ((c = .curPlaus 0 ∧ code = 0x4E05 ∧ shown (reel s 0).bad 40 = true) ∨ (c = .reelOverspeed 0 ∧ code = 0x4E06 ∧ shown (reel s 0).speeding 40 = true) ∨ (c = .busUv ∧ code = 0x3E08 ∧ shown s.mot.lowBus 80 = true)) →
    touchesMedium (dOpcode y.entry.desc) = true →
    (mayFinish y s = true ∧ s.que.loss = none ∧ s.fmt.writing = none) →
    Runs c s fun t => t.que.exec = none ∧ Completes 0 (dTag y.entry.desc) stMOTION_FAULT code t) ∧
  (∀ (s : State),
    s.pins.inReset = false →
    Runs .busOvervolt s fun t =>
      Recorded 0x78 30 0x4E0B s t ∧ Stopped Reg.SAFE_STATUS_S2 0x4E0B t ∧ torqueOff t = true ∧ getB t Reg.SAFE_STATUS_BUS_CLAMP = true ∧
      WordsKept (fun a => stopWord a ∨ faultWord 0x78 a ∨ a = Reg.CAP_STATUS_TRIGGERED.addr) s t ∧ OnlyTouches (.mot :: stopParts) s t) ∧
  (∀ (s : State),
    s.pins.inReset = true →
    exec .busOvervolt s = .next (setF Reg.SAFE_STATUS_BUS_CLAMP 1 s)) ∧
  (∀ (s : State),
    shown s.mot.lowBus 80 = true →
    Runs .busUv s fun t =>
      Recorded 0x78 30 0x3E08 s t ∧ Stopped Reg.SAFE_STATUS_S1 0x3E08 t ∧
      WordsKept (fun a => stopWord a ∨ faultWord 0x78 a ∨ a = Reg.CAP_STATUS_TRIGGERED.addr) s t ∧ OnlyTouches (.mot :: stopParts) s t) ∧
  (∀ (s : State),
    chopWaited s = true →
    Runs .chopperFault s fun t =>
      getB t (Reg.CHOP_STATUS_FAULT 0) = true ∧ Recorded 0x78 5 0x4E0A s t ∧ Stopped Reg.SAFE_STATUS_S1 0x4E0A t ∧
      getS t (Reg.IQ_REF_ID_REF 0) = sat16 (lossId s 0 (getS s (Reg.IQ_REF_IQ_REF 0))) ∧ getS t (Reg.IQ_REF_ID_REF 1) = sat16 (lossId s 1 (getS s (Reg.IQ_REF_IQ_REF 1))) ∧
      WordsKept (fun a => stopWord a ∨ faultWord 0x78 a ∨ a ∈ [(Reg.CHOP_STATUS_FAULT 0).addr, Reg.CAP_STATUS_TRIGGERED.addr, (Reg.IQ_REF_ID_REF 0).addr, (Reg.IQ_REF_ID_REF 1).addr]) s t ∧
      OnlyTouches (.mot :: stopParts) s t)

/-- LOOP_SAMPLE_10KHZ (R512, R515–R519, R525), ACT_PWM_PERIOD (R533) and ACT_SENSE (R535). -/
def Obligations.LoopSampling : Prop :=
  (∀ (aux late : List Nat) (s : State),
    loopOn s = false →
    s.mot.edges = [] →
    Runs (.loopSample10khz aux late) s fun t =>
      t.mot.periods = s.mot.periods + 1 ∧ t.mot.slots = s.mot.slots ∧ t.mot.vSp = s.mot.vSp ∧ t.mot.vRate = s.mot.vRate ∧
      WordsKept (fun a => a ∈ [Reg.TENSION.addr, Reg.SPM_STATUS_CEIL.addr, (Reg.VCEIL 0).addr, (Reg.VCEIL 1).addr, Reg.TURN_AGE.addr, Reg.POS_SPEED.addr]) s t ∧ OnlyTouches [.regs, .pos, .mot] s t) ∧
  (∀ (aux : List Nat) (s : State),
    loopOn s = true →
    (s.mot.edges = [] ∧ getB s Reg.INJ_CTRL_RUN = false ∧ getF s Reg.SPD_CTRL_SRC = 0) →
    (s1InForce s = false ∧ s3InForce s = false ∧ getB s (Reg.MOT_STATUS_VLIMIT 0) = false ∧ getB s (Reg.MOT_STATUS_VLIMIT 1) = false ∧ decelHalf s = false) →
    s.mot.cmdTarget = sat32 (tdiv s.mot.cmdTarget 1000) * 1000 →
    Runs (.loopSample10khz aux []) s fun t =>
      (t.mot.vSp, t.mot.vRate) = limiter (item s 0 3) (item s 0 4) false (tdiv s.mot.cmdTarget 1000 * 65536) s.mot.vSp s.mot.vRate ∧
      getB t Reg.LOOP_FLAGS_TRAIL = decide (asr t.mot.vSp 16 < 0) ∧ getB t Reg.LOOP_FLAGS_VCLAMP = false ∧ t.mot.periods = s.mot.periods + 1 ∧
      OnlyTouches [.regs, .evt, .pos, .mot] s t) ∧
  (∀ (aux : List Nat) (x : Nat) (s : State),
    loopOn s = true →
    x < 2 →
    Runs (.loopSample10khz aux []) s fun t =>
      getB t (guardFlag x) = decide ((slot t (3 + x)).out < (slot t x).out) ∧ (slot t x).loser = getB t (guardFlag x) ∧ (slot t (3 + x)).loser = !(getB t (guardFlag x)) ∧
      getS t (Reg.IQ_REF_IQ_REF x) = sat16 (reelPol t x * clampI (-(getF t (Reg.CUR_LIMIT_IMAX x) : Int)) (getF t (Reg.CUR_LIMIT_IMAX x)) (sat32 (min (slot t (3 + x)).out (slot t x).out + (reel t x).rep))) ∧
      OnlyTouches [.regs, .evt, .pos, .mot] s t) ∧
  (∀ (aux : List Nat) (s : State),
    (loopOn s = true ∧ getF s Reg.OVR_CNT < 2 ^ 32 - 1) →
    ((slot s 2).ovr = 0 ∧ motCoreRuns s 2 = true) →
    Runs (.loopSample10khz aux [2]) s fun t =>
      getF t Reg.OVR_CNT = getF s Reg.OVR_CNT + 1 ∧ slot t 2 = { slot s 2 with ovr := 1, skipped := true, fe := 0 } ∧ OnlyTouches [.regs, .evt, .pos, .mot] s t) ∧
  (∀ (aux : List Nat) (s : State),
    loopOn s = true →
    ((slot s 2).ovr ≠ 0 ∧ motCoreRuns s 2 = true) →
    Runs (.loopSample10khz aux [2]) s fun t =>
      slot t 2 = { slot s 2 with ovr := 0, skipped := true, fe := 0 } ∧ Recorded 0x7C 30 0x3E0D s t ∧ Stopped Reg.SAFE_STATUS_S1 0x3E0D t ∧ OnlyTouches (.pos :: stopParts) s t) ∧
  (∀ (a cur pos : Nat) (late overrun : Bool) (s : State),
    (a < 2 ∧ pageRuns s 0x7A = true) →
    getB s Reg.ADC_CTRL_EN = true →
    (getB s (actEn a) = false ∨ actSto s = true) →
    Runs (.actPwmPeriod a cur pos late overrun) s fun t =>
      getF t (actDuty a) = 0 ∧ getB t (actRun a) = false ∧ slot t (7 + a) = { slot s (7 + a) with s := 0 } ∧
      getS t (actCur a) = sat16 (tdiv (((cur % 4096 : Nat) - 2048) * getF s (actScale a)) 1000) ∧ getS t (actPos a) = sat16 (((pos % 4096 : Nat) : Int) - getF s (actOfs a)) ∧
      WordsKept (fun w => w ∈ [(actDuty a).addr, (actRun a).addr, (actCur a).addr, (actPos a).addr, Reg.ADC_LATE_CNT.addr]) s t ∧ OnlyTouches [.regs, .mot] s t) ∧
  (∀ (a cur pos : Nat) (late : Bool) (s : State),
    (a < 2 ∧ pageRuns s 0x7A = true) →
    (getB s (actEn a) = true ∧ actSto s = false) →
    Runs (.actPwmPeriod a cur pos late false) s fun t =>
      getS t (actDuty a) = sat16 (slot t (7 + a)).out ∧ getB t (actRun a) = true ∧ OnlyTouches [.regs, .evt, .mot] s t) ∧
  (∀ (a : Nat) (s : State),
    a < 2 →
    shown (Tbl.get none s.mot.actBad a) 80 = true →
    Runs (.actSense a) s fun t =>
      Recorded 0x7A 30 0x4E10 s t ∧ Stopped Reg.SAFE_STATUS_S2 0x4E10 t ∧ torqueOff t = true ∧
      WordsKept (fun a => stopWord a ∨ faultWord 0x7A a ∨ a = Reg.CAP_STATUS_TRIGGERED.addr) s t ∧ OnlyTouches (.mot :: stopParts) s t)

/-- LOOP_COMMIT (R522), SLOT_WIN_WRITE (R539, R540), SPD_SRC_WRITE (R515), SPDREF_EDGE and SPDREF_LOST (R516), REP_CLR and BIN_WIN_WRITE (R528, R543). -/
def Obligations.LoopSettings : Prop :=
  (∀ (mask : Nat) (s : State),
    getB s (hdrLOCK 0x7C) = false →
    Runs (.loopCommit mask) s fun t =>
      (∀ n < 16, slot t n = if mask.testBit n then { slot s n with commit := true, due := false } else slot s n) ∧ t.mot = { s.mot with slots := t.mot.slots } ∧
      WordsKept (fun _ => False) s t ∧ OnlyTouches [.mot] s t) ∧
  (∀ (v n i : Nat) (s : State),
    getB s (hdrLOCK 0x7C) = false →
    (getF s Reg.LOOP_SLOT_WIN_ADDR_SLOT = n ∧ getF s Reg.LOOP_SLOT_WIN_ADDR_ITEM = i) →
    (i ≤ 91 ∧ (i ≠ 0 ∨ 9 ≤ n)) →
    Runs (.slotWinWrite v) s fun t =>
      stagedItem t n i = itemClamp i v ∧ Tbl.erase t.mot.staged (loopKey n i) = Tbl.erase s.mot.staged (loopKey n i) ∧ t.mot = { s.mot with staged := t.mot.staged } ∧
      getF t Reg.LOOP_SLOT_WIN_ADDR_ITEM = (if getB s Reg.LOOP_SLOT_WIN_ADDR_AUTOINC then i + 1 else i) ∧ getF t Reg.LOOP_SLOT_WIN_ADDR_SLOT = n ∧
      WordsKept (· = Reg.LOOP_SLOT_WIN_ADDR_ITEM.addr) s t ∧ OnlyTouches [.regs, .mot] s t) ∧
  (∀ (v : Nat) (s : State),
    getB s (hdrLOCK 0x7C) = false →
    (91 < getF s Reg.LOOP_SLOT_WIN_ADDR_ITEM ∨ getF s Reg.LOOP_SLOT_WIN_ADDR_ITEM = 0 ∧ getF s Reg.LOOP_SLOT_WIN_ADDR_SLOT ≤ 8) →
    Runs (.slotWinWrite v) s fun t =>
      Recorded 0x7C 4 0 s t ∧ t.mot = s.mot ∧ WordsKept (fun a => a = Reg.LOOP_SLOT_WIN_ADDR_ITEM.addr ∨ noticeWord 0x7C a) s t ∧ OnlyTouches [.regs, .evt] s t) ∧
  (∀ (src : Nat) (s : State),
    getB s (hdrLOCK 0x7C) = false →
    (src < 3 ∧ boardRuns s = false ∧ mediumQueued s = false) →
    Runs (.spdSrcWrite src) s fun t => getF t Reg.SPD_CTRL_SRC = src ∧ WordsKept (· = Reg.SPD_CTRL_SRC.addr) s t ∧ OnlyTouches [.regs] s t) ∧
  (∀ (src : Nat) (s : State),
    getB s (hdrLOCK 0x7C) = false →
    (3 ≤ src ∨ boardRuns s = true ∨ mediumQueued s = true) →
    exec (.spdSrcWrite src) s = .next s) ∧
  (∀ (k : Nat) (s : State),
    k < 10000 →
    Runs (.spdrefEdge k) s fun t =>
      getB t Reg.SPDREF_STATUS_LOST = false ∧ t.mot = { s.mot with edges := s.mot.edges ++ [s.mot.periods * 10000 + k], edgeAt := some (s.mot.periods * 10000 + k) } ∧
      WordsKept (· = Reg.SPDREF_STATUS_LOST.addr) s t ∧ OnlyTouches [.regs, .mot] s t) ∧
  (∀ (s : State),
    (shown (s.mot.edgeAt.map fun t => s.mot.periods * 10000 - t) (getF s Reg.SPDREF_CFG_TMO * 100000) = true) →
    getF s Reg.CAP_CTRL_TRIG ≠ 2 →
    Runs .spdrefLost s fun t =>
      getB t Reg.SPDREF_STATUS_LOST = true ∧ getF t Reg.SPDREF_STATUS_RATE = 0 ∧ t.mot = { s.mot with edges := [] } ∧
      Recorded 0x7C 3 (if getF s Reg.SPD_CTRL_SRC = 1 then 0x0E0F else 0) s t ∧
      WordsKept (fun a => a = Reg.SPDREF_STATUS_LOST.addr ∨ noticeWord 0x7C a ∨ faultWord 0x7C a) s t ∧ OnlyTouches [.regs, .evt, .mot] s t) ∧
  (∀ (a b : Bool) (s : State),
    getB s (hdrLOCK 0x7E) = false →
    Runs (.repClr a b) s fun t =>
      (∀ k < 256, bin t 0 k = (if a then 0 else bin s 0 k) ∧ bin t 1 k = (if b then 0 else bin s 1 k)) ∧ t.mot = { s.mot with bins := t.mot.bins } ∧
      WordsKept (fun _ => False) s t ∧ OnlyTouches [.mot] s t) ∧
  (∀ (v x k : Nat) (s : State),
    getB s (hdrLOCK 0x7E) = false →
    (getF s Reg.BIN_WIN_ADDR_REEL = x ∧ getF s Reg.BIN_WIN_ADDR_BIN = k) →
    getB s (repEn x) = false →
    Runs (.binWinWrite v) s fun t =>
      bin t x k = toS 16 v ∧ Tbl.erase t.mot.bins (256 * x + k) = Tbl.erase s.mot.bins (256 * x + k) ∧ t.mot = { s.mot with bins := t.mot.bins } ∧
      getF t Reg.BIN_WIN_ADDR_BIN = (if getB s Reg.BIN_WIN_ADDR_AUTOINC then (k + 1) % 256 else k) ∧ WordsKept (· = Reg.BIN_WIN_ADDR_BIN.addr) s t ∧ OnlyTouches [.regs, .mot] s t) ∧
  (∀ (c : Instr) (p v : Nat) (a b : Bool) (s : State),
    (c ∈ [.loopCommit v, .slotWinWrite v, .spdSrcWrite v] ∧ p = 0x7C ∨ c ∈ [.repClr a b, .binWinWrite v] ∧ p = 0x7E) →
    getB s (hdrLOCK p) = true →
    exec c s = .next (setF (hdrLOCK_WR p) 1 s))

/-- INJ_GO, INJ_STOP, INJ_DONE (R536, R537), CAP_ARM, CAP_ABORT, CAP_DONE (R538), LOOP_FOLLOW (R524, R526), OVERTENSION, OVERTENSION_HW and SLACK_TAPE (R550, R551). -/
def Obligations.InjectionCaptureAndTension : Prop :=
  (∀ (s : State),
    getB s (hdrLOCK 0x7C) = false →
    (boardRuns s = false ∧ mediumQueued s = false ∧ safeInForce s = false) →
    Runs .injGo s fun t =>
      getB t Reg.INJ_CTRL_RUN = true ∧ t.mot = { s.mot with inj := { left := getF s Reg.INJ_COUNT, first := true } } ∧ WordsKept (· = Reg.INJ_CTRL_RUN.addr) s t ∧ OnlyTouches [.regs, .mot] s t) ∧
  (∀ (s : State),
    getB s (hdrLOCK 0x7C) = false →
    (boardRuns s = true ∨ mediumQueued s = true ∨ safeInForce s = true) →
    exec .injGo s = .next (setF Reg.INJ_CTRL_REFUSED 1 s)) ∧
  (∀ (s : State),
    getB s (hdrLOCK 0x7C) = false →
    getB s Reg.INJ_CTRL_RUN = true →
    Runs .injStop s fun t =>
      getB t Reg.INJ_CTRL_RUN = false ∧ Recorded 0x7C 2 0 s t ∧ WordsKept (fun a => a = Reg.INJ_CTRL_RUN.addr ∨ noticeWord 0x7C a) s t ∧ OnlyTouches [.regs, .evt] s t) ∧
  (∀ (s : State),
    (getF s Reg.INJ_COUNT ≠ 0 ∧ s.mot.inj.left = 0) →
    getB s Reg.INJ_CTRL_RUN = true →
    Runs .injDone s fun t =>
      getB t Reg.INJ_CTRL_RUN = false ∧ Recorded 0x7C 2 0 s t ∧ WordsKept (fun a => a = Reg.INJ_CTRL_RUN.addr ∨ noticeWord 0x7C a) s t ∧ OnlyTouches [.regs, .evt] s t) ∧
  (∀ (s : State),
    (getF s Reg.INJ_COUNT = 0 ∨ s.mot.inj.left ≠ 0) →
    exec .injDone s = .next s) ∧
  (∀ (s : State),
    (getB s (hdrLOCK 0x7D) = false ∧ pageRuns s 0x7D = true) →
    getF s Reg.CAP_CTRL_TRIG ≠ 0 →
    Runs .capArm s fun t =>
      t.mot = { s.mot with cap := {} } ∧ getB t Reg.CAP_STATUS_ARMED = true ∧ getB t Reg.CAP_STATUS_TRIGGERED = false ∧ getF t Reg.CAP_STATUS_INDEX = 0 ∧
      WordsKept (· = Reg.CAP_STATUS_ARMED.addr) s t ∧ OnlyTouches [.regs, .mot] s t) ∧
  (∀ (s : State),
    getB s (hdrLOCK 0x7D) = false →
    exec .capAbort s = .next (setF Reg.CAP_STATUS_ARMED 0 s)) ∧
  (∀ (s : State),
    (getB s Reg.CAP_STATUS_ARMED = true ∧ getB s Reg.CAP_STATUS_TRIGGERED = true ∧ capFull s = true) →
    Runs .capDone s fun t =>
      getB t Reg.CAP_STATUS_ARMED = false ∧ getB t Reg.CAP_STATUS_DONE = true ∧ getF t Reg.CAP_TRIG_LO = s.mot.cap.stamp.lo % 2 ^ Reg.CAP_TRIG_LO.width ∧
      getF t Reg.CAP_TRIG_HI = s.mot.cap.stamp.hi % 2 ^ Reg.CAP_TRIG_HI.width ∧
      WordsKept (fun a => a ∈ [Reg.CAP_STATUS_ARMED.addr, Reg.CAP_TRIG_LO.addr, Reg.CAP_TRIG_HI.addr]) s t ∧ OnlyTouches [.regs] s t) ∧
  (∀ (s : State),
    (getB s Reg.CAP_STATUS_ARMED = false ∨ getB s Reg.CAP_STATUS_TRIGGERED = false ∨ capFull s = false) →
    exec .capDone s = .next s) ∧
  (∀ (n : Nat) (s : State),
    (n ≤ 1 ∧ item s n 9 ≠ 0) →
    ((slot s n).signals = [] ∨ item s n 10 ≤ (slot s n).fe) →
    Runs (.loopFollow n) s fun t =>
      Recorded 0x7C 30 0x4E0C s t ∧ Stopped Reg.SAFE_STATUS_S2 0x4E0C t ∧ torqueOff t = true ∧ getF t Reg.FE_CNT = satAdd Reg.FE_CNT.width (getF s Reg.FE_CNT) 1 ∧ (slot t n).fe = 0 ∧
      WordsKept (fun a => stopWord a ∨ faultWord 0x7C a ∨ a = Reg.FE_CNT.addr ∨ a = Reg.CAP_STATUS_TRIGGERED.addr) s t ∧ OnlyTouches (.mot :: stopParts) s t) ∧
  (∀ (n : Nat) (s : State),
    (n = 2 ∨ 5 ≤ n ∧ n ≤ 8) →
    item s n 9 ≠ 0 →
    ((slot s n).signals = [] ∨ item s n 10 ≤ (slot s n).fe) →
    Runs (.loopFollow n) s fun t =>
      Recorded 0x7C 30 (if n = 2 then 0x4E0C else 0x3E0C) s t ∧ Stopped Reg.SAFE_STATUS_S1 (if n = 2 then 0x4E0C else 0x3E0C) t ∧
      getF t Reg.FE_CNT = satAdd Reg.FE_CNT.width (getF s Reg.FE_CNT) 1 ∧
      WordsKept (fun a => stopWord a ∨ faultWord 0x7C a ∨ a = Reg.FE_CNT.addr ∨ a = Reg.CAP_STATUS_TRIGGERED.addr) s t ∧ OnlyTouches (.mot :: stopParts) s t) ∧
  (∀ (s : State),
    (getF s Reg.TEN_LIMITS_TEN_MAX ≠ 0 ∧ shown s.mot.tenHigh 2 = true) →
    Runs .overtension s fun t =>
      Recorded 0x7C 30 0x4E11 s t ∧ Stopped Reg.SAFE_STATUS_S2 0x4E11 t ∧ torqueOff t = true ∧
      WordsKept (fun a => stopWord a ∨ faultWord 0x7C a ∨ a = Reg.CAP_STATUS_TRIGGERED.addr) s t ∧ OnlyTouches (.mot :: stopParts) s t) ∧
  (∀ (s : State),
    getB s Reg.SAFE_CFG_TEN_CMP_EN = true →
    Runs .overtensionHw s fun t =>
      Recorded 0x7C 30 0x4E12 s t ∧ Stopped Reg.SAFE_STATUS_S2 0x4E12 t ∧ torqueOff t = true ∧
      WordsKept (fun a => stopWord a ∨ faultWord 0x7C a ∨ a = Reg.CAP_STATUS_TRIGGERED.addr) s t ∧ OnlyTouches (.mot :: stopParts) s t) ∧
  (∀ (s : State),
    (getF s Reg.TEN_LIMITS_TEN_MIN ≠ 0 ∧ shown s.mot.tenLow 20 = true) →
    Runs .slackTape s fun t =>
      Recorded 0x7C 30 0x4E13 s t ∧ Stopped Reg.SAFE_STATUS_S1 0x4E13 t ∧
      WordsKept (fun a => stopWord a ∨ faultWord 0x7C a ∨ a = Reg.CAP_STATUS_TRIGGERED.addr) s t ∧ OnlyTouches (.mot :: stopParts) s t) ∧
  (∀ (c : Instr) (s : State),
    (c = .overtension ∧ (getF s Reg.TEN_LIMITS_TEN_MAX = 0 ∨ shown s.mot.tenHigh 2 = false) ∨ c = .slackTape ∧ (getF s Reg.TEN_LIMITS_TEN_MIN = 0 ∨ shown s.mot.tenLow 20 = false) ∨ c = .overtensionHw ∧ getB s Reg.SAFE_CFG_TEN_CMP_EN = false) →
    exec c s = .next s)

/-- S1_TIMEOUT (R546), STO_READBACK (R552), SAFE_STOP (R554), CLK_FAIL (R555) and SAFE_CFG_MISMATCH (R556). -/
def Obligations.StopsOfTheIsland : Prop :=
  (∀ (s : State),
    (s1InForce s = true ∧ getB s Reg.POS_STATUS_STILL = false) →
    Runs .s1Timeout s fun t =>
      Recorded 0x02 3 0x4104 s t ∧ Stopped Reg.SAFE_STATUS_S2 0x4104 t ∧ torqueOff t = true ∧ s1InForce t = true ∧
      WordsKept (fun a => stopWord a ∨ faultWord 0x02 a) s t ∧ OnlyTouches stopParts s t) ∧
  (∀ (s : State),
    (s1InForce s = false ∨ getB s Reg.POS_STATUS_STILL = true) →
    exec .s1Timeout s = .next s) ∧
  (∀ (s : State),
    (getB s Reg.SAFE_STATUS_SSN_LATCHED = false ∧ getB s Reg.SAFE_CFG_SSN_MODE = false) →
    Runs .safeStop s fun t =>
      getB t Reg.SAFE_STATUS_SSN_PIN = false ∧ getB t Reg.SAFE_STATUS_SSN_LATCHED = true ∧ Recorded 0x02 0 0x4101 s t ∧ Stopped Reg.SAFE_STATUS_S1 0x4101 t ∧
      (getB s Reg.POS_STATUS_STILL = true → torqueOff t = true) ∧ WordsKept (fun a => stopWord a ∨ faultWord 0x02 a) s t ∧ OnlyTouches stopParts s t) ∧
  (∀ (s : State),
    (getB s Reg.SAFE_STATUS_SSN_LATCHED = false ∧ getB s Reg.SAFE_CFG_SSN_MODE = true) →
    Runs .safeStop s fun t =>
      getB t Reg.SAFE_STATUS_SSN_LATCHED = true ∧ Recorded 0x02 0 0x4101 s t ∧ Stopped Reg.SAFE_STATUS_S2 0x4101 t ∧ torqueOff t = true ∧
      WordsKept (fun a => stopWord a ∨ faultWord 0x02 a) s t ∧ OnlyTouches stopParts s t) ∧
  (∀ (s : State),
    getB s Reg.SAFE_STATUS_SSN_LATCHED = true →
    exec .safeStop s = .next (setF Reg.SAFE_STATUS_SSN_PIN 0 s)) ∧
  (∀ (s : State),
    Runs .stoReadback s fun t =>
      Recorded 0x02 2 0x4103 s t ∧ Stopped Reg.SAFE_STATUS_S2 0x4103 t ∧ torqueOff t = true ∧ WordsKept (fun a => stopWord a ∨ faultWord 0x02 a) s t ∧ OnlyTouches stopParts s t) ∧
  (∀ (island : Bool) (n : Nat) (s : State),
    Runs (.clkFail island n) s fun t =>
      Recorded 0x05 (if island then 2 else 1) (if island then 0x4003 else 0x4002) s t ∧ Stopped Reg.SAFE_STATUS_S2 (if island then 0x4003 else 0x4002) t ∧ torqueOff t = true ∧
      getB t Reg.CLK_STATUS_CLK_FAILED = true ∧ (island = false → getB t Reg.CLK_STATUS_REFCLK_OK = false) ∧ getF t Reg.CLK_REF_MEAS = n % 2 ^ Reg.CLK_REF_MEAS.width ∧
      getB t Reg.SAFE_CAUSE_PORST_ONLY = true ∧
      WordsKept (fun a => stopWord a ∨ faultWord 0x05 a ∨ a = Reg.CLK_STATUS_CLK_FAILED.addr ∨ a = Reg.CLK_REF_MEAS.addr) s t ∧ OnlyTouches stopParts s t) ∧
  (∀ (n : Nat) (v : Word) (s : State),
    (isSealed s = true ∧ n < 4) →
    rd s (pairAddr n).1 ≠ v →
    Runs (.safeCfgMismatch n v) s fun t =>
      rd t (pairAddr n).2 = v ∧ cfgOk t = false ∧ Recorded 0x02 1 0x4102 s t ∧ Stopped Reg.SAFE_STATUS_S2 0x4102 t ∧ torqueOff t = true ∧
      WordsKept (fun a => stopWord a ∨ faultWord 0x02 a) s t ∧ OnlyTouches stopParts s t) ∧
  (∀ (n : Nat) (v : Word) (s : State),
    (isSealed s = false ∨ 4 ≤ n ∨ rd s (pairAddr n).1 = v) →
    exec (.safeCfgMismatch n v) s = .next s)

/-- FAULT_HANDLE (R560–R562), FLT_LOG_TAIL_WRITE (R563), TURN, TURN_FORCE_START and TURN_OVERDUE (R564–R566). The index of an item in the cycle is the model's choice (log entry 76). -/
def Obligations.FaultLogAndTurns : Prop :=
  (∀ (r f : FaultRec) (rest : List FaultRec) (s : State),
    svc3Runs s = true →
    (s.evt.safetyBuf = [] ∧ s.evt.handling = [r] ∧ s.evt.faultFifo = f :: rest) →
    ((getF s Reg.FLT_LOG_HEAD - getF s Reg.FLT_LOG_TAIL) < 1024 ∧ getF s Reg.FLT_LOG_HEAD < 2 ^ 32 - 1) →
    s.evt.fifo.length < 256 →
    Runs .faultHandle s fun t =>
      t.evt.handling = [f] ∧ t.evt.faultFifo = rest ∧ Tbl.get { seq := 0, flt := r } t.evt.log (getF s Reg.FLT_LOG_HEAD % 1024) = { seq := getF s Reg.FLT_LOG_HEAD, flt := r } ∧
      getF t Reg.FLT_LOG_HEAD = getF s Reg.FLT_LOG_HEAD + 1 ∧ (t.evt.fifo.length = s.evt.fifo.length + 1 ↔ getF s Reg.FLT_CTRL ≤ sevOf r.code) ∧
      WordsKept (· = Reg.FLT_LOG_HEAD.addr) s t ∧ OnlyTouches [.regs, .evt] s t) ∧
  (∀ (r : FaultRec) (rest : List FaultRec) (s : State),
    svc3Runs s = true →
    s.evt.safetyBuf = r :: rest →
    (getF s Reg.FLT_LOG_HEAD - getF s Reg.FLT_LOG_TAIL) < 1024 →
    (s.evt.fifo.length < 256 ∧ s.evt.handling ≠ []) →
    Runs .faultHandle s fun t =>
      t.evt.safetyBuf = rest ∧ t.evt.handling = s.evt.handling ∧ t.evt.faultFifo = s.evt.faultFifo ∧
      (Tbl.get { seq := 0, flt := r } t.evt.log (getF s Reg.FLT_LOG_HEAD % 1024)).flt = r ∧ WordsKept (· = Reg.FLT_LOG_HEAD.addr) s t ∧ OnlyTouches [.regs, .evt] s t) ∧
  (∀ (s : State),
    (svc3Runs s = false ∨ s.evt.safetyBuf = [] ∧ s.evt.handling = []) →
    exec .faultHandle s = .next s) ∧
  (∀ (v : Nat) (s : State),
    getB s (hdrLOCK 0x01) = false →
    Runs (.fltLogTailWrite v) s fun t => getF t Reg.FLT_LOG_TAIL = v % 2 ^ Reg.FLT_LOG_TAIL.width ∧ WordsKept (· = Reg.FLT_LOG_TAIL.addr) s t ∧ OnlyTouches [.regs] s t) ∧
  (∀ (rows : List Nat) (n : Nat) (s : State),
    (turnsRun s = true ∧ turnWaits n s = false ∧ getB s Reg.TURN_STATUS_FORCING = false) →
    (getF s Reg.TURN_STATUS_DONE = n ∧ n + 1 < turnsInCycle) →
    (n ≠ 110 ∧ (n < 119 ∨ 123 ≤ n) ∧ (n < 125 ∨ 141 ≤ n)) →
    Runs (.turn false rows) s fun t => getF t Reg.TURN_STATUS_DONE = n + 1 ∧ WordsKept (· = Reg.TURN_STATUS_DONE.addr) s t ∧ OnlyTouches [.regs] s t) ∧
  (∀ (rows : List Nat) (n : Nat) (f : Fld) (s : State),
    (turnsRun s = true ∧ turnWaits n s = false ∧ getB s Reg.TURN_STATUS_FORCING = false) →
    getF s Reg.TURN_STATUS_DONE = n →
    (119 ≤ n ∧ n < 123 ∧ f = Reg.PAIR_MISMATCH_CNT ∨ 125 ≤ n ∧ n < 141 ∧ f = Reg.DV_MISMATCH_CNT) →
    Runs (.turn false rows) s fun t =>
      getF t Reg.TURN_STATUS_DONE = n + 1 ∧ getF t f = satAdd f.width (getF s f) 1 ∧ WordsKept (fun a => a = Reg.TURN_STATUS_DONE.addr ∨ a = f.addr) s t ∧ OnlyTouches [.regs] s t) ∧
  (∀ (rows : List Nat) (s : State),
    (turnsRun s = true ∧ getB s Reg.TURN_STATUS_FORCING = false) →
    getF s Reg.TURN_STATUS_DONE = 1317 →
    Runs (.turn false rows) s fun t =>
      getF t Reg.TURN_STATUS_DONE = 0 ∧ getF t Reg.TURN_AGE = 0 ∧ getF t Reg.TURN_CYCLE_CNT = satAdd Reg.TURN_CYCLE_CNT.width (getF s Reg.TURN_CYCLE_CNT) 1 ∧
      WordsKept (fun a => a ∈ [Reg.TURN_STATUS_DONE.addr, Reg.TURN_AGE.addr, Reg.TURN_CYCLE_CNT.addr]) s t ∧ OnlyTouches [.regs] s t) ∧
  (∀ (rows : List Nat) (n : Nat) (s : State),
    (turnsRun s = true ∧ getF s Reg.TURN_STATUS_DONE = n ∧ n < 100) →
    Runs (.turn true rows) s fun t =>
      Recorded 0x04 0 0x4F01 s t ∧ Stopped Reg.SAFE_STATUS_S3 0x4F01 t ∧ getF t Reg.TURN_FAIL_LAST_ITEM = n ∧ getF t Reg.TURN_FAIL_LAST_CODE = 0x4F01 ∧ getF t Reg.TURN_STATUS_DONE = n + 1 ∧
      WordsKept (fun a => stopWord a ∨ a / 0x1000 = 0x04 ∨ faultWord 0x04 a) s t ∧ OnlyTouches stopParts s t) ∧
  (∀ (bad : Bool) (rows : List Nat) (s : State),
    (turnsRun s = false ∨ turnWaits (getF s Reg.TURN_STATUS_DONE) s = true) →
    exec (.turn bad rows) s = .next s) ∧
  (∀ (s : State),
    turnsRun s = true →
    Runs .turnForceStart s fun t =>
      getB t Reg.TURN_STATUS_FORCING = true ∧ getF t Reg.TURN_AGE = max 55000 (getF s Reg.TURN_AGE) ∧ WordsKept (fun a => a = Reg.TURN_STATUS_FORCING.addr ∨ a = Reg.TURN_AGE.addr) s t ∧ OnlyTouches [.regs] s t) ∧
  (∀ (s : State),
    isSealed s = true →
    Runs .turnOverdue s fun t =>
      Recorded 0x04 8 0x3F09 s t ∧ getF t Reg.TURN_AGE = max 60000 (getF s Reg.TURN_AGE) ∧ WordsKept (fun a => a = Reg.TURN_AGE.addr ∨ faultWord 0x04 a) s t ∧ OnlyTouches [.regs, .evt] s t)

/-- PORST_ASSERT (R595), BROWNOUT (R596), RAIL_CHANGE (R593), PORST_RELEASE (R578, R594), CART_PRES_FAULT and its clearing (R627). The waiting commands and the count of free values are the model's own and go on. -/
def Obligations.PowerAndResets : Prop :=
  (∀ (s : State),
    s.pins.inReset = false →
    Runs .porstAssert s fun t =>
      t.pins = { s.pins with inReset := true } ∧ getB t Reg.RESET_CAUSE_PORST_PIN = true ∧ getB t Reg.RESET_CAUSE_BROWNOUT = false ∧ getB t Reg.RESET_CAUSE_POWER_UP = false ∧
      getF t Reg.RESET_CNT = satAdd Reg.RESET_CNT.width (getF s Reg.RESET_CNT) 1 ∧ getB t Reg.SAFE_STATUS_BUS_CLAMP = getB s Reg.SAFE_STATUS_BUS_CLAMP ∧
      (∀ f ∈ [Reg.SEC_STATUS_SEALED, Reg.SEC_STATUS_BOOT_STATE, Reg.LNK_STATUS_STATE, Reg.CLU_RUN_CMD, Reg.POS_STATUS_LOCKED], getF t f = getF State.reset f) ∧
      torqueOff t = true ∧ OnlyTouches [.regs, .pins, .sec, .pending, .freeCount] State.reset t ∧ t.sec = { State.reset.sec with fuses := s.sec.fuses } ∧
      t.fuseMap = s.fuseMap ∧ t.pending = s.pending) ∧
  (∀ (c : Instr) (s : State),
    s.pins.inReset = true →
    (c = .porstAssert ∨ ∃ r, r < 9 ∧ c = .brownout r) →
    exec c s = .next s) ∧
  (∀ (r : Nat) (s : State),
    (r < 9 ∧ r ≠ vsafeRail) →
    s.pins.inReset = false →
    Runs (.brownout r) s fun t =>
      t.pins.inReset = true ∧ t.pins.rails.testBit r = false ∧ getB t Reg.RESET_CAUSE_BROWNOUT = true ∧ getF t Reg.RESET_CAUSE_RAIL = r ∧ getB t Reg.RESET_CAUSE_PORST_PIN = false ∧
      getF t Reg.RESET_CNT = satAdd Reg.RESET_CNT.width (getF s Reg.RESET_CNT) 1 ∧ t.sec.fuses = s.sec.fuses ∧ t.mem = State.reset.mem ∧ t.que = State.reset.que) ∧
  (∀ (s : State),
    s.pins.inReset = false →
    Runs (.brownout vsafeRail) s fun t =>
      t.pins.inReset = true ∧ getB t Reg.RESET_CAUSE_POWER_UP = true ∧ getB t Reg.RESET_CAUSE_BROWNOUT = false ∧ getF t Reg.RESET_CNT = 0 ∧ t.sec.fuses = s.sec.fuses) ∧
  (∀ (r : Nat) (s : State),
    (r < 9 ∧ s.pins.rails.testBit r = false) →
    Runs (.railChange r true) s fun t =>
      t.pins.rails.testBit r = true ∧ (∀ i < 9, i ≠ r → t.pins.rails.testBit i = s.pins.rails.testBit i) ∧ t.pins.inReset = s.pins.inReset ∧
      getB t Reg.RESET_CAUSE_SEQ_ERR = (getB s Reg.RESET_CAUSE_SEQ_ERR || (List.range 9).any fun i => decide (railGroup i < railGroup r) && !s.pins.rails.testBit i) ∧
      WordsKept (· = Reg.RESET_CAUSE_SEQ_ERR.addr) s t ∧ OnlyTouches [.regs, .pins] s t) ∧
  (∀ (r : Nat) (s : State),
    (r < 9 ∧ r ≠ vsafeRail ∧ s.pins.rails.testBit r = true) →
    Runs (.railChange r false) s fun t =>
      t.pins.rails.testBit r = false ∧ (∀ i < 9, i ≠ r → t.pins.rails.testBit i = s.pins.rails.testBit i) ∧ WordsKept (fun _ => False) s t ∧ OnlyTouches [.pins] s t) ∧
  (∀ (vbus : Bool) (raw : List Bool) (locks count : Nat) (s : State),
    (s.pins.inReset = true ∧ s.pins.rails = allRails) →
    (fuseErr s = false ∧ idProgrammed s = false ∧ s.sec.bootDrawn = true ∧ s.sec.lcDrawn = true) →
    startupFails raw = (false, false) →
    Runs (.porstRelease false vbus raw locks count) s fun t =>
      t.pins.inReset = false ∧ bootState t = 2 ∧ getB t Reg.SEC_STATUS_ENTROPY_OK = true ∧ lcState t = fuseState s ∧ getB t Reg.CLK_STATUS_REFCLK_OK = true ∧
      getF t Reg.CLK_REF_MEAS = count % 2 ^ Reg.CLK_REF_MEAS.width ∧ (vbus = false → getB t Reg.SAFE_STATUS_BUS_CLAMP = false) ∧ getB t Reg.CLK_STATUS_CORE_LOCK = locks.testBit 0 ∧
      OnlyTouches [.regs, .pins] s t) ∧
  (∀ (vbus : Bool) (raw : List Bool) (locks count : Nat) (s : State),
    (s.pins.inReset = true ∧ s.pins.rails = allRails) →
    (fuseErr s = false ∧ idProgrammed s = false) →
    ((startupFails raw).1 = true ∨ (startupFails raw).2 = true) →
    Runs (.porstRelease false vbus raw locks count) s fun t =>
      t.pins.inReset = false ∧ bootState t = 2 ∧ getB t Reg.SEC_STATUS_ENTROPY_OK = false ∧ ((startupFails raw).1 = true → getB t Reg.ENT_STATUS_RCT_FAIL = true) ∧
      ((startupFails raw).2 = true → getB t Reg.ENT_STATUS_APT_FAIL = true) ∧ Recorded 0x03 3 0x2202 s t ∧ t.sec = s.sec ∧ OnlyTouches [.regs, .evt, .pins] s t) ∧
  (∀ (vbus : Bool) (raw : List Bool) (locks count : Nat) (s : State),
    (s.pins.inReset = true ∧ s.pins.rails = allRails) →
    (fuseErr s = true ∧ idProgrammed s = false) →
    Runs (.porstRelease false vbus raw locks count) s fun t =>
      t.pins.inReset = false ∧ bootState t = 7 ∧ getB t Reg.SEC_STATUS_FUSE_ERR = true ∧ getF t Reg.CLU_RUN_CMD = 0 ∧ getF t Reg.CLU_CH_RUN = 0 ∧ OnlyTouches [.regs, .pins, .core, .evt] s t) ∧
  (∀ (vbus : Bool) (raw : List Bool) (locks count : Nat) (s : State),
    (s.pins.inReset = true ∧ s.pins.rails = allRails) →
    Runs (.porstRelease true vbus raw locks count) s fun t => t.pins.inReset = false ∧ bootState t = bootState s ∧ OnlyTouches [.regs, .pins] s t) ∧
  (∀ (testEn vbus : Bool) (raw : List Bool) (locks count : Nat) (s : State),
    (s.pins.inReset = false ∨ s.pins.rails ≠ allRails) →
    exec (.porstRelease testEn vbus raw locks count) s = .next s) ∧
  (∀ (s : State),
    exec .cartPresFault s = .next { s with pins := { s.pins with cartFaulty := true } }) ∧
  (∀ (s : State),
    exec .cartPresFaultClear s = .next { s with pins := { s.pins with cartFaulty := false } })

/-- IMG_APERTURE_WRITE, BOOT_GO, BOOT_CLEAR (R579, R580), IMAGE_VERIFY_DONE (R580, R581), ROLE_START_DONE (R581, R591), ENTROPY_FAIL and ENT_RETEST (R584). -/
def Obligations.BootAndImage : Prop :=
  (∀ (k v off : Nat) (s : State),
    getB s (hdrLOCK 0x03) = false →
    (k < 32 ∧ bootState s = 2) →
    (off = getF s Reg.IMG_WIN_ADDR / 4 * 4 + 4 * k ∧ off < 12582912 ∧ getF s Reg.IMG_RCVD ≤ 12582912) →
    Runs (.imgApertureWrite k v) s fun t =>
      Tbl.get 0 t.sec.region (off / 4) = BitVec.ofNat 32 v ∧ Tbl.erase t.sec.region (off / 4) = Tbl.erase s.sec.region (off / 4) ∧
      getF t Reg.IMG_RCVD = max (getF s Reg.IMG_RCVD) (off + 4) ∧ getF t Reg.IMG_WIN_ADDR = (if k = 31 then getF s Reg.IMG_WIN_ADDR + 128 else getF s Reg.IMG_WIN_ADDR) % 2 ^ Reg.IMG_WIN_ADDR.width ∧
      WordsKept (fun a => a = Reg.IMG_RCVD.addr ∨ a = Reg.IMG_WIN_ADDR.addr) s t ∧ OnlyTouches [.regs, .sec] s t) ∧
  (∀ (k v : Nat) (s : State),
    getB s (hdrLOCK 0x03) = false →
    (k < 32 ∧ bootState s ≠ 2) →
    Runs (.imgApertureWrite k v) s fun t => Recorded 0x03 1 0 s t ∧ t.sec = s.sec ∧ WordsKept (noticeWord 0x03) s t ∧ OnlyTouches [.regs, .evt] s t) ∧
  (∀ (s : State),
    getB s (hdrLOCK 0x03) = false →
    bootState s = 2 →
    exec .bootGo s = .next (setF Reg.SEC_STATUS_BOOT_STATE 3 s)) ∧
  (∀ (s : State),
    getB s (hdrLOCK 0x03) = false →
    bootState s ≠ 2 →
    exec .bootGo s = .next s) ∧
  (∀ (s : State),
    getB s (hdrLOCK 0x03) = false →
    Runs .bootClear s fun t =>
      t.sec = { s.sec with region := [] } ∧ getF t Reg.IMG_RCVD = 0 ∧ getF t Reg.IMG_WIN_ADDR = 0 ∧ WordsKept (fun a => a = Reg.IMG_RCVD.addr ∨ a = Reg.IMG_WIN_ADDR.addr) s t ∧
      OnlyTouches [.regs, .sec] s t) ∧
  (∀ (r : Nat) (s : State),
    bootState s = 3 →
    (imageReason s = r ∧ r ≠ 0) →
    Runs .imageVerifyDone s fun t =>
      bootState t = 2 ∧ t.sec = { s.sec with region := [] } ∧ getB t Reg.BOOT_ERR_VALID = true ∧ getF t Reg.BOOT_ERR_REASON = r ∧
      getF t Reg.BOOT_ERR_ATTEMPTS = satAdd Reg.BOOT_ERR_ATTEMPTS.width (getF s Reg.BOOT_ERR_ATTEMPTS) 1 ∧ getF t Reg.IMG_RCVD = 0 ∧ Recorded 0x03 0 0x0201 s t ∧
      WordsKept (fun a => a ∈ [Reg.SEC_STATUS_BOOT_STATE.addr, Reg.BOOT_ERR_VALID.addr, Reg.IMG_RCVD.addr, Reg.IMG_WIN_ADDR.addr] ∨ faultWord 0x03 a) s t ∧ OnlyTouches [.regs, .evt, .sec] s t) ∧
  (∀ (s : State),
    bootState s = 3 →
    Runs .imageVerifyDone s fun t =>
      imageReason s = 0 →
        bootState t = 4 ∧ getF t Reg.FW_VERSION = fieldAt (regionBytes s 0 512) 0x010 4 % 2 ^ 32 ∧ t.sec = { s.sec with vendorPub := bytesAt (regionBytes s 0 512) 0x080 32 } ∧
        getWords Reg.FW_DIGEST 16 t = Crypto.sha512 ((regionBytes s 0 512).take 0x100) ∧ Recorded 0x03 0 0 s t ∧ OnlyTouches [.regs, .evt, .sec] s t) ∧
  (∀ (s : State),
    bootState s = 4 →
    (getB s Reg.SEC_STATUS_ENTROPY_OK = false ∧ s.evt.secHeld = [] ∧ getB s Reg.QUE_CTRL = false) →
    (pairHalted s = false ∧ heldOvervolt s = none) →
    Runs (.roleStartDone true) s fun t =>
      bootState t = 5 ∧ getF t Reg.CLU_RUN_CMD = 1 ∧ getF t Reg.CLU_RUN_SECU = 1 ∧ getF t Reg.CLU_RUN_MOT = 15 ∧ getF t Reg.CLU_RUN_SVC = 15 ∧ getF t Reg.CLU_CH_RUN = 0xFFFFFFFF ∧
      WordsKept (fun a => a ∈ [Reg.SEC_STATUS_BOOT_STATE.addr, Reg.CLU_RUN_CMD.addr, Reg.CLU_CH_RUN.addr]) s t ∧ OnlyTouches [.regs, .evt] s t) ∧
  (∀ (s : State),
    bootState s = 4 →
    Runs (.roleStartDone false) s fun t =>
      bootState t = 7 ∧ getF t Reg.CLU_RUN_CMD = 0 ∧ getF t Reg.CLU_RUN_SECU = 0 ∧ getF t Reg.CLU_CH_RUN = 0 ∧
      WordsKept (fun a => a ∈ [Reg.SEC_STATUS_BOOT_STATE.addr, Reg.CLU_RUN_CMD.addr, Reg.CLU_CH_RUN.addr] ∨ 0x81 ≤ a / 0x1000 ∧ a / 0x1000 ≤ 0x88 ∨ noticeWord 0x68 a) s t ∧ OnlyTouches [.regs, .evt, .core] s t) ∧
  (∀ (s : State),
    bootState s = 4 →
    pairHalted s = true →
    Runs (.roleStartDone true) s fun t => bootState t = 7 ∧ getF t Reg.CLU_RUN_CMD = 0 ∧ getF t Reg.CLU_CH_RUN = 0 ∧ OnlyTouches [.regs, .evt, .core] s t) ∧
  (∀ (before window : List Bool) (rct apt : Bool) (s : State),
    getB s Reg.SEC_STATUS_ENTROPY_OK = true →
    (rct = decide (41 ≤ (repetitions (before ++ window)).1) ∧ apt = proportion window) →
    (rct = true ∨ apt = true) →
    Runs (.entropyFail before window) s fun t =>
      getB t Reg.SEC_STATUS_ENTROPY_OK = false ∧ (rct = true → getB t Reg.ENT_STATUS_RCT_FAIL = true) ∧ (apt = true → getB t Reg.ENT_STATUS_APT_FAIL = true) ∧
      getF t Reg.ENT_STATUS_FAILS = satAdd Reg.ENT_STATUS_FAILS.width (getF s Reg.ENT_STATUS_FAILS) 1 ∧ Recorded 0x03 3 0x2202 s t ∧
      WordsKept (fun a => a = Reg.SEC_STATUS_ENTROPY_OK.addr ∨ a = Reg.ENT_STATUS_FAILS.addr ∨ faultWord 0x03 a) s t ∧ OnlyTouches [.regs, .evt] s t) ∧
  (∀ (before window : List Bool) (s : State),
    (getB s Reg.SEC_STATUS_ENTROPY_OK = false ∨ (repetitions (before ++ window)).1 < 41 ∧ proportion window = false) →
    exec (.entropyFail before window) s = .next s) ∧
  (∀ (raw : List Bool) (rct apt : Bool) (s : State),
    getB s (hdrLOCK 0x03) = false →
    startupFails raw = (rct, apt) →
    (rct = true ∨ apt = true) →
    Runs (.entRetest raw) s fun t =>
      getB t Reg.SEC_STATUS_ENTROPY_OK = false ∧ (rct = true → getB t Reg.ENT_STATUS_RCT_FAIL = true) ∧ (apt = true → getB t Reg.ENT_STATUS_APT_FAIL = true) ∧
      getF t Reg.ENT_STATUS_FAILS = satAdd Reg.ENT_STATUS_FAILS.width (getF s Reg.ENT_STATUS_FAILS) 1 ∧ Recorded 0x03 3 0x2202 s t ∧
      WordsKept (fun a => a = Reg.SEC_STATUS_ENTROPY_OK.addr ∨ a = Reg.ENT_STATUS_FAILS.addr ∨ faultWord 0x03 a) s t ∧ OnlyTouches [.regs, .evt] s t) ∧
  (∀ (raw : List Bool) (s : State),
    getB s (hdrLOCK 0x03) = false →
    (s.sec.bootDrawn = true ∧ s.sec.lcDrawn = true ∧ bootState s ≠ 5) →
    startupFails raw = (false, false) →
    exec (.entRetest raw) s = .next (setF Reg.SEC_STATUS_ENTROPY_OK 1 s))

/-- LC_ADVANCE_OEM_OPEN, LC_ADVANCE_DEPLOYED, LC_ADVANCE_RMA and OEM_HASH_PROGRAM (R570–R574), CONFIG_SEAL and SEAL_COMPLETE (R586, R587). The fresh challenge is a free value. -/
def Obligations.LifecycleAndSeal : Prop :=
  (∀ (r : MbReq) (s : State),
    (s.core.mailbox = [(mbKey 0x82 0, r)] ∧ r.opcode = 0x0101 ∧ r.args = 16 ∧ getB s (mbBUSY 0x82 0) = true ∧ getB s Reg.CLU_LS_MISMATCH_SECU = false) →
    lcState s = 0 →
    (lcOpen s = true ∧ (getB s Reg.SEC_STATUS_ENTROPY_OK = false ∨ s.sec.bootDrawn = true ∧ (s.sec.rkey.isSome = true ∨ bootState s ≠ 5))) →
    Runs .lcAdvanceOemOpen s fun t =>
      getF t (mbBUSY 0x82 0) = 0 ∧ getF t (mbDONE 0x82 0) = 1 ∧ t.core.mailbox = [] ∧ t.sec.lcDrawn = getB s Reg.SEC_STATUS_ENTROPY_OK ∧
      getWords Reg.LC_CHALLENGE 4 t = (if getB s Reg.SEC_STATUS_ENTROPY_OK = true then (drawBytes 16 s).1 else zeros 16) ∧
      (if Crypto.edVerify s.sec.vendorPub (tokenRecord s (lcState s) 1) (argBytes r 16) = true then
        getF t (mbRESULT 0x82 0) = 0 ∧ getB t Reg.SEC_STATUS_LC_PENDING = true ∧
        t.sec.fuses = { s.sec.fuses with lc0 := s.sec.fuses.lc0 ||| 1, lc1 := s.sec.fuses.lc1 ||| 1 }
      else getF t (mbRESULT 0x82 0) = 2 ∧ t.sec.fuses = s.sec.fuses ∧ Recorded 0x03 30 0x0203 s t) ∧
      WordsKept (fun a => a / 0x1000 = 0x82 ∨ noticeWord 0x82 a ∨ faultWord 0x03 a ∨ a = Reg.SEC_STATUS_LC_PENDING.addr ∨ a ∈ (List.range 4).map (fun i => (Reg.LC_CHALLENGE i).addr)) s t ∧
      OnlyTouches [.regs, .evt, .core, .sec, .fuses, .freeCount] s t) ∧
  (∀ (r : MbReq) (s : State),
    (s.core.mailbox = [(mbKey 0x82 0, r)] ∧ r.opcode = 0x0103 ∧ r.args = 16 ∧ getB s (mbBUSY 0x82 0) = true ∧ getB s Reg.CLU_LS_MISMATCH_SECU = false) →
    (lcState s = 1 ∨ lcState s = 2) →
    (lcOpen s = true ∧ (getB s Reg.SEC_STATUS_ENTROPY_OK = false ∨ s.sec.bootDrawn = true ∧ (s.sec.rkey.isSome = true ∨ bootState s ≠ 5))) →
    Runs .lcAdvanceRma s fun t =>
      getF t (mbBUSY 0x82 0) = 0 ∧ getF t (mbDONE 0x82 0) = 1 ∧ t.core.mailbox = [] ∧ t.sec.lcDrawn = getB s Reg.SEC_STATUS_ENTROPY_OK ∧
      getWords Reg.LC_CHALLENGE 4 t = (if getB s Reg.SEC_STATUS_ENTROPY_OK = true then (drawBytes 16 s).1 else zeros 16) ∧
      (if Crypto.edVerify s.sec.vendorPub (tokenRecord s (lcState s) 3) (argBytes r 16) = true then
        getF t (mbRESULT 0x82 0) = 0 ∧ getB t Reg.SEC_STATUS_LC_PENDING = true ∧
        t.sec.fuses = { s.sec.fuses with lc0 := s.sec.fuses.lc0 ||| 4, lc1 := s.sec.fuses.lc1 ||| 4, kill0 := true, kill1 := true }
      else getF t (mbRESULT 0x82 0) = 2 ∧ t.sec.fuses = s.sec.fuses ∧ Recorded 0x03 30 0x0203 s t) ∧
      WordsKept (fun a => a / 0x1000 = 0x82 ∨ noticeWord 0x82 a ∨ faultWord 0x03 a ∨ a = Reg.SEC_STATUS_LC_PENDING.addr ∨ a ∈ (List.range 4).map (fun i => (Reg.LC_CHALLENGE i).addr)) s t ∧
      OnlyTouches [.regs, .evt, .core, .sec, .fuses, .freeCount] s t) ∧
  (∀ (c : Instr) (op n : Nat) (r : MbReq) (s : State),
    (s.core.mailbox = [(mbKey 0x82 0, r)] ∧ r.opcode = op ∧ r.args = n ∧ getB s (mbBUSY 0x82 0) = true ∧ getB s Reg.CLU_LS_MISMATCH_SECU = false) →
    (c = .lcAdvanceOemOpen ∧ op = 0x0101 ∧ n = 16 ∧ lcState s ≠ 0 ∨ c = .lcAdvanceDeployed ∧ op = 0x0102 ∧ n = 0 ∧ lcState s ≠ 1 ∨ c = .lcAdvanceRma ∧ op = 0x0103 ∧ n = 16 ∧ lcState s ≠ 1 ∧ lcState s ≠ 2 ∨ c = .oemHashProgram ∧ op = 0x0110 ∧ n = 8 ∧ lcState s ≠ 1) →
    (getB s Reg.SEC_STATUS_ENTROPY_OK = false ∨ s.sec.bootDrawn = true ∧ (s.sec.rkey.isSome = true ∨ bootState s ≠ 5)) →
    Runs c s fun t =>
      getF t (mbBUSY 0x82 0) = 0 ∧ getF t (mbRESULT 0x82 0) = 3 ∧ t.core.mailbox = [] ∧
      WordsKept (fun a => a / 0x1000 = 0x82 ∨ noticeWord 0x82 a ∨ n = 16 ∧ a ∈ (List.range 4).map (fun i => (Reg.LC_CHALLENGE i).addr)) s t ∧
      OnlyTouches ([.regs, .evt, .core] ++ (if n = 16 then [.sec, .freeCount] else [])) s t) ∧
  (∀ (r : MbReq) (s : State),
    (s.core.mailbox = [(mbKey 0x82 0, r)] ∧ r.opcode = 0x0102 ∧ r.args = 0 ∧ getB s (mbBUSY 0x82 0) = true ∧ getB s Reg.CLU_LS_MISMATCH_SECU = false) →
    (lcOpen s = true ∧ lcState s = 1) →
    Runs .lcAdvanceDeployed s fun t =>
      getF t (mbBUSY 0x82 0) = 0 ∧ getF t (mbRESULT 0x82 0) = 0 ∧ t.sec = { s.sec with fuses := { s.sec.fuses with lc0 := s.sec.fuses.lc0 ||| 2, lc1 := s.sec.fuses.lc1 ||| 2 } } ∧
      getB t Reg.SEC_STATUS_LC_PENDING = true ∧ lcState t = 1 ∧ WordsKept (fun a => a / 0x1000 = 0x82 ∨ noticeWord 0x82 a ∨ a = Reg.SEC_STATUS_LC_PENDING.addr) s t ∧
      OnlyTouches [.regs, .evt, .core, .fuses] s t) ∧
  (∀ (r : MbReq) (s : State),
    (s.core.mailbox = [(mbKey 0x82 0, r)] ∧ r.opcode = 0x0110 ∧ r.args = 8 ∧ getB s (mbBUSY 0x82 0) = true ∧ getB s Reg.CLU_LS_MISMATCH_SECU = false) →
    (lcOpen s = true ∧ lcState s = 1 ∧ fuseOem s = zeros 32) →
    Runs .oemHashProgram s fun t =>
      getF t (mbRESULT 0x82 0) = 0 ∧ t.sec = { s.sec with fuses := { s.sec.fuses with oem0 := { data := argBytes r 8, crc := fuseCrc (argBytes r 8) }, oem1 := { data := argBytes r 8, crc := fuseCrc (argBytes r 8) } } } ∧
      getB t Reg.SEC_STATUS_OEM_SET = (argBytes r 8 != zeros 32) ∧ WordsKept (fun a => a / 0x1000 = 0x82 ∨ noticeWord 0x82 a ∨ a = Reg.SEC_STATUS_OEM_SET.addr) s t ∧
      OnlyTouches [.regs, .evt, .core, .fuses] s t) ∧
  (∀ (s : State),
    getB s (hdrLOCK 0x03) = false →
    (rwsLocked s = false ∧ bootState s = 5 ∧ getB s Reg.MEM_STATUS_READY = true ∧ floorLow s = false ∧ cfgOk s = true ∧ getB s Reg.SEC_STATUS_RKEY_OK = true) →
    exec .configSeal s = .next (setF Reg.SEC_STATUS_SEAL_BUSY 1 s)) ∧
  (∀ (r : Nat) (s : State),
    getB s (hdrLOCK 0x03) = false →
    (sealReason (floorLow s) s = r ∧ r ≠ 0) →
    Runs .configSeal s fun t =>
      getB t Reg.SEAL_ERR_VALID = true ∧ getF t Reg.SEAL_ERR_REASON = r ∧ getB t Reg.SEC_STATUS_SEALED = getB s Reg.SEC_STATUS_SEALED ∧ WordsKept (· = Reg.SEAL_ERR_VALID.addr) s t ∧
      OnlyTouches [.regs] s t) ∧
  (∀ (s : State),
    getB s Reg.SEC_STATUS_SEAL_BUSY = true →
    lcPermits s = false →
    (safeInForce s = false ∧ cfgOk s = true) →
    Runs .sealComplete s fun t =>
      isSealed t = true ∧ getB t Reg.SEC_STATUS_SEAL_BUSY = false ∧ cfgShown t = cfgDigest s ∧ torqueOff t = false ∧ Recorded 0x03 2 0 s t ∧ OnlyTouches [.regs, .evt, .mot] s t) ∧
  (∀ (s : State),
    getB s Reg.SEC_STATUS_SEAL_BUSY = true →
    lcPermits s = false →
    safeInForce s = true →
    Runs .sealComplete s fun t => isSealed t = true ∧ torqueOff t = torqueOff s ∧ cfgShown t = cfgDigest s ∧ Recorded 0x03 2 0 s t ∧ OnlyTouches [.regs, .evt, .mot] s t) ∧
  (∀ (s : State),
    getB s Reg.SEC_STATUS_SEAL_BUSY = false →
    exec .sealComplete s = .next s)
end

