-- ==== Sys2Proof/Laws/Mask.lean ====
section
/-!
SUPPORT. What a function of the state leaves alone, said once for each: `s.mask μ` is `s` with the parts that `μ` names blotted out, so
`(f s).mask μ = s.mask μ` says that `f` touches those parts at most. One such law for every update of State; the other files here give one for
every function of the machine, and no proof has to unfold one again to know its frame.
-/
namespace Sys2Proof.Machine

/-- The state with the parts that `μ` names blotted out. -/
def State.mask (μ : Part → Bool) (s : State) : State :=
  {
    regs := bif μ .regs then [] else s.regs,
    latch := bif μ .latch then [] else s.latch,
    evt := bif μ .evt then {} else s.evt,
    core := bif μ .core then {} else s.core,
    pos := bif μ .pos then {} else s.pos,
    links := bif μ .links then {} else s.links,
    que := bif μ .que then {} else s.que,
    mtr := bif μ .mtr then {} else s.mtr,
    ten := bif μ .ten then [] else s.ten,
    vol := bif μ .vol then {} else s.vol,
    fmt := bif μ .fmt then {} else s.fmt,
    band := bif μ .band then [] else s.band,
    enc := bif μ .enc then {} else s.enc,
    cal := bif μ .cal then {} else s.cal,
    rch := bif μ .rch then {} else s.rch,
    cmp := bif μ .cmp then {} else s.cmp,
    keys := bif μ .keys then {} else s.keys,
    ciph := bif μ .ciph then {} else s.ciph,
    mot := bif μ .mot then {} else s.mot,
    mem := bif μ .mem then { cells := bif μ .cells then [] else s.mem.cells } else { s.mem with cells := bif μ .cells then [] else s.mem.cells },
    pool := bif μ .pool then {} else s.pool,
    fuseMap := bif μ .fuseMap then {} else s.fuseMap,
    lnk := bif μ .lnk then {} else s.lnk,
    sec := bif μ .sec then { fuses := bif μ .fuses then {} else s.sec.fuses } else { s.sec with fuses := bif μ .fuses then {} else s.sec.fuses },
    pins := bif μ .pins then {} else s.pins,
    freeCount := bif μ .freeCount then 0 else s.freeCount,
    pending := bif μ .pending then [] else s.pending }

variable {μ : Part → Bool}

/-- Two states alike under a mask differ in the parts it names at most. -/
theorem onlyTouches_of_mask {ps : List Part} {s t : State} (h : t.mask (ps.contains ·) = s.mask (ps.contains ·)) : OnlyTouches ps s t := by
  intro p hp
  have hc : ps.contains p = false := by simpa using hp
  cases p with
  | regs => simpa only [samePart, State.mask, hc, cond_false] using congrArg State.regs h
  | latch => simpa only [samePart, State.mask, hc, cond_false] using congrArg State.latch h
  | evt => simpa only [samePart, State.mask, hc, cond_false] using congrArg State.evt h
  | core => simpa only [samePart, State.mask, hc, cond_false] using congrArg State.core h
  | pos => simpa only [samePart, State.mask, hc, cond_false] using congrArg State.pos h
  | links => simpa only [samePart, State.mask, hc, cond_false] using congrArg State.links h
  | que => simpa only [samePart, State.mask, hc, cond_false] using congrArg State.que h
  | mtr => simpa only [samePart, State.mask, hc, cond_false] using congrArg State.mtr h
  | ten => simpa only [samePart, State.mask, hc, cond_false] using congrArg State.ten h
  | vol => simpa only [samePart, State.mask, hc, cond_false] using congrArg State.vol h
  | fmt => simpa only [samePart, State.mask, hc, cond_false] using congrArg State.fmt h
  | band => simpa only [samePart, State.mask, hc, cond_false] using congrArg State.band h
  | enc => simpa only [samePart, State.mask, hc, cond_false] using congrArg State.enc h
  | cal => simpa only [samePart, State.mask, hc, cond_false] using congrArg State.cal h
  | rch => simpa only [samePart, State.mask, hc, cond_false] using congrArg State.rch h
  | cmp => simpa only [samePart, State.mask, hc, cond_false] using congrArg State.cmp h
  | keys => simpa only [samePart, State.mask, hc, cond_false] using congrArg State.keys h
  | ciph => simpa only [samePart, State.mask, hc, cond_false] using congrArg State.ciph h
  | mot => simpa only [samePart, State.mask, hc, cond_false] using congrArg State.mot h
  | mem => have h2 := congrArg (fun z : State => { z.mem with cells := s.mem.cells }) h; simp only [State.mask, hc, cond_false] at h2; exact h2
  | cells =>
    cases hm : ps.contains .mem <;> simpa only [samePart, State.mask, hc, hm, cond_false, cond_true] using congrArg (fun z : State => z.mem.cells) h
  | pool => simpa only [samePart, State.mask, hc, cond_false] using congrArg State.pool h
  | fuseMap => simpa only [samePart, State.mask, hc, cond_false] using congrArg State.fuseMap h
  | lnk => simpa only [samePart, State.mask, hc, cond_false] using congrArg State.lnk h
  | sec => have h2 := congrArg (fun z : State => { z.sec with fuses := s.sec.fuses }) h; simp only [State.mask, hc, cond_false] at h2; exact h2
  | fuses =>
    cases hm : ps.contains .sec <;> simpa only [samePart, State.mask, hc, hm, cond_false, cond_true] using congrArg (fun z : State => z.sec.fuses) h
  | pins => simpa only [samePart, State.mask, hc, cond_false] using congrArg State.pins h
  | freeCount => simpa only [samePart, State.mask, hc, cond_false] using congrArg State.freeCount h
  | pending => simpa only [samePart, State.mask, hc, cond_false] using congrArg State.pending h

theorem mask_regs (h : μ .regs = true) (s : State) (x) : State.mask μ { s with regs := x } = s.mask μ := by simp only [State.mask, h, cond_true]
theorem mask_latch (h : μ .latch = true) (s : State) (x) : State.mask μ { s with latch := x } = s.mask μ := by simp only [State.mask, h, cond_true]
theorem mask_evt (h : μ .evt = true) (s : State) (x) : State.mask μ { s with evt := x } = s.mask μ := by simp only [State.mask, h, cond_true]
theorem mask_core (h : μ .core = true) (s : State) (x) : State.mask μ { s with core := x } = s.mask μ := by simp only [State.mask, h, cond_true]
theorem mask_pos (h : μ .pos = true) (s : State) (x) : State.mask μ { s with pos := x } = s.mask μ := by simp only [State.mask, h, cond_true]
theorem mask_links (h : μ .links = true) (s : State) (x) : State.mask μ { s with links := x } = s.mask μ := by simp only [State.mask, h, cond_true]
theorem mask_que (h : μ .que = true) (s : State) (x) : State.mask μ { s with que := x } = s.mask μ := by simp only [State.mask, h, cond_true]
theorem mask_mtr (h : μ .mtr = true) (s : State) (x) : State.mask μ { s with mtr := x } = s.mask μ := by simp only [State.mask, h, cond_true]
theorem mask_ten (h : μ .ten = true) (s : State) (x) : State.mask μ { s with ten := x } = s.mask μ := by simp only [State.mask, h, cond_true]
theorem mask_vol (h : μ .vol = true) (s : State) (x) : State.mask μ { s with vol := x } = s.mask μ := by simp only [State.mask, h, cond_true]
theorem mask_fmt (h : μ .fmt = true) (s : State) (x) : State.mask μ { s with fmt := x } = s.mask μ := by simp only [State.mask, h, cond_true]
theorem mask_band (h : μ .band = true) (s : State) (x) : State.mask μ { s with band := x } = s.mask μ := by simp only [State.mask, h, cond_true]
theorem mask_enc (h : μ .enc = true) (s : State) (x) : State.mask μ { s with enc := x } = s.mask μ := by simp only [State.mask, h, cond_true]
theorem mask_cal (h : μ .cal = true) (s : State) (x) : State.mask μ { s with cal := x } = s.mask μ := by simp only [State.mask, h, cond_true]
theorem mask_rch (h : μ .rch = true) (s : State) (x) : State.mask μ { s with rch := x } = s.mask μ := by simp only [State.mask, h, cond_true]
theorem mask_cmp (h : μ .cmp = true) (s : State) (x) : State.mask μ { s with cmp := x } = s.mask μ := by simp only [State.mask, h, cond_true]
theorem mask_keys (h : μ .keys = true) (s : State) (x) : State.mask μ { s with keys := x } = s.mask μ := by simp only [State.mask, h, cond_true]
theorem mask_ciph (h : μ .ciph = true) (s : State) (x) : State.mask μ { s with ciph := x } = s.mask μ := by simp only [State.mask, h, cond_true]
theorem mask_mot (h : μ .mot = true) (s : State) (x) : State.mask μ { s with mot := x } = s.mask μ := by simp only [State.mask, h, cond_true]
theorem mask_pool (h : μ .pool = true) (s : State) (x) : State.mask μ { s with pool := x } = s.mask μ := by simp only [State.mask, h, cond_true]
theorem mask_fuseMap (h : μ .fuseMap = true) (s : State) (x) : State.mask μ { s with fuseMap := x } = s.mask μ := by simp only [State.mask, h, cond_true]
theorem mask_lnk (h : μ .lnk = true) (s : State) (x) : State.mask μ { s with lnk := x } = s.mask μ := by simp only [State.mask, h, cond_true]
theorem mask_pins (h : μ .pins = true) (s : State) (x) : State.mask μ { s with pins := x } = s.mask μ := by simp only [State.mask, h, cond_true]
theorem mask_freeCount (h : μ .freeCount = true) (s : State) (x) : State.mask μ { s with freeCount := x } = s.mask μ := by simp only [State.mask, h, cond_true]
theorem mask_pending (h : μ .pending = true) (s : State) (x) : State.mask μ { s with pending := x } = s.mask μ := by simp only [State.mask, h, cond_true]

/-- Buffer memory, all of it. -/
theorem mask_mem (h : μ .mem = true ∧ μ .cells = true) (s : State) (x) : State.mask μ { s with mem := x } = s.mask μ := by
  simp only [State.mask, h.1, h.2, cond_true]

/-- Buffer memory but for its cells. -/
theorem mask_memRest (h : μ .mem = true) (s : State) (x : MemSt) (hx : x.cells = s.mem.cells) : State.mask μ { s with mem := x } = s.mask μ := by
  simp only [State.mask, h, cond_true, hx]

/-- Boot and identity, all of it. -/
theorem mask_sec (h : μ .sec = true ∧ μ .fuses = true) (s : State) (x) : State.mask μ { s with sec := x } = s.mask μ := by
  simp only [State.mask, h.1, h.2, cond_true]

/-- Boot and identity but for the fuses. -/
theorem mask_secRest (h : μ .sec = true) (s : State) (x : SecSt) (hx : x.fuses = s.sec.fuses) : State.mask μ { s with sec := x } = s.mask μ := by
  simp only [State.mask, h, cond_true, hx]

/-- A mask goes into both arms of a choice. -/
theorem mask_ite {c : Prop} [Decidable c] (a b : State) : State.mask μ (if c then a else b) = if c then a.mask μ else b.mask μ := by
  split <;> rfl

/-- A fold touches what its step touches. -/
theorem mask_foldl {α : Type} (f : State → α → State) (hf : ∀ s a, (f s a).mask μ = s.mask μ) (l : List α) (s : State) :
    (l.foldl f s).mask μ = s.mask μ := by
  induction l generalizing s with
  | nil => rfl
  | cons a l ih => rw [List.foldl_cons, ih, hf]

/-- So does a fold that carries a value beside the state. -/
theorem mask_foldl_snd {α β : Type} (f : β × State → α → β × State) (hf : ∀ x a, (f x a).2.mask μ = x.2.mask μ) (l : List α) (x : β × State) :
    (l.foldl f x).2.mask μ = x.2.mask μ := by
  induction l generalizing x with
  | nil => rfl
  | cons a l ih => rw [List.foldl_cons, ih, hf]

/-- So does a loop over numbers. -/
theorem mask_forEach (l : List Nat) (f : Nat → State → State) (hf : ∀ i s, (f i s).mask μ = s.mask μ) (s : State) :
    (forEach l f s).mask μ = s.mask μ := mask_foldl _ (fun s i => hf i s) l s

end Sys2Proof.Machine
end

