-- ==== Sys2Proof/Laws/OpsMask.lean ====
section
/-!
SUPPORT. What each function of Machine/Ops.lean touches at most.
-/
namespace Sys2Proof.Machine

variable {μ : Part → Bool}

theorem wr_mask (hμ : μ .regs = true) (a : Nat) (w : Word) (s : State) :
    (wr a w s).mask μ = s.mask μ := by
  simp only [wr, ↓mask_regs, hμ]

theorem setF_mask (hμ : μ .regs = true) (f : Fld) (v : Nat) (s : State) :
    (setF f v s).mask μ = s.mask μ := by
  simp only [setF, ↓wr_mask, hμ]

theorem setB_mask (hμ : μ .regs = true) (f : Fld) (b : Bool) (s : State) :
    (setB f b s).mask μ = s.mask μ := by
  simp only [setB, ↓setF_mask, hμ]

theorem setS_mask (hμ : μ .regs = true) (f : Fld) (i : Int) (s : State) :
    (setS f i s).mask μ = s.mask μ := by
  simp only [setS, ↓setF_mask, hμ]

theorem addF_mask (hμ : μ .regs = true) (f : Fld) (n : Nat) (s : State) :
    (addF f n s).mask μ = s.mask μ := by
  simp only [addF, ↓setF_mask, hμ]

theorem incF_mask (hμ : μ .regs = true) (f : Fld) (s : State) :
    (incF f s).mask μ = s.mask μ := by
  simp only [incF, ↓addF_mask, hμ]

theorem add64_mask (hμ : μ .regs = true) (lo : Fld) (hi : Fld) (n : Nat) (s : State) :
    (add64 lo hi n s).mask μ = s.mask μ := by
  simp only [add64, ↓setF_mask, hμ]

theorem takeFree_mask (hμ : μ .freeCount = true) (s : State) :
    (takeFree s).mask μ = s.mask μ := by
  simp only [takeFree, ↓mask_freeCount, hμ]

theorem toManager_mask (hμ : μ .regs = true ∧ μ .evt = true) (r : FaultRec) (s : State) :
    (toManager r s).mask μ = s.mask μ := by
  simp only [toManager, ↓incF_mask, ↓mask_evt, ↓mask_ite, ite_self, hμ]

theorem toSafetyBuf_mask (hμ : μ .regs = true ∧ μ .evt = true) (r : FaultRec) (s : State) :
    (toSafetyBuf r s).mask μ = s.mask μ := by
  simp only [toSafetyBuf, ↓incF_mask, ↓mask_evt, ↓mask_ite, ite_self, hμ]

theorem markEvent_mask (hμ : μ .regs = true) (p : Nat) (bit : Nat) (fault : Nat) (forced : Bool) (s : State) :
    (markEvent p bit fault forced s).mask μ = s.mask μ := by
  simp only [markEvent, ↓setF_mask, ↓mask_ite, ite_self, hμ]

theorem sendEvent_mask (hμ : μ .regs = true ∧ μ .evt = true) (p : Nat) (bit : Nat) (fault : Nat) (account : Nat) (data : Nat) (st : Stamp) (s : State) :
    (sendEvent p bit fault account data st s).mask μ = s.mask μ := by
  simp only [sendEvent, ↓incF_mask, ↓toManager_mask, ↓markEvent_mask, ↓mask_evt, ↓mask_ite, ite_self, and_self, hμ]

theorem notify_mask (hμ : μ .regs = true ∧ μ .evt = true) (p : Nat) (bit : Nat) (data : Nat) (s : State) :
    (notify p bit data s).mask μ = s.mask μ := by
  simp only [notify, ↓markEvent_mask, ↓sendEvent_mask, ↓mask_ite, ite_self, and_self, hμ]

theorem raise_mask (hμ : μ .regs = true ∧ μ .evt = true) (p : Nat) (bit : Nat) (code : Nat) (account : Nat) (data : Nat) (s : State) :
    (raise p bit code account data s).mask μ = s.mask μ := by
  simp only [raise, ↓setF_mask, ↓incF_mask, ↓toManager_mask, ↓toSafetyBuf_mask, ↓markEvent_mask, ↓mask_evt, ↓mask_ite, ite_self, and_self, hμ]

theorem raiseC_mask (hμ : μ .regs = true ∧ μ .evt = true) (p : Nat) (sev : Nat) (cause : Nat) (account : Nat) (data : Nat) (s : State) :
    (raiseC p sev cause account data s).mask μ = s.mask μ := by
  simp only [raiseC, ↓raise_mask, and_self, hμ]

theorem raiseB_mask (hμ : μ .regs = true ∧ μ .evt = true) (p : Nat) (bit : Nat) (sev : Nat) (cause : Nat) (account : Nat) (data : Nat) (s : State) :
    (raiseB p bit sev cause account data s).mask μ = s.mask μ := by
  simp only [raiseB, ↓raise_mask, and_self, hμ]

theorem raiseCommon_mask (hμ : μ .regs = true ∧ μ .evt = true) (p : Nat) (sev : Nat) (cause : Nat) (data : Nat) (s : State) :
    (raiseCommon p sev cause data s).mask μ = s.mask μ := by
  simp only [raiseCommon, ↓raise_mask, and_self, hμ]

theorem lockGate_mask (hμ : μ .regs = true) (p : Nat) (act : State → State) (s : State) (hact : ∀ s, (act s).mask μ = s.mask μ) :
    (lockGate p act s).mask μ = s.mask μ := by
  simp only [lockGate, ↓setF_mask, ↓mask_ite, ite_self, hμ, hact]

end Sys2Proof.Machine
end

