-- ==== Sys2Proof/Laws/QueueOpsMask.lean ====
section
/-!
SUPPORT. What each function of Machine/QueueOps.lean touches at most.
-/
namespace Sys2Proof.Machine

variable {μ : Part → Bool}

theorem setQue_mask (hμ : μ .que = true) (q : QueSt) (s : State) :
    (setQue q s).mask μ = s.mask μ := by
  simp only [setQue, ↓mask_que, hμ]

theorem setMtr_mask (hμ : μ .mtr = true) (m : MtrSt) (s : State) :
    (setMtr m s).mask μ = s.mask μ := by
  simp only [setMtr, ↓mask_mtr, hμ]

theorem setVol_mask (hμ : μ .vol = true) (v : VolSt) (s : State) :
    (setVol v s).mask μ = s.mask μ := by
  simp only [setVol, ↓mask_vol, hμ]

theorem setFmt_mask (hμ : μ .fmt = true) (f : FmtSt) (s : State) :
    (setFmt f s).mask μ = s.mask μ := by
  simp only [setFmt, ↓mask_fmt, hμ]

theorem setEnc_mask (hμ : μ .enc = true) (e : EncSt) (s : State) :
    (setEnc e s).mask μ = s.mask μ := by
  simp only [setEnc, ↓mask_enc, hμ]

theorem setTenant_mask (hμ : μ .ten = true) (n : Nat) (t : Tenant) (s : State) :
    (setTenant n t s).mask μ = s.mask μ := by
  simp only [setTenant, ↓mask_ten, hμ]

theorem setSide_mask (hμ : μ .que = true) (q : Nat) (x : SideQ) (s : State) :
    (setSide q x s).mask μ = s.mask μ := by
  simp only [setSide, ↓setQue_mask, hμ]

theorem onBracket_mask (hμ : μ .mtr = true) (idx : Nat) (f : Bracket → Bracket) (s : State) :
    (onBracket idx f s).mask μ = s.mask μ := by
  simp only [onBracket, ↓setMtr_mask, hμ]

theorem onUsage_mask (hμ : μ .mtr = true) (idx : Nat) (sess : Nat) (f : Usage → Usage) (s : State) :
    (onUsage idx sess f s).mask μ = s.mask μ := by
  simp only [onUsage, ↓onBracket_mask, hμ]

theorem countCommand_mask (hμ : μ .mtr = true) (e : QEntry) (s : State) :
    (countCommand e s).mask μ = s.mask μ := by
  simp only [countCommand, ↓onBracket_mask, ↓onUsage_mask, ↓mask_ite, ite_self, hμ]

theorem pushOut_mask (hμ : μ .que = true) (p : OutPkt) (s : State) :
    (pushOut p s).mask μ = s.mask μ := by
  simp only [pushOut, ↓setQue_mask, hμ]

theorem noteReject_mask (hμ : μ .regs = true ∧ μ .evt = true) (status : Nat) (s : State) :
    (noteReject status s).mask μ = s.mask μ := by
  simp only [noteReject, ↓incF_mask, ↓raiseC_mask, ↓mask_ite, ite_self, and_self, hμ]

theorem tryFinish_mask (hμ : μ .regs = true ∧ μ .evt = true ∧ μ .que = true ∧ μ .mtr = true ∧ μ .ten = true) (s : State) :
    (tryFinish s).mask μ = s.mask μ := by
  unfold tryFinish
  (repeat' split) <;> simp only [↓setQue_mask, ↓setTenant_mask, ↓onBracket_mask, ↓onUsage_mask, ↓pushOut_mask, ↓noteReject_mask, ↓mask_ite, ite_self, and_self, hμ]

theorem endExec_mask (hμ : μ .regs = true ∧ μ .evt = true ∧ μ .que = true ∧ μ .mtr = true ∧ μ .ten = true) (status : Nat) (record : Nat) (count : Nat) (bytes : Nat) (detail : Nat) (s : State) :
    (endExec status record count bytes detail s).mask μ = s.mask μ := by
  unfold endExec
  (repeat' split) <;> simp only [↓setQue_mask, ↓tryFinish_mask, and_self, hμ]

theorem failExec_mask (hμ : μ .regs = true ∧ μ .evt = true ∧ μ .que = true ∧ μ .mtr = true ∧ μ .ten = true) (status : Nat) (detail : Nat) (s : State) :
    (failExec status detail s).mask μ = s.mask μ := by
  unfold failExec
  (repeat' split) <;> simp only [↓endExec_mask, and_self, hμ]

theorem finishSide_mask (hμ : μ .regs = true ∧ μ .evt = true ∧ μ .que = true) (q : Nat) (status : Nat) (record : Nat) (count : Nat) (detail : Nat) (s : State) :
    (finishSide q status record count detail s).mask μ = s.mask μ := by
  simp only [finishSide]
  (repeat' split) <;> simp only [↓setSide_mask, ↓pushOut_mask, ↓noteReject_mask, and_self, hμ]

theorem rollChains_mask (hμ : μ .ten = true) (gsn : Nat) (s : State) :
    (rollChains gsn s).mask μ = s.mask μ := by
  simp only [rollChains, ↓mask_ten, hμ]

theorem dropFrom_mask (hμ : μ .ten = true ∧ μ .fmt = true) (m : Nat) (s : State) :
    (dropFrom m s).mask μ = s.mask μ := by
  simp only [dropFrom, ↓setFmt_mask, hμ]
  (repeat' split) <;> simp only [↓rollChains_mask, hμ]

theorem haltStream_mask (hμ : μ .regs = true ∧ μ .evt = true ∧ μ .que = true) (status : Nat) (detail : Nat) (s : State) :
    (haltStream status detail s).mask μ = s.mask μ := by
  unfold haltStream
  (repeat' split) <;> simp only [↓raiseC_mask, ↓setQue_mask, and_self, hμ]

theorem noteLoss_mask (hμ : μ .que = true) (status : Nat) (first : Nat) (detail : Nat) (s : State) :
    (noteLoss status first detail s).mask μ = s.mask μ := by
  simp only [noteLoss, ↓setQue_mask, ↓mask_ite, ite_self, hμ]

theorem endVolume_mask (hμ : μ .regs = true ∧ μ .evt = true ∧ μ .que = true ∧ μ .mtr = true ∧ μ .ten = true ∧ μ .vol = true ∧ μ .fmt = true) (status : Nat) (detail : Nat) (s : State) :
    (endVolume status detail s).mask μ = s.mask μ := by
  simp only [endVolume, ↓setVol_mask, ↓setFmt_mask, ↓failExec_mask, ↓dropFrom_mask, ↓haltStream_mask, ↓noteLoss_mask, and_self, hμ]

end Sys2Proof.Machine
end

