-- ==== Sys2Proof/Laws/WriteOpsMask.lean ====
section
/-!
SUPPORT. What each function of Machine/WriteOps.lean touches at most.
-/
namespace Sys2Proof.Machine

variable {μ : Part → Bool}

theorem setBand_mask (hμ : μ .band = true) (b : Nat) (x : BandSt) (s : State) :
    (setBand b x s).mask μ = s.mask μ := by
  simp only [setBand, ↓mask_band, hμ]

theorem closeGate_mask (hμ : μ .regs = true ∧ μ .evt = true ∧ μ .band = true) (b : Nat) (s : State) :
    (closeGate b s).mask μ = s.mask μ := by
  simp only [closeGate, ↓incF_mask, ↓notify_mask, ↓raise_mask, ↓setBand_mask, ↓mask_ite, ite_self, and_self, hμ]

theorem closeAllGates_mask (hμ : μ .regs = true ∧ μ .evt = true ∧ μ .band = true) (s : State) :
    (closeAllGates s).mask μ = s.mask μ := by
  simp only [closeAllGates, ↓closeGate_mask, ↓mask_forEach, and_self, implies_true, hμ]

theorem setTarget_mask (hμ : μ .mot = true) (v : Int) (s : State) :
    (setTarget v s).mask μ = s.mask μ := by
  simp only [setTarget, ↓mask_mot, hμ]

theorem travel_mask (hμ : μ .fmt = true ∧ μ .mot = true) (s : State) :
    (travel s).mask μ = s.mask μ := by
  unfold travel
  (repeat' split) <;> simp only [↓setFmt_mask, ↓setTarget_mask, hμ]

theorem travelled_mask (hμ : μ .fmt = true ∧ μ .mot = true) (s : State) :
    (travelled s).mask μ = s.mask μ := by
  unfold travelled
  (repeat' split) <;> simp only [↓setFmt_mask, ↓setTarget_mask, ↓mask_ite, ite_self, hμ]

theorem goBack_mask (hμ : μ .fmt = true ∧ μ .mot = true) (n : Nat) (pass : Nat) (origin : Nat) (s : State) :
    (goBack n pass origin s).mask μ = s.mask μ := by
  simp only [goBack, ↓setFmt_mask, ↓setTarget_mask, ↓travel_mask, ↓mask_ite, ite_self, and_self, hμ]

theorem onSet_mask (hμ : μ .fmt = true) (n : Nat) (f : DataSet → DataSet) (s : State) :
    (onSet n f s).mask μ = s.mask μ := by
  simp only [onSet, ↓setFmt_mask, hμ]

theorem dropKeys_mask (hμ : μ .band = true) (ns : List Nat) (s : State) :
    (dropKeys ns s).mask μ = s.mask μ := by
  simp only [dropKeys, ↓setBand_mask, ↓mask_forEach, implies_true, hμ]

theorem restartFrom_mask (hμ : μ .fmt = true ∧ μ .band = true ∧ μ .cal = true ∧ μ .rch = true ∧ μ .mot = true) (m : Nat) (s : State) :
    (restartFrom m s).mask μ = s.mask μ := by
  unfold restartFrom
  (repeat' split) <;> simp only [↓setFmt_mask, ↓goBack_mask, ↓dropKeys_mask, ↓mask_rch, ↓mask_cal, and_self, hμ]

theorem disarmNext_mask (hμ : μ .regs = true ∧ μ .evt = true ∧ μ .band = true) (b : Nat) (s : State) :
    (disarmNext b s).mask μ = s.mask μ := by
  simp only [disarmNext, ↓notify_mask, ↓setBand_mask, ↓mask_ite, ite_self, ↓mask_forEach, and_self, implies_true, hμ]

theorem closeBefore_mask (hμ : μ .regs = true ∧ μ .evt = true ∧ μ .que = true ∧ μ .ten = true ∧ μ .vol = true ∧ μ .fmt = true ∧ μ .band = true ∧ μ .rch = true ∧ μ .mot = true) (m : Nat) (status : Nat) (detail : Nat) (frame : Nat) (pass : Nat) (s : State) :
    (closeBefore m status detail frame pass s).mask μ = s.mask μ := by
  simp only [closeBefore]
  (repeat' split) <;> simp only [↓setVol_mask, ↓setFmt_mask, ↓dropFrom_mask, ↓noteLoss_mask, ↓goBack_mask, ↓disarmNext_mask, ↓mask_rch, ↓mask_forEach, and_self, implies_true, hμ]

theorem writeCopy_mask (hμ : μ .vol = true) (m : VolMap) (c : Nat) (s : State) :
    (writeCopy m c s).mask μ = s.mask μ := by
  simp only [writeCopy, ↓setVol_mask, hμ]

theorem writeCopies_mask (hμ : μ .vol = true) (m : VolMap) (s : State) :
    (writeCopies m s).mask μ = s.mask μ := by
  simp only [writeCopies, ↓writeCopy_mask, ↓mask_forEach, implies_true, hμ]

theorem closureFailed_mask (hμ : μ .regs = true ∧ μ .evt = true ∧ μ .que = true ∧ μ .mtr = true ∧ μ .ten = true ∧ μ .vol = true ∧ μ .fmt = true) (s : State) :
    (closureFailed s).mask μ = s.mask μ := by
  simp only [closureFailed]
  (repeat' split) <;> simp only [↓setVol_mask, ↓setFmt_mask, ↓failExec_mask, ↓dropFrom_mask, ↓haltStream_mask, ↓writeCopies_mask, and_self, hμ]

theorem storm_mask (hμ : μ .regs = true ∧ μ .evt = true ∧ μ .que = true ∧ μ .mtr = true ∧ μ .ten = true ∧ μ .vol = true ∧ μ .fmt = true ∧ μ .band = true ∧ μ .cal = true ∧ μ .rch = true ∧ μ .mot = true) (m : Nat) (s : State) :
    (storm m s).mask μ = s.mask μ := by
  unfold storm
  (repeat' split) <;> simp only [↓setF_mask, ↓incF_mask, ↓raiseC_mask, ↓setFmt_mask, ↓onSet_mask, ↓restartFrom_mask, ↓disarmNext_mask, ↓closeBefore_mask, ↓closureFailed_mask, ↓mask_forEach, and_self, implies_true, hμ]

theorem abandonRow_mask (hμ : μ .regs = true ∧ μ .evt = true ∧ μ .que = true ∧ μ .mtr = true ∧ μ .ten = true ∧ μ .vol = true ∧ μ .fmt = true ∧ μ .band = true ∧ μ .cal = true ∧ μ .rch = true ∧ μ .mot = true) (m : Nat) (g : Nat) (s : State) :
    (abandonRow m g s).mask μ = s.mask μ := by
  unfold abandonRow
  (repeat' split) <;> simp only [↓incF_mask, ↓raiseC_mask, ↓setFmt_mask, ↓onSet_mask, ↓storm_mask, ↓mask_ite, ite_self, and_self, hμ]

theorem verifyFail_mask (hμ : μ .regs = true ∧ μ .evt = true ∧ μ .que = true ∧ μ .mtr = true ∧ μ .ten = true ∧ μ .vol = true ∧ μ .fmt = true ∧ μ .band = true ∧ μ .cal = true ∧ μ .rch = true ∧ μ .mot = true) (n : Nat) (t : Nat) (p : Nat) (reason : Nat) (s : State) :
    (verifyFail n t p reason s).mask μ = s.mask μ := by
  unfold verifyFail
  (repeat' split) <;> simp only [↓setF_mask, ↓incF_mask, ↓setFmt_mask, ↓onSet_mask, ↓abandonRow_mask, ↓mask_ite, ite_self, and_self, hμ]

theorem failWindow_mask (hμ : μ .regs = true ∧ μ .evt = true ∧ μ .que = true ∧ μ .mtr = true ∧ μ .ten = true ∧ μ .vol = true ∧ μ .fmt = true ∧ μ .band = true ∧ μ .cal = true ∧ μ .rch = true ∧ μ .mot = true) (b : Nat) (w : Window) (s : State) :
    (failWindow b w s).mask μ = s.mask μ := by
  simp only [failWindow, ↓verifyFail_mask, ↓mask_ite, ite_self, ↓mask_forEach, and_self, implies_true, hμ]

theorem rungAgain_mask (hμ : μ .rch = true) (s : State) :
    (rungAgain s).mask μ = s.mask μ := by
  simp only [rungAgain, ↓mask_rch, hμ]

theorem stopBand_mask (hμ : μ .regs = true ∧ μ .evt = true ∧ μ .que = true ∧ μ .mtr = true ∧ μ .ten = true ∧ μ .vol = true ∧ μ .fmt = true ∧ μ .band = true ∧ μ .cal = true ∧ μ .rch = true ∧ μ .mot = true) (b : Nat) (s : State) :
    (stopBand b s).mask μ = s.mask μ := by
  simp only [stopBand, ↓notify_mask, ↓setBand_mask, ↓closeGate_mask, ↓failWindow_mask, ↓rungAgain_mask, ↓mask_ite, ite_self, ↓mask_foldl, and_self, implies_true, hμ]

theorem countStop_mask (hμ : μ .regs = true) (s : State) :
    (countStop s).mask μ = s.mask μ := by
  simp only [countStop, ↓incF_mask, ↓mask_ite, ite_self, hμ]

theorem abortDataSet_mask (hμ : μ .regs = true ∧ μ .evt = true ∧ μ .que = true ∧ μ .mtr = true ∧ μ .ten = true ∧ μ .vol = true ∧ μ .fmt = true ∧ μ .band = true ∧ μ .cal = true ∧ μ .rch = true ∧ μ .mot = true) (s : State) :
    (abortDataSet s).mask μ = s.mask μ := by
  unfold abortDataSet
  (repeat' split) <;> simp only [↓restartFrom_mask, ↓stopBand_mask, ↓countStop_mask, ↓mask_ite, ite_self, ↓mask_forEach, and_self, implies_true, hμ]

theorem failWindows_mask (hμ : μ .regs = true ∧ μ .evt = true ∧ μ .que = true ∧ μ .mtr = true ∧ μ .ten = true ∧ μ .vol = true ∧ μ .fmt = true ∧ μ .band = true ∧ μ .cal = true ∧ μ .rch = true ∧ μ .mot = true) (b : Nat) (s : State) :
    (failWindows b s).mask μ = s.mask μ := by
  simp only [failWindows, ↓setBand_mask, ↓failWindow_mask, ↓mask_foldl, and_self, implies_true, hμ]

theorem closeAndAbort_mask (hμ : μ .regs = true ∧ μ .evt = true ∧ μ .que = true ∧ μ .mtr = true ∧ μ .ten = true ∧ μ .vol = true ∧ μ .fmt = true ∧ μ .band = true ∧ μ .cal = true ∧ μ .rch = true ∧ μ .mot = true) (s : State) :
    (closeAndAbort s).mask μ = s.mask μ := by
  simp only [closeAndAbort, ↓closeAllGates_mask, ↓abortDataSet_mask, ↓failWindows_mask, ↓mask_ite, ite_self, ↓mask_forEach, and_self, implies_true, hμ]

end Sys2Proof.Machine
end

