-- ==== Sys2Proof/Laws/SafeMask.lean ====
section
/-!
SUPPORT. What each function of Machine/Safe.lean touches at most.
-/
namespace Sys2Proof.Machine

variable {μ : Part → Bool}

theorem noteSafe_mask (hμ : μ .regs = true ∧ μ .evt = true) (f : Fld) (code : Nat) (s : State) :
    (noteSafe f code s).mask μ = s.mask μ := by
  simp only [noteSafe, ↓setF_mask, ↓setB_mask, ↓incF_mask, ↓mask_evt, ↓mask_ite, ite_self, hμ]

theorem motionFault_mask (hμ : μ .regs = true ∧ μ .evt = true ∧ μ .que = true ∧ μ .mtr = true ∧ μ .ten = true) (code : Nat) (s : State) :
    (motionFault code s).mask μ = s.mask μ := by
  simp only [motionFault, ↓failExec_mask, and_self, hμ]

theorem enterS1_mask (hμ : μ .regs = true ∧ μ .evt = true ∧ μ .que = true ∧ μ .mtr = true ∧ μ .ten = true ∧ μ .vol = true ∧ μ .fmt = true ∧ μ .band = true ∧ μ .cal = true ∧ μ .rch = true ∧ μ .mot = true) (code : Nat) (s : State) :
    (enterS1 code s).mask μ = s.mask μ := by
  simp only [enterS1, ↓closeAndAbort_mask, ↓noteSafe_mask, ↓motionFault_mask, and_self, hμ]

theorem enterS2_mask (hμ : μ .regs = true ∧ μ .evt = true ∧ μ .que = true ∧ μ .mtr = true ∧ μ .ten = true ∧ μ .vol = true ∧ μ .fmt = true ∧ μ .band = true ∧ μ .cal = true ∧ μ .rch = true ∧ μ .mot = true) (code : Nat) (s : State) :
    (enterS2 code s).mask μ = s.mask μ := by
  simp only [enterS2, ↓setF_mask, ↓incF_mask, ↓closeAndAbort_mask, ↓noteSafe_mask, ↓motionFault_mask, ↓mask_ite, ite_self, and_self, hμ]

theorem enterS3_mask (hμ : μ .regs = true ∧ μ .evt = true ∧ μ .que = true ∧ μ .mtr = true ∧ μ .ten = true ∧ μ .vol = true ∧ μ .fmt = true ∧ μ .band = true ∧ μ .cal = true ∧ μ .rch = true ∧ μ .mot = true) (code : Nat) (s : State) :
    (enterS3 code s).mask μ = s.mask μ := by
  simp only [enterS3, ↓endVolume_mask, ↓closeAllGates_mask, ↓stopBand_mask, ↓noteSafe_mask, ↓mask_forEach, and_self, implies_true, hμ]

end Sys2Proof.Machine
end

