-- ==== Sys2Proof/Laws/PositionMask.lean ====
section
/-!
SUPPORT. What each function of Machine/Position.lean touches at most.
-/
namespace Sys2Proof.Machine

variable {μ : Part → Bool}

theorem setPos_mask (hμ : μ .pos = true) (p : PosSt) (s : State) :
    (setPos p s).mask μ = s.mask μ := by
  simp only [setPos, ↓mask_pos, hμ]

theorem setReader_mask (hμ : μ .pos = true) (band : Nat) (r : Nat) (x : RdSt) (s : State) :
    (setReader band r x s).mask μ = s.mask μ := by
  simp only [setReader, ↓setPos_mask, hμ]

theorem requalify_mask (hμ : μ .regs = true) (s : State) :
    (requalify s).mask μ = s.mask μ := by
  simp only [requalify, ↓setF_mask, ↓setB_mask, ↓mask_forEach, implies_true, hμ]

theorem takeLat_mask (hμ : μ .regs = true ∧ μ .evt = true ∧ μ .pos = true) (band : Nat) (r : Nat) (v : Int) (s : State) :
    (takeLat band r v s).mask μ = s.mask μ := by
  simp only [takeLat, ↓setF_mask, ↓setS_mask, ↓raiseC_mask, ↓setReader_mask, ↓mask_ite, ite_self, and_self, hμ]

theorem servoFrame_mask (hμ : μ .regs = true ∧ μ .evt = true ∧ μ .pos = true) (band : Nat) (r : Nat) (symbols : BitVec 64) (tone : Nat) (a : Nat) (b : Nat) (c : Nat) (d : Nat) (s : State) :
    (servoFrame band r symbols tone a b c d s).mask μ = s.mask μ := by
  simp only [servoFrame, ↓requalify_mask, ↓mask_ite, hμ]
  (repeat' split) <;> simp only [↓setF_mask, ↓incF_mask, ↓setPos_mask, ↓setReader_mask, ↓takeLat_mask, and_self, hμ]

theorem posLoss_mask (hμ : μ .regs = true ∧ μ .evt = true ∧ μ .que = true ∧ μ .mtr = true ∧ μ .ten = true ∧ μ .vol = true ∧ μ .fmt = true ∧ μ .band = true ∧ μ .cal = true ∧ μ .rch = true ∧ μ .mot = true) (s : State) :
    (posLoss s).mask μ = s.mask μ := by
  simp only [posLoss, ↓setF_mask, ↓closeAndAbort_mask, and_self, hμ]

theorem posLockLost_mask (hμ : μ .regs = true ∧ μ .evt = true ∧ μ .que = true ∧ μ .mtr = true ∧ μ .ten = true ∧ μ .vol = true ∧ μ .fmt = true ∧ μ .band = true ∧ μ .cal = true ∧ μ .rch = true ∧ μ .mot = true) (s : State) :
    (posLockLost s).mask μ = s.mask μ := by
  simp only [posLockLost, ↓setF_mask, ↓raiseB_mask, ↓posLoss_mask, ↓mask_ite, ite_self, and_self, hμ]

theorem reloadCount_mask (hμ : μ .regs = true ∧ μ .evt = true ∧ μ .pos = true ∧ μ .que = true ∧ μ .mtr = true ∧ μ .ten = true ∧ μ .vol = true ∧ μ .fmt = true ∧ μ .band = true ∧ μ .cal = true ∧ μ .rch = true ∧ μ .mot = true) (m : Nat) (s : State) :
    (reloadCount m s).mask μ = s.mask μ := by
  simp only [reloadCount, ↓incF_mask, ↓raiseB_mask, ↓setPos_mask, ↓posLoss_mask, ↓mask_ite, ite_self, and_self, hμ]

theorem frameSlip_mask (hμ : μ .regs = true ∧ μ .evt = true ∧ μ .pos = true ∧ μ .que = true ∧ μ .mtr = true ∧ μ .ten = true ∧ μ .vol = true ∧ μ .fmt = true ∧ μ .band = true ∧ μ .cal = true ∧ μ .rch = true ∧ μ .mot = true) (s : State) :
    (frameSlip s).mask μ = s.mask μ := by
  unfold frameSlip
  (repeat' split) <;> simp only [↓reloadCount_mask, and_self, hμ]

theorem servoIdLost_mask (hμ : μ .regs = true ∧ μ .evt = true ∧ μ .pos = true ∧ μ .que = true ∧ μ .mtr = true ∧ μ .ten = true ∧ μ .vol = true ∧ μ .fmt = true ∧ μ .band = true ∧ μ .cal = true ∧ μ .rch = true ∧ μ .mot = true) (s : State) :
    (servoIdLost s).mask μ = s.mask μ := by
  simp only [servoIdLost, ↓raiseB_mask, ↓closeAndAbort_mask, ↓setPos_mask, ↓mask_ite, ite_self, and_self, hμ]

theorem coarseEnter_mask (hμ : μ .regs = true ∧ μ .evt = true ∧ μ .pos = true) (speed : Int) (s : State) :
    (coarseEnter speed s).mask μ = s.mask μ := by
  simp only [coarseEnter, ↓setF_mask, ↓setS_mask, ↓notify_mask, ↓setPos_mask, ↓mask_ite, ite_self, and_self, hμ]

theorem lockGained_mask (hμ : μ .regs = true ∧ μ .evt = true ∧ μ .pos = true) (s : State) :
    (lockGained s).mask μ = s.mask μ := by
  simp only [lockGained, ↓setF_mask, ↓notify_mask, ↓setPos_mask, ↓mask_ite, ite_self, and_self, hμ]

theorem coarseExit_mask (hμ : μ .regs = true ∧ μ .evt = true ∧ μ .pos = true ∧ μ .que = true ∧ μ .mtr = true ∧ μ .ten = true ∧ μ .vol = true ∧ μ .fmt = true ∧ μ .band = true ∧ μ .cal = true ∧ μ .rch = true ∧ μ .mot = true) (speed : Int) (s : State) :
    (coarseExit speed s).mask μ = s.mask μ := by
  unfold coarseExit
  (repeat' split) <;> simp only [↓setF_mask, ↓setS_mask, ↓notify_mask, ↓reloadCount_mask, ↓lockGained_mask, and_self, hμ]

theorem posLockFail_mask (hμ : μ .regs = true ∧ μ .evt = true ∧ μ .pos = true ∧ μ .que = true ∧ μ .mtr = true ∧ μ .ten = true ∧ μ .vol = true ∧ μ .fmt = true ∧ μ .mot = true) (s : State) :
    (posLockFail s).mask μ = s.mask μ := by
  simp only [posLockFail, ↓raiseB_mask, ↓setFmt_mask, ↓failExec_mask, ↓endVolume_mask, ↓setTarget_mask, ↓setPos_mask, ↓mask_ite, ite_self, and_self, hμ]

theorem stillClear_mask (hμ : μ .regs = true) (reverse : Bool) (speed : Int) (s : State) :
    (stillClear reverse speed s).mask μ = s.mask μ := by
  simp only [stillClear, ↓setF_mask, ↓setB_mask, ↓setS_mask, ↓mask_ite, ite_self, hμ]

theorem pllStep_mask (hμ : μ .pos = true) (s : State) :
    (pllStep s).mask μ = s.mask μ := by
  simp only [pllStep, ↓setPos_mask, ↓mask_ite, ite_self, hμ]

theorem servoSamples_mask (hμ : μ .regs = true ∧ μ .pos = true) (link : Nat) (blocks : List (BitVec 64)) (s : State) :
    (servoSamples link blocks s).mask μ = s.mask μ := by
  simp only [servoSamples, ↓incF_mask, ↓setPos_mask, ↓mask_ite, ite_self, hμ]

theorem servoBurst_mask (hμ : μ .regs = true ∧ μ .pos = true) (link : Nat) (blocks : List (BitVec 64)) (s : State) :
    (servoBurst link blocks s).mask μ = s.mask μ := by
  simp only [servoBurst, ↓pllStep_mask, ↓servoSamples_mask, ↓mask_ite, ite_self, and_self, hμ]

/-! ## Commands -/

theorem execServoFrameDecoded_mask (hμ : μ .regs = true ∧ μ .evt = true ∧ μ .pos = true) (band : Nat) (reader : Nat) (symbols : BitVec 64) (tone : Nat) (a : Nat) (b : Nat) (c : Nat) (d : Nat) (s : State) {t : State}
    (ht : execServoFrameDecoded band reader symbols tone a b c d s = .next t) : t.mask μ = s.mask μ := by
  rw [execServoFrameDecoded] at ht
  rw [← Host.Outcome.next.inj ht]
  simp only [↓servoFrame_mask, and_self, hμ]

theorem execPosLockLost_mask (hμ : μ .regs = true ∧ μ .evt = true ∧ μ .que = true ∧ μ .mtr = true ∧ μ .ten = true ∧ μ .vol = true ∧ μ .fmt = true ∧ μ .band = true ∧ μ .cal = true ∧ μ .rch = true ∧ μ .mot = true) (s : State) {t : State}
    (ht : execPosLockLost s = .next t) : t.mask μ = s.mask μ := by
  rw [execPosLockLost] at ht
  rw [← Host.Outcome.next.inj ht]
  simp only [↓posLockLost_mask, and_self, hμ]

theorem execFrameSlip_mask (hμ : μ .regs = true ∧ μ .evt = true ∧ μ .pos = true ∧ μ .que = true ∧ μ .mtr = true ∧ μ .ten = true ∧ μ .vol = true ∧ μ .fmt = true ∧ μ .band = true ∧ μ .cal = true ∧ μ .rch = true ∧ μ .mot = true) (s : State) {t : State}
    (ht : execFrameSlip s = .next t) : t.mask μ = s.mask μ := by
  rw [execFrameSlip] at ht
  rw [← Host.Outcome.next.inj ht]
  simp only [↓frameSlip_mask, and_self, hμ]

theorem execPosCoarseEnter_mask (hμ : μ .regs = true ∧ μ .evt = true ∧ μ .pos = true) (speed : Int) (s : State) {t : State}
    (ht : execPosCoarseEnter speed s = .next t) : t.mask μ = s.mask μ := by
  rw [execPosCoarseEnter] at ht
  rw [← Host.Outcome.next.inj ht]
  simp only [↓coarseEnter_mask, and_self, hμ]

theorem execPosCoarseExit_mask (hμ : μ .regs = true ∧ μ .evt = true ∧ μ .pos = true ∧ μ .que = true ∧ μ .mtr = true ∧ μ .ten = true ∧ μ .vol = true ∧ μ .fmt = true ∧ μ .band = true ∧ μ .cal = true ∧ μ .rch = true ∧ μ .mot = true) (speed : Int) (s : State) {t : State}
    (ht : execPosCoarseExit speed s = .next t) : t.mask μ = s.mask μ := by
  rw [execPosCoarseExit] at ht
  rw [← Host.Outcome.next.inj ht]
  simp only [↓coarseExit_mask, and_self, hμ]

theorem execPosLockFail_mask (hμ : μ .regs = true ∧ μ .evt = true ∧ μ .pos = true ∧ μ .que = true ∧ μ .mtr = true ∧ μ .ten = true ∧ μ .vol = true ∧ μ .fmt = true ∧ μ .mot = true) (s : State) {t : State}
    (ht : execPosLockFail s = .next t) : t.mask μ = s.mask μ := by
  rw [execPosLockFail] at ht
  rw [← Host.Outcome.next.inj ht]
  simp only [↓posLockFail_mask, and_self, hμ]

theorem execPosStillClear_mask (hμ : μ .regs = true) (reverse : Bool) (speed : Int) (s : State) {t : State}
    (ht : execPosStillClear reverse speed s = .next t) : t.mask μ = s.mask μ := by
  rw [execPosStillClear] at ht
  rw [← Host.Outcome.next.inj ht]
  simp only [↓stillClear_mask, hμ]

theorem execServoIdLost_mask (hμ : μ .regs = true ∧ μ .evt = true ∧ μ .pos = true ∧ μ .que = true ∧ μ .mtr = true ∧ μ .ten = true ∧ μ .vol = true ∧ μ .fmt = true ∧ μ .band = true ∧ μ .cal = true ∧ μ .rch = true ∧ μ .mot = true) (s : State) {t : State}
    (ht : execServoIdLost s = .next t) : t.mask μ = s.mask μ := by
  rw [execServoIdLost] at ht
  rw [← Host.Outcome.next.inj ht]
  simp only [↓servoIdLost_mask, and_self, hμ]

theorem execServoBurstReceived_mask (hμ : μ .regs = true ∧ μ .pos = true) (link : Nat) (blocks : List (BitVec 64)) (s : State) {t : State}
    (ht : execServoBurstReceived link blocks s = .next t) : t.mask μ = s.mask μ := by
  rw [execServoBurstReceived] at ht
  rw [← Host.Outcome.next.inj ht]
  simp only [↓servoBurst_mask, and_self, hμ]

end Sys2Proof.Machine
end

