-- ==== Sys2Proof/Laws/CarriageMask.lean ====
section
/-!
SUPPORT. What each function of Machine/Carriage.lean touches at most.
-/
namespace Sys2Proof.Machine

variable {μ : Part → Bool}

theorem setLinks_mask (hμ : μ .links = true) (l : LinkSt) (s : State) :
    (setLinks l s).mask μ = s.mask μ := by
  simp only [setLinks, ↓mask_links, hμ]

theorem setHfe_mask (hμ : μ .links = true) (n : Nat) (h : HfeSt) (s : State) :
    (setHfe n h s).mask μ = s.mask μ := by
  simp only [setHfe, ↓setLinks_mask, hμ]

theorem sendLine_mask (hμ : μ .links = true) (n : Nat) (l : List (Bool × BitVec 64)) (s : State) :
    (sendLine n l s).mask μ = s.mask μ := by
  simp only [sendLine, ↓setHfe_mask, hμ]

theorem pumpHfe_mask (hμ : μ .links = true) (n : Nat) (s : State) :
    (pumpHfe n s).mask μ = s.mask μ := by
  simp only [pumpHfe, ↓setHfe_mask, hμ]

theorem mgmtWrite_mask (hμ : μ .links = true) (n : Nat) (off : Nat) (data : Nat) (s : State) :
    (mgmtWrite n off data s).mask μ = s.mask μ := by
  simp only [mgmtWrite, ↓setHfe_mask, ↓pumpHfe_mask, hμ]

theorem mgmtRead_mask (hμ : μ .links = true) (n : Nat) (off : Nat) (s : State) :
    (mgmtRead n off s).mask μ = s.mask μ := by
  simp only [mgmtRead, ↓setHfe_mask, ↓pumpHfe_mask, hμ]

theorem sendApply_mask (hμ : μ .links = true) (n : Nat) (bit : Nat) (frame : Nat) (seq : Nat) (s : State) :
    (sendApply n bit frame seq s).mask μ = s.mask μ := by
  simp only [sendApply, ↓setHfe_mask, ↓pumpHfe_mask, hμ]

theorem forwardHfe_mask (hμ : μ .links = true) (n : Nat) (off : Nat) (s : State) :
    (forwardHfe n off s).mask μ = s.mask μ := by
  simp only [forwardHfe, ↓setHfe_mask, ↓mgmtWrite_mask, ↓sendApply_mask, ↓mask_ite, ite_self, hμ]

theorem setAttempts_mask (hμ : μ .links = true) (link : Nat) (n : Nat) (s : State) :
    (setAttempts link n s).mask μ = s.mask μ := by
  simp only [setAttempts, ↓setLinks_mask, hμ]

theorem linkWake_mask (hμ : μ .regs = true ∧ μ .links = true) (link : Nat) (attempt : Nat) (s : State) :
    (linkWake link attempt s).mask μ = s.mask μ := by
  simp only [linkWake, ↓setF_mask, ↓setAttempts_mask, hμ]

theorem runUplinks_mask (hμ : μ .regs = true ∧ μ .links = true) (s : State) :
    (runUplinks s).mask μ = s.mask μ := by
  simp only [runUplinks, ↓setF_mask, ↓linkWake_mask, ↓mask_ite, ite_self, ↓mask_forEach, and_self, implies_true, hμ]

theorem downlinkLost_mask (hμ : μ .regs = true ∧ μ .evt = true ∧ μ .que = true ∧ μ .mtr = true ∧ μ .ten = true ∧ μ .vol = true ∧ μ .fmt = true ∧ μ .band = true ∧ μ .cal = true ∧ μ .rch = true ∧ μ .mot = true) (s : State) :
    (downlinkLost s).mask μ = s.mask μ := by
  simp only [downlinkLost, ↓closeAndAbort_mask, ↓mask_ite, ite_self, and_self, hμ]

theorem linkAdvance_mask (hμ : μ .regs = true ∧ μ .pos = true ∧ μ .links = true) (link : Nat) (delay : Nat) (block : BitVec 64) (s : State) :
    (linkAdvance link delay block s).mask μ = s.mask μ := by
  simp only [linkAdvance, ↓setF_mask, ↓setPos_mask, ↓requalify_mask, ↓setHfe_mask, ↓sendLine_mask, ↓setAttempts_mask, ↓linkWake_mask, ↓runUplinks_mask, ↓mask_ite, ite_self, and_self, hμ]

theorem raiseLink_mask (hμ : μ .regs = true ∧ μ .evt = true) (link : Nat) (sev : Nat) (cause : Nat) (s : State) :
    (raiseLink link sev cause s).mask μ = s.mask μ := by
  simp only [raiseLink, ↓raise_mask, ↓raiseC_mask, ↓mask_ite, ite_self, and_self, hμ]

theorem linkTimeout_mask (hμ : μ .regs = true ∧ μ .evt = true ∧ μ .links = true ∧ μ .que = true ∧ μ .mtr = true ∧ μ .ten = true) (link : Nat) (s : State) :
    (linkTimeout link s).mask μ = s.mask μ := by
  simp only [linkTimeout, ↓setF_mask, ↓failExec_mask, ↓linkWake_mask, ↓raiseLink_mask, ↓mask_ite, ite_self, and_self, hμ]

theorem linkDown_mask (hμ : μ .regs = true ∧ μ .evt = true ∧ μ .links = true ∧ μ .que = true ∧ μ .mtr = true ∧ μ .ten = true ∧ μ .vol = true ∧ μ .fmt = true ∧ μ .band = true ∧ μ .cal = true ∧ μ .rch = true ∧ μ .mot = true) (link : Nat) (s : State) :
    (linkDown link s).mask μ = s.mask μ := by
  simp only [linkDown, ↓setF_mask, ↓requalify_mask, ↓setAttempts_mask, ↓downlinkLost_mask, ↓raiseLink_mask, ↓mask_ite, ite_self, and_self, hμ]

theorem linkLeave_mask (hμ : μ .regs = true ∧ μ .evt = true) (link : Nat) (act : State → State) (s : State) (hact : ∀ s, (act s).mask μ = s.mask μ) :
    (linkLeave link act s).mask μ = s.mask μ := by
  simp only [linkLeave, ↓raiseLink_mask, ↓mask_ite, ite_self, and_self, hμ, hact]

theorem retrainHfe_mask (hμ : μ .regs = true ∧ μ .evt = true ∧ μ .links = true ∧ μ .que = true ∧ μ .mtr = true ∧ μ .ten = true ∧ μ .vol = true ∧ μ .fmt = true ∧ μ .band = true ∧ μ .cal = true ∧ μ .rch = true ∧ μ .mot = true) (n : Nat) (failed : Bool) (s : State) :
    (retrainHfe n failed s).mask μ = s.mask μ := by
  simp (maxDischargeDepth := 6) only [retrainHfe, ↓linkWake_mask, ↓downlinkLost_mask, ↓linkLeave_mask, ↓mask_ite, ite_self, ↓mask_forEach, and_self, implies_true, hμ]

theorem clRetrain_mask (hμ : μ .regs = true ∧ μ .evt = true ∧ μ .links = true ∧ μ .que = true ∧ μ .mtr = true ∧ μ .ten = true ∧ μ .vol = true ∧ μ .fmt = true ∧ μ .band = true ∧ μ .cal = true ∧ μ .rch = true ∧ μ .mot = true) (n : Nat) (s : State) :
    (clRetrain n s).mask μ = s.mask μ := by
  simp only [clRetrain, ↓lockGate_mask, ↓retrainHfe_mask, ↓mask_ite, ite_self, and_self, implies_true, hμ]

theorem clPermission_mask (hμ : μ .regs = true ∧ μ .evt = true ∧ μ .links = true ∧ μ .que = true ∧ μ .mtr = true ∧ μ .ten = true ∧ μ .vol = true ∧ μ .fmt = true ∧ μ .band = true ∧ μ .cal = true ∧ μ .rch = true ∧ μ .mot = true) (n : Nat) (dl : Bool) (ul0 : Bool) (ul1 : Bool) (s : State) :
    (clPermission n dl ul0 ul1 s).mask μ = s.mask μ := by
  simp (maxDischargeDepth := 6) only [clPermission, ↓setF_mask, ↓setB_mask, ↓lockGate_mask, ↓linkWake_mask, ↓downlinkLost_mask, ↓linkLeave_mask, ↓mask_ite, ite_self, ↓mask_forEach, and_self, implies_true, hμ]

theorem noteOut_mask (hμ : μ .cal = true) (w : Nat) (s : State) :
    (noteOut w s).mask μ = s.mask μ := by
  unfold noteOut
  (repeat' split) <;> simp only [↓mask_cal, hμ]

theorem writerReport_mask (hμ : μ .regs = true ∧ μ .links = true ∧ μ .cal = true) (n : Nat) (w : Nat) (status : Nat) (s : State) :
    (writerReport n w status s).mask μ = s.mask μ := by
  simp only [writerReport, ↓setF_mask, ↓setB_mask, ↓incF_mask, ↓forwardHfe_mask, ↓noteOut_mask, ↓mask_ite, ite_self, hμ]

theorem readerReport_mask (hμ : μ .regs = true ∧ μ .evt = true ∧ μ .links = true) (n : Nat) (j : Nat) (status : Nat) (s : State) :
    (readerReport n j status s).mask μ = s.mask μ := by
  simp only [readerReport, ↓setF_mask, ↓setB_mask, ↓incF_mask, ↓raise_mask, ↓forwardHfe_mask, ↓mask_ite, ite_self, and_self, hμ]

theorem statusRefresh_mask (hμ : μ .links = true) (n : Nat) (s : State) :
    (statusRefresh n s).mask μ = s.mask μ := by
  simp only [statusRefresh, ↓mgmtRead_mask, ↓mask_ite, ite_self, ↓mask_forEach, implies_true, hμ]

theorem statusRead_mask (hμ : μ .regs = true ∧ μ .evt = true ∧ μ .links = true ∧ μ .cal = true) (n : Nat) (off : Nat) (data : Nat) (s : State) :
    (statusRead n off data s).mask μ = s.mask μ := by
  simp only [statusRead, ↓writerReport_mask, ↓readerReport_mask, ↓mask_ite, ite_self, and_self, hμ]

theorem mgmtResponse_mask (hμ : μ .regs = true ∧ μ .evt = true ∧ μ .links = true ∧ μ .cal = true) (n : Nat) (b : BitVec 64) (s : State) :
    (mgmtResponse n b s).mask μ = s.mask μ := by
  simp only [mgmtResponse]
  (repeat' split) <;> simp only [↓setHfe_mask, ↓pumpHfe_mask, ↓statusRead_mask, and_self, hμ]

theorem mgmtTimeout_mask (hμ : μ .regs = true ∧ μ .evt = true ∧ μ .links = true ∧ μ .que = true ∧ μ .mtr = true ∧ μ .ten = true ∧ μ .vol = true ∧ μ .fmt = true ∧ μ .band = true ∧ μ .cal = true ∧ μ .rch = true ∧ μ .mot = true) (n : Nat) (tag : Nat) (s : State) :
    (mgmtTimeout n tag s).mask μ = s.mask μ := by
  simp only [mgmtTimeout]
  (repeat' split) <;> simp only [↓incF_mask, ↓raiseC_mask, ↓setHfe_mask, ↓pumpHfe_mask, ↓retrainHfe_mask, and_self, hμ]

theorem gateCheck_mask (hμ : μ .regs = true ∧ μ .evt = true ∧ μ .que = true ∧ μ .mtr = true ∧ μ .ten = true ∧ μ .vol = true ∧ μ .fmt = true ∧ μ .band = true ∧ μ .cal = true ∧ μ .rch = true ∧ μ .mot = true) (b : Nat) (s : State) :
    (gateCheck b s).mask μ = s.mask μ := by
  simp only [gateCheck, ↓closeGate_mask, ↓stopBand_mask, ↓abortDataSet_mask, ↓mask_ite, ite_self, and_self, hμ]

theorem noteUnrecorded_mask (hμ : μ .band = true) (b : Nat) (gate : Bool) (outTracks : List Nat) (places : List (Nat × Nat)) (s : State) :
    (noteUnrecorded b gate outTracks places s).mask μ = s.mask μ := by
  simp only [noteUnrecorded, ↓setBand_mask, hμ]

theorem launchBurst_mask (hμ : μ .regs = true ∧ μ .evt = true ∧ μ .links = true ∧ μ .que = true ∧ μ .mtr = true ∧ μ .ten = true ∧ μ .vol = true ∧ μ .fmt = true ∧ μ .band = true ∧ μ .cal = true ∧ μ .rch = true ∧ μ .mot = true) (n : Nat) (frame : Nat) (bit : Nat) (correction : Int) (s : State) :
    (launchBurst n frame bit correction s).mask μ = s.mask μ := by
  simp only [launchBurst, ↓setBand_mask, ↓setHfe_mask, ↓sendLine_mask, ↓gateCheck_mask, ↓noteUnrecorded_mask, ↓mask_ite, ite_self, and_self, hμ]

/-! ## Commands -/

theorem execDownlinkBurstLaunch_mask (hμ : μ .regs = true ∧ μ .evt = true ∧ μ .links = true ∧ μ .que = true ∧ μ .mtr = true ∧ μ .ten = true ∧ μ .vol = true ∧ μ .fmt = true ∧ μ .band = true ∧ μ .cal = true ∧ μ .rch = true ∧ μ .mot = true) (hfe : Nat) (frame : Nat) (bit : Nat) (correction : Int) (s : State) {t : State}
    (ht : execDownlinkBurstLaunch hfe frame bit correction s = .next t) : t.mask μ = s.mask μ := by
  rw [execDownlinkBurstLaunch] at ht
  rw [← Host.Outcome.next.inj ht]
  simp only [↓launchBurst_mask, and_self, hμ]

theorem execMgmtResponseReceived_mask (hμ : μ .regs = true ∧ μ .evt = true ∧ μ .links = true ∧ μ .cal = true) (hfe : Nat) (block : BitVec 64) (s : State) {t : State}
    (ht : execMgmtResponseReceived hfe block s = .next t) : t.mask μ = s.mask μ := by
  rw [execMgmtResponseReceived] at ht
  rw [← Host.Outcome.next.inj ht]
  simp only [↓mgmtResponse_mask, and_self, hμ]

theorem execHfeStatusRefresh_mask (hμ : μ .links = true) (hfe : Nat) (s : State) {t : State}
    (ht : execHfeStatusRefresh hfe s = .next t) : t.mask μ = s.mask μ := by
  rw [execHfeStatusRefresh] at ht
  rw [← Host.Outcome.next.inj ht]
  simp only [↓statusRefresh_mask, hμ]

theorem execMgmtTimeout_mask (hμ : μ .regs = true ∧ μ .evt = true ∧ μ .links = true ∧ μ .que = true ∧ μ .mtr = true ∧ μ .ten = true ∧ μ .vol = true ∧ μ .fmt = true ∧ μ .band = true ∧ μ .cal = true ∧ μ .rch = true ∧ μ .mot = true) (hfe : Nat) (tag : Nat) (s : State) {t : State}
    (ht : execMgmtTimeout hfe tag s = .next t) : t.mask μ = s.mask μ := by
  rw [execMgmtTimeout] at ht
  rw [← Host.Outcome.next.inj ht]
  simp only [↓mgmtTimeout_mask, and_self, hμ]

theorem execClLinkStateAdvance_mask (hμ : μ .regs = true ∧ μ .pos = true ∧ μ .links = true) (link : Nat) (delay : Nat) (block : BitVec 64) (s : State) {t : State}
    (ht : execClLinkStateAdvance link delay block s = .next t) : t.mask μ = s.mask μ := by
  rw [execClLinkStateAdvance] at ht
  rw [← Host.Outcome.next.inj ht]
  simp only [↓linkAdvance_mask, and_self, hμ]

theorem execClLinkTimeout_mask (hμ : μ .regs = true ∧ μ .evt = true ∧ μ .links = true ∧ μ .que = true ∧ μ .mtr = true ∧ μ .ten = true) (link : Nat) (s : State) {t : State}
    (ht : execClLinkTimeout link s = .next t) : t.mask μ = s.mask μ := by
  rw [execClLinkTimeout] at ht
  rw [← Host.Outcome.next.inj ht]
  simp only [↓linkTimeout_mask, and_self, hμ]

theorem execClLinkDown_mask (hμ : μ .regs = true ∧ μ .evt = true ∧ μ .links = true ∧ μ .que = true ∧ μ .mtr = true ∧ μ .ten = true ∧ μ .vol = true ∧ μ .fmt = true ∧ μ .band = true ∧ μ .cal = true ∧ μ .rch = true ∧ μ .mot = true) (link : Nat) (s : State) {t : State}
    (ht : execClLinkDown link s = .next t) : t.mask μ = s.mask μ := by
  rw [execClLinkDown] at ht
  rw [← Host.Outcome.next.inj ht]
  simp only [↓linkDown_mask, and_self, hμ]

theorem execClRetrain_mask (hμ : μ .regs = true ∧ μ .evt = true ∧ μ .links = true ∧ μ .que = true ∧ μ .mtr = true ∧ μ .ten = true ∧ μ .vol = true ∧ μ .fmt = true ∧ μ .band = true ∧ μ .cal = true ∧ μ .rch = true ∧ μ .mot = true) (hfe : Nat) (s : State) {t : State}
    (ht : execClRetrain hfe s = .next t) : t.mask μ = s.mask μ := by
  rw [execClRetrain] at ht
  rw [← Host.Outcome.next.inj ht]
  simp only [↓clRetrain_mask, and_self, hμ]

theorem execClCtrlPermission_mask (hμ : μ .regs = true ∧ μ .evt = true ∧ μ .links = true ∧ μ .que = true ∧ μ .mtr = true ∧ μ .ten = true ∧ μ .vol = true ∧ μ .fmt = true ∧ μ .band = true ∧ μ .cal = true ∧ μ .rch = true ∧ μ .mot = true) (hfe : Nat) (dl : Bool) (ul0 : Bool) (ul1 : Bool) (s : State) {t : State}
    (ht : execClCtrlPermission hfe dl ul0 ul1 s = .next t) : t.mask μ = s.mask μ := by
  rw [execClCtrlPermission] at ht
  rw [← Host.Outcome.next.inj ht]
  simp only [↓clPermission_mask, and_self, hμ]

end Sys2Proof.Machine
end

