-- ==== Sys2Proof/Laws/BoardsMask.lean ====
section
/-!
SUPPORT. What each function of Machine/Boards.lean touches at most.
-/
namespace Sys2Proof.Machine

variable {μ : Part → Bool}

theorem freeBuf_mask (hμ : μ .regs = true ∧ μ .evt = true ∧ μ .band = true) (b : Nat) (buf : Nat) (s : State) :
    (freeBuf b buf s).mask μ = s.mask μ := by
  simp only [freeBuf, ↓notify_mask, ↓setBand_mask, and_self, hμ]

theorem armBuffer_mask (hμ : μ .regs = true ∧ μ .evt = true ∧ μ .band = true) (b : Nat) (buf : Nat) (s : State) :
    (armBuffer b buf s).mask μ = s.mask μ := by
  simp only [armBuffer, ↓mask_ite]
  (repeat' split) <;> simp only [↓setF_mask, ↓raiseB_mask, ↓setBand_mask, and_self, hμ]

theorem brdArm_mask (hμ : μ .regs = true ∧ μ .evt = true ∧ μ .band = true) (b : Nat) (buf : Nat) (s : State) :
    (brdArm b buf s).mask μ = s.mask μ := by
  simp only [brdArm, ↓lockGate_mask, ↓armBuffer_mask, ↓mask_ite, ite_self, and_self, implies_true, hμ]

theorem startBand_mask (hμ : μ .regs = true ∧ μ .band = true) (b : Nat) (s : State) :
    (startBand b s).mask μ = s.mask μ := by
  simp only [startBand, ↓setF_mask, ↓setBand_mask, ↓mask_ite, ite_self, hμ]

theorem brdStart_mask (hμ : μ .regs = true ∧ μ .band = true) (b : Nat) (s : State) :
    (brdStart b s).mask μ = s.mask μ := by
  simp only [brdStart, ↓lockGate_mask, ↓startBand_mask, ↓mask_ite, ite_self, and_self, implies_true, hμ]

theorem runEnds_mask (hμ : μ .regs = true ∧ μ .fmt = true ∧ μ .mot = true) (s : State) :
    (runEnds s).mask μ = s.mask μ := by
  simp only [runEnds, ↓mask_ite]
  (repeat' split) <;> simp only [↓incF_mask, ↓setFmt_mask, ↓setTarget_mask, ↓travel_mask, ↓goBack_mask, and_self, hμ]

theorem reboard_mask (hμ : μ .regs = true ∧ μ .evt = true ∧ μ .que = true ∧ μ .mtr = true ∧ μ .ten = true ∧ μ .vol = true ∧ μ .fmt = true ∧ μ .band = true ∧ μ .cal = true ∧ μ .rch = true ∧ μ .mot = true) (b : Nat) (s : State) :
    (reboard b s).mask μ = s.mask μ := by
  simp only [reboard]
  (repeat' split) <;> simp only [↓restartFrom_mask, ↓disarmNext_mask, ↓abortDataSet_mask, ↓mask_forEach, and_self, implies_true, hμ]

theorem brdStop_mask (hμ : μ .regs = true ∧ μ .evt = true ∧ μ .que = true ∧ μ .mtr = true ∧ μ .ten = true ∧ μ .vol = true ∧ μ .fmt = true ∧ μ .band = true ∧ μ .cal = true ∧ μ .rch = true ∧ μ .mot = true) (b : Nat) (s : State) :
    (brdStop b s).mask μ = s.mask μ := by
  simp only [brdStop, ↓lockGate_mask, ↓stopBand_mask, ↓abortDataSet_mask, ↓runEnds_mask, ↓reboard_mask, ↓mask_ite, ite_self, and_self, implies_true, hμ]

theorem brdDisarm_mask (hμ : μ .regs = true ∧ μ .evt = true ∧ μ .que = true ∧ μ .mtr = true ∧ μ .ten = true ∧ μ .vol = true ∧ μ .fmt = true ∧ μ .band = true ∧ μ .cal = true ∧ μ .rch = true ∧ μ .mot = true) (b : Nat) (buf : Nat) (s : State) :
    (brdDisarm b buf s).mask μ = s.mask μ := by
  simp only [brdDisarm, ↓lockGate_mask, ↓freeBuf_mask, ↓reboard_mask, ↓mask_ite, ite_self, and_self, implies_true, hμ]

theorem brdHostSet_mask (hμ : μ .regs = true) (b : Nat) (s : State) :
    (brdHostSet b s).mask μ = s.mask μ := by
  simp only [brdHostSet, ↓setF_mask, ↓lockGate_mask, ↓mask_ite, ite_self, implies_true, hμ]

theorem nextSquare_mask (hμ : μ .band = true) (b : Nat) (s : State) :
    (nextSquare b s).mask μ = s.mask μ := by
  simp only [nextSquare, ↓setBand_mask, hμ]

theorem emit_mask (hμ : μ .band = true) (b : Nat) (q : Square) (arg : Nat) (s : State) :
    (emit b q arg s).mask μ = s.mask μ := by
  simp only [emit, ↓setBand_mask, ↓nextSquare_mask, hμ]

theorem emitGap_mask (hμ : μ .band = true) (b : Nat) (s : State) :
    (emitGap b s).mask μ = s.mask μ := by
  unfold emitGap
  (repeat' split) <;> simp only [↓setBand_mask, ↓emit_mask, hμ]

theorem emitPlain_mask (hμ : μ .band = true) (op : Nat) (b : Nat) (s : State) :
    (emitPlain op b s).mask μ = s.mask μ := by
  unfold emitPlain
  (repeat' split) <;> simp only [↓emit_mask, hμ]

theorem emitRow_mask (hμ : μ .regs = true ∧ μ .evt = true ∧ μ .band = true) (b : Nat) (s : State) :
    (emitRow b s).mask μ = s.mask μ := by
  unfold emitRow
  (repeat' split) <;> simp only [↓incF_mask, ↓raiseC_mask, ↓setBand_mask, ↓emit_mask, ↓mask_forEach, and_self, implies_true, hμ]

theorem jumpSquare_mask (hμ : μ .band = true) (b : Nat) (s : State) :
    (jumpSquare b s).mask μ = s.mask μ := by
  simp only [jumpSquare]
  (repeat' split) <;> simp only [↓setBand_mask, hμ]

theorem beginBoard_mask (hμ : μ .fmt = true) (b : Nat) (s : State) :
    (beginBoard b s).mask μ = s.mask μ := by
  simp only [beginBoard]
  (repeat' split) <;> simp only [↓setFmt_mask, hμ]

theorem waitFrame_mask (hμ : μ .regs = true ∧ μ .evt = true ∧ μ .que = true ∧ μ .mtr = true ∧ μ .ten = true ∧ μ .vol = true ∧ μ .fmt = true ∧ μ .band = true ∧ μ .mot = true) (b : Nat) (s : State) :
    (waitFrame b s).mask μ = s.mask μ := by
  simp only [waitFrame, ↓setBand_mask, ↓beginBoard_mask, ↓mask_ite, hμ]
  (repeat' split) <;> simp only [↓raiseB_mask, ↓setFmt_mask, ↓failExec_mask, ↓endVolume_mask, ↓setBand_mask, ↓goBack_mask, ↓countStop_mask, and_self, hμ]

theorem extWritten_mask (hμ : μ .regs = true) (n : Nat) (s : State) :
    (extWritten n s).mask μ = s.mask μ := by
  unfold extWritten
  (repeat' split) <;> simp only [↓setF_mask, hμ]

theorem readEnds_mask (hμ : μ .rch = true) (b : Nat) (n : Nat) (s : State) :
    (readEnds b n s).mask μ = s.mask μ := by
  simp only [readEnds, ↓mask_rch, ↓mask_ite, ite_self, hμ]

theorem freshLoops_mask (hμ : μ .rch = true) (s : State) :
    (freshLoops s).mask μ = s.mask μ := by
  simp only [freshLoops, ↓mask_rch, hμ]

theorem passRead_mask (hμ : μ .rch = true) (s : State) :
    (passRead s).mask μ = s.mask μ := by
  simp only [passRead, ↓freshLoops_mask, ↓mask_rch, ↓mask_ite, ite_self, hμ]

theorem endSquare_mask (hμ : μ .regs = true ∧ μ .evt = true ∧ μ .que = true ∧ μ .mtr = true ∧ μ .ten = true ∧ μ .vol = true ∧ μ .fmt = true ∧ μ .band = true ∧ μ .cal = true ∧ μ .rch = true ∧ μ .mot = true) (b : Nat) (s : State) :
    (endSquare b s).mask μ = s.mask μ := by
  simp only [endSquare]
  (repeat' split) <;> simp only [↓setBand_mask, ↓closeGate_mask, ↓onSet_mask, ↓failWindows_mask, ↓freeBuf_mask, ↓runEnds_mask, ↓beginBoard_mask, ↓extWritten_mask, ↓readEnds_mask, ↓passRead_mask, and_self, hμ]

theorem speedMatch_mask (hμ : μ .regs = true ∧ μ .mot = true) (s : State) :
    (speedMatch s).mask μ = s.mask μ := by
  simp only [speedMatch, ↓setF_mask, ↓setTarget_mask, hμ]

/-! ## Commands -/

theorem execBrdArm_mask (hμ : μ .regs = true ∧ μ .evt = true ∧ μ .band = true) (band : Nat) (buf : Nat) (s : State) {t : State}
    (ht : execBrdArm band buf s = .next t) : t.mask μ = s.mask μ := by
  rw [execBrdArm] at ht
  rw [← Host.Outcome.next.inj ht]
  simp only [↓brdArm_mask, and_self, hμ]

theorem execBrdStart_mask (hμ : μ .regs = true ∧ μ .band = true) (band : Nat) (s : State) {t : State}
    (ht : execBrdStart band s = .next t) : t.mask μ = s.mask μ := by
  rw [execBrdStart] at ht
  rw [← Host.Outcome.next.inj ht]
  simp only [↓brdStart_mask, and_self, hμ]

theorem execBrdStop_mask (hμ : μ .regs = true ∧ μ .evt = true ∧ μ .que = true ∧ μ .mtr = true ∧ μ .ten = true ∧ μ .vol = true ∧ μ .fmt = true ∧ μ .band = true ∧ μ .cal = true ∧ μ .rch = true ∧ μ .mot = true) (band : Nat) (s : State) {t : State}
    (ht : execBrdStop band s = .next t) : t.mask μ = s.mask μ := by
  rw [execBrdStop] at ht
  rw [← Host.Outcome.next.inj ht]
  simp only [↓brdStop_mask, and_self, hμ]

theorem execBrdDisarm_mask (hμ : μ .regs = true ∧ μ .evt = true ∧ μ .que = true ∧ μ .mtr = true ∧ μ .ten = true ∧ μ .vol = true ∧ μ .fmt = true ∧ μ .band = true ∧ μ .cal = true ∧ μ .rch = true ∧ μ .mot = true) (band : Nat) (buf : Nat) (s : State) {t : State}
    (ht : execBrdDisarm band buf s = .next t) : t.mask μ = s.mask μ := by
  rw [execBrdDisarm] at ht
  rw [← Host.Outcome.next.inj ht]
  simp only [↓brdDisarm_mask, and_self, hμ]

theorem execBrdHostSet_mask (hμ : μ .regs = true) (band : Nat) (s : State) {t : State}
    (ht : execBrdHostSet band s = .next t) : t.mask μ = s.mask μ := by
  rw [execBrdHostSet] at ht
  rw [← Host.Outcome.next.inj ht]
  simp only [↓brdHostSet_mask, hμ]

theorem execWaitFrame_mask (hμ : μ .regs = true ∧ μ .evt = true ∧ μ .que = true ∧ μ .mtr = true ∧ μ .ten = true ∧ μ .vol = true ∧ μ .fmt = true ∧ μ .band = true ∧ μ .mot = true) (band : Nat) (s : State) {t : State}
    (ht : execWaitFrame band s = .next t) : t.mask μ = s.mask μ := by
  rw [execWaitFrame] at ht
  rw [← Host.Outcome.next.inj ht]
  simp only [↓waitFrame_mask, and_self, hμ]

theorem execEmitGap_mask (hμ : μ .band = true) (band : Nat) (s : State) {t : State}
    (ht : execEmitGap band s = .next t) : t.mask μ = s.mask μ := by
  rw [execEmitGap] at ht
  rw [← Host.Outcome.next.inj ht]
  simp only [↓emitGap_mask, hμ]

theorem execEmitSync_mask (hμ : μ .band = true) (band : Nat) (s : State) {t : State}
    (ht : execEmitSync band s = .next t) : t.mask μ = s.mask μ := by
  rw [execEmitSync] at ht
  rw [← Host.Outcome.next.inj ht]
  simp only [↓emitPlain_mask, hμ]

theorem execEmitHeader_mask (hμ : μ .band = true) (band : Nat) (s : State) {t : State}
    (ht : execEmitHeader band s = .next t) : t.mask μ = s.mask μ := by
  rw [execEmitHeader] at ht
  rw [← Host.Outcome.next.inj ht]
  simp only [↓emitPlain_mask, hμ]

theorem execEmitRow_mask (hμ : μ .regs = true ∧ μ .evt = true ∧ μ .band = true) (band : Nat) (s : State) {t : State}
    (ht : execEmitRow band s = .next t) : t.mask μ = s.mask μ := by
  rw [execEmitRow] at ht
  rw [← Host.Outcome.next.inj ht]
  simp only [↓emitRow_mask, and_self, hμ]

theorem execBandFill_mask (hμ : μ .band = true) (band : Nat) (s : State) {t : State}
    (ht : execBandFill band s = .next t) : t.mask μ = s.mask μ := by
  rw [execBandFill] at ht
  rw [← Host.Outcome.next.inj ht]
  simp only [↓emitPlain_mask, hμ]

theorem execJump_mask (hμ : μ .band = true) (band : Nat) (s : State) {t : State}
    (ht : execJump band s = .next t) : t.mask μ = s.mask μ := by
  rw [execJump] at ht
  rw [← Host.Outcome.next.inj ht]
  simp only [↓jumpSquare_mask, hμ]

end Sys2Proof.Machine
end

