-- ==== Sys2Proof/Laws/FormatMask.lean ====
section
/-!
SUPPORT. What each function of Machine/Format.lean touches at most.
-/
namespace Sys2Proof.Machine

variable {μ : Part → Bool}

theorem onGran_mask (hμ : μ .fmt = true) (gsn : Nat) (f : Gran → Gran) (s : State) :
    (onGran gsn f s).mask μ = s.mask μ := by
  simp only [onGran, ↓setFmt_mask, hμ]

theorem showMap_mask (hμ : μ .regs = true) (s : State) :
    (showMap s).mask μ = s.mask μ := by
  unfold showMap
  (repeat' split) <;> simp only [↓setF_mask, hμ]

theorem addTail_mask (hμ : μ .fmt = true) (base : Nat) (eod : Bool) (s : State) :
    (addTail base eod s).mask μ = s.mask μ := by
  simp only [addTail, ↓setFmt_mask, hμ]

theorem openSet_mask (hμ : μ .fmt = true) (s : State) :
    (openSet s).mask μ = s.mask μ := by
  unfold openSet
  (repeat' split) <;> simp only [↓setFmt_mask, hμ]

theorem feed_mask (hμ : μ .fmt = true) (gsn : Nat) (y0 : Nat) (y1 : Bool) (y2 : List Byte) (s : State) :
    (feed gsn y0 y1 y2 s).mask μ = s.mask μ := by
  induction y0 generalizing y1 y2 s with
  | zero => rfl
  | succ n ih =>
    unfold feed
    repeat' (first | (simp only [↓setFmt_mask, ↓onSet_mask, ↓addTail_mask, ↓openSet_mask, ↓mask_ite, ite_self, hμ, ih]; done) | split | dsimp only)

theorem tryClose_mask (hμ : μ .fmt = true) (s : State) :
    (tryClose s).mask μ = s.mask μ := by
  simp only [tryClose, ↓setFmt_mask, ↓mask_ite, hμ]
  (repeat' split) <;> simp only [↓setFmt_mask, ↓addTail_mask, hμ]

theorem foldChain_mask (hμ : μ .ten = true) (g : Gran) (s : State) :
    (foldChain g s).mask μ = s.mask μ := by
  simp only [foldChain, ↓setTenant_mask, hμ]

theorem packGranule_mask (hμ : μ .ten = true ∧ μ .fmt = true) (s : State) :
    (packGranule s).mask μ = s.mask μ := by
  unfold packGranule
  (repeat' split) <;> simp only [↓setFmt_mask, ↓onGran_mask, ↓feed_mask, ↓tryClose_mask, ↓foldChain_mask, hμ]

theorem dataSetReady_mask (hμ : μ .vol = true ∧ μ .fmt = true) (s : State) :
    (dataSetReady s).mask μ = s.mask μ := by
  simp only [dataSetReady]
  (repeat' split) <;> simp only [↓setVol_mask, ↓setFmt_mask, ↓onSet_mask, hμ]

theorem passEnd_mask (hμ : μ .regs = true ∧ μ .evt = true ∧ μ .links = true ∧ μ .que = true ∧ μ .ten = true ∧ μ .vol = true ∧ μ .fmt = true ∧ μ .band = true ∧ μ .rch = true ∧ μ .mot = true) (s : State) :
    (passEnd s).mask μ = s.mask μ := by
  unfold passEnd
  (repeat' split) <;> simp only [↓setF_mask, ↓setFmt_mask, ↓setTarget_mask, ↓closeBefore_mask, ↓runUplinks_mask, ↓mask_ite, ite_self, and_self, hμ]

theorem eodSettled_mask (hμ : μ .regs = true ∧ μ .evt = true ∧ μ .que = true ∧ μ .mtr = true ∧ μ .ten = true ∧ μ .vol = true ∧ μ .fmt = true) (d : DataSet) (s : State) :
    (eodSettled d s).mask μ = s.mask μ := by
  simp only [eodSettled]
  (repeat' split) <;> simp only [↓setVol_mask, ↓setFmt_mask, ↓failExec_mask, ↓haltStream_mask, ↓showMap_mask, ↓mask_ten, and_self, hμ]

theorem releaseSets_mask (hμ : μ .regs = true ∧ μ .evt = true ∧ μ .que = true ∧ μ .mtr = true ∧ μ .ten = true ∧ μ .vol = true ∧ μ .fmt = true ∧ μ .band = true ∧ μ .enc = true) (y0 : Nat) (s : State) :
    (releaseSets y0 s).mask μ = s.mask μ := by
  induction y0 generalizing s with
  | zero => rfl
  | succ n ih =>
    unfold releaseSets
    repeat' (first | (simp only [↓setFmt_mask, ↓setEnc_mask, ↓dropKeys_mask, ↓eodSettled_mask, ↓mask_ite, ite_self, and_self, hμ, ih]; done) | split | dsimp only)

theorem abandonRun_mask (hμ : μ .regs = true ∧ μ .evt = true ∧ μ .que = true ∧ μ .mtr = true ∧ μ .ten = true ∧ μ .vol = true ∧ μ .fmt = true ∧ μ .band = true ∧ μ .cal = true ∧ μ .rch = true ∧ μ .mot = true) (s : State) :
    (abandonRun s).mask μ = s.mask μ := by
  unfold abandonRun
  (repeat' split) <;> simp (maxDischargeDepth := 6) only [↓abandonRow_mask, ↓mask_ite, ite_self, ↓mask_foldl, and_self, implies_true, hμ]

theorem settleCheck_mask (hμ : μ .regs = true ∧ μ .evt = true ∧ μ .que = true ∧ μ .mtr = true ∧ μ .ten = true ∧ μ .vol = true ∧ μ .fmt = true ∧ μ .band = true ∧ μ .enc = true ∧ μ .cal = true ∧ μ .rch = true ∧ μ .mot = true) (s : State) :
    (settleCheck s).mask μ = s.mask μ := by
  simp only [settleCheck, ↓releaseSets_mask, ↓abandonRun_mask, and_self, hμ]

theorem startRun_mask (hμ : μ .regs = true ∧ μ .links = true ∧ μ .fmt = true ∧ μ .band = true ∧ μ .mot = true) (pass : Nat) (step : Nat) (write : Bool) (s : State) :
    (startRun pass step write s).mask μ = s.mask μ := by
  simp only [startRun, ↓setF_mask, ↓setFmt_mask, ↓setTarget_mask, ↓runUplinks_mask, ↓startBand_mask, ↓mask_ite, ite_self, ↓mask_forEach, and_self, implies_true, hμ]

theorem retryLock_mask (hμ : μ .pos = true ∧ μ .fmt = true ∧ μ .mot = true) (s : State) :
    (retryLock s).mask μ = s.mask μ := by
  simp only [retryLock, ↓setFmt_mask, ↓setTarget_mask, ↓setPos_mask, hμ]

theorem repositioned_mask (hμ : μ .regs = true ∧ μ .pos = true ∧ μ .links = true ∧ μ .fmt = true ∧ μ .band = true ∧ μ .mot = true) (s : State) :
    (repositioned s).mask μ = s.mask μ := by
  unfold repositioned
  (repeat' split) <;> simp only [↓startRun_mask, ↓retryLock_mask, and_self, hμ]

/-! ## Commands -/

theorem execEnd_mask (hμ : μ .regs = true ∧ μ .evt = true ∧ μ .que = true ∧ μ .mtr = true ∧ μ .ten = true ∧ μ .vol = true ∧ μ .fmt = true ∧ μ .band = true ∧ μ .enc = true ∧ μ .cal = true ∧ μ .rch = true ∧ μ .mot = true) (band : Nat) (s : State) {t : State}
    (ht : execEnd band s = .next t) : t.mask μ = s.mask μ := by
  rw [execEnd] at ht
  rw [← Host.Outcome.next.inj ht]
  simp only [↓endSquare_mask, ↓settleCheck_mask, and_self, hμ]

theorem execPassEnd_mask (hμ : μ .regs = true ∧ μ .evt = true ∧ μ .links = true ∧ μ .que = true ∧ μ .ten = true ∧ μ .vol = true ∧ μ .fmt = true ∧ μ .band = true ∧ μ .rch = true ∧ μ .mot = true) (s : State) {t : State}
    (ht : execPassEnd s = .next t) : t.mask μ = s.mask μ := by
  rw [execPassEnd] at ht
  rw [← Host.Outcome.next.inj ht]
  simp only [↓passEnd_mask, and_self, hμ]

theorem execDataSetReady_mask (hμ : μ .vol = true ∧ μ .fmt = true) (s : State) {t : State}
    (ht : execDataSetReady s = .next t) : t.mask μ = s.mask μ := by
  rw [execDataSetReady] at ht
  rw [← Host.Outcome.next.inj ht]
  simp only [↓dataSetReady_mask, and_self, hμ]

theorem execRepositionComplete_mask (hμ : μ .regs = true ∧ μ .pos = true ∧ μ .links = true ∧ μ .fmt = true ∧ μ .band = true ∧ μ .mot = true) (s : State) {t : State}
    (ht : execRepositionComplete s = .next t) : t.mask μ = s.mask μ := by
  rw [execRepositionComplete] at ht
  rw [← Host.Outcome.next.inj ht]
  simp only [↓repositioned_mask, and_self, hμ]

theorem execGranulePacked_mask (hμ : μ .ten = true ∧ μ .fmt = true) (s : State) {t : State}
    (ht : execGranulePacked s = .next t) : t.mask μ = s.mask μ := by
  rw [execGranulePacked] at ht
  rw [← Host.Outcome.next.inj ht]
  simp only [↓packGranule_mask, and_self, hμ]

end Sys2Proof.Machine
end

