-- ==== Sys2Proof/Laws/GranulesMask.lean ====
section
/-!
SUPPORT. What each function of Machine/Granules.lean touches at most.
-/
namespace Sys2Proof.Machine

variable {μ : Part → Bool}

theorem setCmp_mask (hμ : μ .cmp = true) (c : CmpSt) (s : State) :
    (setCmp c s).mask μ = s.mask μ := by
  simp only [setCmp, ↓mask_cmp, hμ]

theorem freeEngines_mask (hμ : μ .cmp = true) (s : State) :
    (freeEngines s).mask μ = s.mask μ := by
  simp only [freeEngines, ↓setCmp_mask, hμ]

theorem handOne_mask (hμ : μ .cmp = true) (gsn : Nat) (s : State) :
    (handOne gsn s).mask μ = s.mask μ := by
  unfold handOne
  (repeat' split) <;> simp only [↓setCmp_mask, hμ]

theorem handOut_mask (hμ : μ .cmp = true) (s : State) :
    (handOut s).mask μ = s.mask μ := by
  simp only [handOut, ↓freeEngines_mask, ↓handOne_mask, ↓mask_foldl, implies_true, hμ]

theorem closeGranule_mask (hμ : μ .mtr = true ∧ μ .vol = true ∧ μ .fmt = true ∧ μ .cmp = true) (s : State) :
    (closeGranule s).mask μ = s.mask μ := by
  unfold closeGranule
  (repeat' split) <;> simp only [↓setVol_mask, ↓setFmt_mask, ↓onUsage_mask, ↓handOut_mask, hμ]

theorem addPiece_mask (hμ : μ .mtr = true ∧ μ .vol = true ∧ μ .fmt = true ∧ μ .cmp = true) (w : WrCtx) (rec : Nat) (bytes : List Byte) (starts : Bool) (ends : Bool) (s : State) :
    (addPiece w rec bytes starts ends s).mask μ = s.mask μ := by
  simp only [addPiece, ↓setFmt_mask, ↓closeGranule_mask, ↓mask_ite, ite_self, and_self, hμ]

theorem addPieces_mask (hμ : μ .mtr = true ∧ μ .vol = true ∧ μ .fmt = true ∧ μ .cmp = true) (w : WrCtx) (rec : Nat) (y0 : Nat) (y1 : Bool) (y2 : List Byte) (s : State) :
    (addPieces w rec y0 y1 y2 s).mask μ = s.mask μ := by
  induction y0 generalizing y1 y2 s with
  | zero => rfl
  | succ n ih =>
    unfold addPieces
    repeat' (first | (simp only [↓addPiece_mask, ↓mask_ite, ite_self, and_self, hμ, ih]; done) | split | dsimp only)

theorem cutRecord_mask (hμ : μ .mtr = true ∧ μ .vol = true ∧ μ .fmt = true ∧ μ .cmp = true) (w : WrCtx) (rec : Nat) (bytes : List Byte) (s : State) :
    (cutRecord w rec bytes s).mask μ = s.mask μ := by
  simp only [cutRecord, ↓closeGranule_mask, ↓addPiece_mask, ↓addPieces_mask, ↓mask_ite, and_self, hμ]
  (repeat' split) <;> simp only [↓closeGranule_mask, and_self, hμ]

theorem cutFilemark_mask (hμ : μ .mtr = true ∧ μ .vol = true ∧ μ .fmt = true) (tenant : Nat) (session : Nat) (tag : Nat) (first : Nat) (bracket : Nat) (s : State) :
    (cutFilemark tenant session tag first bracket s).mask μ = s.mask μ := by
  simp only [cutFilemark, ↓setVol_mask, ↓setFmt_mask, ↓onUsage_mask, hμ]

theorem shareTape_mask (hμ : μ .mtr = true) (g : Gran) (s : State) :
    (shareTape g s).mask μ = s.mask μ := by
  simp only [shareTape, ↓onUsage_mask, ↓mask_ite, ite_self, ↓mask_foldl, implies_true, hμ]

theorem feedCipher_mask (hμ : μ .regs = true ∧ μ .fmt = true ∧ μ .ciph = true) (s : State) :
    (feedCipher s).mask μ = s.mask μ := by
  simp only [feedCipher, ↓setFmt_mask, ↓mask_ciph, hμ]

theorem dvInject_mask (hμ : μ .regs = true ∧ μ .cmp = true) (s : State) :
    (dvInject s).mask μ = s.mask μ := by
  simp only [dvInject, ↓lockGate_mask, ↓setCmp_mask, implies_true, hμ]

theorem noteCorrupt_mask (hμ : μ .regs = true ∧ μ .evt = true) (gsn : Nat) (reason : Nat) (acct : Nat) (s : State) :
    (noteCorrupt gsn reason acct s).mask μ = s.mask μ := by
  simp only [noteCorrupt, ↓setF_mask, ↓incF_mask, ↓raiseC_mask, and_self, hμ]

theorem openBody_mask (hμ : μ .regs = true) (h : GranHdr) (body : List Byte) (s : State) :
    (openBody h body s).2.mask μ = s.mask μ := by
  simp only [openBody, ↓incF_mask, hμ]

/-! ## Commands -/

theorem execDvInject_mask (hμ : μ .regs = true ∧ μ .cmp = true) (s : State) {t : State}
    (ht : execDvInject s = .next t) : t.mask μ = s.mask μ := by
  rw [execDvInject] at ht
  rw [← Host.Outcome.next.inj ht]
  simp only [↓dvInject_mask, and_self, hμ]

end Sys2Proof.Machine
end

