-- ==== Sys2Proof/Laws/MemoryMask.lean ====
section
/-!
SUPPORT. What each function of Machine/Memory.lean touches at most.
-/
namespace Sys2Proof.Machine

variable {μ : Part → Bool}

theorem setMem_mask (h : μ .mem = true ∧ μ .cells = true) (x : MemSt) (s : State) : (setMem x s).mask μ = s.mask μ := mask_mem h s x

theorem setMem_maskRest (h : μ .mem = true) (x : MemSt) (s : State) (hx : x.cells = s.mem.cells) : (setMem x s).mask μ = s.mask μ :=
  mask_memRest h s x hx

theorem putBytes_mask (hμ : μ .mem = true ∧ μ .cells = true) (slot : Nat) (y0 : Nat) (y1 : List Byte) (s : State) :
    (putBytes slot y0 y1 s).mask μ = s.mask μ := by
  fun_induction putBytes slot y0 y1 s <;> simp_all only [↓setMem_mask, and_self]

theorem upsetCells_mask (hμ : μ .mem = true ∧ μ .cells = true) (slot : Nat) (l : List (Nat × Byte)) (s : State) :
    (upsetCells slot l s).mask μ = s.mask μ := by
  simp only [upsetCells, ↓putBytes_mask, ↓mask_ite, ite_self, ↓mask_foldl, and_self, implies_true, hμ]

theorem setPage_mask (hμ : μ .mem = true) (p : Nat) (d : PageDesc) (s : State) :
    (setPage p d s).mask μ = s.mask μ := by
  simp only [setPage, ↓setMem_maskRest, hμ]

theorem putRaw_mask (hμ : μ .mem = true ∧ μ .cells = true) (slot : Nat) (w : Nat) (x : Word256 × Chk) (s : State) :
    (putRaw slot w x s).mask μ = s.mask μ := by
  simp only [putRaw, ↓putBytes_mask, and_self, hμ]

theorem putP_mask (hμ : μ .mem = true ∧ μ .cells = true) (slot : Nat) (ps : List Word256) (s : State) :
    (putP slot ps s).mask μ = s.mask μ := by
  simp only [putP, ↓putBytes_mask, ↓mask_forEach, and_self, implies_true, hμ]

theorem storeWord_mask (hμ : μ .mem = true ∧ μ .cells = true) (slot : Nat) (w : Nat) (x : Word256 × Chk) (s : State) :
    (storeWord slot w x s).mask μ = s.mask μ := by
  simp only [storeWord, ↓setPage_mask, ↓putRaw_mask, ↓putP_mask, ↓mask_ite, ite_self, and_self, hμ]

/-- The buffer is no register. -/
theorem mem_setF (f : Fld) (v : Nat) (s : State) : (setF f v s).mem = s.mem := by rw [setF, wr]

theorem logMem_fresh_mask (hμ : μ .regs = true ∧ μ .evt = true ∧ μ .mem = true) (slot kind word chan syn head acct fl : Nat) (s : State) :
    (logMem.fresh slot kind word chan syn head acct fl s).mask μ = s.mask μ := by
  simp only [logMem.fresh, mem_setF, ↓setF_mask, ↓incF_mask, ↓notify_mask, ↓raiseB_mask, ↓setMem_maskRest, ↓mask_ite, ite_self, and_self, hμ]

theorem logMem_mask (hμ : μ .regs = true ∧ μ .evt = true ∧ μ .mem = true) (slot : Nat) (kind : Nat) (word : Nat) (chan : Nat) (flags : Nat) (syn : Nat) (s : State) :
    (logMem slot kind word chan flags syn s).mask μ = s.mask μ := by
  unfold logMem
  dsimp only
  (repeat' split) <;> simp only [↓logMem_fresh_mask, ↓setMem_maskRest, and_self, hμ]

theorem rlogTail_mask (hμ : μ .regs = true) (v : Nat) (s : State) :
    (rlogTail v s).mask μ = s.mask μ := by
  simp only [rlogTail, ↓setF_mask, hμ]

theorem hotAdd_mask (hμ : μ .regs = true ∧ μ .mem = true) (slot : Nat) (s : State) :
    (hotAdd slot s).mask μ = s.mask μ := by
  simp only [hotAdd, ↓incF_mask, ↓setMem_maskRest, ↓mask_ite, ite_self, hμ]

theorem noteCe_mask (hμ : μ .regs = true ∧ μ .evt = true ∧ μ .mem = true) (slot : Nat) (off : Nat) (cnt : Fld) (s : State) :
    (noteCe slot off cnt s).mask μ = s.mask μ := by
  simp only [noteCe, ↓incF_mask, ↓raiseB_mask, ↓setMem_maskRest, ↓mask_ite, ite_self, and_self, hμ]

theorem noteUe_mask (hμ : μ .regs = true) (slot : Nat) (w : Nat) (s : State) :
    (noteUe slot w s).mask μ = s.mask μ := by
  simp only [noteUe, ↓incF_mask, hμ]

theorem repairSlot_mask (hμ : μ .mem = true ∧ μ .cells = true) (slot : Nat) (s : State) :
    (repairSlot slot s).2.mask μ = s.mask μ := by
  simp only [repairSlot]
  (repeat' split) <;> simp only [↓setPage_mask, ↓putRaw_mask, ↓putP_mask, ↓mask_forEach, and_self, implies_true, hμ]

theorem logRepair_mask (hμ : μ .regs = true ∧ μ .evt = true ∧ μ .mem = true) (slot : Nat) (s0 : State) (r : Repair × State) :
    (logRepair slot s0 r).2.mask μ = r.2.mask μ := by
  unfold logRepair
  (repeat' split) <;> simp only [↓addF_mask, ↓incF_mask, ↓raiseB_mask, ↓logMem_mask, ↓mask_foldl, and_self, implies_true, hμ]

theorem repairAndLog_mask (hμ : μ .regs = true ∧ μ .evt = true ∧ μ .mem = true ∧ μ .cells = true) (slot : Nat) (s : State) :
    (repairAndLog slot s).2.mask μ = s.mask μ := by
  simp only [repairAndLog, ↓noteUe_mask, ↓repairSlot_mask, ↓logRepair_mask, ↓mask_foldl, and_self, implies_true, hμ]

end Sys2Proof.Machine
end

