-- ==== Sys2Proof/Laws/PoolMask.lean ====
section
/-!
SUPPORT. What each function of Machine/Pool.lean touches at most.
-/
namespace Sys2Proof.Machine

variable {μ : Part → Bool}

theorem setPool_mask (hμ : μ .pool = true) (p : PoolSt) (s : State) :
    (setPool p s).mask μ = s.mask μ := by
  simp only [setPool, ↓mask_pool, hμ]

theorem setAcct_mask (hμ : μ .pool = true) (a : Nat) (x : Acct) (s : State) :
    (setAcct a x s).mask μ = s.mask μ := by
  simp only [setAcct, ↓setPool_mask, hμ]

theorem checkShort_mask (hμ : μ .regs = true ∧ μ .evt = true) (s : State) :
    (checkShort s).mask μ = s.mask μ := by
  simp only [checkShort, ↓setF_mask, ↓raiseB_mask, ↓mask_ite, ite_self, and_self, hμ]

theorem charge_mask (hμ : μ .pool = true) (a : Nat) (s : State) :
    (charge a s).mask μ = s.mask μ := by
  simp only [charge, ↓setAcct_mask, hμ]

theorem discharge_mask (hμ : μ .pool = true) (a : Nat) (s : State) :
    (discharge a s).mask μ = s.mask μ := by
  simp only [discharge, ↓setAcct_mask, hμ]

theorem ringPush_mask (hμ : μ .pool = true) (page : Nat) (gen : Nat) (s : State) :
    (ringPush page gen s).mask μ = s.mask μ := by
  simp only [ringPush, ↓setPool_mask, hμ]

theorem spill_mask (hμ : μ .regs = true ∧ μ .pool = true) (s : State) :
    (spill s).mask μ = s.mask μ := by
  simp only [spill, ↓incF_mask, ↓setPool_mask, ↓ringPush_mask, ↓mask_ite, ite_self, ↓mask_foldl, implies_true, hμ]

theorem cachePush_mask (hμ : μ .regs = true ∧ μ .pool = true) (p : Nat) (gen : Nat) (s : State) :
    (cachePush p gen s).mask μ = s.mask μ := by
  simp only [cachePush, ↓setPool_mask, ↓spill_mask, and_self, hμ]

theorem cachePop_mask (hμ : μ .regs = true ∧ μ .pool = true) (y0 : Nat) (s : State) :
    (cachePop y0 s).2.mask μ = s.mask μ := by
  induction y0 generalizing s with
  | zero => rfl
  | succ n ih =>
    unfold cachePop
    repeat' (first | (simp only [↓incF_mask, ↓setPool_mask, hμ, ih]; done) | split | dsimp only)

theorem freePage_mask (hμ : μ .regs = true ∧ μ .evt = true ∧ μ .mem = true ∧ μ .pool = true) (p : Nat) (s : State) :
    (freePage p s).mask μ = s.mask μ := by
  simp only [freePage, ↓incF_mask, ↓notify_mask, ↓setPage_mask, ↓hotAdd_mask, ↓setPool_mask, ↓checkShort_mask, ↓discharge_mask, ↓cachePush_mask, ↓mask_ite, ite_self, and_self, hμ]

theorem noteDeny_mask (hμ : μ .regs = true ∧ μ .pool = true) (a : Nat) (st : Nat) (s : State) :
    (noteDeny a st s).mask μ = s.mask μ := by
  simp only [noteDeny, ↓incF_mask, ↓setAcct_mask, ↓mask_ite, ite_self, hμ]

theorem portDone_mask (hμ : μ .regs = true ∧ μ .evt = true) (st : Nat) (p : Nat) (s : State) :
    (portDone st p s).mask μ = s.mask μ := by
  simp only [portDone, ↓setF_mask, ↓notify_mask, and_self, hμ]

theorem answer_mask (hμ : μ .regs = true ∧ μ .evt = true) (r : PoolReq) (st : Nat) (p : Nat) (s : State) :
    (answer r st p s).mask μ = s.mask μ := by
  simp only [answer, ↓portDone_mask, ↓mask_ite, ite_self, and_self, hμ]

theorem misuse_mask (hμ : μ .regs = true ∧ μ .evt = true) (r : PoolReq) (st : Nat) (s : State) :
    (misuse r st s).mask μ = s.mask μ := by
  simp only [misuse, ↓setF_mask, ↓setB_mask, ↓incF_mask, ↓raiseB_mask, and_self, hμ]

theorem takePage_mask (hμ : μ .regs = true ∧ μ .evt = true ∧ μ .mem = true ∧ μ .pool = true) (r : PoolReq) (s : State) :
    (takePage r s).mask μ = s.mask μ := by
  simp only [takePage]
  (repeat' split) <;> simp only [↓incF_mask, ↓setPage_mask, ↓setPool_mask, ↓charge_mask, ↓cachePop_mask, ↓answer_mask, and_self, hμ]

theorem refuseOrWait_mask (hμ : μ .regs = true ∧ μ .evt = true ∧ μ .pool = true) (r : PoolReq) (st : Nat) (s : State) :
    (refuseOrWait r st s).mask μ = s.mask μ := by
  simp only [refuseOrWait, ↓incF_mask, ↓setPool_mask, ↓noteDeny_mask, ↓answer_mask, ↓mask_ite, ite_self, and_self, hμ]

theorem doHandoff_mask (hμ : μ .regs = true ∧ μ .evt = true ∧ μ .mem = true ∧ μ .pool = true) (r : PoolReq) (s : State) :
    (doHandoff r s).mask μ = s.mask μ := by
  simp only [doHandoff, ↓incF_mask, ↓setPage_mask, ↓charge_mask, ↓discharge_mask, ↓answer_mask, and_self, hμ]

theorem retryOne_mask (hμ : μ .regs = true ∧ μ .evt = true ∧ μ .mem = true ∧ μ .pool = true) (r : PoolReq) (s : State) :
    (retryOne r s).1.mask μ = s.mask μ := by
  unfold retryOne
  (repeat' split) <;> simp only [↓setPool_mask, ↓answer_mask, ↓misuse_mask, ↓takePage_mask, ↓doHandoff_mask, and_self, hμ]

theorem retryRound_mask (hμ : μ .regs = true ∧ μ .evt = true ∧ μ .mem = true ∧ μ .pool = true) (y0 : Nat) (y1 : List PoolReq) (y2 : Bool) (s : State) :
    (retryRound y0 y1 y2 s).1.mask μ = s.mask μ := by
  induction y0 generalizing y1 y2 s with
  | zero => rfl
  | succ n ih =>
    unfold retryRound
    repeat' (first | (simp only [↓retryOne_mask, and_self, hμ, ih]; done) | split | dsimp only)

theorem admitHeld_mask (hμ : μ .pool = true) (s : State) :
    (admitHeld s).mask μ = s.mask μ := by
  simp only [admitHeld, ↓setPool_mask, hμ]

theorem retryWaiters_mask (hμ : μ .regs = true ∧ μ .evt = true ∧ μ .mem = true ∧ μ .pool = true) (y0 : Nat) (s : State) :
    (retryWaiters y0 s).mask μ = s.mask μ := by
  induction y0 generalizing s with
  | zero => rfl
  | succ n ih =>
    unfold retryWaiters
    repeat' (first | (simp only [↓retryRound_mask, ↓admitHeld_mask, ↓mask_ite, ite_self, and_self, hμ, ih]; done) | split | dsimp only)

theorem poolEvent_mask (hμ : μ .regs = true ∧ μ .evt = true ∧ μ .mem = true ∧ μ .pool = true) (s : State) :
    (poolEvent s).mask μ = s.mask μ := by
  simp only [poolEvent, ↓retryWaiters_mask, and_self, hμ]

theorem refuse_mask (hμ : μ .regs = true ∧ μ .evt = true) (r : PoolReq) (st : Nat) (s : State) :
    (refuse r st s).mask μ = s.mask μ := by
  simp only [refuse, ↓answer_mask, ↓misuse_mask, ↓mask_ite, ite_self, and_self, hμ]

theorem doFree_mask (hμ : μ .regs = true ∧ μ .evt = true ∧ μ .mem = true ∧ μ .pool = true) (r : PoolReq) (s : State) :
    (doFree r s).mask μ = s.mask μ := by
  simp only [doFree, ↓setPage_mask, ↓freePage_mask, ↓answer_mask, ↓poolEvent_mask, ↓refuse_mask, ↓mask_ite, ite_self, and_self, hμ]

theorem serve_mask (hμ : μ .regs = true ∧ μ .evt = true ∧ μ .mem = true ∧ μ .pool = true) (r : PoolReq) (s : State) :
    (serve r s).mask μ = s.mask μ := by
  unfold serve
  (repeat' split) <;> simp only [↓setPage_mask, ↓answer_mask, ↓takePage_mask, ↓refuseOrWait_mask, ↓doHandoff_mask, ↓poolEvent_mask, ↓refuse_mask, ↓doFree_mask, ↓mask_ite, ite_self, and_self, hμ]

theorem request_mask (hμ : μ .regs = true ∧ μ .evt = true ∧ μ .mem = true ∧ μ .pool = true) (r : PoolReq) (s : State) :
    (request r s).mask μ = s.mask μ := by
  simp only [request, ↓setPool_mask, ↓refuse_mask, ↓serve_mask, ↓mask_ite, ite_self, and_self, hμ]

theorem portGo_mask (hμ : μ .regs = true ∧ μ .evt = true ∧ μ .mem = true ∧ μ .pool = true) (s : State) :
    (portGo s).mask μ = s.mask μ := by
  simp only [portGo, ↓setF_mask, ↓request_mask, ↓mask_ite, ite_self, and_self, hμ]

theorem poolOp_mask (hμ : μ .regs = true ∧ μ .evt = true ∧ μ .mem = true ∧ μ .pool = true) (src : PoolFrom) (op : Nat) (page : Nat) (account : Nat) (target : Nat) (s : State) :
    (poolOp src op page account target s).mask μ = s.mask μ := by
  unfold poolOp
  (repeat' split) <;> simp only [↓setF_mask, ↓setB_mask, ↓lockGate_mask, ↓request_mask, ↓portGo_mask, and_self, implies_true, hμ]

theorem portCancel_mask (hμ : μ .regs = true ∧ μ .evt = true ∧ μ .pool = true) (s : State) :
    (portCancel s).mask μ = s.mask μ := by
  unfold portCancel
  (repeat' split) <;> simp only [↓setPool_mask, ↓answer_mask, ↓admitHeld_mask, and_self, hμ]

theorem cacheFill_mask (hμ : μ .regs = true ∧ μ .evt = true ∧ μ .mem = true ∧ μ .pool = true) (s : State) :
    (cacheFill s).mask μ = s.mask μ := by
  simp only [cacheFill, ↓incF_mask, ↓setPool_mask, ↓serve_mask, ↓mask_ite, ite_self, ↓mask_foldl, and_self, implies_true, hμ]

theorem buildStart_mask (hμ : μ .regs = true ∧ μ .pool = true) (s : State) :
    (buildStart s).mask μ = s.mask μ := by
  simp only [buildStart, ↓setF_mask, ↓setPool_mask, ↓mask_ite, ite_self, hμ]

theorem buildDone_mask (hμ : μ .regs = true ∧ μ .evt = true ∧ μ .mem = true ∧ μ .pool = true) (s : State) :
    (buildDone s).mask μ = s.mask μ := by
  simp only [buildDone, ↓setF_mask, ↓notify_mask, ↓setMem_maskRest, ↓setPool_mask, ↓checkShort_mask, ↓serve_mask, ↓mask_ite, ite_self, ↓mask_foldl, and_self, implies_true, hμ]

theorem acctErr_mask (hμ : μ .regs = true ∧ μ .evt = true) (a : Nat) (item : Nat) (reason : Nat) (s : State) :
    (acctErr a item reason s).mask μ = s.mask μ := by
  simp only [acctErr, ↓setF_mask, ↓notify_mask, and_self, hμ]

theorem writeBounds_mask (hμ : μ .regs = true ∧ μ .evt = true ∧ μ .mem = true ∧ μ .pool = true) (a : Nat) (quota : Nat) (min : Nat) (item : Nat) (s : State) :
    (writeBounds a quota min item s).2.mask μ = s.mask μ := by
  unfold writeBounds
  (repeat' split) <;> simp only [↓setAcct_mask, ↓checkShort_mask, ↓poolEvent_mask, ↓acctErr_mask, and_self, hμ]

theorem acctItem_mask (hμ : μ .regs = true ∧ μ .evt = true ∧ μ .mem = true ∧ μ .pool = true) (a : Nat) (item : Nat) (v : Nat) (s : State) :
    (acctItem a item v s).mask μ = s.mask μ := by
  unfold acctItem
  (repeat' split) <;> simp only [↓setAcct_mask, ↓poolEvent_mask, ↓acctErr_mask, ↓writeBounds_mask, ↓mask_ite, ite_self, and_self, hμ]

theorem acctNext_mask (hμ : μ .regs = true) (s : State) :
    (acctNext s).mask μ = s.mask μ := by
  simp only [acctNext, ↓setF_mask, ↓mask_ite, ite_self, hμ]

theorem acctWinWrite_mask (hμ : μ .regs = true ∧ μ .evt = true ∧ μ .mem = true ∧ μ .pool = true) (v : Nat) (s : State) :
    (acctWinWrite v s).mask μ = s.mask μ := by
  simp only [acctWinWrite, ↓acctItem_mask, ↓acctNext_mask, ↓mask_ite, ite_self, and_self, hμ]

/-! ## Commands -/

theorem execAlloc_mask (hμ : μ .regs = true ∧ μ .evt = true ∧ μ .mem = true ∧ μ .pool = true) (src : PoolFrom) (account : Nat) (s : State) {t : State}
    (ht : execAlloc src account s = .next t) : t.mask μ = s.mask μ := by
  rw [execAlloc] at ht
  rw [← Host.Outcome.next.inj ht]
  simp only [↓poolOp_mask, and_self, hμ]

theorem execFree_mask (hμ : μ .regs = true ∧ μ .evt = true ∧ μ .mem = true ∧ μ .pool = true) (src : PoolFrom) (page : Nat) (account : Nat) (s : State) {t : State}
    (ht : execFree src page account s = .next t) : t.mask μ = s.mask μ := by
  rw [execFree] at ht
  rw [← Host.Outcome.next.inj ht]
  simp only [↓poolOp_mask, and_self, hμ]

theorem execHandoff_mask (hμ : μ .regs = true ∧ μ .evt = true ∧ μ .mem = true ∧ μ .pool = true) (src : PoolFrom) (page : Nat) (account : Nat) (target : Nat) (s : State) {t : State}
    (ht : execHandoff src page account target s = .next t) : t.mask μ = s.mask μ := by
  rw [execHandoff] at ht
  rw [← Host.Outcome.next.inj ht]
  simp only [↓poolOp_mask, and_self, hμ]

theorem execAddref_mask (hμ : μ .regs = true ∧ μ .evt = true ∧ μ .mem = true ∧ μ .pool = true) (src : PoolFrom) (page : Nat) (s : State) {t : State}
    (ht : execAddref src page s = .next t) : t.mask μ = s.mask μ := by
  rw [execAddref] at ht
  rw [← Host.Outcome.next.inj ht]
  simp only [↓poolOp_mask, and_self, hμ]

theorem execPoolRelease_mask (hμ : μ .regs = true ∧ μ .evt = true ∧ μ .mem = true ∧ μ .pool = true) (src : PoolFrom) (page : Nat) (s : State) {t : State}
    (ht : execPoolRelease src page s = .next t) : t.mask μ = s.mask μ := by
  rw [execPoolRelease] at ht
  rw [← Host.Outcome.next.inj ht]
  simp only [↓poolOp_mask, and_self, hμ]

theorem execQuery_mask (hμ : μ .regs = true ∧ μ .evt = true ∧ μ .mem = true ∧ μ .pool = true) (src : PoolFrom) (page : Nat) (s : State) {t : State}
    (ht : execQuery src page s = .next t) : t.mask μ = s.mask μ := by
  rw [execQuery] at ht
  rw [← Host.Outcome.next.inj ht]
  simp only [↓poolOp_mask, and_self, hμ]

theorem execPoolBadOp_mask (hμ : μ .regs = true ∧ μ .evt = true ∧ μ .mem = true ∧ μ .pool = true) (op : Nat) (s : State) {t : State}
    (ht : execPoolBadOp op s = .next t) : t.mask μ = s.mask μ := by
  rw [execPoolBadOp] at ht
  rw [← Host.Outcome.next.inj ht]
  simp only [↓poolOp_mask, ↓mask_ite, ite_self, and_self, hμ]

theorem execPoolCancel_mask (hμ : μ .regs = true ∧ μ .evt = true ∧ μ .pool = true) (s : State) {t : State}
    (ht : execPoolCancel s = .next t) : t.mask μ = s.mask μ := by
  rw [execPoolCancel] at ht
  rw [← Host.Outcome.next.inj ht]
  simp only [↓lockGate_mask, ↓portCancel_mask, and_self, implies_true, hμ]

theorem execCacheFill_mask (hμ : μ .regs = true ∧ μ .evt = true ∧ μ .mem = true ∧ μ .pool = true) (s : State) {t : State}
    (ht : execCacheFill s = .next t) : t.mask μ = s.mask μ := by
  rw [execCacheFill] at ht
  rw [← Host.Outcome.next.inj ht]
  simp only [↓cacheFill_mask, and_self, hμ]

theorem execPoolBuild_mask (hμ : μ .regs = true ∧ μ .pool = true) (s : State) {t : State}
    (ht : execPoolBuild s = .next t) : t.mask μ = s.mask μ := by
  rw [execPoolBuild] at ht
  rw [← Host.Outcome.next.inj ht]
  simp only [↓lockGate_mask, ↓buildStart_mask, and_self, implies_true, hμ]

theorem execPoolBuildDone_mask (hμ : μ .regs = true ∧ μ .evt = true ∧ μ .mem = true ∧ μ .pool = true) (s : State) {t : State}
    (ht : execPoolBuildDone s = .next t) : t.mask μ = s.mask μ := by
  rw [execPoolBuildDone] at ht
  rw [← Host.Outcome.next.inj ht]
  simp only [↓buildDone_mask, and_self, hμ]

theorem execAcctWinWrite_mask (hμ : μ .regs = true ∧ μ .evt = true ∧ μ .mem = true ∧ μ .pool = true) (value : Nat) (s : State) {t : State}
    (ht : execAcctWinWrite value s = .next t) : t.mask μ = s.mask μ := by
  rw [execAcctWinWrite] at ht
  rw [← Host.Outcome.next.inj ht]
  simp only [↓lockGate_mask, ↓acctWinWrite_mask, and_self, implies_true, hμ]

end Sys2Proof.Machine
end

