-- ==== Sys2Proof/Laws/SramMask.lean ====
section
/-!
SUPPORT. What each function of Machine/Sram.lean touches at most.
-/
namespace Sys2Proof.Machine

variable {μ : Part → Bool}

theorem addCandidate_mask (hμ : μ .regs = true ∧ μ .mem = true) (unit : Nat) (row : Nat) (s : State) :
    (addCandidate unit row s).mask μ = s.mask μ := by
  simp only [addCandidate, ↓incF_mask, ↓setMem_maskRest, ↓mask_ite, ite_self, hμ]

theorem sramRead_mask (hμ : μ .regs = true ∧ μ .evt = true ∧ μ .que = true ∧ μ .mtr = true ∧ μ .ten = true ∧ μ .vol = true ∧ μ .fmt = true ∧ μ .band = true ∧ μ .cal = true ∧ μ .rch = true ∧ μ .mot = true ∧ μ .mem = true) (unit : Nat) (row : Nat) (w : Word256) (c : Chk) (s : State) :
    (sramRead unit row w c s).mask μ = s.mask μ := by
  unfold sramRead
  (repeat' split) <;> simp only [↓incF_mask, ↓raiseC_mask, ↓enterS3_mask, ↓setMem_maskRest, ↓addCandidate_mask, ↓mask_ite, ite_self, and_self, hμ]

end Sys2Proof.Machine
end

