-- ==== Sys2Proof/Laws/BufferMask.lean ====
section
/-!
SUPPORT. What each function of Machine/Buffer.lean touches at most.
-/
namespace Sys2Proof.Machine

variable {μ : Part → Bool}

theorem setKeys_mask (hμ : μ .keys = true) (k : KeySt) (s : State) :
    (setKeys k s).mask μ = s.mask μ := by
  simp only [setKeys, ↓mask_keys, hμ]

theorem loseFrom_mask (hμ : μ .regs = true ∧ μ .evt = true ∧ μ .que = true ∧ μ .mtr = true ∧ μ .ten = true ∧ μ .vol = true ∧ μ .fmt = true) (gsn : Nat) (first : Nat) (status : Nat) (detail : Nat) (s : State) :
    (loseFrom gsn first status detail s).mask μ = s.mask μ := by
  simp only [loseFrom, ↓setVol_mask, ↓setFmt_mask, ↓failExec_mask, ↓rollChains_mask, ↓haltStream_mask, ↓noteLoss_mask, ↓tryClose_mask, ↓mask_ite, ite_self, and_self, hμ]

theorem loseRecord_mask (hμ : μ .regs = true ∧ μ .evt = true ∧ μ .que = true ∧ μ .mtr = true ∧ μ .ten = true ∧ μ .vol = true ∧ μ .fmt = true ∧ μ .cmp = true) (offset : Nat) (s : State) :
    (loseRecord offset s).mask μ = s.mask μ := by
  simp only [loseRecord]
  (repeat' split) <;> simp only [↓closeGranule_mask, ↓addPiece_mask, ↓cutRecord_mask, ↓loseFrom_mask, ↓mask_forEach, and_self, implies_true, hμ]

theorem raisePoison_mask (hμ : μ .regs = true ∧ μ .evt = true) (account : Nat) (slot : Nat) (s : State) :
    (raisePoison account slot s).mask μ = s.mask μ := by
  simp only [raisePoison, ↓raiseB_mask, and_self, hμ]

theorem systemLoss_mask (hμ : μ .regs = true ∧ μ .evt = true ∧ μ .que = true ∧ μ .mtr = true ∧ μ .ten = true ∧ μ .vol = true ∧ μ .fmt = true ∧ μ .band = true ∧ μ .cal = true ∧ μ .rch = true ∧ μ .mot = true) (slot : Nat) (s : State) :
    (systemLoss slot s).mask μ = s.mask μ := by
  simp only [systemLoss, ↓raiseB_mask, ↓enterS3_mask, and_self, hμ]

theorem lostRow_mask (hμ : μ .regs = true ∧ μ .evt = true ∧ μ .que = true ∧ μ .ten = true ∧ μ .vol = true ∧ μ .fmt = true ∧ μ .band = true ∧ μ .rch = true ∧ μ .mot = true ∧ μ .mem = true ∧ μ .pool = true) (slot : Nat) (dsn : Nat) (g : Nat) (s : State) :
    (lostRow slot dsn g s).mask μ = s.mask μ := by
  unfold lostRow
  (repeat' split) <;> simp only [↓closeBefore_mask, ↓request_mask, ↓mask_ite, ite_self, and_self, hμ]

theorem blobLost_mask (hμ : μ .regs = true ∧ μ .evt = true ∧ μ .que = true ∧ μ .ciph = true) (q : Nat) (s : State) :
    (blobLost q s).mask μ = s.mask μ := by
  simp only [blobLost]
  (repeat' split) <;> simp only [↓finishSide_mask, ↓mask_ciph, and_self, hμ]

theorem plainLost_mask (hμ : μ .que = true) (gsn : Nat) (s : State) :
    (plainLost gsn s).mask μ = s.mask μ := by
  simp only [plainLost, ↓setQue_mask, hμ]

theorem poisonCost_mask (hμ : μ .regs = true ∧ μ .evt = true ∧ μ .que = true ∧ μ .mtr = true ∧ μ .ten = true ∧ μ .vol = true ∧ μ .fmt = true ∧ μ .band = true ∧ μ .cal = true ∧ μ .rch = true ∧ μ .cmp = true ∧ μ .ciph = true ∧ μ .mot = true ∧ μ .mem = true ∧ μ .pool = true) (slot : Nat) (w : Nat) (s : State) :
    (poisonCost slot w s).mask μ = s.mask μ := by
  simp only [poisonCost, ↓systemLoss_mask, ↓mask_ite, and_self, hμ]
  (repeat' split) <;> simp only [↓request_mask, ↓loseFrom_mask, ↓loseRecord_mask, ↓raisePoison_mask, ↓systemLoss_mask, ↓lostRow_mask, ↓blobLost_mask, ↓plainLost_mask, ↓mask_rch, and_self, hμ]

theorem poisonMet_mask (hμ : μ .regs = true ∧ μ .evt = true ∧ μ .que = true ∧ μ .mtr = true ∧ μ .ten = true ∧ μ .vol = true ∧ μ .fmt = true ∧ μ .band = true ∧ μ .cal = true ∧ μ .rch = true ∧ μ .cmp = true ∧ μ .ciph = true ∧ μ .mot = true ∧ μ .mem = true ∧ μ .pool = true) (slot : Nat) (w : Nat) (s : State) :
    (poisonMet slot w s).mask μ = s.mask μ := by
  simp only [poisonMet, ↓logMem_mask, ↓poisonCost_mask, and_self, hμ]

theorem repairWithCost_mask (hμ : μ .regs = true ∧ μ .evt = true ∧ μ .que = true ∧ μ .mtr = true ∧ μ .ten = true ∧ μ .vol = true ∧ μ .fmt = true ∧ μ .band = true ∧ μ .cal = true ∧ μ .rch = true ∧ μ .cmp = true ∧ μ .ciph = true ∧ μ .mot = true ∧ μ .mem = true ∧ μ .cells = true ∧ μ .pool = true) (slot : Nat) (s : State) :
    (repairWithCost slot s).mask μ = s.mask μ := by
  simp only [repairWithCost, ↓repairAndLog_mask, ↓poisonCost_mask, ↓mask_foldl, and_self, implies_true, hμ]

theorem demandRead_mask (hμ : μ .regs = true ∧ μ .evt = true ∧ μ .que = true ∧ μ .mtr = true ∧ μ .ten = true ∧ μ .vol = true ∧ μ .fmt = true ∧ μ .band = true ∧ μ .cal = true ∧ μ .rch = true ∧ μ .cmp = true ∧ μ .ciph = true ∧ μ .mot = true ∧ μ .mem = true ∧ μ .cells = true ∧ μ .pool = true) (slot : Nat) (w : Nat) (s : State) :
    (demandRead slot w s).2.mask μ = s.mask μ := by
  simp only [demandRead]
  (repeat' split) <;> simp only [↓hotAdd_mask, ↓noteCe_mask, ↓poisonMet_mask, ↓repairWithCost_mask, and_self, hμ]

theorem demandWrite_mask (hμ : μ .regs = true ∧ μ .evt = true ∧ μ .que = true ∧ μ .mtr = true ∧ μ .ten = true ∧ μ .vol = true ∧ μ .fmt = true ∧ μ .band = true ∧ μ .cal = true ∧ μ .rch = true ∧ μ .cmp = true ∧ μ .ciph = true ∧ μ .mot = true ∧ μ .mem = true ∧ μ .cells = true ∧ μ .pool = true) (slot : Nat) (w : Nat) (off : Nat) (bytes : List Byte) (account : Nat) (s : State) :
    (demandWrite slot w off bytes account s).mask μ = s.mask μ := by
  simp only [demandWrite, ↓storeWord_mask, ↓mask_ite, and_self, hμ]
  (repeat' split) <;> simp only [↓storeWord_mask, ↓noteCe_mask, ↓raisePoison_mask, ↓repairWithCost_mask, and_self, hμ]

theorem setDdr_mask (hμ : μ .mem = true) (n : Nat) (d : DdrSt) (s : State) :
    (setDdr n d s).mask μ = s.mask μ := by
  simp only [setDdr, ↓setMem_maskRest, hμ]

theorem trainStart_mask (hμ : μ .regs = true ∧ μ .mem = true) (s : State) :
    (trainStart s).mask μ = s.mask μ := by
  simp only [trainStart, ↓setF_mask, ↓setDdr_mask, ↓mask_ite, ite_self, ↓mask_forEach, implies_true, hμ]

theorem trainCheck_mask (hμ : μ .regs = true) (s : State) :
    (trainCheck s).mask μ = s.mask μ := by
  simp only [trainCheck, ↓setF_mask, ↓mask_ite, ite_self, hμ]

theorem trainFail_mask (hμ : μ .regs = true ∧ μ .evt = true) (n : Nat) (step : Nat) (lane : Nat) (s : State) :
    (trainFail n step lane s).mask μ = s.mask μ := by
  simp only [trainFail, ↓setF_mask, ↓raiseC_mask, ↓trainCheck_mask, and_self, hμ]

theorem trainStep_mask (hμ : μ .regs = true ∧ μ .evt = true ∧ μ .mem = true) (n : Nat) (r : TrainResult) (s : State) :
    (trainStep n r s).mask μ = s.mask μ := by
  unfold trainStep
  (repeat' split) <;> simp only [↓setF_mask, ↓incF_mask, ↓setDdr_mask, ↓trainCheck_mask, ↓trainFail_mask, ↓mask_ite, ite_self, and_self, hμ]

theorem refresh_mask (hμ : μ .regs = true ∧ μ .evt = true ∧ μ .mem = true) (n : Nat) (rate : Nat) (hot : Bool) (s : State) :
    (refresh n rate hot s).mask μ = s.mask μ := by
  simp only [refresh, ↓setF_mask, ↓raiseC_mask, ↓setDdr_mask, ↓mask_ite, ite_self, and_self, hμ]

theorem oscTrack_mask (hμ : μ .mem = true) (n : Nat) (reading : Nat) (s : State) :
    (oscTrack n reading s).mask μ = s.mask μ := by
  simp only [oscTrack, ↓setDdr_mask, ↓mask_ite, ite_self, hμ]

theorem zqLatch_mask (hμ : μ .mem = true) (n : Nat) (code : Nat) (s : State) :
    (zqLatch n code s).mask μ = s.mask μ := by
  simp only [zqLatch, ↓setDdr_mask, ↓mask_ite, ite_self, hμ]

theorem stuckAt_mask (hμ : μ .mem = true ∧ μ .cells = true) (l : List (Nat × Byte)) (slot : Nat) (offs : List Nat) (s : State) :
    (stuckAt l slot offs s).mask μ = s.mask μ := by
  simp only [stuckAt, ↓upsetCells_mask, and_self, hμ]

theorem scrubWord_mask (hμ : μ .regs = true ∧ μ .evt = true ∧ μ .mem = true ∧ μ .cells = true) (slot : Nat) (stuck : List (Nat × Byte)) (w : Nat) (s : State) :
    (scrubWord slot stuck w s).mask μ = s.mask μ := by
  simp only [scrubWord]
  (repeat' split) <;> simp only [↓incF_mask, ↓raiseB_mask, ↓putRaw_mask, ↓logMem_mask, ↓noteCe_mask, ↓stuckAt_mask, and_self, hμ]

theorem scrubUsed_mask (hμ : μ .regs = true ∧ μ .evt = true ∧ μ .que = true ∧ μ .mtr = true ∧ μ .ten = true ∧ μ .vol = true ∧ μ .fmt = true ∧ μ .band = true ∧ μ .cal = true ∧ μ .rch = true ∧ μ .cmp = true ∧ μ .ciph = true ∧ μ .mot = true ∧ μ .mem = true ∧ μ .cells = true ∧ μ .pool = true) (slot : Nat) (stuck : List (Nat × Byte)) (s : State) :
    (scrubUsed slot stuck s).mask μ = s.mask μ := by
  simp only [scrubUsed, ↓poisonMet_mask, ↓repairWithCost_mask, ↓scrubWord_mask, ↓mask_ite, ite_self, ↓mask_forEach, and_self, implies_true, hμ]

theorem stuckByte_mask (hμ : μ .regs = true ∧ μ .evt = true ∧ μ .mem = true) (slot : Nat) (w : Nat) (x : Word256 × Chk) (v : WResult) (s : State) :
    (stuckByte slot w x v s).mask μ = s.mask μ := by
  unfold stuckByte
  (repeat' split) <;> simp only [↓raiseB_mask, ↓logMem_mask, ↓noteCe_mask, and_self, hμ]

theorem scrubFree_mask (hμ : μ .regs = true ∧ μ .evt = true ∧ μ .mem = true ∧ μ .cells = true) (slot : Nat) (stuck : List (Nat × Byte)) (s : State) :
    (scrubFree slot stuck s).mask μ = s.mask μ := by
  simp only [scrubFree, ↓raiseB_mask, ↓upsetCells_mask, ↓setPage_mask, ↓putRaw_mask, ↓putP_mask, ↓logMem_mask, ↓noteUe_mask, ↓stuckByte_mask, ↓mask_ite, ite_self, ↓mask_foldl, ↓mask_forEach, and_self, implies_true, hμ]

theorem scrubVisit_mask (hμ : μ .regs = true ∧ μ .evt = true ∧ μ .que = true ∧ μ .mtr = true ∧ μ .ten = true ∧ μ .vol = true ∧ μ .fmt = true ∧ μ .band = true ∧ μ .cal = true ∧ μ .rch = true ∧ μ .cmp = true ∧ μ .ciph = true ∧ μ .mot = true ∧ μ .mem = true ∧ μ .cells = true ∧ μ .pool = true) (upset : List (Nat × Byte)) (stuck : List (Nat × Byte)) (s : State) :
    (scrubVisit upset stuck s).mask μ = s.mask μ := by
  unfold scrubVisit
  (repeat' split) <;> simp only [↓setF_mask, ↓incF_mask, ↓setMem_mask, ↓upsetCells_mask, ↓scrubUsed_mask, ↓scrubFree_mask, ↓mask_ite, ite_self, and_self, hμ]

theorem retireIgnored_mask (hμ : μ .regs = true ∧ μ .evt = true) (s : State) :
    (retireIgnored s).mask μ = s.mask μ := by
  simp only [retireIgnored, ↓notify_mask, and_self, hμ]

theorem retirePage_mask (hμ : μ .regs = true ∧ μ .evt = true ∧ μ .mem = true ∧ μ .pool = true) (p : Nat) (s : State) :
    (retirePage p s).mask μ = s.mask μ := by
  simp only [retirePage, ↓setF_mask, ↓raiseB_mask, ↓setMem_maskRest, ↓setPage_mask, ↓setPool_mask, ↓checkShort_mask, ↓retireIgnored_mask, ↓mask_ite, ite_self, and_self, hμ]

theorem releasePage_mask (hμ : μ .regs = true ∧ μ .evt = true ∧ μ .mem = true ∧ μ .pool = true) (p : Nat) (s : State) :
    (releasePage p s).mask μ = s.mask μ := by
  simp only [releasePage, ↓setPage_mask, ↓setPool_mask, ↓checkShort_mask, ↓ringPush_mask, ↓poolEvent_mask, ↓retireIgnored_mask, ↓mask_ite, ite_self, and_self, hμ]

theorem srepApply_mask (hμ : μ .regs = true ∧ μ .evt = true ∧ μ .mem = true ∧ μ .sec = true) (s : State) :
    (srepApply s).mask μ = s.mask μ := by
  simp only [srepApply, ↓setF_mask, ↓raiseC_mask, ↓mask_ite, ↓mask_foldl, and_self, implies_true, hμ]
  (repeat' split) <;> simp only [↓setF_mask, ↓setMem_maskRest, ↓mask_secRest, hμ]

theorem splitDone_mask (hμ : μ .regs = true ∧ μ .evt = true ∧ μ .mem = true) (internal : Bool) (syn : Nat) (verdict : Nat) (s : State) :
    (splitDone internal syn verdict s).mask μ = s.mask μ := by
  simp only [splitDone, ↓setF_mask, ↓notify_mask, ↓setMem_maskRest, ↓mask_ite, ite_self, and_self, hμ]

theorem splitRefused_mask (hμ : μ .regs = true ∧ μ .evt = true ∧ μ .mem = true) (internal : Bool) (s : State) :
    (splitRefused internal s).mask μ = s.mask μ := by
  simp only [splitRefused, ↓splitDone_mask, and_self, hμ]

theorem splitWrite_mask (hμ : μ .regs = true ∧ μ .evt = true ∧ μ .mem = true ∧ μ .cells = true) (internal : Bool) (s : State) :
    (splitWrite internal s).mask μ = s.mask μ := by
  simp only [splitWrite, ↓setPage_mask, ↓putRaw_mask, ↓storeWord_mask, ↓splitDone_mask, ↓splitRefused_mask, ↓mask_ite, ite_self, and_self, hμ]

theorem splitRead_mask (hμ : μ .regs = true ∧ μ .evt = true ∧ μ .mem = true) (internal : Bool) (s : State) :
    (splitRead internal s).mask μ = s.mask μ := by
  simp only [splitRead, ↓setF_mask, ↓setMem_maskRest, ↓splitDone_mask, ↓splitRefused_mask, ↓mask_ite, ite_self, ↓mask_forEach, and_self, implies_true, hμ]

theorem splitPcheck_mask (hμ : μ .regs = true ∧ μ .evt = true ∧ μ .mem = true) (internal : Bool) (s : State) :
    (splitPcheck internal s).mask μ = s.mask μ := by
  simp only [splitPcheck, ↓splitDone_mask, ↓splitRefused_mask, ↓mask_ite, ite_self, and_self, hμ]

/-! ## Commands -/

theorem execMemTrain_mask (hμ : μ .regs = true ∧ μ .mem = true) (s : State) {t : State}
    (ht : execMemTrain s = .next t) : t.mask μ = s.mask μ := by
  rw [execMemTrain] at ht
  rw [← Host.Outcome.next.inj ht]
  simp only [↓lockGate_mask, ↓trainStart_mask, and_self, implies_true, hμ]

theorem execDdrTrainStepDone_mask (hμ : μ .regs = true ∧ μ .evt = true ∧ μ .mem = true) (channel : Nat) (result : TrainResult) (s : State) {t : State}
    (ht : execDdrTrainStepDone channel result s = .next t) : t.mask μ = s.mask μ := by
  rw [execDdrTrainStepDone] at ht
  rw [← Host.Outcome.next.inj ht]
  simp only [↓trainStep_mask, and_self, hμ]

theorem execDdrRefresh_mask (hμ : μ .regs = true ∧ μ .evt = true ∧ μ .mem = true) (channel : Nat) (rate : Nat) (hot : Bool) (s : State) {t : State}
    (ht : execDdrRefresh channel rate hot s = .next t) : t.mask μ = s.mask μ := by
  rw [execDdrRefresh] at ht
  rw [← Host.Outcome.next.inj ht]
  simp only [↓refresh_mask, and_self, hμ]

theorem execDdrOscTrack_mask (hμ : μ .mem = true) (channel : Nat) (reading : Nat) (s : State) {t : State}
    (ht : execDdrOscTrack channel reading s = .next t) : t.mask μ = s.mask μ := by
  rw [execDdrOscTrack] at ht
  rw [← Host.Outcome.next.inj ht]
  simp only [↓oscTrack_mask, hμ]

theorem execDdrZqLatch_mask (hμ : μ .mem = true) (channel : Nat) (code : Nat) (s : State) {t : State}
    (ht : execDdrZqLatch channel code s = .next t) : t.mask μ = s.mask μ := by
  rw [execDdrZqLatch] at ht
  rw [← Host.Outcome.next.inj ht]
  simp only [↓zqLatch_mask, hμ]

theorem execBufferRead_mask (hμ : μ .regs = true ∧ μ .evt = true ∧ μ .que = true ∧ μ .mtr = true ∧ μ .ten = true ∧ μ .vol = true ∧ μ .fmt = true ∧ μ .band = true ∧ μ .cal = true ∧ μ .rch = true ∧ μ .cmp = true ∧ μ .ciph = true ∧ μ .mot = true ∧ μ .mem = true ∧ μ .cells = true ∧ μ .pool = true) (slot : Nat) (word : Nat) (upset : List (Nat × Byte)) (s : State) {t : State}
    (ht : execBufferRead slot word upset s = .next t) : t.mask μ = s.mask μ := by
  rw [execBufferRead] at ht
  rw [← Host.Outcome.next.inj ht]
  simp only [↓upsetCells_mask, ↓demandRead_mask, ↓mask_ite, ite_self, and_self, hμ]

theorem execBufferWrite_mask (hμ : μ .regs = true ∧ μ .evt = true ∧ μ .que = true ∧ μ .mtr = true ∧ μ .ten = true ∧ μ .vol = true ∧ μ .fmt = true ∧ μ .band = true ∧ μ .cal = true ∧ μ .rch = true ∧ μ .cmp = true ∧ μ .ciph = true ∧ μ .mot = true ∧ μ .mem = true ∧ μ .cells = true ∧ μ .pool = true) (slot : Nat) (word : Nat) (offset : Nat) (bytes : List Byte) (account : Nat) (upset : List (Nat × Byte)) (s : State) {t : State}
    (ht : execBufferWrite slot word offset bytes account upset s = .next t) : t.mask μ = s.mask μ := by
  rw [execBufferWrite] at ht
  rw [← Host.Outcome.next.inj ht]
  simp only [↓upsetCells_mask, ↓demandWrite_mask, ↓mask_ite, ite_self, and_self, hμ]

theorem execScrubVisit_mask (hμ : μ .regs = true ∧ μ .evt = true ∧ μ .que = true ∧ μ .mtr = true ∧ μ .ten = true ∧ μ .vol = true ∧ μ .fmt = true ∧ μ .band = true ∧ μ .cal = true ∧ μ .rch = true ∧ μ .cmp = true ∧ μ .ciph = true ∧ μ .mot = true ∧ μ .mem = true ∧ μ .cells = true ∧ μ .pool = true) (upset : List (Nat × Byte)) (stuck : List (Nat × Byte)) (s : State) {t : State}
    (ht : execScrubVisit upset stuck s = .next t) : t.mask μ = s.mask μ := by
  rw [execScrubVisit] at ht
  rw [← Host.Outcome.next.inj ht]
  simp only [↓scrubVisit_mask, and_self, hμ]

theorem execRlogTailWrite_mask (hμ : μ .regs = true) (value : Nat) (s : State) {t : State}
    (ht : execRlogTailWrite value s = .next t) : t.mask μ = s.mask μ := by
  rw [execRlogTailWrite] at ht
  rw [← Host.Outcome.next.inj ht]
  simp only [↓lockGate_mask, ↓rlogTail_mask, implies_true, hμ]

theorem execRetire_mask (hμ : μ .regs = true ∧ μ .evt = true ∧ μ .mem = true ∧ μ .pool = true) (page : Nat) (s : State) {t : State}
    (ht : execRetire page s = .next t) : t.mask μ = s.mask μ := by
  rw [execRetire] at ht
  rw [← Host.Outcome.next.inj ht]
  simp only [↓lockGate_mask, ↓retirePage_mask, and_self, implies_true, hμ]

theorem execMemRelease_mask (hμ : μ .regs = true ∧ μ .evt = true ∧ μ .mem = true ∧ μ .pool = true) (page : Nat) (s : State) {t : State}
    (ht : execMemRelease page s = .next t) : t.mask μ = s.mask μ := by
  rw [execMemRelease] at ht
  rw [← Host.Outcome.next.inj ht]
  simp only [↓lockGate_mask, ↓releasePage_mask, and_self, implies_true, hμ]

theorem execSramWordRead_mask (hμ : μ .regs = true ∧ μ .evt = true ∧ μ .que = true ∧ μ .mtr = true ∧ μ .ten = true ∧ μ .vol = true ∧ μ .fmt = true ∧ μ .band = true ∧ μ .cal = true ∧ μ .rch = true ∧ μ .mot = true ∧ μ .mem = true) (unit : Nat) (row : Nat) (word : Word256) (chk : Chk) (s : State) {t : State}
    (ht : execSramWordRead unit row word chk s = .next t) : t.mask μ = s.mask μ := by
  rw [execSramWordRead] at ht
  rw [← Host.Outcome.next.inj ht]
  simp only [↓sramRead_mask, and_self, hμ]

theorem execSrepApply_mask (hμ : μ .regs = true ∧ μ .evt = true ∧ μ .mem = true ∧ μ .sec = true) (s : State) {t : State}
    (ht : execSrepApply s = .next t) : t.mask μ = s.mask μ := by
  rw [execSrepApply] at ht
  rw [← Host.Outcome.next.inj ht]
  simp only [↓lockGate_mask, ↓srepApply_mask, and_self, implies_true, hμ]

theorem execSplitWrite_mask (hμ : μ .regs = true ∧ μ .evt = true ∧ μ .mem = true ∧ μ .cells = true) (internal : Bool) (s : State) {t : State}
    (ht : execSplitWrite internal s = .next t) : t.mask μ = s.mask μ := by
  rw [execSplitWrite] at ht
  rw [← Host.Outcome.next.inj ht]
  simp only [↓lockGate_mask, ↓splitWrite_mask, ↓mask_ite, ite_self, and_self, implies_true, hμ]

theorem execSplitRead_mask (hμ : μ .regs = true ∧ μ .evt = true ∧ μ .mem = true) (internal : Bool) (s : State) {t : State}
    (ht : execSplitRead internal s = .next t) : t.mask μ = s.mask μ := by
  rw [execSplitRead] at ht
  rw [← Host.Outcome.next.inj ht]
  simp only [↓lockGate_mask, ↓splitRead_mask, ↓mask_ite, ite_self, and_self, implies_true, hμ]

theorem execSplitPcheck_mask (hμ : μ .regs = true ∧ μ .evt = true ∧ μ .mem = true) (internal : Bool) (s : State) {t : State}
    (ht : execSplitPcheck internal s = .next t) : t.mask μ = s.mask μ := by
  rw [execSplitPcheck] at ht
  rw [← Host.Outcome.next.inj ht]
  simp only [↓lockGate_mask, ↓splitPcheck_mask, ↓mask_ite, ite_self, and_self, implies_true, hμ]

end Sys2Proof.Machine
end

