-- ==== Sys2Proof/Laws/ReadChannelMask.lean ====
section
/-!
SUPPORT. What each function of Machine/ReadChannel.lean touches at most.
-/
namespace Sys2Proof.Machine

variable {μ : Part → Bool}

theorem setRch_mask (hμ : μ .rch = true) (r : ReadSt) (s : State) :
    (setRch r s).mask μ = s.mask μ := by
  simp only [setRch, ↓mask_rch, hμ]

theorem setChain_mask (hμ : μ .rch = true) (t : Nat) (m : Nat) (c : ChainSt) (s : State) :
    (setChain t m c s).mask μ = s.mask μ := by
  simp only [setChain, ↓setRch_mask, hμ]

theorem setComb_mask (hμ : μ .rch = true) (t : Nat) (c : CombSt) (s : State) :
    (setComb t c s).mask μ = s.mask μ := by
  simp only [setComb, ↓setRch_mask, hμ]

theorem feedReader_mask (hμ : μ .regs = true ∧ μ .rch = true) (hfe : Nat) (module : Nat) (frame : Nat) (bit : Nat) (erased : Bool) (blocks : List (BitVec 64)) (r : Nat) (s : State) :
    (feedReader hfe module frame bit erased blocks r s).mask μ = s.mask μ := by
  simp only [feedReader, ↓addF_mask, ↓setChain_mask, ↓mask_ite, ite_self, hμ]

theorem uplinkBurst_mask (hμ : μ .regs = true ∧ μ .evt = true ∧ μ .links = true ∧ μ .rch = true) (hfe : Nat) (module : Nat) (blocks : List (BitVec 64)) (lockLost : Bool) (s : State) :
    (uplinkBurst hfe module blocks lockLost s).mask μ = s.mask μ := by
  simp only [uplinkBurst, ↓incF_mask, ↓raiseC_mask, ↓setHfe_mask, ↓feedReader_mask, ↓mask_ite, ite_self, ↓mask_forEach, and_self, implies_true, hμ]

theorem loopReset_mask (hμ : μ .regs = true ∧ μ .evt = true ∧ μ .rch = true) (b : Nat) (k : Nat) (m : Nat) (s : State) :
    (loopReset b k m s).mask μ = s.mask μ := by
  simp only [loopReset, ↓incF_mask, ↓raiseB_mask, ↓setChain_mask, ↓mask_ite, ite_self, and_self, hμ]

theorem openReader_mask (hμ : μ .rch = true) (b : Nat) (k : Nat) (m : Nat) (s : State) :
    (openReader b k m s).mask μ = s.mask μ := by
  simp only [openReader, ↓setChain_mask, hμ]

theorem openTrack_mask (hμ : μ .rch = true) (b : Nat) (k : Nat) (dual : Bool) (s : State) :
    (openTrack b k dual s).mask μ = s.mask μ := by
  simp only [openTrack, ↓setComb_mask, ↓openReader_mask, ↓mask_ite, ite_self, hμ]

theorem verifyOpen_mask (hμ : μ .regs = true ∧ μ .evt = true ∧ μ .band = true ∧ μ .rch = true) (b : Nat) (s : State) :
    (verifyOpen b s).mask μ = s.mask μ := by
  unfold verifyOpen
  (repeat' split) <;> simp (maxDischargeDepth := 6) only [↓setF_mask, ↓raiseB_mask, ↓setBand_mask, ↓nextSquare_mask, ↓openTrack_mask, ↓mask_ite, ite_self, ↓mask_forEach, and_self, implies_true, hμ]

theorem gainRow_mask (hμ : μ .regs = true ∧ μ .rch = true) (b : Nat) (x : Nat × Nat) (s : State) :
    (gainRow b x s).mask μ = s.mask μ := by
  simp only [gainRow, ↓setF_mask, ↓setRch_mask, hμ]

theorem trimTrack_mask (hμ : μ .rch = true) (b : Nat) (k : Nat) (s : State) :
    (trimTrack b k s).mask μ = s.mask μ := by
  simp only [trimTrack, ↓setChain_mask, hμ]

theorem queueRow_mask (hμ : μ .regs = true ∧ μ .rch = true) (b : Nat) (k : Nat) (w : Window) (s : State) :
    (queueRow b k w s).mask μ = s.mask μ := by
  simp only [queueRow, ↓incF_mask, ↓setRch_mask, ↓mask_ite, ite_self, hμ]
  (repeat' split) <;> simp only [↓incF_mask, ↓setChain_mask, ↓setComb_mask, hμ]

theorem closeTrack_mask (hμ : μ .regs = true ∧ μ .evt = true ∧ μ .que = true ∧ μ .mtr = true ∧ μ .ten = true ∧ μ .vol = true ∧ μ .fmt = true ∧ μ .band = true ∧ μ .cal = true ∧ μ .rch = true ∧ μ .mot = true) (b : Nat) (k : Nat) (w : Window) (s : State) :
    (closeTrack b k w s).mask μ = s.mask μ := by
  simp only [closeTrack, ↓setBand_mask, ↓verifyFail_mask, ↓trimTrack_mask, ↓queueRow_mask, ↓mask_ite, ite_self, and_self, hμ]

theorem closeNamed_mask (hμ : μ .regs = true ∧ μ .evt = true ∧ μ .que = true ∧ μ .mtr = true ∧ μ .ten = true ∧ μ .vol = true ∧ μ .fmt = true ∧ μ .band = true ∧ μ .cal = true ∧ μ .rch = true ∧ μ .mot = true) (b : Nat) (q : Square) (k : Nat) (s : State) :
    (closeNamed b q k s).mask μ = s.mask μ := by
  unfold closeNamed
  (repeat' split) <;> simp only [↓closeTrack_mask, and_self, hμ]

theorem verifyClose_mask (hμ : μ .regs = true ∧ μ .evt = true ∧ μ .que = true ∧ μ .mtr = true ∧ μ .ten = true ∧ μ .vol = true ∧ μ .fmt = true ∧ μ .band = true ∧ μ .enc = true ∧ μ .cal = true ∧ μ .rch = true ∧ μ .mot = true) (b : Nat) (s : State) :
    (verifyClose b s).mask μ = s.mask μ := by
  unfold verifyClose
  (repeat' split) <;> simp only [↓nextSquare_mask, ↓settleCheck_mask, ↓closeNamed_mask, ↓mask_forEach, and_self, implies_true, hμ]

theorem verifyPass_mask (hμ : μ .regs = true ∧ μ .fmt = true) (n : Nat) (r : RwRow) (s : State) :
    (verifyPass n r s).mask μ = s.mask μ := by
  simp only [verifyPass, ↓incF_mask, ↓setFmt_mask, ↓onSet_mask, hμ]

theorem miscompare_mask (hμ : μ .regs = true ∧ μ .evt = true ∧ μ .que = true ∧ μ .mtr = true ∧ μ .ten = true ∧ μ .vol = true ∧ μ .fmt = true ∧ μ .band = true ∧ μ .cal = true ∧ μ .rch = true ∧ μ .mot = true) (m : Nat) (s : State) :
    (miscompare m s).mask μ = s.mask μ := by
  simp only [miscompare]
  (repeat' split) <;> simp only [↓incF_mask, ↓raise_mask, ↓raiseC_mask, ↓onSet_mask, ↓enterS3_mask, and_self, hμ]

theorem onReadSet_mask (hμ : μ .rch = true) (n : Nat) (f : ReadSet → ReadSet) (s : State) :
    (onReadSet n f s).mask μ = s.mask μ := by
  simp only [onReadSet, ↓setRch_mask, hμ]

theorem deliverRow_mask (hμ : μ .regs = true ∧ μ .rch = true) (c : RowCtx) (header : Nat) (data : List Byte) (s : State) :
    (deliverRow c header data s).mask μ = s.mask μ := by
  simp only [deliverRow]
  (repeat' split) <;> simp only [↓addF_mask, ↓onReadSet_mask, hμ]

theorem endCtx_mask (hμ : μ .rch = true) (c : RowCtx) (s : State) :
    (endCtx c s).mask μ = s.mask μ := by
  simp only [endCtx, ↓setRch_mask, hμ]

theorem repass_mask (hμ : μ .rch = true) (b : Nat) (k : Nat) (slot : Nat) (dsn : Nat) (d : Int) (s : State) :
    (repass b k slot dsn d s).mask μ = s.mask μ := by
  unfold repass
  (repeat' split) <;> simp only [↓setRch_mask, ↓mask_ite, ite_self, hμ]

theorem onAcc_mask (hμ : μ .cal = true) (n : Nat) (t : Nat) (m : Nat) (f : CalAcc → CalAcc) (s : State) :
    (onAcc n t m f s).mask μ = s.mask μ := by
  simp only [onAcc, ↓mask_cal, hμ]

theorem measureRow_mask (hμ : μ .cal = true) (c : RowCtx) (d : Int) (row : List Bool) (s : State) :
    (measureRow c d row s).mask μ = s.mask μ := by
  simp only [measureRow, ↓onAcc_mask, ↓mask_ite, ite_self, hμ]

theorem rowDone_mask (hμ : μ .regs = true ∧ μ .evt = true ∧ μ .que = true ∧ μ .mtr = true ∧ μ .ten = true ∧ μ .vol = true ∧ μ .fmt = true ∧ μ .band = true ∧ μ .enc = true ∧ μ .cal = true ∧ μ .rch = true ∧ μ .mot = true) (b : Nat) (k : Nat) (slot : Nat) (dsn : Nat) (s : State) :
    (rowDone b k slot dsn s).mask μ = s.mask μ := by
  simp only [rowDone]
  (repeat' split) <;> simp only [↓addF_mask, ↓incF_mask, ↓raiseB_mask, ↓verifyFail_mask, ↓settleCheck_mask, ↓gainRow_mask, ↓verifyPass_mask, ↓miscompare_mask, ↓deliverRow_mask, ↓endCtx_mask, ↓measureRow_mask, and_self, hμ]

theorem decLate_mask (hμ : μ .regs = true ∧ μ .evt = true ∧ μ .que = true ∧ μ .mtr = true ∧ μ .ten = true ∧ μ .vol = true ∧ μ .fmt = true ∧ μ .band = true ∧ μ .enc = true ∧ μ .cal = true ∧ μ .rch = true ∧ μ .mot = true) (b : Nat) (k : Nat) (slot : Nat) (dsn : Nat) (s : State) :
    (decLate b k slot dsn s).mask μ = s.mask μ := by
  unfold decLate
  (repeat' split) <;> simp only [↓incF_mask, ↓raiseC_mask, ↓verifyFail_mask, ↓settleCheck_mask, ↓endCtx_mask, and_self, hμ]

theorem mrdLowGain_mask (hμ : μ .regs = true ∧ μ .evt = true ∧ μ .rch = true) (b : Nat) (s : State) :
    (mrdLowGain b s).mask μ = s.mask μ := by
  simp only [mrdLowGain, ↓raiseB_mask, ↓setRch_mask, ↓mask_ite, ite_self, and_self, hμ]

theorem setSeed_mask (hμ : μ .rch = true) (t : Nat) (m : Nat) (item : Nat) (v : Int) (s : State) :
    (setSeed t m item v s).mask μ = s.mask μ := by
  simp only [setSeed, ↓setChain_mask, ↓setComb_mask, ↓mask_ite, ite_self, hμ]

theorem trackWrite_mask (hμ : μ .regs = true ∧ μ .evt = true ∧ μ .cal = true ∧ μ .rch = true) (b : Nat) (v : Nat) (s : State) :
    (trackWrite b v s).mask μ = s.mask μ := by
  simp only [trackWrite, ↓setF_mask, ↓notify_mask, ↓setSeed_mask, ↓mask_cal, ↓mask_ite, ite_self, and_self, hμ]

/-! ## Commands -/

theorem execUplinkBurstReceived_mask (hμ : μ .regs = true ∧ μ .evt = true ∧ μ .links = true ∧ μ .rch = true) (hfe : Nat) (module : Nat) (blocks : List (BitVec 64)) (lockLost : Bool) (s : State) {t : State}
    (ht : execUplinkBurstReceived hfe module blocks lockLost s = .next t) : t.mask μ = s.mask μ := by
  rw [execUplinkBurstReceived] at ht
  rw [← Host.Outcome.next.inj ht]
  simp only [↓uplinkBurst_mask, and_self, hμ]

theorem execLoopReset_mask (hμ : μ .regs = true ∧ μ .evt = true ∧ μ .rch = true) (band : Nat) (track : Nat) (module : Nat) (s : State) {t : State}
    (ht : execLoopReset band track module s = .next t) : t.mask μ = s.mask μ := by
  rw [execLoopReset] at ht
  rw [← Host.Outcome.next.inj ht]
  simp only [↓loopReset_mask, and_self, hμ]

theorem execVerifyOpen_mask (hμ : μ .regs = true ∧ μ .evt = true ∧ μ .band = true ∧ μ .rch = true) (band : Nat) (s : State) {t : State}
    (ht : execVerifyOpen band s = .next t) : t.mask μ = s.mask μ := by
  rw [execVerifyOpen] at ht
  rw [← Host.Outcome.next.inj ht]
  simp only [↓verifyOpen_mask, and_self, hμ]

theorem execVerifyClose_mask (hμ : μ .regs = true ∧ μ .evt = true ∧ μ .que = true ∧ μ .mtr = true ∧ μ .ten = true ∧ μ .vol = true ∧ μ .fmt = true ∧ μ .band = true ∧ μ .enc = true ∧ μ .cal = true ∧ μ .rch = true ∧ μ .mot = true) (band : Nat) (s : State) {t : State}
    (ht : execVerifyClose band s = .next t) : t.mask μ = s.mask μ := by
  rw [execVerifyClose] at ht
  rw [← Host.Outcome.next.inj ht]
  simp only [↓verifyClose_mask, and_self, hμ]

theorem execDetectorRepass_mask (hμ : μ .rch = true) (band : Nat) (track : Nat) (slot : Nat) (dsn : Nat) (d : Int) (s : State) {t : State}
    (ht : execDetectorRepass band track slot dsn d s = .next t) : t.mask μ = s.mask μ := by
  rw [execDetectorRepass] at ht
  rw [← Host.Outcome.next.inj ht]
  simp only [↓repass_mask, hμ]

theorem execRowDecodeDone_mask (hμ : μ .regs = true ∧ μ .evt = true ∧ μ .que = true ∧ μ .mtr = true ∧ μ .ten = true ∧ μ .vol = true ∧ μ .fmt = true ∧ μ .band = true ∧ μ .enc = true ∧ μ .cal = true ∧ μ .rch = true ∧ μ .mot = true) (band : Nat) (track : Nat) (slot : Nat) (dsn : Nat) (s : State) {t : State}
    (ht : execRowDecodeDone band track slot dsn s = .next t) : t.mask μ = s.mask μ := by
  rw [execRowDecodeDone] at ht
  rw [← Host.Outcome.next.inj ht]
  simp only [↓rowDone_mask, and_self, hμ]

theorem execDecLate_mask (hμ : μ .regs = true ∧ μ .evt = true ∧ μ .que = true ∧ μ .mtr = true ∧ μ .ten = true ∧ μ .vol = true ∧ μ .fmt = true ∧ μ .band = true ∧ μ .enc = true ∧ μ .cal = true ∧ μ .rch = true ∧ μ .mot = true) (band : Nat) (track : Nat) (slot : Nat) (dsn : Nat) (s : State) {t : State}
    (ht : execDecLate band track slot dsn s = .next t) : t.mask μ = s.mask μ := by
  rw [execDecLate] at ht
  rw [← Host.Outcome.next.inj ht]
  simp only [↓decLate_mask, and_self, hμ]

theorem execMrdLowGain_mask (hμ : μ .regs = true ∧ μ .evt = true ∧ μ .rch = true) (band : Nat) (s : State) {t : State}
    (ht : execMrdLowGain band s = .next t) : t.mask μ = s.mask μ := by
  rw [execMrdLowGain] at ht
  rw [← Host.Outcome.next.inj ht]
  simp only [↓mrdLowGain_mask, and_self, hμ]

theorem execTrkWinWrite_mask (hμ : μ .regs = true ∧ μ .evt = true ∧ μ .cal = true ∧ μ .rch = true) (band : Nat) (value : Nat) (s : State) {t : State}
    (ht : execTrkWinWrite band value s = .next t) : t.mask μ = s.mask μ := by
  rw [execTrkWinWrite] at ht
  rw [← Host.Outcome.next.inj ht]
  simp only [↓lockGate_mask, ↓trackWrite_mask, ↓mask_ite, ite_self, and_self, implies_true, hμ]

end Sys2Proof.Machine
end

