-- ==== Sys2Proof/Laws/CalibrationMask.lean ====
section
/-!
SUPPORT. What each function of Machine/Calibration.lean touches at most.
-/
namespace Sys2Proof.Machine

variable {μ : Part → Bool}

theorem setCal_mask (hμ : μ .cal = true) (c : CalSt) (s : State) :
    (setCal c s).mask μ = s.mask μ := by
  simp only [setCal, ↓mask_cal, hμ]

theorem setCalWriter_mask (hμ : μ .cal = true) (w : Nat) (e : CalElem) (s : State) :
    (setCalWriter w e s).mask μ = s.mask μ := by
  simp only [setCalWriter, ↓setCal_mask, hμ]

theorem setCalReader_mask (hμ : μ .cal = true) (t : Nat) (m : Nat) (e : CalElem) (s : State) :
    (setCalReader t m e s).mask μ = s.mask μ := by
  simp only [setCalReader, ↓setCal_mask, hμ]

theorem setCalBand_mask (hμ : μ .cal = true) (b : Nat) (e : CalElem) (s : State) :
    (setCalBand b e s).mask μ = s.mask μ := by
  simp only [setCalBand, ↓setCal_mask, hμ]

theorem stage_mask (hμ : μ .regs = true ∧ μ .cal = true) (x : CalSet) (s : State) :
    (stage x s).mask μ = s.mask μ := by
  simp only [stage, ↓incF_mask, ↓setCal_mask, hμ]

theorem bounded_mask (hμ : μ .regs = true ∧ μ .evt = true) (lo : Int) (hi : Int) (v : Int) (s : State) :
    (bounded lo hi v s).2.mask μ = s.mask μ := by
  unfold bounded
  (repeat' split) <;> simp only [↓incF_mask, ↓raise_mask, and_self, hμ]

theorem onFrames_mask (hμ : μ .cal = true) (n : Nat) (f : FrameAcc → FrameAcc) (s : State) :
    (onFrames n f s).mask μ = s.mask μ := by
  simp only [onFrames, ↓setCal_mask, hμ]

theorem keepPast_mask (hμ : μ .pos = true) (s : State) :
    (keepPast s).mask μ = s.mask μ := by
  simp only [keepPast, ↓setReader_mask, ↓mask_forEach, implies_true, hμ]

theorem measureFrame_mask (hμ : μ .pos = true ∧ μ .cal = true) (s : State) :
    (measureFrame s).mask μ = s.mask μ := by
  unfold measureFrame
  (repeat' split) <;> simp only [↓onFrames_mask, ↓keepPast_mask, hμ]

theorem noteRollback_mask (hμ : μ .regs = true ∧ μ .evt = true) (frozen : Bool) (data : Nat) (s : State) :
    (noteRollback frozen data s).mask μ = s.mask μ := by
  simp only [noteRollback, ↓incF_mask, ↓raise_mask, ↓mask_ite, ite_self, and_self, hμ]

theorem writerCycle_mask (hμ : μ .regs = true ∧ μ .evt = true ∧ μ .cal = true) (c : Nat) (w : Nat) (s : State) :
    (writerCycle c w s).mask μ = s.mask μ := by
  simp only [writerCycle, ↓mask_ite]
  (repeat' split) <;> simp only [↓setF_mask, ↓setCalWriter_mask, ↓stage_mask, ↓bounded_mask, ↓noteRollback_mask, ↓mask_foldl, and_self, implies_true, hμ]

theorem moveItems_mask (hμ : μ .regs = true ∧ μ .evt = true ∧ μ .cal = true) (t : Nat) (m : Nat) (l : List CalAcc) (s : State) :
    (moveItems t m l s).2.mask μ = s.mask μ := by
  simp only [moveItems, ↓setCal_mask, ↓bounded_mask, ↓mask_foldl_snd, and_self, implies_true, hμ]

theorem readerCycle_mask (hμ : μ .regs = true ∧ μ .evt = true ∧ μ .cal = true) (c : Nat) (t : Nat) (m : Nat) (s : State) :
    (readerCycle c t m s).mask μ = s.mask μ := by
  simp only [readerCycle, ↓mask_ite]
  (repeat' split) <;> simp only [↓setCalReader_mask, ↓stage_mask, ↓noteRollback_mask, ↓moveItems_mask, ↓mask_foldl, and_self, implies_true, hμ]

theorem moveTap_mask (hμ : μ .regs = true ∧ μ .evt = true ∧ μ .cal = true) (b : Nat) (tap : Nat) (goal : Int) (s : State) :
    (moveTap b tap goal s).2.mask μ = s.mask μ := by
  simp only [moveTap, ↓setCal_mask, ↓bounded_mask, and_self, hμ]

theorem noiseCycle_mask (hμ : μ .regs = true ∧ μ .evt = true ∧ μ .cal = true) (c : Nat) (b : Nat) (s : State) :
    (noiseCycle c b s).mask μ = s.mask μ := by
  simp only [noiseCycle, ↓mask_ite]
  (repeat' split) <;> simp only [↓setCalBand_mask, ↓stage_mask, ↓noteRollback_mask, ↓moveTap_mask, ↓mask_foldl, and_self, implies_true, hμ]

theorem servoChange_mask (hμ : μ .regs = true ∧ μ .evt = true) (c : Nat) (s : State) :
    (servoChange c s).2.mask μ = s.mask μ := by
  simp only [servoChange]
  (repeat' split) <;> simp only [↓bounded_mask, ↓mask_foldl_snd, and_self, implies_true, hμ]

theorem servoCycle_mask (hμ : μ .regs = true ∧ μ .evt = true ∧ μ .cal = true) (c : Nat) (s : State) :
    (servoCycle c s).mask μ = s.mask μ := by
  simp only [servoCycle]
  (repeat' split) <;> simp only [↓setF_mask, ↓setCal_mask, ↓stage_mask, ↓noteRollback_mask, ↓servoChange_mask, ↓mask_foldl, and_self, implies_true, hμ]

theorem tiltCycle_mask (hμ : μ .regs = true ∧ μ .evt = true ∧ μ .cal = true) (c : Nat) (s : State) :
    (tiltCycle c s).mask μ = s.mask μ := by
  simp only [tiltCycle]
  (repeat' split) <;> simp only [↓setF_mask, ↓setCal_mask, ↓stage_mask, ↓bounded_mask, ↓noteRollback_mask, ↓mask_foldl, and_self, implies_true, hμ]

theorem csoMove_mask (hμ : μ .regs = true ∧ μ .evt = true) (reel : Nat) (sum : Int) (n : Nat) (s : State) :
    (csoMove reel sum n s).2.mask μ = s.mask μ := by
  simp only [csoMove]
  (repeat' split) <;> simp only [↓raise_mask, ↓bounded_mask, and_self, hμ]

theorem csoOne_mask (hμ : μ .regs = true ∧ μ .evt = true) (put : Int → State → State) (reel : Nat) (sum : Int) (n : Nat) (s : State) (hput : ∀ z0 s, (put z0 s).mask μ = s.mask μ) :
    (csoOne put reel sum n s).mask μ = s.mask μ := by
  simp only [csoOne, ↓mask_ite]
  (repeat' split) <;> simp only [↓csoMove_mask, and_self, hμ, hput]

theorem csoCycle_mask (hμ : μ .regs = true ∧ μ .evt = true ∧ μ .cal = true) (c : Nat) (s : State) :
    (csoCycle c s).mask μ = s.mask μ := by
  simp (maxDischargeDepth := 6) only [csoCycle, ↓stage_mask, ↓csoOne_mask, ↓mask_ite, ite_self, ↓mask_forEach, and_self, implies_true, hμ]

theorem prepare_mask (hμ : μ .regs = true ∧ μ .links = true) (b : Nat) (n : Nat) (s : State) :
    (prepare b n s).mask μ = s.mask μ := by
  simp only [prepare, ↓setS_mask, ↓forwardHfe_mask, ↓mask_ite, ite_self, ↓mask_forEach, implies_true, hμ]

theorem prepareAfter_mask (hμ : μ .regs = true ∧ μ .links = true) (n : Nat) (s : State) :
    (prepareAfter n s).mask μ = s.mask μ := by
  simp only [prepareAfter, ↓prepare_mask, ↓mask_ite, ite_self, ↓mask_forEach, and_self, implies_true, hμ]

theorem forget_mask (hμ : μ .cal = true) (s : State) :
    (forget s).mask μ = s.mask μ := by
  simp only [forget, ↓setCal_mask, hμ]

theorem discardCycle_mask (hμ : μ .regs = true ∧ μ .evt = true ∧ μ .links = true ∧ μ .cal = true) (c : Nat) (s : State) :
    (discardCycle c s).mask μ = s.mask μ := by
  simp only [discardCycle, ↓setF_mask, ↓incF_mask, ↓raise_mask, ↓setCal_mask, ↓prepareAfter_mask, and_self, hμ]

theorem dropMeasures_mask (hμ : μ .cal = true) (c : Nat) (s : State) :
    (dropMeasures c s).mask μ = s.mask μ := by
  simp only [dropMeasures, ↓setCal_mask, hμ]

theorem calCycle_mask (hμ : μ .regs = true ∧ μ .evt = true ∧ μ .links = true ∧ μ .cal = true) (c : Nat) (s : State) :
    (calCycle c s).mask μ = s.mask μ := by
  simp (maxDischargeDepth := 6) only [calCycle, ↓setF_mask, ↓setCal_mask, ↓writerCycle_mask, ↓readerCycle_mask, ↓noiseCycle_mask, ↓servoCycle_mask, ↓tiltCycle_mask, ↓csoCycle_mask, ↓prepareAfter_mask, ↓discardCycle_mask, ↓dropMeasures_mask, ↓mask_ite, ite_self, ↓mask_forEach, and_self, implies_true, hμ]

theorem calLate_mask (hμ : μ .regs = true ∧ μ .evt = true ∧ μ .links = true ∧ μ .cal = true) (s : State) :
    (calLate s).mask μ = s.mask μ := by
  unfold calLate
  (repeat' split) <;> simp only [↓discardCycle_mask, and_self, hμ]

theorem applyCal_mask (hμ : μ .regs = true ∧ μ .cal = true ∧ μ .rch = true) (x : CalSet) (s : State) :
    (applyCal x s).mask μ = s.mask μ := by
  unfold applyCal
  (repeat' split) <;> simp only [↓setF_mask, ↓setS_mask, ↓setSeed_mask, ↓setCalWriter_mask, hμ]

theorem applyKind_mask (hμ : μ .regs = true ∧ μ .cal = true ∧ μ .rch = true) (mine : CalSet → Bool) (s : State) :
    (applyKind mine s).mask μ = s.mask μ := by
  simp only [applyKind, ↓setCal_mask, ↓applyCal_mask, ↓mask_foldl, and_self, implies_true, hμ]

theorem calDone_mask (hμ : μ .regs = true ∧ μ .cal = true) (s : State) :
    (calDone s).mask μ = s.mask μ := by
  simp only [calDone, ↓setF_mask, ↓incF_mask, ↓setCal_mask, ↓mask_ite, ite_self, hμ]

theorem calFrame_mask (hμ : μ .regs = true ∧ μ .cal = true ∧ μ .rch = true) (s : State) :
    (calFrame s).mask μ = s.mask μ := by
  unfold calFrame
  (repeat' split) <;> simp only [↓setCal_mask, ↓applyKind_mask, ↓calDone_mask, and_self, hμ]

theorem calAtOrigin_mask (hμ : μ .regs = true ∧ μ .links = true ∧ μ .cal = true ∧ μ .rch = true) (b : Nat) (n : Nat) (writing : Bool) (s : State) :
    (calAtOrigin b n writing s).mask μ = s.mask μ := by
  simp only [calAtOrigin, ↓setF_mask, ↓noteOut_mask, ↓prepare_mask, ↓applyKind_mask, ↓calDone_mask, ↓mask_ite, ite_self, ↓mask_forEach, and_self, implies_true, hμ]

theorem calNext_mask (hμ : μ .regs = true ∧ μ .links = true ∧ μ .cal = true) (b : Nat) (n : Nat) (s : State) :
    (calNext b n s).mask μ = s.mask μ := by
  simp only [calNext, ↓setCal_mask, ↓prepare_mask, and_self, hμ]

theorem csoStandstillOne_mask (hμ : μ .regs = true ∧ μ .evt = true) (reel : Nat) (zeros : List (Option Nat)) (s : State) :
    (csoStandstillOne reel zeros s).mask μ = s.mask μ := by
  simp only [csoStandstillOne, ↓setS_mask, ↓csoOne_mask, ↓mask_ite, ite_self, and_self, implies_true, hμ]

theorem csoStandstill_mask (hμ : μ .regs = true ∧ μ .evt = true) (s : State) :
    (csoStandstill s).mask μ = s.mask μ := by
  simp only [csoStandstill, ↓csoStandstillOne_mask, ↓mask_ite, ite_self, and_self, hμ]

theorem calWritten_mask (hμ : μ .links = true ∧ μ .cal = true) (addr : Nat) (s : State) :
    (calWritten addr s).mask μ = s.mask μ := by
  simp only [calWritten, ↓forwardHfe_mask, ↓setCal_mask, ↓setCalWriter_mask, ↓mask_ite, ite_self, hμ]

theorem clampGains_mask (hμ : μ .regs = true) (p : Nat) (kcd : Bool) (s : State) :
    (clampGains p kcd s).mask μ = s.mask μ := by
  simp only [clampGains, ↓setF_mask, ↓mask_ite, ite_self, ↓mask_forEach, implies_true, hμ]

theorem copyGains_mask (hμ : μ .regs = true) (p : Nat) (s : State) :
    (copyGains p s).mask μ = s.mask μ := by
  simp only [copyGains, ↓wr_mask, hμ]

theorem calValueWrite_mask (hμ : μ .regs = true ∧ μ .links = true ∧ μ .cal = true) (addr : Nat) (value : Nat) (s : State) :
    (calValueWrite addr value s).mask μ = s.mask μ := by
  simp only [calValueWrite, ↓wr_mask, ↓setF_mask, ↓lockGate_mask, ↓setCalWriter_mask, ↓calWritten_mask, ↓clampGains_mask, ↓copyGains_mask, ↓mask_ite, ite_self, and_self, implies_true, hμ]

theorem calWinWrite_mask (hμ : μ .regs = true ∧ μ .evt = true ∧ μ .links = true ∧ μ .cal = true) (value : Nat) (s : State) :
    (calWinWrite value s).mask μ = s.mask μ := by
  simp only [calWinWrite, ↓setF_mask, ↓setS_mask, ↓notify_mask, ↓forwardHfe_mask, ↓setCal_mask, ↓setCalWriter_mask, ↓setCalReader_mask, ↓mask_ite, ite_self, and_self, hμ]

theorem loadWriter_mask (hμ : μ .regs = true ∧ μ .evt = true ∧ μ .links = true ∧ μ .cal = true) (x : Nat × List Int) (s : State) :
    (loadWriter x s).mask μ = s.mask μ := by
  simp only [loadWriter, ↓setS_mask, ↓incF_mask, ↓raise_mask, ↓forwardHfe_mask, ↓setCalWriter_mask, ↓mask_ite, ite_self, and_self, hμ]

theorem loadDelay_mask (hμ : μ .regs = true ∧ μ .links = true ∧ μ .cal = true) (x : Nat × Int × Int × Int) (s : State) :
    (loadDelay x s).mask μ = s.mask μ := by
  simp only [loadDelay, ↓setS_mask, ↓forwardHfe_mask, ↓setCalWriter_mask, ↓setCalReader_mask, ↓mask_ite, ite_self, hμ]

theorem loadGroups_mask (hμ : μ .regs = true ∧ μ .cal = true ∧ μ .rch = true) (x : LoadCal) (s : State) :
    (loadGroups x s).mask μ = s.mask μ := by
  unfold loadGroups
  (repeat' split) <;> simp only [↓setF_mask, ↓setS_mask, ↓setCal_mask, ↓applyCal_mask, ↓mask_ite, ite_self, ↓mask_foldl, and_self, implies_true, hμ]

theorem loadCalibrate_mask (hμ : μ .regs = true ∧ μ .evt = true ∧ μ .links = true ∧ μ .cal = true ∧ μ .rch = true) (x : LoadCal) (s : State) :
    (loadCalibrate x s).mask μ = s.mask μ := by
  simp only [loadCalibrate, ↓setF_mask, ↓raise_mask, ↓loadWriter_mask, ↓loadDelay_mask, ↓loadGroups_mask, ↓mask_ite, ite_self, ↓mask_foldl, and_self, implies_true, hμ]

/-! ## Commands -/

theorem execCalCycleCompute_mask (hμ : μ .regs = true ∧ μ .evt = true ∧ μ .links = true ∧ μ .cal = true) (cycle : Nat) (s : State) {t : State}
    (ht : execCalCycleCompute cycle s = .next t) : t.mask μ = s.mask μ := by
  rw [execCalCycleCompute] at ht
  rw [← Host.Outcome.next.inj ht]
  simp only [↓calCycle_mask, and_self, hμ]

theorem execCalLate_mask (hμ : μ .regs = true ∧ μ .evt = true ∧ μ .links = true ∧ μ .cal = true) (s : State) {t : State}
    (ht : execCalLate s = .next t) : t.mask μ = s.mask μ := by
  rw [execCalLate] at ht
  rw [← Host.Outcome.next.inj ht]
  simp only [↓calLate_mask, and_self, hμ]

theorem execCsoStandstillUpdate_mask (hμ : μ .regs = true ∧ μ .evt = true) (s : State) {t : State}
    (ht : execCsoStandstillUpdate s = .next t) : t.mask μ = s.mask μ := by
  rw [execCsoStandstillUpdate] at ht
  rw [← Host.Outcome.next.inj ht]
  simp only [↓csoStandstill_mask, and_self, hμ]

theorem execCalValueWrite_mask (hμ : μ .regs = true ∧ μ .links = true ∧ μ .cal = true) (addr : Nat) (value : Nat) (s : State) {t : State}
    (ht : execCalValueWrite addr value s = .next t) : t.mask μ = s.mask μ := by
  rw [execCalValueWrite] at ht
  rw [← Host.Outcome.next.inj ht]
  simp only [↓calValueWrite_mask, and_self, hμ]

theorem execCalWinWrite_mask (hμ : μ .regs = true ∧ μ .evt = true ∧ μ .links = true ∧ μ .cal = true) (value : Nat) (s : State) {t : State}
    (ht : execCalWinWrite value s = .next t) : t.mask μ = s.mask μ := by
  rw [execCalWinWrite] at ht
  rw [← Host.Outcome.next.inj ht]
  simp only [↓lockGate_mask, ↓calWinWrite_mask, and_self, implies_true, hμ]

end Sys2Proof.Machine
end

