-- ==== Sys2Proof/Laws/RecoveryMask.lean ====
section
/-!
SUPPORT. What each function of Machine/Recovery.lean touches at most.
-/
namespace Sys2Proof.Machine

variable {μ : Part → Bool}

theorem decodeSet_mask (hμ : μ .regs = true ∧ μ .evt = true ∧ μ .rch = true) (n : Nat) (margin : Nat) (level : Nat) (s : State) :
    (decodeSet n margin level s).mask μ = s.mask μ := by
  unfold decodeSet
  (repeat' split) <;> simp only [↓addF_mask, ↓incF_mask, ↓raiseC_mask, ↓onReadSet_mask, ↓mask_ite, ite_self, ↓mask_forEach, and_self, implies_true, hμ]

theorem afterC3_mask (hμ : μ .regs = true ∧ μ .evt = true ∧ μ .rch = true) (level : Nat) (d : ReadSet) (p : List Byte) (s : State) :
    (afterC3 level d p s).mask μ = s.mask μ := by
  simp only [afterC3, ↓raiseC_mask, ↓onReadSet_mask, ↓mask_ite, ite_self, and_self, hμ]

theorem decodeC3_mask (hμ : μ .regs = true ∧ μ .evt = true ∧ μ .rch = true) (base : Nat) (level : Nat) (s : State) :
    (decodeC3 base level s).mask μ = s.mask μ := by
  simp only [decodeC3, ↓addF_mask, ↓afterC3_mask, ↓mask_ite, ite_self, ↓mask_foldl, and_self, implies_true, hμ]

theorem addWeak_mask (hμ : μ .regs = true ∧ μ .evt = true ∧ μ .rch = true) (n : Nat) (s : State) :
    (addWeak n s).mask μ = s.mask μ := by
  simp only [addWeak, ↓setF_mask, ↓raiseC_mask, ↓setRch_mask, ↓mask_ite, ite_self, and_self, hμ]

theorem weakWrite_mask (hμ : μ .regs = true ∧ μ .rch = true) (v : Nat) (s : State) :
    (weakWrite v s).mask μ = s.mask μ := by
  simp only [weakWrite, ↓setF_mask, ↓setRch_mask, ↓mask_ite, ite_self, hμ]

theorem clearWeak_mask (hμ : μ .rch = true) (s : State) :
    (clearWeak s).mask μ = s.mask μ := by
  simp only [clearWeak, ↓setRch_mask, hμ]

theorem ladderAt_mask (hμ : μ .regs = true ∧ μ .rch = true) (n : Nat) (level : Nat) (s : State) :
    (ladderAt n level s).mask μ = s.mask μ := by
  simp only [ladderAt, ↓setF_mask, ↓freshLoops_mask, ↓setRch_mask, ↓mask_ite, ite_self, hμ]

theorem ladderOff_mask (hμ : μ .regs = true) (s : State) :
    (ladderOff s).mask μ = s.mask μ := by
  simp only [ladderOff, ↓setF_mask, hμ]

theorem ladderFail_mask (hμ : μ .regs = true ∧ μ .evt = true ∧ μ .rch = true) (n : Nat) (s : State) :
    (ladderFail n s).mask μ = s.mask μ := by
  simp only [ladderFail, ↓incF_mask, ↓raiseC_mask, ↓onReadSet_mask, ↓ladderOff_mask, and_self, hμ]

theorem resolvedAt_mask (hμ : μ .regs = true ∧ μ .evt = true ∧ μ .rch = true) (n : Nat) (level : Nat) (s : State) :
    (resolvedAt n level s).mask μ = s.mask μ := by
  simp only [resolvedAt, ↓incF_mask, ↓raiseC_mask, ↓addWeak_mask, ↓mask_ite, ite_self, and_self, hμ]

theorem rowsComplete_mask (hμ : μ .regs = true ∧ μ .evt = true ∧ μ .rch = true) (n : Nat) (s : State) :
    (rowsComplete n s).mask μ = s.mask μ := by
  simp only [rowsComplete]
  (repeat' split) <;> simp only [↓decodeSet_mask, ↓ladderAt_mask, ↓ladderFail_mask, and_self, hμ]

theorem rungDone_mask (hμ : μ .regs = true ∧ μ .evt = true ∧ μ .rch = true) (s : State) :
    (rungDone s).mask μ = s.mask μ := by
  simp only [rungDone, ↓decodeSet_mask, ↓decodeC3_mask, ↓ladderOff_mask, ↓resolvedAt_mask, ↓mask_ite, ite_self, ↓mask_forEach, and_self, implies_true, hμ]
  (repeat' split) <;> simp only [↓decodeSet_mask, ↓decodeC3_mask, ↓ladderAt_mask, ↓ladderFail_mask, ↓mask_forEach, and_self, implies_true, hμ]

/-! ## Commands -/

theorem execDataSetRowsComplete_mask (hμ : μ .regs = true ∧ μ .evt = true ∧ μ .rch = true) (dsn : Nat) (s : State) {t : State}
    (ht : execDataSetRowsComplete dsn s = .next t) : t.mask μ = s.mask μ := by
  rw [execDataSetRowsComplete] at ht
  rw [← Host.Outcome.next.inj ht]
  simp only [↓rowsComplete_mask, and_self, hμ]

theorem execRecoveryRungDone_mask (hμ : μ .regs = true ∧ μ .evt = true ∧ μ .rch = true) (s : State) {t : State}
    (ht : execRecoveryRungDone s = .next t) : t.mask μ = s.mask μ := by
  rw [execRecoveryRungDone] at ht
  rw [← Host.Outcome.next.inj ht]
  simp only [↓rungDone_mask, and_self, hμ]

theorem execWeakWinWrite_mask (hμ : μ .regs = true ∧ μ .rch = true) (dsn : Nat) (s : State) {t : State}
    (ht : execWeakWinWrite dsn s = .next t) : t.mask μ = s.mask μ := by
  rw [execWeakWinWrite] at ht
  rw [← Host.Outcome.next.inj ht]
  simp only [↓lockGate_mask, ↓weakWrite_mask, and_self, implies_true, hμ]

theorem execWeakClr_mask (hμ : μ .regs = true ∧ μ .rch = true) (s : State) {t : State}
    (ht : execWeakClr s = .next t) : t.mask μ = s.mask μ := by
  rw [execWeakClr] at ht
  rw [← Host.Outcome.next.inj ht]
  simp only [↓lockGate_mask, ↓clearWeak_mask, implies_true, hμ]

end Sys2Proof.Machine
end

