-- ==== Sys2Proof/Laws/ReadingMask.lean ====
section
/-!
SUPPORT. What each function of Machine/Reading.lean touches at most.
-/
namespace Sys2Proof.Machine

variable {μ : Part → Bool}

theorem learnEod_mask (hμ : μ .vol = true) (records : Nat) (fm : Nat) (hdr : Nat) (s : State) :
    (learnEod records fm hdr s).mask μ = s.mask μ := by
  simp only [learnEod, ↓setVol_mask, ↓mask_ite, ite_self, hμ]

theorem toEod_mask (hμ : μ .vol = true) (s : State) :
    (toEod s).mask μ = s.mask μ := by
  simp only [toEod, ↓setVol_mask, hμ]

theorem eodSetRead_mask (hμ : μ .vol = true) (s : State) :
    (eodSetRead s).mask μ = s.mask μ := by
  unfold eodSetRead
  (repeat' split) <;> simp only [↓learnEod_mask, hμ]

theorem onExec_mask (hμ : μ .que = true) (f : ExecSt → ExecSt) (s : State) :
    (onExec f s).mask μ = s.mask μ := by
  simp only [onExec, ↓setQue_mask, hμ]

theorem pushDin_mask (hμ : μ .que = true) (l : List DinPkt) (s : State) :
    (pushDin l s).mask μ = s.mask μ := by
  simp only [pushDin, ↓setQue_mask, hμ]

theorem deliverHeld_mask (hμ : μ .que = true ∧ μ .vol = true) (g : RdGran) (y0 : List RecPiece) (s : State) :
    (deliverHeld g y0 s).1.mask μ = s.mask μ := by
  induction y0 generalizing s with
  | nil => rfl
  | cons p l ih =>
    unfold deliverHeld
    repeat' (first | (simp only [↓setVol_mask, ↓onExec_mask, ↓pushDin_mask, hμ, ih]; done) | split | dsimp only)

theorem deliverCut_mask (hμ : μ .que = true ∧ μ .vol = true) (g : RdGran) (y0 : List RecPiece) (s : State) :
    (deliverCut g y0 s).1.mask μ = s.mask μ := by
  induction y0 generalizing s with
  | nil => rfl
  | cons p l ih =>
    unfold deliverCut
    repeat' (first | (simp only [↓setVol_mask, ↓onExec_mask, ↓pushDin_mask, hμ, ih]; done) | split | dsimp only)

theorem endRead_mask (hμ : μ .regs = true ∧ μ .evt = true ∧ μ .que = true ∧ μ .mtr = true ∧ μ .ten = true) (status : Nat) (detail : Nat) (s : State) :
    (endRead status detail s).mask μ = s.mask μ := by
  unfold endRead
  (repeat' split) <;> simp only [↓endExec_mask, and_self, hμ]

theorem failGranule_mask (hμ : μ .regs = true ∧ μ .evt = true ∧ μ .que = true ∧ μ .mtr = true ∧ μ .ten = true ∧ μ .vol = true) (g : RdGran) (status : Nat) (detail : Nat) (s : State) :
    (failGranule g status detail s).mask μ = s.mask μ := by
  unfold failGranule
  (repeat' split) <;> simp only [↓setVol_mask, ↓onExec_mask, ↓endRead_mask, and_self, hμ]

theorem noteTagFail_mask (hμ : μ .regs = true ∧ μ .evt = true) (gsn : Nat) (acct : Nat) (s : State) :
    (noteTagFail gsn acct s).mask μ = s.mask μ := by
  simp only [noteTagFail, ↓setF_mask, ↓incF_mask, ↓raiseC_mask, and_self, hμ]

theorem corruptGranule_mask (hμ : μ .regs = true ∧ μ .evt = true ∧ μ .que = true ∧ μ .mtr = true ∧ μ .ten = true ∧ μ .vol = true) (g : RdGran) (reason : Nat) (s : State) :
    (corruptGranule g reason s).mask μ = s.mask μ := by
  simp only [corruptGranule, ↓noteCorrupt_mask, ↓failGranule_mask, and_self, hμ]

theorem granuleDone_mask (hμ : μ .que = true) (g : RdGran) (s : State) :
    (granuleDone g s).mask μ = s.mask μ := by
  simp only [granuleDone, ↓onExec_mask, hμ]

theorem openPlain_mask (hμ : μ .regs = true) (g : RdGran) (s : State) :
    (openPlain g s).2.mask μ = s.mask μ := by
  simp only [openPlain]
  (repeat' split) <;> simp only [↓openBody_mask, hμ]

theorem beginCut_mask (hμ : μ .regs = true ∧ μ .que = true ∧ μ .vol = true) (g : RdGran) (s : State) :
    (beginCut g s).mask μ = s.mask μ := by
  simp only [beginCut, ↓onExec_mask, ↓deliverCut_mask, ↓openPlain_mask, and_self, hμ]

theorem granuleVerdict_mask (hμ : μ .regs = true ∧ μ .evt = true ∧ μ .que = true ∧ μ .mtr = true ∧ μ .ten = true ∧ μ .vol = true) (tag : Bool) (s : State) :
    (granuleVerdict tag s).mask μ = s.mask μ := by
  simp only [granuleVerdict]
  (repeat' split) <;> simp only [↓deliverHeld_mask, ↓endRead_mask, ↓failGranule_mask, ↓noteTagFail_mask, ↓corruptGranule_mask, ↓granuleDone_mask, ↓openPlain_mask, and_self, hμ]

theorem readEnd_mask (hμ : μ .regs = true ∧ μ .evt = true ∧ μ .que = true ∧ μ .mtr = true ∧ μ .ten = true ∧ μ .vol = true) (s : State) :
    (readEnd s).mask μ = s.mask μ := by
  unfold readEnd
  (repeat' split) <;> simp only [↓setVol_mask, ↓learnEod_mask, ↓endRead_mask, and_self, hμ]

theorem readLost_mask (hμ : μ .regs = true ∧ μ .evt = true ∧ μ .que = true ∧ μ .mtr = true ∧ μ .ten = true) (s : State) :
    (readLost s).mask μ = s.mask μ := by
  simp only [readLost, ↓endRead_mask, and_self, hμ]

theorem takeGranule_mask (hμ : μ .regs = true ∧ μ .evt = true ∧ μ .que = true ∧ μ .mtr = true ∧ μ .ten = true ∧ μ .vol = true ∧ μ .ciph = true) (n : Nat) (off : Nat) (head : List Byte) (s : State) :
    (takeGranule n off head s).mask μ = s.mask μ := by
  simp only [takeGranule]
  (repeat' split) <;> simp only [↓setVol_mask, ↓onExec_mask, ↓endRead_mask, ↓failGranule_mask, ↓corruptGranule_mask, ↓beginCut_mask, ↓granuleVerdict_mask, ↓readLost_mask, ↓mask_ciph, and_self, hμ]

theorem readOn_mask (hμ : μ .regs = true ∧ μ .evt = true ∧ μ .que = true ∧ μ .mtr = true ∧ μ .ten = true ∧ μ .vol = true ∧ μ .ciph = true) (noMore : Bool) (y0 : Nat) (s : State) :
    (readOn noMore y0 s).mask μ = s.mask μ := by
  induction y0 generalizing s with
  | zero => rfl
  | succ n ih =>
    unfold readOn
    repeat' (first | (simp only [↓onExec_mask, ↓endRead_mask, ↓readEnd_mask, ↓readLost_mask, ↓takeGranule_mask, ↓mask_ite, ite_self, and_self, hμ, ih]; done) | split | dsimp only)

theorem readWork_mask (hμ : μ .regs = true ∧ μ .evt = true ∧ μ .que = true ∧ μ .mtr = true ∧ μ .ten = true ∧ μ .vol = true ∧ μ .ciph = true) (noMore : Bool) (s : State) :
    (readWork noMore s).mask μ = s.mask μ := by
  simp only [readWork, ↓readOn_mask, and_self, hμ]

theorem locateEod_mask (hμ : μ .regs = true ∧ μ .evt = true ∧ μ .que = true ∧ μ .mtr = true ∧ μ .ten = true ∧ μ .vol = true) (status : Nat) (s : State) :
    (locateEod status s).mask μ = s.mask μ := by
  simp only [locateEod, ↓endExec_mask, ↓toEod_mask, and_self, hμ]

theorem locateWork_mask (hμ : μ .regs = true ∧ μ .evt = true ∧ μ .que = true ∧ μ .mtr = true ∧ μ .ten = true ∧ μ .vol = true) (noMore : Bool) (s : State) :
    (locateWork noMore s).mask μ = s.mask μ := by
  simp only [locateWork]
  (repeat' split) <;> simp only [↓setVol_mask, ↓endExec_mask, ↓noteCorrupt_mask, ↓learnEod_mask, ↓eodSetRead_mask, ↓locateEod_mask, and_self, hμ]

end Sys2Proof.Machine
end

