-- ==== Sys2Proof/Laws/ClusterMask.lean ====
section
/-!
SUPPORT. What each function of Machine/Cluster.lean touches at most.
-/
namespace Sys2Proof.Machine

variable {μ : Part → Bool}

theorem setCore_mask (hμ : μ .core = true) (c : CoreSt) (s : State) :
    (setCore c s).mask μ = s.mask μ := by
  simp only [setCore, ↓mask_core, hμ]

theorem mbOverrun_mask (hμ : μ .regs = true ∧ μ .evt = true) (page : Nat) (slot : Nat) (s : State) :
    (mbOverrun page slot s).mask μ = s.mask μ := by
  simp only [mbOverrun, ↓setF_mask, ↓notify_mask, and_self, hμ]

theorem mailboxRequest_mask (hμ : μ .regs = true ∧ μ .evt = true ∧ μ .core = true) (page : Nat) (slot : Nat) (value : Word) (s : State) :
    (mailboxRequest page slot value s).mask μ = s.mask μ := by
  simp only [mailboxRequest, ↓setF_mask, ↓lockGate_mask, ↓setCore_mask, ↓mbOverrun_mask, ↓mask_ite, ite_self, and_self, implies_true, hμ]

theorem mailboxDone_mask (hμ : μ .regs = true ∧ μ .evt = true ∧ μ .core = true) (page : Nat) (slot : Nat) (result : Nat) (res : List Word) (s : State) :
    (mailboxDone page slot result res s).mask μ = s.mask μ := by
  simp only [mailboxDone, ↓setF_mask, ↓notify_mask, ↓setCore_mask, ↓mask_ite, ite_self, ↓mask_forEach, and_self, implies_true, hμ]

theorem mailboxComplete_mask (hμ : μ .regs = true ∧ μ .evt = true ∧ μ .core = true) (page : Nat) (slot : Nat) (res : List Word) (s : State) :
    (mailboxComplete page slot res s).mask μ = s.mask μ := by
  simp only [mailboxComplete, ↓mailboxDone_mask, ↓mask_ite, ite_self, and_self, hμ]

theorem mailboxAbort_mask (hμ : μ .regs = true ∧ μ .evt = true ∧ μ .core = true) (page : Nat) (slot : Nat) (s : State) :
    (mailboxAbort page slot s).mask μ = s.mask μ := by
  simp only [mailboxAbort, ↓mailboxDone_mask, and_self, hμ]

theorem haltCores_mask (hμ : μ .regs = true ∧ μ .evt = true ∧ μ .core = true) (s : State) :
    (haltCores s).mask μ = s.mask μ := by
  simp (maxDischargeDepth := 6) only [haltCores, ↓wr_mask, ↓setF_mask, ↓mailboxAbort_mask, ↓mask_forEach, and_self, implies_true, hμ]

theorem lockstepMismatch_mask (hμ : μ .regs = true ∧ μ .evt = true ∧ μ .core = true ∧ μ .que = true ∧ μ .mtr = true ∧ μ .ten = true ∧ μ .vol = true ∧ μ .fmt = true ∧ μ .band = true ∧ μ .cal = true ∧ μ .rch = true ∧ μ .mot = true) (pair : Nat) (s : State) :
    (lockstepMismatch pair s).mask μ = s.mask μ := by
  simp only [lockstepMismatch, ↓setF_mask, ↓raise_mask, ↓enterS2_mask, ↓enterS3_mask, ↓mailboxAbort_mask, ↓mask_ite, ite_self, and_self, hμ]

theorem transportHop_mask (hμ : μ .regs = true ∧ μ .evt = true ∧ μ .core = true ∧ μ .que = true ∧ μ .mtr = true ∧ μ .ten = true ∧ μ .vol = true ∧ μ .fmt = true ∧ μ .band = true ∧ μ .cal = true ∧ μ .rch = true ∧ μ .mot = true) (page : Nat) (account : Nat) (w : Word256) (c : Chk) (s : State) :
    (transportHop page account w c s).2.mask μ = s.mask μ := by
  unfold transportHop
  (repeat' split) <;> simp only [↓raise_mask, ↓enterS3_mask, ↓setCore_mask, and_self, hμ]

theorem setFifo_mask (hμ : μ .core = true) (id : Nat) (n : Nat) (f : FifoSt) (s : State) :
    (setFifo id n f s).mask μ = s.mask μ := by
  simp only [setFifo, ↓setCore_mask, hμ]

theorem fifoWrite_mask (hμ : μ .regs = true ∧ μ .evt = true ∧ μ .core = true ∧ μ .que = true ∧ μ .mtr = true ∧ μ .ten = true ∧ μ .vol = true ∧ μ .fmt = true ∧ μ .band = true ∧ μ .cal = true ∧ μ .rch = true ∧ μ .mot = true) (page : Nat) (account : Nat) (id : Nat) (n : Nat) (tok : Bool) (w : Word256 × Chk) (s : State) :
    (fifoWrite page account id n tok w s).mask μ = s.mask μ := by
  simp only [fifoWrite, ↓raise_mask, ↓enterS3_mask, ↓setFifo_mask, ↓mask_ite, ite_self, and_self, hμ]

theorem fifoRemove_mask (hμ : μ .regs = true ∧ μ .evt = true ∧ μ .core = true ∧ μ .que = true ∧ μ .mtr = true ∧ μ .ten = true ∧ μ .vol = true ∧ μ .fmt = true ∧ μ .band = true ∧ μ .cal = true ∧ μ .rch = true ∧ μ .mot = true ∧ μ .mem = true) (id : Nat) (n : Nat) (unit : Nat) (row : Nat) (upset : Word256 × Chk) (s : State) :
    (fifoRemove id n unit row upset s).mask μ = s.mask μ := by
  simp only [fifoRemove, ↓sramRead_mask, ↓setFifo_mask, ↓mask_ite, ite_self, and_self, hμ]

/-! ## Commands -/

theorem execMailboxRequest_mask (hμ : μ .regs = true ∧ μ .evt = true ∧ μ .core = true) (page : Nat) (slot : Nat) (value : Word) (s : State) {t : State}
    (ht : execMailboxRequest page slot value s = .next t) : t.mask μ = s.mask μ := by
  rw [execMailboxRequest] at ht
  rw [← Host.Outcome.next.inj ht]
  simp only [↓mailboxRequest_mask, and_self, hμ]

theorem execMailboxComplete_mask (hμ : μ .regs = true ∧ μ .evt = true ∧ μ .core = true) (page : Nat) (slot : Nat) (res : List Word) (s : State) {t : State}
    (ht : execMailboxComplete page slot res s = .next t) : t.mask μ = s.mask μ := by
  rw [execMailboxComplete] at ht
  rw [← Host.Outcome.next.inj ht]
  simp only [↓mailboxComplete_mask, and_self, hμ]

theorem execLockstepMismatch_mask (hμ : μ .regs = true ∧ μ .evt = true ∧ μ .core = true ∧ μ .que = true ∧ μ .mtr = true ∧ μ .ten = true ∧ μ .vol = true ∧ μ .fmt = true ∧ μ .band = true ∧ μ .cal = true ∧ μ .rch = true ∧ μ .mot = true) (pair : Nat) (s : State) {t : State}
    (ht : execLockstepMismatch pair s = .next t) : t.mask μ = s.mask μ := by
  rw [execLockstepMismatch] at ht
  rw [← Host.Outcome.next.inj ht]
  simp only [↓lockstepMismatch_mask, and_self, hμ]

theorem execInternalWordHop_mask (hμ : μ .regs = true ∧ μ .evt = true ∧ μ .core = true ∧ μ .que = true ∧ μ .mtr = true ∧ μ .ten = true ∧ μ .vol = true ∧ μ .fmt = true ∧ μ .band = true ∧ μ .cal = true ∧ μ .rch = true ∧ μ .mot = true) (page : Nat) (account : Nat) (word : Word256) (chk : Chk) (s : State) {t : State}
    (ht : execInternalWordHop page account word chk s = .next t) : t.mask μ = s.mask μ := by
  rw [execInternalWordHop] at ht
  rw [← Host.Outcome.next.inj ht]
  simp only [↓transportHop_mask, and_self, hμ]

theorem execFifoEntryWritten_mask (hμ : μ .regs = true ∧ μ .evt = true ∧ μ .core = true ∧ μ .que = true ∧ μ .mtr = true ∧ μ .ten = true ∧ μ .vol = true ∧ μ .fmt = true ∧ μ .band = true ∧ μ .cal = true ∧ μ .rch = true ∧ μ .mot = true) (page : Nat) (account : Nat) (fifo : Nat) (size : Nat) (holdsToken : Bool) (word : Word256) (chk : Chk) (s : State) {t : State}
    (ht : execFifoEntryWritten page account fifo size holdsToken word chk s = .next t) : t.mask μ = s.mask μ := by
  rw [execFifoEntryWritten] at ht
  rw [← Host.Outcome.next.inj ht]
  simp only [↓fifoWrite_mask, and_self, hμ]

theorem execFifoEntryRemoved_mask (hμ : μ .regs = true ∧ μ .evt = true ∧ μ .core = true ∧ μ .que = true ∧ μ .mtr = true ∧ μ .ten = true ∧ μ .vol = true ∧ μ .fmt = true ∧ μ .band = true ∧ μ .cal = true ∧ μ .rch = true ∧ μ .mot = true ∧ μ .mem = true) (fifo : Nat) (size : Nat) (unit : Nat) (row : Nat) (upset : Word256 × Chk) (s : State) {t : State}
    (ht : execFifoEntryRemoved fifo size unit row upset s = .next t) : t.mask μ = s.mask μ := by
  rw [execFifoEntryRemoved] at ht
  rw [← Host.Outcome.next.inj ht]
  simp only [↓fifoRemove_mask, and_self, hμ]

end Sys2Proof.Machine
end

