-- ==== Sys2Proof/Laws/LinkMask.lean ====
section
/-!
SUPPORT. What each function of Machine/Link.lean touches at most.
-/
namespace Sys2Proof.Machine

variable {μ : Part → Bool}

theorem setLnk_mask (hμ : μ .lnk = true) (l : EpbxSt) (s : State) :
    (setLnk l s).mask μ = s.mask μ := by
  simp only [setLnk, ↓mask_lnk, hμ]

theorem toLnk_mask (hμ : μ .regs = true ∧ μ .evt = true) (n : Nat) (s : State) :
    (toLnk n s).mask μ = s.mask μ := by
  simp only [toLnk, ↓setF_mask, ↓notify_mask, ↓mask_ite, ite_self, and_self, hμ]

theorem setLane_mask (hμ : μ .lnk = true) (l : Nat) (x : LaneSt) (s : State) :
    (setLane l x s).mask μ = s.mask μ := by
  simp only [setLane, ↓setLnk_mask, hμ]

theorem transmit_mask (hμ : μ .lnk = true) (cls : Nat) (words : List Word256) (s : State) :
    (transmit cls words s).mask μ = s.mask μ := by
  simp only [transmit, ↓setLnk_mask, hμ]

theorem spend_mask (hμ : μ .lnk = true) (cls : Nat) (s : State) :
    (spend cls s).mask μ = s.mask μ := by
  unfold spend
  (repeat' split) <;> simp only [↓setLnk_mask, hμ]

theorem pump_mask (hμ : μ .lnk = true) (y0 : Nat) (s : State) :
    (pump y0 s).mask μ = s.mask μ := by
  induction y0 generalizing s with
  | zero => rfl
  | succ n ih =>
    unfold pump
    repeat' (first | (simp only [↓setLnk_mask, ↓transmit_mask, ↓spend_mask, ↓mask_ite, ite_self, hμ, ih]; done) | split | dsimp only)

theorem pumpAll_mask (hμ : μ .lnk = true) (s : State) :
    (pumpAll s).mask μ = s.mask μ := by
  simp only [pumpAll, ↓pump_mask, hμ]

theorem sendFree_mask (hμ : μ .lnk = true) (words : List Word256) (s : State) :
    (sendFree words s).mask μ = s.mask μ := by
  simp only [sendFree, ↓setLnk_mask, ↓pumpAll_mask, hμ]

theorem giveBack_mask (hμ : μ .lnk = true) (cls : Nat) (queue : Nat) (n : Nat) (s : State) :
    (giveBack cls queue n s).mask μ = s.mask μ := by
  simp only [giveBack, ↓setLnk_mask, ↓mask_ite, ite_self, hμ]

theorem takeTokens_mask (hμ : μ .lnk = true) (cls : Nat) (queue : Nat) (n : Nat) (s : State) :
    (takeTokens cls queue n s).mask μ = s.mask μ := by
  simp only [takeTokens, ↓setLnk_mask, hμ]

theorem grantQueues_mask (hμ : μ .lnk = true) (s : State) :
    (grantQueues s).mask μ = s.mask μ := by
  simp only [grantQueues, ↓giveBack_mask, ↓mask_forEach, implies_true, hμ]

theorem queuesStart_mask (hμ : μ .lnk = true) (s : State) :
    (queuesStart s).mask μ = s.mask μ := by
  simp only [queuesStart, ↓setLnk_mask, ↓grantQueues_mask, ↓mask_ite, ite_self, hμ]

theorem tokenReturn_mask (hμ : μ .lnk = true) (s : State) :
    (tokenReturn s).mask μ = s.mask μ := by
  simp only [tokenReturn, ↓setLnk_mask, ↓sendFree_mask, ↓mask_ite, ite_self, ↓mask_foldl, implies_true, hμ]

theorem clearLanes_mask (hμ : μ .lnk = true) (s : State) :
    (clearLanes s).mask μ = s.mask μ := by
  simp only [clearLanes, ↓setLnk_mask, hμ]

theorem goDown_mask (hμ : μ .regs = true ∧ μ .evt = true ∧ μ .lnk = true) (s : State) :
    (goDown s).mask μ = s.mask μ := by
  simp only [goDown, ↓setLnk_mask, ↓toLnk_mask, ↓clearLanes_mask, and_self, hμ]

theorem trainFailed_mask (hμ : μ .regs = true ∧ μ .evt = true ∧ μ .lnk = true) (st : Nat) (s : State) :
    (trainFailed st s).mask μ = s.mask μ := by
  simp only [trainFailed, ↓setF_mask, ↓setB_mask, ↓raiseB_mask, ↓setLnk_mask, ↓clearLanes_mask, ↓goDown_mask, ↓mask_ite, ite_self, and_self, hμ]

theorem enterRecover_mask (hμ : μ .regs = true ∧ μ .evt = true ∧ μ .lnk = true) (s : State) :
    (enterRecover s).mask μ = s.mask μ := by
  simp only [enterRecover, ↓incF_mask, ↓raiseB_mask, ↓setLnk_mask, ↓toLnk_mask, ↓clearLanes_mask, ↓mask_ite, ite_self, and_self, hμ]

theorem trainTo_mask (hμ : μ .regs = true ∧ μ .evt = true ∧ μ .lnk = true) (n : Nat) (s : State) :
    (trainTo n s).mask μ = s.mask μ := by
  simp only [trainTo, ↓setLnk_mask, ↓toLnk_mask, ↓mask_ite, ite_self, and_self, hμ]

theorem alignCheck_mask (hμ : μ .regs = true ∧ μ .evt = true ∧ μ .lnk = true) (s : State) :
    (alignCheck s).mask μ = s.mask μ := by
  simp only [alignCheck, ↓setF_mask, ↓setLnk_mask, ↓trainTo_mask, ↓mask_ite, ite_self, and_self, hμ]

theorem lockDone_mask (hμ : μ .regs = true ∧ μ .evt = true ∧ μ .lnk = true) (s : State) :
    (lockDone s).mask μ = s.mask μ := by
  simp only [lockDone, ↓trainTo_mask, ↓mask_ite, ite_self, and_self, hμ]

theorem linkTime_mask (hμ : μ .lnk = true) (ui : Nat) (s : State) :
    (linkTime ui s).mask μ = s.mask μ := by
  simp only [linkTime, ↓setLnk_mask, hμ]

theorem markerIn_mask (hμ : μ .regs = true ∧ μ .evt = true ∧ μ .lnk = true) (l : Nat) (m : Option (BitVec 72)) (skew : Nat) (s : State) :
    (markerIn l m skew s).mask μ = s.mask μ := by
  unfold markerIn
  repeat' (first | (simp (maxDischargeDepth := 6) only [↓setF_mask, ↓setB_mask, ↓setLnk_mask, ↓setLane_mask, ↓enterRecover_mask, ↓trainTo_mask, ↓alignCheck_mask, ↓lockDone_mask, ↓linkTime_mask, ↓mask_ite, ite_self, and_self, hμ]; done) | split | dsimp only)

theorem lockElapsed_mask (hμ : μ .regs = true ∧ μ .evt = true ∧ μ .lnk = true) (s : State) :
    (lockElapsed s).mask μ = s.mask μ := by
  simp only [lockElapsed, ↓lockDone_mask, ↓mask_ite, ite_self, and_self, hμ]

theorem epbxTimeout_mask (hμ : μ .regs = true ∧ μ .evt = true ∧ μ .lnk = true) (s : State) :
    (epbxTimeout s).mask μ = s.mask μ := by
  unfold epbxTimeout
  (repeat' split) <;> simp only [↓setF_mask, ↓toLnk_mask, ↓goDown_mask, ↓trainFailed_mask, and_self, hμ]

theorem ackTo_mask (hμ : μ .lnk = true) (n : Nat) (s : State) :
    (ackTo n s).mask μ = s.mask μ := by
  simp only [ackTo, ↓setLnk_mask, ↓pumpAll_mask, ↓mask_ite, ite_self, hμ]

theorem replay_mask (hμ : μ .regs = true ∧ μ .evt = true ∧ μ .lnk = true) (s : State) :
    (replay s).mask μ = s.mask μ := by
  simp only [replay, ↓incF_mask, ↓setLnk_mask, ↓enterRecover_mask, ↓mask_ite, ite_self, and_self, hμ]

theorem nakIn_mask (hμ : μ .regs = true ∧ μ .evt = true ∧ μ .lnk = true) (n : Nat) (recent : Bool) (s : State) :
    (nakIn n recent s).mask μ = s.mask μ := by
  simp only [nakIn, ↓setLnk_mask, ↓replay_mask, ↓mask_ite, ite_self, and_self, hμ]

theorem replayTimeout_mask (hμ : μ .regs = true ∧ μ .evt = true ∧ μ .lnk = true) (s : State) :
    (replayTimeout s).mask μ = s.mask μ := by
  simp only [replayTimeout, ↓replay_mask, ↓mask_ite, ite_self, and_self, hμ]

theorem rxReject_mask (hμ : μ .regs = true ∧ μ .lnk = true) (s : State) :
    (rxReject s).mask μ = s.mask μ := by
  simp only [rxReject, ↓incF_mask, ↓setLnk_mask, ↓mask_ite, ite_self, hμ]

theorem restartTokens_mask (hμ : μ .lnk = true) (s : State) :
    (restartTokens s).mask μ = s.mask μ := by
  simp only [restartTokens, ↓setLnk_mask, ↓giveBack_mask, ↓grantQueues_mask, ↓mask_ite, ite_self, hμ]

theorem linkReset_mask (hμ : μ .regs = true ∧ μ .evt = true ∧ μ .lnk = true) (prev : Option Nat) (s : State) :
    (linkReset prev s).mask μ = s.mask μ := by
  unfold linkReset
  (repeat' split) <;> simp only [↓setF_mask, ↓addF_mask, ↓incF_mask, ↓raiseB_mask, ↓setLnk_mask, ↓ackTo_mask, and_self, hμ]

theorem configDone_mask (hμ : μ .regs = true ∧ μ .evt = true ∧ μ .lnk = true) (b : Word256) (s : State) :
    (configDone b s).mask μ = s.mask μ := by
  simp only [configDone, ↓setF_mask, ↓incF_mask, ↓raiseB_mask, ↓setLnk_mask, ↓toLnk_mask, ↓pumpAll_mask, ↓ackTo_mask, ↓restartTokens_mask, ↓linkReset_mask, ↓mask_ite, ite_self, and_self, hμ]

theorem configFlit_mask (hμ : μ .regs = true ∧ μ .evt = true ∧ μ .lnk = true) (b : Word256) (s : State) :
    (configFlit b s).mask μ = s.mask μ := by
  simp only [configFlit, ↓mask_ite]
  (repeat' split) <;> simp only [↓setF_mask, ↓setLnk_mask, ↓clearLanes_mask, ↓trainFailed_mask, ↓trainTo_mask, ↓configDone_mask, and_self, hμ]

theorem ctrlIn_mask (hμ : μ .regs = true ∧ μ .evt = true ∧ μ .lnk = true) (b : Word256) (recent : Bool) (s : State) :
    (ctrlIn b recent s).mask μ = s.mask μ := by
  unfold ctrlIn
  (repeat' split) <;> simp only [↓setLnk_mask, ↓goDown_mask, ↓enterRecover_mask, ↓ackTo_mask, ↓nakIn_mask, ↓configFlit_mask, ↓mask_ite, ite_self, and_self, hμ]

theorem rxHead_mask (hμ : μ .lnk = true) (h : Word256) (s : State) :
    (rxHead h s).2.mask μ = s.mask μ := by
  unfold rxHead
  (repeat' split) <;> simp only [↓setLnk_mask, hμ]

theorem rxAccept_mask (hμ : μ .lnk = true) (isHead : Bool) (b : Word256) (s : State) :
    (rxAccept isHead b s).2.mask μ = s.mask μ := by
  simp only [rxAccept]
  (repeat' split) <;> simp only [↓setLnk_mask, ↓rxHead_mask, hμ]

theorem flitIn_mask (hμ : μ .regs = true ∧ μ .evt = true ∧ μ .lnk = true) (lanes : List (BitVec 288)) (s : State) :
    (flitIn lanes s).2.mask μ = s.mask μ := by
  simp only [flitIn]
  (repeat' split) <;> simp only [↓incF_mask, ↓setLnk_mask, ↓linkTime_mask, ↓ackTo_mask, ↓rxReject_mask, ↓ctrlIn_mask, ↓rxAccept_mask, and_self, hμ]

theorem linkDue_mask (hμ : μ .regs = true ∧ μ .evt = true ∧ μ .lnk = true) (s : State) :
    (linkDue s).mask μ = s.mask μ := by
  simp only [linkDue, ↓setLnk_mask, ↓goDown_mask, ↓enterRecover_mask, ↓mask_ite, ite_self, and_self, hμ]

/-! ## Commands -/

theorem execCtrlFlitReceived_mask (hμ : μ .regs = true ∧ μ .evt = true ∧ μ .lnk = true) (body : Word256) (recent : Bool) (s : State) {t : State}
    (ht : execCtrlFlitReceived body recent s = .next t) : t.mask μ = s.mask μ := by
  rw [execCtrlFlitReceived] at ht
  rw [← Host.Outcome.next.inj ht]
  simp only [↓ctrlIn_mask, and_self, hμ]

theorem execReplayTimeout_mask (hμ : μ .regs = true ∧ μ .evt = true ∧ μ .lnk = true) (s : State) {t : State}
    (ht : execReplayTimeout s = .next t) : t.mask μ = s.mask μ := by
  rw [execReplayTimeout] at ht
  rw [← Host.Outcome.next.inj ht]
  simp only [↓replayTimeout_mask, and_self, hμ]

theorem execMarkerReceived_mask (hμ : μ .regs = true ∧ μ .evt = true ∧ μ .lnk = true) (lane : Nat) (marker : Option (BitVec 72)) (skew : Nat) (s : State) {t : State}
    (ht : execMarkerReceived lane marker skew s = .next t) : t.mask μ = s.mask μ := by
  rw [execMarkerReceived] at ht
  rw [← Host.Outcome.next.inj ht]
  simp only [↓markerIn_mask, and_self, hμ]

theorem execEpbxLinkTimeout_mask (hμ : μ .regs = true ∧ μ .evt = true ∧ μ .lnk = true) (s : State) {t : State}
    (ht : execEpbxLinkTimeout s = .next t) : t.mask μ = s.mask μ := by
  rw [execEpbxLinkTimeout] at ht
  rw [← Host.Outcome.next.inj ht]
  simp only [↓epbxTimeout_mask, and_self, hμ]

theorem execLnkLockElapsed_mask (hμ : μ .regs = true ∧ μ .evt = true ∧ μ .lnk = true) (s : State) {t : State}
    (ht : execLnkLockElapsed s = .next t) : t.mask μ = s.mask μ := by
  rw [execLnkLockElapsed] at ht
  rw [← Host.Outcome.next.inj ht]
  simp only [↓lockElapsed_mask, and_self, hμ]

theorem execLnkRetrain_mask (hμ : μ .regs = true ∧ μ .evt = true ∧ μ .lnk = true) (s : State) {t : State}
    (ht : execLnkRetrain s = .next t) : t.mask μ = s.mask μ := by
  rw [execLnkRetrain] at ht
  rw [← Host.Outcome.next.inj ht]
  simp only [↓lockGate_mask, ↓enterRecover_mask, and_self, implies_true, hμ]

theorem execLnkReset_mask (hμ : μ .regs = true ∧ μ .evt = true ∧ μ .lnk = true) (s : State) {t : State}
    (ht : execLnkReset s = .next t) : t.mask μ = s.mask μ := by
  rw [execLnkReset] at ht
  rw [← Host.Outcome.next.inj ht]
  simp only [↓lockGate_mask, ↓goDown_mask, ↓mask_ite, ite_self, and_self, implies_true, hμ]

theorem execTokenReturn_mask (hμ : μ .lnk = true) (s : State) {t : State}
    (ht : execTokenReturn s = .next t) : t.mask μ = s.mask μ := by
  rw [execTokenReturn] at ht
  rw [← Host.Outcome.next.inj ht]
  simp only [↓tokenReturn_mask, hμ]

end Sys2Proof.Machine
end

