-- ==== Sys2Proof/Laws/SecurityMask.lean ====
section
/-!
SUPPORT. What each function of Machine/Security.lean touches at most.
-/
namespace Sys2Proof.Machine

variable {μ : Part → Bool}

theorem setSec_mask (h : μ .sec = true ∧ μ .fuses = true) (x : SecSt) (s : State) : (setSec x s).mask μ = s.mask μ := mask_sec h s x

theorem setSec_maskRest (h : μ .sec = true) (x : SecSt) (s : State) (hx : x.fuses = s.sec.fuses) : (setSec x s).mask μ = s.mask μ :=
  mask_secRest h s x hx

theorem putWords_mask (hμ : μ .regs = true) (f : Nat → Fld) (n : Nat) (bytes : List Byte) (s : State) :
    (putWords f n bytes s).mask μ = s.mask μ := by
  simp only [putWords, ↓setF_mask, ↓mask_forEach, implies_true, hμ]

theorem drawBytes_mask (hμ : μ .freeCount = true) (n : Nat) (s : State) :
    (drawBytes n s).2.mask μ = s.mask μ := by
  simp only [drawBytes, ↓takeFree_mask, hμ]

theorem readFuses_mask (hμ : μ .regs = true) (s : State) :
    (readFuses s).mask μ = s.mask μ := by
  simp only [readFuses, ↓setF_mask, ↓setB_mask, ↓putWords_mask, ↓mask_ite, ite_self, hμ]

theorem toBoot_mask (hμ : μ .regs = true) (n : Nat) (s : State) :
    (toBoot n s).mask μ = s.mask μ := by
  simp only [toBoot, ↓setF_mask, hμ]

theorem clearRegion_mask (hμ : μ .regs = true ∧ μ .sec = true) (s : State) :
    (clearRegion s).mask μ = s.mask μ := by
  simp only [clearRegion, ↓setF_mask, ↓setSec_maskRest, hμ]

theorem bootHalt_mask (hμ : μ .regs = true ∧ μ .evt = true ∧ μ .core = true) (s : State) :
    (bootHalt s).mask μ = s.mask μ := by
  simp only [bootHalt, ↓haltCores_mask, ↓toBoot_mask, and_self, hμ]

theorem drawMissing_mask (hμ : μ .regs = true ∧ μ .sec = true ∧ μ .freeCount = true) (s : State) :
    (drawMissing s).mask μ = s.mask μ := by
  simp only [drawMissing, ↓setF_mask, ↓setSec_maskRest, ↓putWords_mask, ↓drawBytes_mask, ↓mask_ite, ite_self, hμ]

theorem entropyFail_mask (hμ : μ .regs = true ∧ μ .evt = true) (rct : Bool) (apt : Bool) (s : State) :
    (entropyFail rct apt s).mask μ = s.mask μ := by
  simp only [entropyFail, ↓setF_mask, ↓incF_mask, ↓raiseB_mask, ↓mask_ite, ite_self, and_self, hμ]

theorem entropyTest_mask (hμ : μ .regs = true ∧ μ .evt = true ∧ μ .sec = true ∧ μ .freeCount = true) (raw : List Bool) (s : State) :
    (entropyTest raw s).mask μ = s.mask μ := by
  simp only [entropyTest, ↓setF_mask, ↓drawMissing_mask, ↓entropyFail_mask, ↓mask_ite, ite_self, and_self, hμ]

theorem entropyService_mask (hμ : μ .regs = true ∧ μ .evt = true) (before : List Bool) (window : List Bool) (s : State) :
    (entropyService before window s).mask μ = s.mask μ := by
  simp only [entropyService, ↓entropyFail_mask, ↓mask_ite, ite_self, and_self, hμ]

theorem imageVerify_mask (hμ : μ .regs = true ∧ μ .evt = true ∧ μ .sec = true) (s : State) :
    (imageVerify s).mask μ = s.mask μ := by
  simp only [imageVerify, ↓setF_mask, ↓incF_mask, ↓notify_mask, ↓raiseB_mask, ↓setSec_maskRest, ↓putWords_mask, ↓toBoot_mask, ↓clearRegion_mask, ↓mask_ite, ite_self, and_self, hμ]

theorem apertureWrite_mask (hμ : μ .regs = true ∧ μ .evt = true ∧ μ .sec = true) (k : Nat) (v : Nat) (s : State) :
    (apertureWrite k v s).mask μ = s.mask μ := by
  simp only [apertureWrite, ↓setF_mask, ↓notify_mask, ↓setSec_maskRest, ↓mask_ite, ite_self, and_self, hμ]

theorem bootGo_mask (hμ : μ .regs = true) (s : State) :
    (bootGo s).mask μ = s.mask μ := by
  simp only [bootGo, ↓toBoot_mask, ↓mask_ite, ite_self, hμ]

theorem rolesStarted_mask (hμ : μ .regs = true ∧ μ .evt = true ∧ μ .core = true ∧ μ .lnk = true ∧ μ .sec = true ∧ μ .freeCount = true) (ok : Bool) (s : State) :
    (rolesStarted ok s).mask μ = s.mask μ := by
  simp only [rolesStarted, ↓queuesStart_mask, ↓toBoot_mask, ↓bootHalt_mask, ↓drawMissing_mask, ↓mask_ite, and_self, hμ]
  (repeat' split) <;> simp only [↓setF_mask, ↓toManager_mask, ↓toSafetyBuf_mask, ↓mask_evt, ↓mask_foldl, and_self, implies_true, hμ]

theorem newChallenge_mask (hμ : μ .regs = true ∧ μ .sec = true ∧ μ .freeCount = true) (s : State) :
    (newChallenge s).mask μ = s.mask μ := by
  simp only [newChallenge, ↓setSec_maskRest, ↓putWords_mask, ↓drawMissing_mask, and_self, hμ]

theorem programLc_mask (hμ : μ .regs = true ∧ μ .sec = true ∧ μ .fuses = true) (bit : Nat) (kill : Bool) (s : State) :
    (programLc bit kill s).mask μ = s.mask μ := by
  simp only [programLc, ↓setF_mask, ↓setSec_mask, and_self, hμ]

theorem secuRequest_mask (hμ : μ .regs = true ∧ μ .evt = true ∧ μ .core = true) (opcode : Nat) (args : Nat) (act : MbReq → State → Nat × State) (s : State) (hact : ∀ z0 s, (act z0 s).2.mask μ = s.mask μ) :
    (secuRequest opcode args act s).mask μ = s.mask μ := by
  unfold secuRequest
  (repeat' split) <;> simp only [↓mailboxDone_mask, and_self, hμ, hact]

theorem tokenAdvance_mask (hμ : μ .regs = true ∧ μ .evt = true ∧ μ .sec = true ∧ μ .fuses = true ∧ μ .freeCount = true) (to_ : Nat) (fromOk : Nat → Bool) (r : MbReq) (s : State) :
    (tokenAdvance to_ fromOk r s).2.mask μ = s.mask μ := by
  simp only [tokenAdvance]
  (repeat' split) <;> simp only [↓raiseB_mask, ↓newChallenge_mask, ↓programLc_mask, and_self, hμ]

theorem deployAdvance_mask (hμ : μ .regs = true ∧ μ .sec = true ∧ μ .fuses = true) (x0 : MbReq) (s : State) :
    (deployAdvance x0 s).2.mask μ = s.mask μ := by
  unfold deployAdvance
  (repeat' split) <;> simp only [↓programLc_mask, and_self, hμ]

theorem oemProgram_mask (hμ : μ .regs = true ∧ μ .sec = true ∧ μ .fuses = true) (r : MbReq) (s : State) :
    (oemProgram r s).2.mask μ = s.mask μ := by
  unfold oemProgram
  (repeat' split) <;> simp only [↓setB_mask, ↓setSec_mask, and_self, hμ]

/-! ## Commands -/

theorem execImgApertureWrite_mask (hμ : μ .regs = true ∧ μ .evt = true ∧ μ .sec = true) (index : Nat) (value : Nat) (s : State) {t : State}
    (ht : execImgApertureWrite index value s = .next t) : t.mask μ = s.mask μ := by
  rw [execImgApertureWrite] at ht
  rw [← Host.Outcome.next.inj ht]
  simp only [↓lockGate_mask, ↓apertureWrite_mask, and_self, implies_true, hμ]

theorem execBootGo_mask (hμ : μ .regs = true) (s : State) {t : State}
    (ht : execBootGo s = .next t) : t.mask μ = s.mask μ := by
  rw [execBootGo] at ht
  rw [← Host.Outcome.next.inj ht]
  simp only [↓lockGate_mask, ↓bootGo_mask, implies_true, hμ]

theorem execBootClear_mask (hμ : μ .regs = true ∧ μ .sec = true) (s : State) {t : State}
    (ht : execBootClear s = .next t) : t.mask μ = s.mask μ := by
  rw [execBootClear] at ht
  rw [← Host.Outcome.next.inj ht]
  simp only [↓lockGate_mask, ↓clearRegion_mask, and_self, implies_true, hμ]

theorem execImageVerifyDone_mask (hμ : μ .regs = true ∧ μ .evt = true ∧ μ .sec = true) (s : State) {t : State}
    (ht : execImageVerifyDone s = .next t) : t.mask μ = s.mask μ := by
  rw [execImageVerifyDone] at ht
  rw [← Host.Outcome.next.inj ht]
  simp only [↓imageVerify_mask, and_self, hμ]

theorem execRoleStartDone_mask (hμ : μ .regs = true ∧ μ .evt = true ∧ μ .core = true ∧ μ .lnk = true ∧ μ .sec = true ∧ μ .freeCount = true) (ok : Bool) (s : State) {t : State}
    (ht : execRoleStartDone ok s = .next t) : t.mask μ = s.mask μ := by
  rw [execRoleStartDone] at ht
  rw [← Host.Outcome.next.inj ht]
  simp only [↓rolesStarted_mask, and_self, hμ]

theorem execLcAdvanceOemOpen_mask (hμ : μ .regs = true ∧ μ .evt = true ∧ μ .core = true ∧ μ .sec = true ∧ μ .fuses = true ∧ μ .freeCount = true) (s : State) {t : State}
    (ht : execLcAdvanceOemOpen s = .next t) : t.mask μ = s.mask μ := by
  rw [execLcAdvanceOemOpen] at ht
  rw [← Host.Outcome.next.inj ht]
  simp only [↓secuRequest_mask, ↓tokenAdvance_mask, and_self, implies_true, hμ]

theorem execLcAdvanceDeployed_mask (hμ : μ .regs = true ∧ μ .evt = true ∧ μ .core = true ∧ μ .sec = true ∧ μ .fuses = true) (s : State) {t : State}
    (ht : execLcAdvanceDeployed s = .next t) : t.mask μ = s.mask μ := by
  rw [execLcAdvanceDeployed] at ht
  rw [← Host.Outcome.next.inj ht]
  simp only [↓secuRequest_mask, ↓deployAdvance_mask, and_self, implies_true, hμ]

theorem execLcAdvanceRma_mask (hμ : μ .regs = true ∧ μ .evt = true ∧ μ .core = true ∧ μ .sec = true ∧ μ .fuses = true ∧ μ .freeCount = true) (s : State) {t : State}
    (ht : execLcAdvanceRma s = .next t) : t.mask μ = s.mask μ := by
  rw [execLcAdvanceRma] at ht
  rw [← Host.Outcome.next.inj ht]
  simp only [↓secuRequest_mask, ↓tokenAdvance_mask, and_self, implies_true, hμ]

theorem execOemHashProgram_mask (hμ : μ .regs = true ∧ μ .evt = true ∧ μ .core = true ∧ μ .sec = true ∧ μ .fuses = true) (s : State) {t : State}
    (ht : execOemHashProgram s = .next t) : t.mask μ = s.mask μ := by
  rw [execOemHashProgram] at ht
  rw [← Host.Outcome.next.inj ht]
  simp only [↓secuRequest_mask, ↓oemProgram_mask, and_self, implies_true, hμ]

theorem execEntropyFail_mask (hμ : μ .regs = true ∧ μ .evt = true) (before : List Bool) (window : List Bool) (s : State) {t : State}
    (ht : execEntropyFail before window s = .next t) : t.mask μ = s.mask μ := by
  rw [execEntropyFail] at ht
  rw [← Host.Outcome.next.inj ht]
  simp only [↓entropyService_mask, and_self, hμ]

theorem execEntRetest_mask (hμ : μ .regs = true ∧ μ .evt = true ∧ μ .sec = true ∧ μ .freeCount = true) (raw : List Bool) (s : State) {t : State}
    (ht : execEntRetest raw s = .next t) : t.mask μ = s.mask μ := by
  rw [execEntRetest] at ht
  rw [← Host.Outcome.next.inj ht]
  simp only [↓lockGate_mask, ↓entropyTest_mask, and_self, implies_true, hμ]

end Sys2Proof.Machine
end

