-- ==== Sys2Proof/Laws/CipherMask.lean ====
section
/-!
SUPPORT. What each function of Machine/Cipher.lean touches at most.
-/
namespace Sys2Proof.Machine

variable {μ : Part → Bool}

theorem setCiph_mask (hμ : μ .ciph = true) (c : CiphSt) (s : State) :
    (setCiph c s).mask μ = s.mask μ := by
  simp only [setCiph, ↓mask_ciph, hμ]

theorem pairCheck_mask (hμ : μ .regs = true ∧ μ .evt = true) (before : Bool) (s : State) :
    (pairCheck before s).mask μ = s.mask μ := by
  simp only [pairCheck, ↓raiseC_mask, ↓mask_ite, ite_self, and_self, hμ]

theorem katFail_mask (hμ : μ .regs = true ∧ μ .evt = true) (lane : Nat) (vectors : Nat) (s : State) :
    (katFail lane vectors s).mask μ = s.mask μ := by
  simp only [katFail, ↓setF_mask, ↓addF_mask, ↓raiseC_mask, ↓pairCheck_mask, and_self, hμ]

theorem readString_mask (hμ : μ .regs = true ∧ μ .evt = true ∧ μ .que = true ∧ μ .mtr = true ∧ μ .ten = true ∧ μ .vol = true ∧ μ .fmt = true ∧ μ .band = true ∧ μ .cal = true ∧ μ .rch = true ∧ μ .cmp = true ∧ μ .ciph = true ∧ μ .mot = true ∧ μ .mem = true ∧ μ .cells = true ∧ μ .pool = true) (pages : List Nat) (ofs : Nat) (len : Nat) (s : State) :
    (readString pages ofs len s).2.mask μ = s.mask μ := by
  simp only [readString, ↓demandRead_mask, ↓mask_foldl_snd, and_self, implies_true, hμ]

theorem writeString_mask (hμ : μ .regs = true ∧ μ .evt = true ∧ μ .que = true ∧ μ .mtr = true ∧ μ .ten = true ∧ μ .vol = true ∧ μ .fmt = true ∧ μ .band = true ∧ μ .cal = true ∧ μ .rch = true ∧ μ .cmp = true ∧ μ .ciph = true ∧ μ .mot = true ∧ μ .mem = true ∧ μ .cells = true ∧ μ .pool = true) (pages : List Nat) (ofs : Nat) (bytes : List Byte) (account : Nat) (s : State) :
    (writeString pages ofs bytes account s).mask μ = s.mask μ := by
  simp only [writeString, ↓demandWrite_mask, ↓mask_foldl, and_self, implies_true, hμ]

theorem readList_mask (hμ : μ .regs = true ∧ μ .evt = true ∧ μ .que = true ∧ μ .mtr = true ∧ μ .ten = true ∧ μ .vol = true ∧ μ .fmt = true ∧ μ .band = true ∧ μ .cal = true ∧ μ .rch = true ∧ μ .cmp = true ∧ μ .ciph = true ∧ μ .mot = true ∧ μ .mem = true ∧ μ .cells = true ∧ μ .pool = true) (list : Nat) (count : Nat) (account : Nat) (s : State) :
    (readList list count account s).2.mask μ = s.mask μ := by
  simp only [readList]
  (repeat' split) <;> simp only [↓readString_mask, and_self, hμ]

theorem safeEnd_mask (hμ : μ .regs = true ∧ μ .evt = true ∧ μ .que = true) (w : CipherWork) (s : State) :
    (safeEnd w s).mask μ = s.mask μ := by
  unfold safeEnd
  (repeat' split) <;> simp only [↓finishSide_mask, and_self, hμ]

theorem beginRun_mask (hμ : μ .ciph = true) (r : CipherRun) (host : Bool) (s : State) :
    (beginRun r host s).mask μ = s.mask μ := by
  simp only [beginRun, ↓setCiph_mask, hμ]

theorem startHost_mask (hμ : μ .ciph = true) (s : State) :
    ∀ t, startHost s = some t → t.mask μ = s.mask μ := by
  intro t ht
  unfold startHost at ht
  (repeat' split at ht) <;> first
    | (cases ht; done)
    | (simp only [Option.some.injEq] at ht; rw [← ht]; simp only [↓setCiph_mask, ↓beginRun_mask, hμ]; done)
    | (simp only [Option.some.injEq] at ht; rw [← ht]; split <;> simp only [↓setCiph_mask, ↓beginRun_mask, ↓mask_ite, ite_self, ↓mask_foldl, ↓mask_foldl_snd, ↓mask_forEach, and_self, implies_true, hμ])

theorem startFw_mask (hμ : μ .ciph = true) (s : State) :
    ∀ t, startFw s = some t → t.mask μ = s.mask μ := by
  intro t ht
  unfold startFw at ht
  (repeat' split at ht) <;> first
    | (cases ht; done)
    | (simp only [Option.some.injEq] at ht; rw [← ht]; simp only [↓setCiph_mask, ↓beginRun_mask, hμ]; done)
    | (simp only [Option.some.injEq] at ht; rw [← ht]; split <;> simp only [↓setCiph_mask, ↓beginRun_mask, ↓mask_ite, ite_self, ↓mask_foldl, ↓mask_foldl_snd, ↓mask_forEach, and_self, implies_true, hμ])

theorem startRd_mask (hμ : μ .regs = true ∧ μ .que = true ∧ μ .vol = true ∧ μ .ciph = true) (s : State) :
    ∀ t, startRd s = some t → t.mask μ = s.mask μ := by
  intro t ht
  unfold startRd at ht
  dsimp only at ht
  split at ht
  · split at ht
    · cases ht; simp only [↓beginCut_mask, ↓setCiph_mask, ↓beginRun_mask, ↓mask_ite, ite_self, and_self, hμ]
    · cases ht; simp only [↓setCiph_mask, ↓beginRun_mask, hμ]
  · cases ht

theorem startWr_mask (hμ : μ .ciph = true) (s : State) :
    ∀ t, startWr s = some t → t.mask μ = s.mask μ := by
  intro t ht
  unfold startWr at ht
  dsimp only at ht
  split at ht
  · split at ht
    · cases ht; simp only [↓setCiph_mask, ↓beginRun_mask, hμ]
    · cases ht
  · split at ht
    · cases ht; simp only [↓setCiph_mask, ↓beginRun_mask, hμ]
    · cases ht
  · cases ht

theorem purgeRd_mask (hμ : μ .ciph = true) (s : State) :
    (purgeRd s).mask μ = s.mask μ := by
  simp only [purgeRd, ↓setCiph_mask, hμ]

theorem nextStart_mask (hμ : μ .regs = true ∧ μ .que = true ∧ μ .vol = true ∧ μ .ciph = true) (s : State) :
    ∀ t, nextStart s = some t → t.mask μ = s.mask μ := by
  intro t ht
  simp only [nextStart, Option.or_eq_some_iff] at ht
  rcases ht with h | ⟨-, h | ⟨-, h | ⟨-, h | ⟨-, h⟩⟩⟩⟩
  · split at h
    · exact startHost_mask (by simp only [hμ]) s t h
    · cases h
  · exact startFw_mask (by simp only [hμ]) s t h
  · exact startRd_mask (by simp only [hμ, and_self]) s t h
  · exact startWr_mask (by simp only [hμ]) s t h
  · exact startHost_mask (by simp only [hμ]) s t h

theorem laneStart_mask (hμ : μ .regs = true ∧ μ .evt = true ∧ μ .que = true ∧ μ .vol = true ∧ μ .fmt = true ∧ μ .ciph = true) (s : State) :
    (laneStart s).mask μ = s.mask μ := by
  have h0 : (purgeRd (feedCipher s)).mask μ = s.mask μ := by simp only [↓feedCipher_mask, ↓purgeRd_mask, and_self, hμ]
  unfold laneStart
  dsimp only
  generalize purgeRd (feedCipher s) = t at h0 ⊢
  split
  · simp only [↓setCiph_mask, ↓safeEnd_mask, ↓mask_foldl, and_self, implies_true, hμ, h0]
  · split
    · exact h0
    · cases hn : nextStart t with
      | none => exact h0
      | some u => exact (nextStart_mask (by simp only [hμ, and_self]) t u hn).trans h0

theorem pairMismatch_mask (hμ : μ .regs = true ∧ μ .evt = true ∧ μ .que = true ∧ μ .mtr = true ∧ μ .ten = true ∧ μ .vol = true ∧ μ .fmt = true ∧ μ .band = true ∧ μ .cal = true ∧ μ .rch = true ∧ μ .ciph = true ∧ μ .mot = true) (r : CipherRun) (injected : Bool) (s : State) :
    (pairMismatch r injected s).mask μ = s.mask μ := by
  simp only [pairMismatch, ↓setF_mask, ↓incF_mask, ↓raiseC_mask, ↓enterS3_mask, ↓setCiph_mask, ↓mask_ite, ite_self, and_self, hμ]

theorem encDone_mask (hμ : μ .regs = true ∧ μ .fmt = true) (n : Nat) (key : List Byte) (s : State) :
    (encDone n key s).mask μ = s.mask μ := by
  unfold encDone
  (repeat' split) <;> simp only [↓add64_mask, ↓onGran_mask, hμ]

theorem decDone_mask (hμ : μ .regs = true ∧ μ .evt = true ∧ μ .que = true ∧ μ .mtr = true ∧ μ .ten = true ∧ μ .vol = true ∧ μ .ciph = true) (n : Nat) (upset : Bool) (s : State) :
    (decDone n upset s).mask μ = s.mask μ := by
  unfold decDone
  (repeat' split) <;> simp only [↓add64_mask, ↓granuleVerdict_mask, ↓readWork_mask, and_self, hμ]

theorem hostDone_mask (hμ : μ .regs = true ∧ μ .evt = true ∧ μ .que = true ∧ μ .mtr = true ∧ μ .ten = true ∧ μ .vol = true ∧ μ .fmt = true ∧ μ .band = true ∧ μ .cal = true ∧ μ .rch = true ∧ μ .cmp = true ∧ μ .ciph = true ∧ μ .mot = true ∧ μ .mem = true ∧ μ .cells = true ∧ μ .pool = true) (q : Nat) (key : List Byte) (upset : Bool) (s : State) :
    (hostDone q key upset s).mask μ = s.mask μ := by
  simp only [hostDone]
  (repeat' split) <;> simp only [↓incF_mask, ↓add64_mask, ↓finishSide_mask, ↓readString_mask, ↓writeString_mask, and_self, hμ]

theorem requestDone_mask (hμ : μ .regs = true ∧ μ .evt = true ∧ μ .que = true ∧ μ .mtr = true ∧ μ .ten = true ∧ μ .vol = true ∧ μ .fmt = true ∧ μ .band = true ∧ μ .cal = true ∧ μ .rch = true ∧ μ .cmp = true ∧ μ .ciph = true ∧ μ .mot = true ∧ μ .mem = true ∧ μ .cells = true ∧ μ .pool = true) (lane : Nat) (upset : Bool) (s : State) :
    (requestDone lane upset s).mask μ = s.mask μ := by
  unfold requestDone
  (repeat' split) <;> simp only [↓setCiph_mask, ↓pairMismatch_mask, ↓encDone_mask, ↓decDone_mask, ↓hostDone_mask, and_self, hμ]

theorem setSlot_mask (hμ : μ .keys = true) (n : Nat) (k : KeySlot) (s : State) :
    (setSlot n k s).mask μ = s.mask μ := by
  simp only [setSlot, ↓setKeys_mask, hμ]

theorem unwrapDone_mask (hμ : μ .regs = true ∧ μ .evt = true ∧ μ .que = true ∧ μ .keys = true ∧ μ .ciph = true) (q : Nat) (upset : Bool) (s : State) :
    (unwrapDone q upset s).mask μ = s.mask μ := by
  simp only [unwrapDone]
  (repeat' split) <;> simp only [↓incF_mask, ↓add64_mask, ↓raiseC_mask, ↓finishSide_mask, ↓setCiph_mask, ↓setSlot_mask, and_self, hμ]

theorem wakeSide_mask (hμ : μ .regs = true ∧ μ .evt = true ∧ μ .que = true) (op : Nat) (off : Nat) (size : Nat) (slot : Nat) (q : Nat) (s : State) :
    (wakeSide op off size slot q s).mask μ = s.mask μ := by
  unfold wakeSide
  (repeat' split) <;> simp only [↓finishSide_mask, and_self, hμ]

theorem wakeSides_mask (hμ : μ .regs = true ∧ μ .evt = true ∧ μ .que = true) (op : Nat) (off : Nat) (size : Nat) (slot : Nat) (s : State) :
    (wakeSides op off size slot s).mask μ = s.mask μ := by
  simp only [wakeSides, ↓wakeSide_mask, ↓mask_forEach, and_self, implies_true, hμ]

theorem eraseDone_mask (hμ : μ .regs = true ∧ μ .evt = true ∧ μ .que = true ∧ μ .keys = true) (n : Nat) (s : State) :
    (eraseDone n s).mask μ = s.mask μ := by
  simp only [eraseDone, ↓setKeys_mask, ↓wakeSides_mask, ↓mask_ite, ite_self, and_self, hμ]

theorem kekEraseDone_mask (hμ : μ .regs = true ∧ μ .evt = true ∧ μ .que = true ∧ μ .keys = true) (k : Nat) (s : State) :
    (kekEraseDone k s).mask μ = s.mask μ := by
  simp only [kekEraseDone, ↓setKeys_mask, ↓wakeSides_mask, ↓mask_ite, ite_self, and_self, hμ]

theorem pairInject_mask (hμ : μ .regs = true ∧ μ .ciph = true) (s : State) :
    (pairInject s).mask μ = s.mask μ := by
  simp only [pairInject, ↓lockGate_mask, ↓setCiph_mask, implies_true, hμ]

/-! ## Commands -/

theorem execCipherLaneStart_mask (hμ : μ .regs = true ∧ μ .evt = true ∧ μ .que = true ∧ μ .vol = true ∧ μ .fmt = true ∧ μ .ciph = true) (s : State) {t : State}
    (ht : execCipherLaneStart s = .next t) : t.mask μ = s.mask μ := by
  rw [execCipherLaneStart] at ht
  rw [← Host.Outcome.next.inj ht]
  simp only [↓laneStart_mask, and_self, hμ]

theorem execCipherRequestDone_mask (hμ : μ .regs = true ∧ μ .evt = true ∧ μ .que = true ∧ μ .mtr = true ∧ μ .ten = true ∧ μ .vol = true ∧ μ .fmt = true ∧ μ .band = true ∧ μ .cal = true ∧ μ .rch = true ∧ μ .cmp = true ∧ μ .ciph = true ∧ μ .mot = true ∧ μ .mem = true ∧ μ .cells = true ∧ μ .pool = true) (lane : Nat) (upset : Bool) (s : State) {t : State}
    (ht : execCipherRequestDone lane upset s = .next t) : t.mask μ = s.mask μ := by
  rw [execCipherRequestDone] at ht
  rw [← Host.Outcome.next.inj ht]
  simp only [↓requestDone_mask, and_self, hμ]

theorem execPairInject_mask (hμ : μ .regs = true ∧ μ .ciph = true) (s : State) {t : State}
    (ht : execPairInject s = .next t) : t.mask μ = s.mask μ := by
  rw [execPairInject] at ht
  rw [← Host.Outcome.next.inj ht]
  simp only [↓pairInject_mask, and_self, hμ]

theorem execKeyEraseComplete_mask (hμ : μ .regs = true ∧ μ .evt = true ∧ μ .que = true ∧ μ .keys = true) (slot : Nat) (s : State) {t : State}
    (ht : execKeyEraseComplete slot s = .next t) : t.mask μ = s.mask μ := by
  rw [execKeyEraseComplete] at ht
  rw [← Host.Outcome.next.inj ht]
  simp only [↓eraseDone_mask, and_self, hμ]

theorem execKekEraseComplete_mask (hμ : μ .regs = true ∧ μ .evt = true ∧ μ .que = true ∧ μ .keys = true) (slot : Nat) (s : State) {t : State}
    (ht : execKekEraseComplete slot s = .next t) : t.mask μ = s.mask μ := by
  rw [execKekEraseComplete] at ht
  rw [← Host.Outcome.next.inj ht]
  simp only [↓kekEraseDone_mask, and_self, hμ]

theorem execKeyImportUnwrapDone_mask (hμ : μ .regs = true ∧ μ .evt = true ∧ μ .que = true ∧ μ .keys = true ∧ μ .ciph = true) (queue : Nat) (upset : Bool) (s : State) {t : State}
    (ht : execKeyImportUnwrapDone queue upset s = .next t) : t.mask μ = s.mask μ := by
  rw [execKeyImportUnwrapDone] at ht
  rw [← Host.Outcome.next.inj ht]
  simp only [↓unwrapDone_mask, and_self, hμ]

end Sys2Proof.Machine
end

