-- ==== Sys2Proof/Laws/CompileMask.lean ====
section
/-!
SUPPORT. What each function of Machine/Compile.lean touches at most.
-/
namespace Sys2Proof.Machine

variable {μ : Part → Bool}

theorem loadBoard_mask (hμ : μ .regs = true ∧ μ .evt = true ∧ μ .band = true) (b : Nat) (dsn : Nat) (origin : Nat) (pass : Nat) (read : Bool) (squares : List Square) (ext : Tbl Word) (s : State) :
    (loadBoard b dsn origin pass read squares ext s).mask μ = s.mask μ := by
  simp only [loadBoard, ↓setF_mask, ↓setB_mask, ↓setBand_mask, ↓armBuffer_mask, ↓mask_ite, ite_self, and_self, hμ]

theorem takeBack_mask (hμ : μ .regs = true ∧ μ .evt = true ∧ μ .que = true ∧ μ .mtr = true ∧ μ .ten = true ∧ μ .vol = true ∧ μ .fmt = true ∧ μ .band = true) (n : Nat) (write : Bool) (old : FmtSt) (s : State) :
    (takeBack n write old s).mask μ = s.mask μ := by
  simp (maxDischargeDepth := 6) only [takeBack, ↓raise_mask, ↓setFmt_mask, ↓failExec_mask, ↓endVolume_mask, ↓freeBuf_mask, ↓mask_ite, ite_self, ↓mask_forEach, and_self, implies_true, hμ]

theorem compileWrite_mask (hμ : μ .regs = true ∧ μ .evt = true ∧ μ .que = true ∧ μ .mtr = true ∧ μ .ten = true ∧ μ .vol = true ∧ μ .fmt = true ∧ μ .band = true ∧ μ .enc = true ∧ μ .cal = true ∧ μ .rch = true ∧ μ .mot = true) (d : DataSet) (s : State) :
    (compileWrite d s).mask μ = s.mask μ := by
  simp only [compileWrite, ↓addF_mask, ↓setFmt_mask, ↓goBack_mask, ↓onSet_mask, ↓abandonRow_mask, ↓settleCheck_mask, ↓loadBoard_mask, ↓takeBack_mask, ↓mask_ite, ite_self, ↓mask_foldl, and_self, implies_true, hμ]

theorem compileRead_mask (hμ : μ .regs = true ∧ μ .evt = true ∧ μ .que = true ∧ μ .mtr = true ∧ μ .ten = true ∧ μ .vol = true ∧ μ .fmt = true ∧ μ .band = true ∧ μ .rch = true ∧ μ .mot = true) (p : ReadPlan) (s : State) :
    (compileRead p s).mask μ = s.mask μ := by
  simp only [compileRead, ↓goBack_mask, ↓setRch_mask, ↓loadBoard_mask, ↓takeBack_mask, ↓mask_ite, ite_self, ↓mask_foldl, and_self, implies_true, hμ]

theorem dropStale_mask (hμ : μ .regs = true ∧ μ .evt = true ∧ μ .band = true) (s : State) :
    (dropStale s).mask μ = s.mask μ := by
  simp (maxDischargeDepth := 6) only [dropStale, ↓freeBuf_mask, ↓mask_ite, ite_self, ↓mask_forEach, and_self, implies_true, hμ]

theorem boardCompile_mask (hμ : μ .regs = true ∧ μ .evt = true ∧ μ .que = true ∧ μ .mtr = true ∧ μ .ten = true ∧ μ .vol = true ∧ μ .fmt = true ∧ μ .band = true ∧ μ .enc = true ∧ μ .cal = true ∧ μ .rch = true ∧ μ .mot = true) (plan : Option ReadPlan) (s : State) :
    (boardCompile plan s).mask μ = s.mask μ := by
  unfold boardCompile
  repeat' (first | (simp (maxDischargeDepth := 6) only [↓compileWrite_mask, ↓compileRead_mask, ↓dropStale_mask, ↓mask_ite, ite_self, and_self, hμ]; done) | split | dsimp only)

/-! ## Commands -/

theorem execBoardCompile_mask (hμ : μ .regs = true ∧ μ .evt = true ∧ μ .que = true ∧ μ .mtr = true ∧ μ .ten = true ∧ μ .vol = true ∧ μ .fmt = true ∧ μ .band = true ∧ μ .enc = true ∧ μ .cal = true ∧ μ .rch = true ∧ μ .mot = true) (plan : Option ReadPlan) (s : State) {t : State}
    (ht : execBoardCompile plan s = .next t) : t.mask μ = s.mask μ := by
  rw [execBoardCompile] at ht
  rw [← Host.Outcome.next.inj ht]
  simp only [↓boardCompile_mask, and_self, hμ]

end Sys2Proof.Machine
end

