-- ==== Sys2Proof/Laws/QueueMask.lean ====
section
/-!
SUPPORT. What each function of Machine/Queue.lean touches at most.
-/
namespace Sys2Proof.Machine

variable {μ : Part → Bool}

theorem streamCheck_after_mask (e : QEntry) (d : List Byte) (op : Nat) (s : State) : (streamCheck.after e d op s).2.2.mask μ = s.mask μ := by
  unfold streamCheck.after
  dsimp only
  (repeat' split) <;> rfl

theorem streamCheck_mask (hμ : μ .que = true) (e : QEntry) (s : State) :
    (streamCheck e s).2.2.mask μ = s.mask μ := by
  unfold streamCheck
  dsimp only
  (repeat' split) <;> simp only [↓streamCheck_after_mask, ↓setQue_mask, hμ]

theorem beginStream_mask (hμ : μ .regs = true ∧ μ .evt = true ∧ μ .que = true ∧ μ .mtr = true ∧ μ .ten = true ∧ μ .vol = true ∧ μ .fmt = true ∧ μ .cmp = true ∧ μ .lnk = true) (s : State) :
    (beginStream s).mask μ = s.mask μ := by
  unfold beginStream
  (repeat' split) <;> simp only [↓setQue_mask, ↓countCommand_mask, ↓endExec_mask, ↓closeGranule_mask, ↓giveBack_mask, ↓streamCheck_mask, ↓mask_ite, ite_self, and_self, hμ]

theorem drainStream_mask (hμ : μ .regs = true ∧ μ .evt = true ∧ μ .que = true ∧ μ .mtr = true ∧ μ .ten = true ∧ μ .vol = true ∧ μ .fmt = true ∧ μ .cmp = true ∧ μ .lnk = true) (y0 : Nat) (s : State) :
    (drainStream y0 s).mask μ = s.mask μ := by
  induction y0 generalizing s with
  | zero => rfl
  | succ n ih =>
    unfold drainStream
    repeat' (first | (simp only [↓beginStream_mask, ↓mask_ite, ite_self, and_self, hμ, ih]; done) | split | dsimp only)

theorem drainStray_mask (hμ : μ .regs = true ∧ μ .evt = true ∧ μ .que = true ∧ μ .mtr = true ∧ μ .ten = true ∧ μ .vol = true ∧ μ .fmt = true ∧ μ .cmp = true ∧ μ .lnk = true) (s : State) :
    (drainStray s).mask μ = s.mask μ := by
  simp only [drainStray, ↓drainStream_mask, and_self, hμ]

theorem streamRow_mask (hμ : μ .regs = true ∧ μ .evt = true ∧ μ .que = true ∧ μ .mtr = true ∧ μ .ten = true ∧ μ .vol = true ∧ μ .fmt = true ∧ μ .cmp = true ∧ μ .lnk = true) (op : Nat) (work : ExecSt → State → State) (s : State) (hwork : ∀ z0 s, (work z0 s).mask μ = s.mask μ) :
    (streamRow op work s).mask μ = s.mask μ := by
  simp only [streamRow]
  (repeat' split) <;> simp only [↓tryFinish_mask, ↓beginStream_mask, ↓drainStray_mask, and_self, hμ, hwork]

theorem toPhase_mask (hμ : μ .que = true) (p : Phase) (s : State) :
    (toPhase p s).mask μ = s.mask μ := by
  simp only [toPhase, ↓onExec_mask, hμ]

theorem endWith_mask (hμ : μ .regs = true ∧ μ .evt = true ∧ μ .que = true ∧ μ .mtr = true ∧ μ .ten = true) (st : Nat) (s : State) :
    (endWith st s).mask μ = s.mask μ := by
  simp only [endWith, ↓endExec_mask, and_self, hμ]

theorem closeUp_mask (hμ : μ .mtr = true ∧ μ .vol = true ∧ μ .fmt = true ∧ μ .cmp = true) (s : State) :
    (closeUp s).mask μ = s.mask μ := by
  simp only [closeUp, ↓setFmt_mask, ↓tryClose_mask, ↓closeGranule_mask, and_self, hμ]

theorem afterClosure_mask (hμ : μ .que = true ∧ μ .mtr = true ∧ μ .vol = true ∧ μ .fmt = true ∧ μ .cmp = true) (work : State → State) (x : ExecSt) (s : State) (hwork : ∀ s, (work s).mask μ = s.mask μ) :
    (afterClosure work x s).mask μ = s.mask μ := by
  simp only [afterClosure]
  (repeat' split) <;> simp only [↓toPhase_mask, ↓closeUp_mask, and_self, hμ, hwork]

theorem onRunning_mask (work : ExecSt → State → State) (s : State) (hwork : ∀ z0 s, (work z0 s).mask μ = s.mask μ) :
    (onRunning work s).mask μ = s.mask μ := by
  unfold onRunning
  (repeat' split) <;> simp only [hwork]

theorem sideReturn_mask (hμ : μ .regs = true ∧ μ .evt = true ∧ μ .que = true) (q : Nat) (count : Nat) (bytes : List Byte) (record : Nat) (s : State) :
    (sideReturn q count bytes record s).mask μ = s.mask μ := by
  unfold sideReturn
  (repeat' split) <;> simp only [↓finishSide_mask, ↓pushDin_mask, and_self, hμ]

theorem beginSide_mask (hμ : μ .regs = true ∧ μ .evt = true ∧ μ .que = true ∧ μ .lnk = true) (q : Nat) (s : State) :
    (beginSide q s).mask μ = s.mask μ := by
  simp only [beginSide]
  (repeat' split) <;> simp only [↓setSide_mask, ↓finishSide_mask, ↓giveBack_mask, and_self, hμ]

theorem drainSide_mask (hμ : μ .regs = true ∧ μ .evt = true ∧ μ .que = true ∧ μ .lnk = true) (q : Nat) (y0 : Nat) (s : State) :
    (drainSide q y0 s).mask μ = s.mask μ := by
  induction y0 generalizing s with
  | zero => rfl
  | succ n ih =>
    unfold drainSide
    repeat' (first | (simp only [↓beginSide_mask, ↓mask_ite, ite_self, and_self, hμ, ih]; done) | split | dsimp only)

theorem sideFinish_mask (hμ : μ .regs = true ∧ μ .evt = true ∧ μ .que = true) (q : Nat) (s : State) :
    (sideFinish q s).mask μ = s.mask μ := by
  unfold sideFinish
  (repeat' split) <;> simp only [↓finishSide_mask, and_self, hμ]

theorem sideRow_mask (hμ : μ .regs = true ∧ μ .evt = true ∧ μ .que = true ∧ μ .lnk = true) (op : Nat) (q : Nat) (work : ExecSt → State → State) (s : State) (hwork : ∀ z0 s, (work z0 s).mask μ = s.mask μ) :
    (sideRow op q work s).mask μ = s.mask μ := by
  simp only [sideRow, ↓mask_ite]
  (repeat' split) <;> simp only [↓beginSide_mask, ↓drainSide_mask, ↓sideFinish_mask, and_self, hμ, hwork]

theorem onSide_mask (hμ : μ .que = true) (q : Nat) (f : ExecSt → ExecSt) (s : State) :
    (onSide q f s).mask μ = s.mask μ := by
  simp only [onSide, ↓setSide_mask, hμ]

theorem sideEnd_mask (hμ : μ .regs = true ∧ μ .evt = true ∧ μ .que = true) (q : Nat) (st : Nat) (s : State) :
    (sideEnd q st s).mask μ = s.mask μ := by
  simp only [sideEnd, ↓finishSide_mask, and_self, hμ]

theorem outCtrl_mask (hμ : μ .regs = true ∧ μ .evt = true ∧ μ .que = true ∧ μ .mtr = true ∧ μ .ten = true ∧ μ .vol = true ∧ μ .fmt = true ∧ μ .band = true ∧ μ .cal = true ∧ μ .rch = true ∧ μ .mot = true) (c2 : Bool) (c3 : Bool) (s : State) :
    (outCtrl c2 c3 s).mask μ = s.mask μ := by
  unfold outCtrl
  refine lockGate_mask (by simp only [hμ]) _ _ s (fun s => ?_)
  repeat' (first | (simp only [↓setB_mask, ↓setFmt_mask, ↓endExec_mask, ↓stopBand_mask, ↓mask_ite, ite_self, ↓mask_forEach, and_self, implies_true, hμ]; done) | split | dsimp only)

/-! ## Commands -/

theorem execOutCtrlWrite_mask (hμ : μ .regs = true ∧ μ .evt = true ∧ μ .que = true ∧ μ .mtr = true ∧ μ .ten = true ∧ μ .vol = true ∧ μ .fmt = true ∧ μ .band = true ∧ μ .cal = true ∧ μ .rch = true ∧ μ .mot = true) (c2En : Bool) (c3En : Bool) (s : State) {t : State}
    (ht : execOutCtrlWrite c2En c3En s = .next t) : t.mask μ = s.mask μ := by
  rw [execOutCtrlWrite] at ht
  rw [← Host.Outcome.next.inj ht]
  simp only [↓outCtrl_mask, and_self, hμ]

end Sys2Proof.Machine
end

