-- ==== Sys2Proof/Laws/VolumeMask.lean ====
section
/-!
SUPPORT. What each function of Machine/Volume.lean touches at most.
-/
namespace Sys2Proof.Machine

variable {μ : Part → Bool}

theorem absorbEod_mask (hμ : μ .vol = true) (s : State) :
    (absorbEod s).mask μ = s.mask μ := by
  simp only [absorbEod, ↓setVol_mask, hμ]

theorem freshReads_mask (hμ : μ .vol = true ∧ μ .rch = true) (all : Bool) (x : ExecSt) (s : State) :
    (freshReads all x s).mask μ = s.mask μ := by
  simp only [freshReads, ↓eodSetRead_mask, ↓absorbEod_mask, ↓mask_rch, ↓mask_ite, ite_self, hμ]

theorem mapConflict_mask (hμ : μ .regs = true ∧ μ .evt = true ∧ μ .vol = true) (s : State) :
    (mapConflict s).mask μ = s.mask μ := by
  simp only [mapConflict, ↓setF_mask, ↓raiseC_mask, ↓setVol_mask, ↓showMap_mask, and_self, hμ]

theorem takeMap_mask (hμ : μ .regs = true ∧ μ .vol = true ∧ μ .fmt = true) (m : VolMap) (s : State) :
    (takeMap m s).mask μ = s.mask μ := by
  simp only [takeMap, ↓setF_mask, ↓setVol_mask, ↓setFmt_mask, ↓showMap_mask, hμ]

theorem selectMap_mask (hμ : μ .regs = true ∧ μ .vol = true ∧ μ .fmt = true) (m : VolMap) (s : State) :
    (selectMap m s).mask μ = s.mask μ := by
  simp only [selectMap, ↓setB_mask, ↓takeMap_mask, and_self, hμ]

theorem searchChain_mask (hμ : μ .regs = true ∧ μ .evt = true ∧ μ .vol = true ∧ μ .fmt = true) (s : State) :
    (searchChain s).mask μ = s.mask μ := by
  simp only [searchChain, ↓absorbEod_mask, ↓mapConflict_mask, ↓mask_ite, and_self, hμ]
  (repeat' split) <;> simp only [↓absorbEod_mask, ↓takeMap_mask, and_self, hμ]

theorem hkUpdate_mask (hμ : μ .regs = true ∧ μ .vol = true) (m : VolMap) (s : State) :
    (hkUpdate m s).mask μ = s.mask μ := by
  simp only [hkUpdate, ↓setVol_mask, ↓writeCopies_mask, ↓showMap_mask, ↓absorbEod_mask, hμ]

theorem dirtyUpdate_mask (hμ : μ .regs = true ∧ μ .vol = true) (first : Nat) (s : State) :
    (dirtyUpdate first s).mask μ = s.mask μ := by
  unfold dirtyUpdate
  (repeat' split) <;> simp only [↓setVol_mask, ↓hkUpdate_mask, and_self, hμ]

theorem cleanUpdate_mask (hμ : μ .regs = true ∧ μ .vol = true) (s : State) :
    (cleanUpdate s).mask μ = s.mask μ := by
  unfold cleanUpdate
  (repeat' split) <;> simp only [↓hkUpdate_mask, and_self, hμ]

theorem loadEnd_mask (hμ : μ .regs = true ∧ μ .evt = true ∧ μ .que = true ∧ μ .mtr = true ∧ μ .ten = true ∧ μ .vol = true) (s : State) :
    (loadEnd s).mask μ = s.mask μ := by
  unfold loadEnd
  (repeat' split) <;> simp only [↓setVol_mask, ↓endWith_mask, ↓mask_ite, ite_self, and_self, hμ]

theorem restartChains_mask (hμ : μ .ten = true) (s : State) :
    (restartChains s).mask μ = s.mask μ := by
  simp only [restartChains, ↓mask_ten, hμ]

theorem mountVolume_mask (hμ : μ .regs = true ∧ μ .evt = true ∧ μ .ten = true ∧ μ .vol = true ∧ μ .fmt = true ∧ μ .rch = true) (hkTags : List Nat) (rows : List HkRow) (s : State) :
    (mountVolume hkTags rows s).mask μ = s.mask μ := by
  unfold mountVolume
  repeat' (first | (simp (maxDischargeDepth := 6) only [↓setF_mask, ↓setVol_mask, ↓setFmt_mask, ↓showMap_mask, ↓mapConflict_mask, ↓selectMap_mask, ↓restartChains_mask, ↓mask_rch, ↓mask_ite, ite_self, and_self, hμ]; done) | split | dsimp only)

theorem loadWork_mask (hμ : μ .regs = true ∧ μ .evt = true ∧ μ .links = true ∧ μ .que = true ∧ μ .mtr = true ∧ μ .ten = true ∧ μ .vol = true ∧ μ .fmt = true ∧ μ .cal = true ∧ μ .rch = true ∧ μ .mot = true) (present : Bool) (hkTags : List Nat) (rows : List HkRow) (cal : LoadCal) (tags : List Nat) (x : ExecSt) (s : State) :
    (loadWork present hkTags rows cal tags x s).mask μ = s.mask μ := by
  simp only [loadWork]
  (repeat' split) <;> simp only [↓setF_mask, ↓setVol_mask, ↓endExec_mask, ↓loadCalibrate_mask, ↓toPhase_mask, ↓endWith_mask, ↓searchChain_mask, ↓loadEnd_mask, ↓mountVolume_mask, ↓mask_mot, and_self, hμ]

theorem releaseVolume_mask (hμ : μ .regs = true ∧ μ .vol = true ∧ μ .fmt = true ∧ μ .rch = true) (s : State) :
    (releaseVolume s).mask μ = s.mask μ := by
  simp only [releaseVolume, ↓setF_mask, ↓setVol_mask, ↓setFmt_mask, ↓showMap_mask, ↓mask_rch, hμ]

theorem unloadWork_mask (hμ : μ .regs = true ∧ μ .evt = true ∧ μ .que = true ∧ μ .mtr = true ∧ μ .ten = true ∧ μ .vol = true ∧ μ .fmt = true ∧ μ .rch = true) (x : ExecSt) (s : State) :
    (unloadWork x s).mask μ = s.mask μ := by
  simp only [unloadWork, ↓onExec_mask, ↓endWith_mask, ↓cleanUpdate_mask, ↓releaseVolume_mask, ↓mask_ite, ite_self, and_self, hμ]

theorem threadingDone_mask (hμ : μ .regs = true ∧ μ .evt = true ∧ μ .que = true ∧ μ .mtr = true ∧ μ .ten = true ∧ μ .vol = true ∧ μ .fmt = true ∧ μ .rch = true) (s : State) :
    (threadingDone s).mask μ = s.mask μ := by
  unfold threadingDone
  (repeat' split) <;> simp only [↓onExec_mask, ↓unloadWork_mask, and_self, hμ]

theorem formatWork_mask (hμ : μ .regs = true ∧ μ .evt = true ∧ μ .que = true ∧ μ .mtr = true ∧ μ .ten = true ∧ μ .vol = true ∧ μ .fmt = true ∧ μ .rch = true ∧ μ .cmp = true) (x : ExecSt) (s : State) :
    (formatWork x s).mask μ = s.mask μ := by
  unfold formatWork
  (repeat' split) <;> simp only [↓setF_mask, ↓setVol_mask, ↓setFmt_mask, ↓writeCopies_mask, ↓showMap_mask, ↓toPhase_mask, ↓endWith_mask, ↓closeUp_mask, ↓absorbEod_mask, ↓mask_rch, ↓mask_ite, ite_self, and_self, hμ]

theorem selectWork_mask (hμ : μ .regs = true ∧ μ .evt = true ∧ μ .que = true ∧ μ .mtr = true ∧ μ .ten = true ∧ μ .vol = true ∧ μ .fmt = true) (tags : List Nat) (x : ExecSt) (s : State) :
    (selectWork tags x s).mask μ = s.mask μ := by
  simp only [selectWork, ↓endWith_mask, ↓searchChain_mask, ↓mask_ite, ite_self, and_self, hμ]
  (repeat' split) <;> simp only [↓setVol_mask, ↓onExec_mask, ↓endWith_mask, ↓absorbEod_mask, ↓selectMap_mask, and_self, hμ]

theorem resumeEod_mask (hμ : μ .fmt = true) (s : State) :
    (resumeEod s).mask μ = s.mask μ := by
  simp only [resumeEod, ↓setFmt_mask, ↓mask_ite, ite_self, hμ]

theorem takeGroup_mask (hμ : μ .fmt = true) (data : Tbl (List Byte)) (s : State) :
    (takeGroup data s).mask μ = s.mask μ := by
  simp only [takeGroup, ↓setFmt_mask, ↓addTail_mask, ↓mask_ite, ite_self, hμ]

theorem refreshBatch_mask (hμ : μ .regs = true ∧ μ .que = true ∧ μ .vol = true ∧ μ .fmt = true ∧ μ .rch = true) (x : ExecSt) (s : State) :
    (refreshBatch x s).mask μ = s.mask μ := by
  simp only [refreshBatch, ↓setFmt_mask, ↓addTail_mask, ↓onExec_mask, ↓absorbEod_mask, ↓dirtyUpdate_mask, ↓mask_rch, ↓mask_ite, ite_self, and_self, hμ]

theorem refreshWork_mask (hμ : μ .regs = true ∧ μ .evt = true ∧ μ .que = true ∧ μ .mtr = true ∧ μ .ten = true ∧ μ .vol = true ∧ μ .fmt = true ∧ μ .rch = true) (x : ExecSt) (s : State) :
    (refreshWork x s).mask μ = s.mask μ := by
  unfold refreshWork
  (repeat' split) <;> simp only [↓setVol_mask, ↓setFmt_mask, ↓endExec_mask, ↓tryClose_mask, ↓eodSetRead_mask, ↓onExec_mask, ↓cleanUpdate_mask, ↓resumeEod_mask, ↓takeGroup_mask, ↓refreshBatch_mask, ↓mask_rch, ↓mask_ite, ite_self, and_self, hμ]

theorem refreshRow_mask (hμ : μ .regs = true ∧ μ .evt = true ∧ μ .que = true ∧ μ .mtr = true ∧ μ .ten = true ∧ μ .vol = true ∧ μ .fmt = true ∧ μ .rch = true ∧ μ .cmp = true) (x : ExecSt) (s : State) :
    (refreshRow x s).mask μ = s.mask μ := by
  unfold refreshRow
  (repeat' split) <;> simp (maxDischargeDepth := 6) only [↓endWith_mask, ↓afterClosure_mask, ↓onRunning_mask, ↓freshReads_mask, ↓refreshWork_mask, and_self, implies_true, hμ]

/-! ## Commands -/

theorem execLoad_mask (hμ : μ .regs = true ∧ μ .evt = true ∧ μ .links = true ∧ μ .que = true ∧ μ .mtr = true ∧ μ .ten = true ∧ μ .vol = true ∧ μ .fmt = true ∧ μ .cal = true ∧ μ .rch = true ∧ μ .cmp = true ∧ μ .mot = true ∧ μ .lnk = true) (present : Bool) (hkTags : List Nat) (rows : List HkRow) (cal : LoadCal) (tags : List Nat) (s : State) {t : State}
    (ht : execLoad present hkTags rows cal tags s = .next t) : t.mask μ = s.mask μ := by
  rw [execLoad] at ht
  rw [← Host.Outcome.next.inj ht]
  simp only [↓streamRow_mask, ↓loadWork_mask, and_self, implies_true, hμ]

theorem execThreadingDone_mask (hμ : μ .regs = true ∧ μ .evt = true ∧ μ .que = true ∧ μ .mtr = true ∧ μ .ten = true ∧ μ .vol = true ∧ μ .fmt = true ∧ μ .rch = true) (s : State) {t : State}
    (ht : execThreadingDone s = .next t) : t.mask μ = s.mask μ := by
  rw [execThreadingDone] at ht
  rw [← Host.Outcome.next.inj ht]
  simp only [↓threadingDone_mask, and_self, hμ]

theorem execUnload_mask (hμ : μ .regs = true ∧ μ .evt = true ∧ μ .que = true ∧ μ .mtr = true ∧ μ .ten = true ∧ μ .vol = true ∧ μ .fmt = true ∧ μ .rch = true ∧ μ .cmp = true ∧ μ .lnk = true) (s : State) {t : State}
    (ht : execUnload s = .next t) : t.mask μ = s.mask μ := by
  rw [execUnload] at ht
  rw [← Host.Outcome.next.inj ht]
  simp (maxDischargeDepth := 6) only [↓streamRow_mask, ↓afterClosure_mask, ↓onRunning_mask, ↓unloadWork_mask, and_self, implies_true, hμ]

theorem execFormat_mask (hμ : μ .regs = true ∧ μ .evt = true ∧ μ .que = true ∧ μ .mtr = true ∧ μ .ten = true ∧ μ .vol = true ∧ μ .fmt = true ∧ μ .rch = true ∧ μ .cmp = true ∧ μ .lnk = true) (s : State) {t : State}
    (ht : execFormat s = .next t) : t.mask μ = s.mask μ := by
  rw [execFormat] at ht
  rw [← Host.Outcome.next.inj ht]
  simp only [↓streamRow_mask, ↓formatWork_mask, and_self, implies_true, hμ]

theorem execSelectMap_mask (hμ : μ .regs = true ∧ μ .evt = true ∧ μ .que = true ∧ μ .mtr = true ∧ μ .ten = true ∧ μ .vol = true ∧ μ .fmt = true ∧ μ .cmp = true ∧ μ .lnk = true) (tags : List Nat) (s : State) {t : State}
    (ht : execSelectMap tags s = .next t) : t.mask μ = s.mask μ := by
  rw [execSelectMap] at ht
  rw [← Host.Outcome.next.inj ht]
  simp (maxDischargeDepth := 6) only [↓streamRow_mask, ↓afterClosure_mask, ↓onRunning_mask, ↓selectWork_mask, and_self, implies_true, hμ]

theorem execRefresh_mask (hμ : μ .regs = true ∧ μ .evt = true ∧ μ .que = true ∧ μ .mtr = true ∧ μ .ten = true ∧ μ .vol = true ∧ μ .fmt = true ∧ μ .rch = true ∧ μ .cmp = true ∧ μ .lnk = true) (s : State) {t : State}
    (ht : execRefresh s = .next t) : t.mask μ = s.mask μ := by
  rw [execRefresh] at ht
  rw [← Host.Outcome.next.inj ht]
  simp only [↓streamRow_mask, ↓refreshRow_mask, and_self, implies_true, hμ]

end Sys2Proof.Machine
end

