-- ==== Sys2Proof/Laws/EncodersMask.lean ====
section
/-!
SUPPORT. What each function of Machine/Encoders.lean touches at most.
-/
namespace Sys2Proof.Machine

variable {μ : Part → Bool}

theorem fetchWord_mask (hμ : μ .regs = true ∧ μ .evt = true ∧ μ .que = true ∧ μ .mtr = true ∧ μ .ten = true ∧ μ .vol = true ∧ μ .fmt = true ∧ μ .band = true ∧ μ .cal = true ∧ μ .rch = true ∧ μ .cmp = true ∧ μ .ciph = true ∧ μ .mot = true ∧ μ .mem = true ∧ μ .cells = true ∧ μ .pool = true) (p : Nat) (w : Nat) (s : State) :
    (fetchWord p w s).2.mask μ = s.mask μ := by
  unfold fetchWord
  (repeat' split) <;> simp only [↓demandRead_mask, and_self, hμ]

theorem fetchCopy_mask (hμ : μ .regs = true ∧ μ .evt = true ∧ μ .que = true ∧ μ .mtr = true ∧ μ .ten = true ∧ μ .vol = true ∧ μ .fmt = true ∧ μ .band = true ∧ μ .cal = true ∧ μ .rch = true ∧ μ .cmp = true ∧ μ .ciph = true ∧ μ .mot = true ∧ μ .mem = true ∧ μ .cells = true ∧ μ .pool = true) (pages : List Nat) (s : State) :
    (fetchCopy pages s).2.mask μ = s.mask μ := by
  simp only [fetchCopy, ↓fetchWord_mask, ↓mask_foldl_snd, and_self, implies_true, hμ]

theorem compressed_mask (hμ : μ .regs = true ∧ μ .evt = true ∧ μ .que = true ∧ μ .mtr = true ∧ μ .ten = true ∧ μ .vol = true ∧ μ .fmt = true ∧ μ .band = true ∧ μ .cal = true ∧ μ .rch = true ∧ μ .cmp = true ∧ μ .ciph = true ∧ μ .mot = true ∧ μ .mem = true ∧ μ .cells = true ∧ μ .pool = true) (n : Nat) (upset1 : Bool) (upset2 : Bool) (s : State) :
    (compressed n upset1 upset2 s).mask μ = s.mask μ := by
  simp only [compressed, ↓mask_ite]
  (repeat' split) <;> simp only [↓setF_mask, ↓addF_mask, ↓incF_mask, ↓add64_mask, ↓raiseC_mask, ↓enterS3_mask, ↓onGran_mask, ↓setCmp_mask, ↓handOut_mask, ↓shareTape_mask, ↓feedCipher_mask, ↓fetchCopy_mask, and_self, hμ]

theorem noteMismatch_mask (hμ : μ .regs = true) (r : RwRow) (injected : Bool) (s : State) :
    (noteMismatch r injected s).mask μ = s.mask μ := by
  simp only [noteMismatch, ↓setF_mask, ↓setB_mask, ↓incF_mask, hμ]

theorem rowFetch_mask (hμ : μ .regs = true ∧ μ .evt = true ∧ μ .que = true ∧ μ .mtr = true ∧ μ .ten = true ∧ μ .vol = true ∧ μ .fmt = true ∧ μ .band = true ∧ μ .enc = true ∧ μ .cal = true ∧ μ .rch = true ∧ μ .cmp = true ∧ μ .ciph = true ∧ μ .mot = true ∧ μ .mem = true ∧ μ .cells = true ∧ μ .pool = true) (n : Nat) (t : Nat) (p : Nat) (upset1 : Bool) (upset2 : Bool) (s : State) :
    (rowFetch n t p upset1 upset2 s).mask μ = s.mask μ := by
  unfold rowFetch
  (repeat' split) <;> simp only [↓setF_mask, ↓raise_mask, ↓raiseC_mask, ↓setEnc_mask, ↓enterS3_mask, ↓fetchCopy_mask, ↓noteMismatch_mask, ↓mask_ite, ite_self, and_self, hμ]

theorem encInject_mask (hμ : μ .regs = true ∧ μ .enc = true) (s : State) :
    (encInject s).mask μ = s.mask μ := by
  simp only [encInject, ↓lockGate_mask, ↓setEnc_mask, implies_true, hμ]

/-! ## Commands -/

theorem execGranuleCompressed_mask (hμ : μ .regs = true ∧ μ .evt = true ∧ μ .que = true ∧ μ .mtr = true ∧ μ .ten = true ∧ μ .vol = true ∧ μ .fmt = true ∧ μ .band = true ∧ μ .cal = true ∧ μ .rch = true ∧ μ .cmp = true ∧ μ .ciph = true ∧ μ .mot = true ∧ μ .mem = true ∧ μ .cells = true ∧ μ .pool = true) (gsn : Nat) (upset1 : Bool) (upset2 : Bool) (s : State) {t : State}
    (ht : execGranuleCompressed gsn upset1 upset2 s = .next t) : t.mask μ = s.mask μ := by
  rw [execGranuleCompressed] at ht
  rw [← Host.Outcome.next.inj ht]
  simp only [↓compressed_mask, and_self, hμ]

theorem execRowFetch_mask (hμ : μ .regs = true ∧ μ .evt = true ∧ μ .que = true ∧ μ .mtr = true ∧ μ .ten = true ∧ μ .vol = true ∧ μ .fmt = true ∧ μ .band = true ∧ μ .enc = true ∧ μ .cal = true ∧ μ .rch = true ∧ μ .cmp = true ∧ μ .ciph = true ∧ μ .mot = true ∧ μ .mem = true ∧ μ .cells = true ∧ μ .pool = true) (dsn : Nat) (track : Nat) (slot : Nat) (upset1 : Bool) (upset2 : Bool) (s : State) {t : State}
    (ht : execRowFetch dsn track slot upset1 upset2 s = .next t) : t.mask μ = s.mask μ := by
  rw [execRowFetch] at ht
  rw [← Host.Outcome.next.inj ht]
  simp only [↓rowFetch_mask, and_self, hμ]

theorem execEncInject_mask (hμ : μ .regs = true ∧ μ .enc = true) (s : State) {t : State}
    (ht : execEncInject s = .next t) : t.mask μ = s.mask μ := by
  rw [execEncInject] at ht
  rw [← Host.Outcome.next.inj ht]
  simp only [↓encInject_mask, and_self, hμ]

end Sys2Proof.Machine
end

