-- ==== Sys2Proof/Laws/State.lean ====
section
/-!
SUPPORT. Each update of State field by field: what it writes, and that it leaves every other field as it was.
-/
namespace Sys2Proof.Machine

/-! ## wr -/

@[simp] theorem wr_regs (a : Nat) (w : Word) (s : State) : (wr a w s).regs = Tbl.set s.regs a w := rfl
@[simp] theorem wr_latch (a : Nat) (w : Word) (s : State) : (wr a w s).latch = s.latch := rfl
@[simp] theorem wr_evt (a : Nat) (w : Word) (s : State) : (wr a w s).evt = s.evt := rfl
@[simp] theorem wr_core (a : Nat) (w : Word) (s : State) : (wr a w s).core = s.core := rfl
@[simp] theorem wr_pos (a : Nat) (w : Word) (s : State) : (wr a w s).pos = s.pos := rfl
@[simp] theorem wr_links (a : Nat) (w : Word) (s : State) : (wr a w s).links = s.links := rfl
@[simp] theorem wr_que (a : Nat) (w : Word) (s : State) : (wr a w s).que = s.que := rfl
@[simp] theorem wr_mtr (a : Nat) (w : Word) (s : State) : (wr a w s).mtr = s.mtr := rfl
@[simp] theorem wr_ten (a : Nat) (w : Word) (s : State) : (wr a w s).ten = s.ten := rfl
@[simp] theorem wr_vol (a : Nat) (w : Word) (s : State) : (wr a w s).vol = s.vol := rfl
@[simp] theorem wr_fmt (a : Nat) (w : Word) (s : State) : (wr a w s).fmt = s.fmt := rfl
@[simp] theorem wr_band (a : Nat) (w : Word) (s : State) : (wr a w s).band = s.band := rfl
@[simp] theorem wr_enc (a : Nat) (w : Word) (s : State) : (wr a w s).enc = s.enc := rfl
@[simp] theorem wr_cal (a : Nat) (w : Word) (s : State) : (wr a w s).cal = s.cal := rfl
@[simp] theorem wr_rch (a : Nat) (w : Word) (s : State) : (wr a w s).rch = s.rch := rfl
@[simp] theorem wr_cmp (a : Nat) (w : Word) (s : State) : (wr a w s).cmp = s.cmp := rfl
@[simp] theorem wr_keys (a : Nat) (w : Word) (s : State) : (wr a w s).keys = s.keys := rfl
@[simp] theorem wr_ciph (a : Nat) (w : Word) (s : State) : (wr a w s).ciph = s.ciph := rfl
@[simp] theorem wr_mot (a : Nat) (w : Word) (s : State) : (wr a w s).mot = s.mot := rfl
@[simp] theorem wr_mem (a : Nat) (w : Word) (s : State) : (wr a w s).mem = s.mem := rfl
@[simp] theorem wr_pool (a : Nat) (w : Word) (s : State) : (wr a w s).pool = s.pool := rfl
@[simp] theorem wr_fuseMap (a : Nat) (w : Word) (s : State) : (wr a w s).fuseMap = s.fuseMap := rfl
@[simp] theorem wr_lnk (a : Nat) (w : Word) (s : State) : (wr a w s).lnk = s.lnk := rfl
@[simp] theorem wr_sec (a : Nat) (w : Word) (s : State) : (wr a w s).sec = s.sec := rfl
@[simp] theorem wr_pins (a : Nat) (w : Word) (s : State) : (wr a w s).pins = s.pins := rfl
@[simp] theorem wr_freeCount (a : Nat) (w : Word) (s : State) : (wr a w s).freeCount = s.freeCount := rfl
@[simp] theorem wr_pending (a : Nat) (w : Word) (s : State) : (wr a w s).pending = s.pending := rfl

/-! ## takeFree -/

@[simp] theorem takeFree_regs (s : State) : (takeFree s).regs = s.regs := rfl
@[simp] theorem takeFree_latch (s : State) : (takeFree s).latch = s.latch := rfl
@[simp] theorem takeFree_evt (s : State) : (takeFree s).evt = s.evt := rfl
@[simp] theorem takeFree_core (s : State) : (takeFree s).core = s.core := rfl
@[simp] theorem takeFree_pos (s : State) : (takeFree s).pos = s.pos := rfl
@[simp] theorem takeFree_links (s : State) : (takeFree s).links = s.links := rfl
@[simp] theorem takeFree_que (s : State) : (takeFree s).que = s.que := rfl
@[simp] theorem takeFree_mtr (s : State) : (takeFree s).mtr = s.mtr := rfl
@[simp] theorem takeFree_ten (s : State) : (takeFree s).ten = s.ten := rfl
@[simp] theorem takeFree_vol (s : State) : (takeFree s).vol = s.vol := rfl
@[simp] theorem takeFree_fmt (s : State) : (takeFree s).fmt = s.fmt := rfl
@[simp] theorem takeFree_band (s : State) : (takeFree s).band = s.band := rfl
@[simp] theorem takeFree_enc (s : State) : (takeFree s).enc = s.enc := rfl
@[simp] theorem takeFree_cal (s : State) : (takeFree s).cal = s.cal := rfl
@[simp] theorem takeFree_rch (s : State) : (takeFree s).rch = s.rch := rfl
@[simp] theorem takeFree_cmp (s : State) : (takeFree s).cmp = s.cmp := rfl
@[simp] theorem takeFree_keys (s : State) : (takeFree s).keys = s.keys := rfl
@[simp] theorem takeFree_ciph (s : State) : (takeFree s).ciph = s.ciph := rfl
@[simp] theorem takeFree_mot (s : State) : (takeFree s).mot = s.mot := rfl
@[simp] theorem takeFree_mem (s : State) : (takeFree s).mem = s.mem := rfl
@[simp] theorem takeFree_pool (s : State) : (takeFree s).pool = s.pool := rfl
@[simp] theorem takeFree_fuseMap (s : State) : (takeFree s).fuseMap = s.fuseMap := rfl
@[simp] theorem takeFree_lnk (s : State) : (takeFree s).lnk = s.lnk := rfl
@[simp] theorem takeFree_sec (s : State) : (takeFree s).sec = s.sec := rfl
@[simp] theorem takeFree_pins (s : State) : (takeFree s).pins = s.pins := rfl
@[simp] theorem takeFree_freeCount (s : State) : (takeFree s).freeCount = s.freeCount + 1 := rfl
@[simp] theorem takeFree_pending (s : State) : (takeFree s).pending = s.pending := rfl

/-! ## setQue -/

@[simp] theorem setQue_regs (q : QueSt) (s : State) : (setQue q s).regs = s.regs := rfl
@[simp] theorem setQue_latch (q : QueSt) (s : State) : (setQue q s).latch = s.latch := rfl
@[simp] theorem setQue_evt (q : QueSt) (s : State) : (setQue q s).evt = s.evt := rfl
@[simp] theorem setQue_core (q : QueSt) (s : State) : (setQue q s).core = s.core := rfl
@[simp] theorem setQue_pos (q : QueSt) (s : State) : (setQue q s).pos = s.pos := rfl
@[simp] theorem setQue_links (q : QueSt) (s : State) : (setQue q s).links = s.links := rfl
@[simp] theorem setQue_que (q : QueSt) (s : State) : (setQue q s).que = q := rfl
@[simp] theorem setQue_mtr (q : QueSt) (s : State) : (setQue q s).mtr = s.mtr := rfl
@[simp] theorem setQue_ten (q : QueSt) (s : State) : (setQue q s).ten = s.ten := rfl
@[simp] theorem setQue_vol (q : QueSt) (s : State) : (setQue q s).vol = s.vol := rfl
@[simp] theorem setQue_fmt (q : QueSt) (s : State) : (setQue q s).fmt = s.fmt := rfl
@[simp] theorem setQue_band (q : QueSt) (s : State) : (setQue q s).band = s.band := rfl
@[simp] theorem setQue_enc (q : QueSt) (s : State) : (setQue q s).enc = s.enc := rfl
@[simp] theorem setQue_cal (q : QueSt) (s : State) : (setQue q s).cal = s.cal := rfl
@[simp] theorem setQue_rch (q : QueSt) (s : State) : (setQue q s).rch = s.rch := rfl
@[simp] theorem setQue_cmp (q : QueSt) (s : State) : (setQue q s).cmp = s.cmp := rfl
@[simp] theorem setQue_keys (q : QueSt) (s : State) : (setQue q s).keys = s.keys := rfl
@[simp] theorem setQue_ciph (q : QueSt) (s : State) : (setQue q s).ciph = s.ciph := rfl
@[simp] theorem setQue_mot (q : QueSt) (s : State) : (setQue q s).mot = s.mot := rfl
@[simp] theorem setQue_mem (q : QueSt) (s : State) : (setQue q s).mem = s.mem := rfl
@[simp] theorem setQue_pool (q : QueSt) (s : State) : (setQue q s).pool = s.pool := rfl
@[simp] theorem setQue_fuseMap (q : QueSt) (s : State) : (setQue q s).fuseMap = s.fuseMap := rfl
@[simp] theorem setQue_lnk (q : QueSt) (s : State) : (setQue q s).lnk = s.lnk := rfl
@[simp] theorem setQue_sec (q : QueSt) (s : State) : (setQue q s).sec = s.sec := rfl
@[simp] theorem setQue_pins (q : QueSt) (s : State) : (setQue q s).pins = s.pins := rfl
@[simp] theorem setQue_freeCount (q : QueSt) (s : State) : (setQue q s).freeCount = s.freeCount := rfl
@[simp] theorem setQue_pending (q : QueSt) (s : State) : (setQue q s).pending = s.pending := rfl

/-! ## setMtr -/

@[simp] theorem setMtr_regs (m : MtrSt) (s : State) : (setMtr m s).regs = s.regs := rfl
@[simp] theorem setMtr_latch (m : MtrSt) (s : State) : (setMtr m s).latch = s.latch := rfl
@[simp] theorem setMtr_evt (m : MtrSt) (s : State) : (setMtr m s).evt = s.evt := rfl
@[simp] theorem setMtr_core (m : MtrSt) (s : State) : (setMtr m s).core = s.core := rfl
@[simp] theorem setMtr_pos (m : MtrSt) (s : State) : (setMtr m s).pos = s.pos := rfl
@[simp] theorem setMtr_links (m : MtrSt) (s : State) : (setMtr m s).links = s.links := rfl
@[simp] theorem setMtr_que (m : MtrSt) (s : State) : (setMtr m s).que = s.que := rfl
@[simp] theorem setMtr_mtr (m : MtrSt) (s : State) : (setMtr m s).mtr = m := rfl
@[simp] theorem setMtr_ten (m : MtrSt) (s : State) : (setMtr m s).ten = s.ten := rfl
@[simp] theorem setMtr_vol (m : MtrSt) (s : State) : (setMtr m s).vol = s.vol := rfl
@[simp] theorem setMtr_fmt (m : MtrSt) (s : State) : (setMtr m s).fmt = s.fmt := rfl
@[simp] theorem setMtr_band (m : MtrSt) (s : State) : (setMtr m s).band = s.band := rfl
@[simp] theorem setMtr_enc (m : MtrSt) (s : State) : (setMtr m s).enc = s.enc := rfl
@[simp] theorem setMtr_cal (m : MtrSt) (s : State) : (setMtr m s).cal = s.cal := rfl
@[simp] theorem setMtr_rch (m : MtrSt) (s : State) : (setMtr m s).rch = s.rch := rfl
@[simp] theorem setMtr_cmp (m : MtrSt) (s : State) : (setMtr m s).cmp = s.cmp := rfl
@[simp] theorem setMtr_keys (m : MtrSt) (s : State) : (setMtr m s).keys = s.keys := rfl
@[simp] theorem setMtr_ciph (m : MtrSt) (s : State) : (setMtr m s).ciph = s.ciph := rfl
@[simp] theorem setMtr_mot (m : MtrSt) (s : State) : (setMtr m s).mot = s.mot := rfl
@[simp] theorem setMtr_mem (m : MtrSt) (s : State) : (setMtr m s).mem = s.mem := rfl
@[simp] theorem setMtr_pool (m : MtrSt) (s : State) : (setMtr m s).pool = s.pool := rfl
@[simp] theorem setMtr_fuseMap (m : MtrSt) (s : State) : (setMtr m s).fuseMap = s.fuseMap := rfl
@[simp] theorem setMtr_lnk (m : MtrSt) (s : State) : (setMtr m s).lnk = s.lnk := rfl
@[simp] theorem setMtr_sec (m : MtrSt) (s : State) : (setMtr m s).sec = s.sec := rfl
@[simp] theorem setMtr_pins (m : MtrSt) (s : State) : (setMtr m s).pins = s.pins := rfl
@[simp] theorem setMtr_freeCount (m : MtrSt) (s : State) : (setMtr m s).freeCount = s.freeCount := rfl
@[simp] theorem setMtr_pending (m : MtrSt) (s : State) : (setMtr m s).pending = s.pending := rfl

/-! ## setVol -/

@[simp] theorem setVol_regs (v : VolSt) (s : State) : (setVol v s).regs = s.regs := rfl
@[simp] theorem setVol_latch (v : VolSt) (s : State) : (setVol v s).latch = s.latch := rfl
@[simp] theorem setVol_evt (v : VolSt) (s : State) : (setVol v s).evt = s.evt := rfl
@[simp] theorem setVol_core (v : VolSt) (s : State) : (setVol v s).core = s.core := rfl
@[simp] theorem setVol_pos (v : VolSt) (s : State) : (setVol v s).pos = s.pos := rfl
@[simp] theorem setVol_links (v : VolSt) (s : State) : (setVol v s).links = s.links := rfl
@[simp] theorem setVol_que (v : VolSt) (s : State) : (setVol v s).que = s.que := rfl
@[simp] theorem setVol_mtr (v : VolSt) (s : State) : (setVol v s).mtr = s.mtr := rfl
@[simp] theorem setVol_ten (v : VolSt) (s : State) : (setVol v s).ten = s.ten := rfl
@[simp] theorem setVol_vol (v : VolSt) (s : State) : (setVol v s).vol = v := rfl
@[simp] theorem setVol_fmt (v : VolSt) (s : State) : (setVol v s).fmt = s.fmt := rfl
@[simp] theorem setVol_band (v : VolSt) (s : State) : (setVol v s).band = s.band := rfl
@[simp] theorem setVol_enc (v : VolSt) (s : State) : (setVol v s).enc = s.enc := rfl
@[simp] theorem setVol_cal (v : VolSt) (s : State) : (setVol v s).cal = s.cal := rfl
@[simp] theorem setVol_rch (v : VolSt) (s : State) : (setVol v s).rch = s.rch := rfl
@[simp] theorem setVol_cmp (v : VolSt) (s : State) : (setVol v s).cmp = s.cmp := rfl
@[simp] theorem setVol_keys (v : VolSt) (s : State) : (setVol v s).keys = s.keys := rfl
@[simp] theorem setVol_ciph (v : VolSt) (s : State) : (setVol v s).ciph = s.ciph := rfl
@[simp] theorem setVol_mot (v : VolSt) (s : State) : (setVol v s).mot = s.mot := rfl
@[simp] theorem setVol_mem (v : VolSt) (s : State) : (setVol v s).mem = s.mem := rfl
@[simp] theorem setVol_pool (v : VolSt) (s : State) : (setVol v s).pool = s.pool := rfl
@[simp] theorem setVol_fuseMap (v : VolSt) (s : State) : (setVol v s).fuseMap = s.fuseMap := rfl
@[simp] theorem setVol_lnk (v : VolSt) (s : State) : (setVol v s).lnk = s.lnk := rfl
@[simp] theorem setVol_sec (v : VolSt) (s : State) : (setVol v s).sec = s.sec := rfl
@[simp] theorem setVol_pins (v : VolSt) (s : State) : (setVol v s).pins = s.pins := rfl
@[simp] theorem setVol_freeCount (v : VolSt) (s : State) : (setVol v s).freeCount = s.freeCount := rfl
@[simp] theorem setVol_pending (v : VolSt) (s : State) : (setVol v s).pending = s.pending := rfl

/-! ## setFmt -/

@[simp] theorem setFmt_regs (f : FmtSt) (s : State) : (setFmt f s).regs = s.regs := rfl
@[simp] theorem setFmt_latch (f : FmtSt) (s : State) : (setFmt f s).latch = s.latch := rfl
@[simp] theorem setFmt_evt (f : FmtSt) (s : State) : (setFmt f s).evt = s.evt := rfl
@[simp] theorem setFmt_core (f : FmtSt) (s : State) : (setFmt f s).core = s.core := rfl
@[simp] theorem setFmt_pos (f : FmtSt) (s : State) : (setFmt f s).pos = s.pos := rfl
@[simp] theorem setFmt_links (f : FmtSt) (s : State) : (setFmt f s).links = s.links := rfl
@[simp] theorem setFmt_que (f : FmtSt) (s : State) : (setFmt f s).que = s.que := rfl
@[simp] theorem setFmt_mtr (f : FmtSt) (s : State) : (setFmt f s).mtr = s.mtr := rfl
@[simp] theorem setFmt_ten (f : FmtSt) (s : State) : (setFmt f s).ten = s.ten := rfl
@[simp] theorem setFmt_vol (f : FmtSt) (s : State) : (setFmt f s).vol = s.vol := rfl
@[simp] theorem setFmt_fmt (f : FmtSt) (s : State) : (setFmt f s).fmt = f := rfl
@[simp] theorem setFmt_band (f : FmtSt) (s : State) : (setFmt f s).band = s.band := rfl
@[simp] theorem setFmt_enc (f : FmtSt) (s : State) : (setFmt f s).enc = s.enc := rfl
@[simp] theorem setFmt_cal (f : FmtSt) (s : State) : (setFmt f s).cal = s.cal := rfl
@[simp] theorem setFmt_rch (f : FmtSt) (s : State) : (setFmt f s).rch = s.rch := rfl
@[simp] theorem setFmt_cmp (f : FmtSt) (s : State) : (setFmt f s).cmp = s.cmp := rfl
@[simp] theorem setFmt_keys (f : FmtSt) (s : State) : (setFmt f s).keys = s.keys := rfl
@[simp] theorem setFmt_ciph (f : FmtSt) (s : State) : (setFmt f s).ciph = s.ciph := rfl
@[simp] theorem setFmt_mot (f : FmtSt) (s : State) : (setFmt f s).mot = s.mot := rfl
@[simp] theorem setFmt_mem (f : FmtSt) (s : State) : (setFmt f s).mem = s.mem := rfl
@[simp] theorem setFmt_pool (f : FmtSt) (s : State) : (setFmt f s).pool = s.pool := rfl
@[simp] theorem setFmt_fuseMap (f : FmtSt) (s : State) : (setFmt f s).fuseMap = s.fuseMap := rfl
@[simp] theorem setFmt_lnk (f : FmtSt) (s : State) : (setFmt f s).lnk = s.lnk := rfl
@[simp] theorem setFmt_sec (f : FmtSt) (s : State) : (setFmt f s).sec = s.sec := rfl
@[simp] theorem setFmt_pins (f : FmtSt) (s : State) : (setFmt f s).pins = s.pins := rfl
@[simp] theorem setFmt_freeCount (f : FmtSt) (s : State) : (setFmt f s).freeCount = s.freeCount := rfl
@[simp] theorem setFmt_pending (f : FmtSt) (s : State) : (setFmt f s).pending = s.pending := rfl

/-! ## setEnc -/

@[simp] theorem setEnc_regs (e : EncSt) (s : State) : (setEnc e s).regs = s.regs := rfl
@[simp] theorem setEnc_latch (e : EncSt) (s : State) : (setEnc e s).latch = s.latch := rfl
@[simp] theorem setEnc_evt (e : EncSt) (s : State) : (setEnc e s).evt = s.evt := rfl
@[simp] theorem setEnc_core (e : EncSt) (s : State) : (setEnc e s).core = s.core := rfl
@[simp] theorem setEnc_pos (e : EncSt) (s : State) : (setEnc e s).pos = s.pos := rfl
@[simp] theorem setEnc_links (e : EncSt) (s : State) : (setEnc e s).links = s.links := rfl
@[simp] theorem setEnc_que (e : EncSt) (s : State) : (setEnc e s).que = s.que := rfl
@[simp] theorem setEnc_mtr (e : EncSt) (s : State) : (setEnc e s).mtr = s.mtr := rfl
@[simp] theorem setEnc_ten (e : EncSt) (s : State) : (setEnc e s).ten = s.ten := rfl
@[simp] theorem setEnc_vol (e : EncSt) (s : State) : (setEnc e s).vol = s.vol := rfl
@[simp] theorem setEnc_fmt (e : EncSt) (s : State) : (setEnc e s).fmt = s.fmt := rfl
@[simp] theorem setEnc_band (e : EncSt) (s : State) : (setEnc e s).band = s.band := rfl
@[simp] theorem setEnc_enc (e : EncSt) (s : State) : (setEnc e s).enc = e := rfl
@[simp] theorem setEnc_cal (e : EncSt) (s : State) : (setEnc e s).cal = s.cal := rfl
@[simp] theorem setEnc_rch (e : EncSt) (s : State) : (setEnc e s).rch = s.rch := rfl
@[simp] theorem setEnc_cmp (e : EncSt) (s : State) : (setEnc e s).cmp = s.cmp := rfl
@[simp] theorem setEnc_keys (e : EncSt) (s : State) : (setEnc e s).keys = s.keys := rfl
@[simp] theorem setEnc_ciph (e : EncSt) (s : State) : (setEnc e s).ciph = s.ciph := rfl
@[simp] theorem setEnc_mot (e : EncSt) (s : State) : (setEnc e s).mot = s.mot := rfl
@[simp] theorem setEnc_mem (e : EncSt) (s : State) : (setEnc e s).mem = s.mem := rfl
@[simp] theorem setEnc_pool (e : EncSt) (s : State) : (setEnc e s).pool = s.pool := rfl
@[simp] theorem setEnc_fuseMap (e : EncSt) (s : State) : (setEnc e s).fuseMap = s.fuseMap := rfl
@[simp] theorem setEnc_lnk (e : EncSt) (s : State) : (setEnc e s).lnk = s.lnk := rfl
@[simp] theorem setEnc_sec (e : EncSt) (s : State) : (setEnc e s).sec = s.sec := rfl
@[simp] theorem setEnc_pins (e : EncSt) (s : State) : (setEnc e s).pins = s.pins := rfl
@[simp] theorem setEnc_freeCount (e : EncSt) (s : State) : (setEnc e s).freeCount = s.freeCount := rfl
@[simp] theorem setEnc_pending (e : EncSt) (s : State) : (setEnc e s).pending = s.pending := rfl

/-! ## setTenant -/

@[simp] theorem setTenant_regs (n : Nat) (t : Tenant) (s : State) : (setTenant n t s).regs = s.regs := rfl
@[simp] theorem setTenant_latch (n : Nat) (t : Tenant) (s : State) : (setTenant n t s).latch = s.latch := rfl
@[simp] theorem setTenant_evt (n : Nat) (t : Tenant) (s : State) : (setTenant n t s).evt = s.evt := rfl
@[simp] theorem setTenant_core (n : Nat) (t : Tenant) (s : State) : (setTenant n t s).core = s.core := rfl
@[simp] theorem setTenant_pos (n : Nat) (t : Tenant) (s : State) : (setTenant n t s).pos = s.pos := rfl
@[simp] theorem setTenant_links (n : Nat) (t : Tenant) (s : State) : (setTenant n t s).links = s.links := rfl
@[simp] theorem setTenant_que (n : Nat) (t : Tenant) (s : State) : (setTenant n t s).que = s.que := rfl
@[simp] theorem setTenant_mtr (n : Nat) (t : Tenant) (s : State) : (setTenant n t s).mtr = s.mtr := rfl
@[simp] theorem setTenant_ten (n : Nat) (t : Tenant) (s : State) : (setTenant n t s).ten = Tbl.set s.ten n t := rfl
@[simp] theorem setTenant_vol (n : Nat) (t : Tenant) (s : State) : (setTenant n t s).vol = s.vol := rfl
@[simp] theorem setTenant_fmt (n : Nat) (t : Tenant) (s : State) : (setTenant n t s).fmt = s.fmt := rfl
@[simp] theorem setTenant_band (n : Nat) (t : Tenant) (s : State) : (setTenant n t s).band = s.band := rfl
@[simp] theorem setTenant_enc (n : Nat) (t : Tenant) (s : State) : (setTenant n t s).enc = s.enc := rfl
@[simp] theorem setTenant_cal (n : Nat) (t : Tenant) (s : State) : (setTenant n t s).cal = s.cal := rfl
@[simp] theorem setTenant_rch (n : Nat) (t : Tenant) (s : State) : (setTenant n t s).rch = s.rch := rfl
@[simp] theorem setTenant_cmp (n : Nat) (t : Tenant) (s : State) : (setTenant n t s).cmp = s.cmp := rfl
@[simp] theorem setTenant_keys (n : Nat) (t : Tenant) (s : State) : (setTenant n t s).keys = s.keys := rfl
@[simp] theorem setTenant_ciph (n : Nat) (t : Tenant) (s : State) : (setTenant n t s).ciph = s.ciph := rfl
@[simp] theorem setTenant_mot (n : Nat) (t : Tenant) (s : State) : (setTenant n t s).mot = s.mot := rfl
@[simp] theorem setTenant_mem (n : Nat) (t : Tenant) (s : State) : (setTenant n t s).mem = s.mem := rfl
@[simp] theorem setTenant_pool (n : Nat) (t : Tenant) (s : State) : (setTenant n t s).pool = s.pool := rfl
@[simp] theorem setTenant_fuseMap (n : Nat) (t : Tenant) (s : State) : (setTenant n t s).fuseMap = s.fuseMap := rfl
@[simp] theorem setTenant_lnk (n : Nat) (t : Tenant) (s : State) : (setTenant n t s).lnk = s.lnk := rfl
@[simp] theorem setTenant_sec (n : Nat) (t : Tenant) (s : State) : (setTenant n t s).sec = s.sec := rfl
@[simp] theorem setTenant_pins (n : Nat) (t : Tenant) (s : State) : (setTenant n t s).pins = s.pins := rfl
@[simp] theorem setTenant_freeCount (n : Nat) (t : Tenant) (s : State) : (setTenant n t s).freeCount = s.freeCount := rfl
@[simp] theorem setTenant_pending (n : Nat) (t : Tenant) (s : State) : (setTenant n t s).pending = s.pending := rfl

/-! ## setBand -/

@[simp] theorem setBand_regs (b : Nat) (x : BandSt) (s : State) : (setBand b x s).regs = s.regs := rfl
@[simp] theorem setBand_latch (b : Nat) (x : BandSt) (s : State) : (setBand b x s).latch = s.latch := rfl
@[simp] theorem setBand_evt (b : Nat) (x : BandSt) (s : State) : (setBand b x s).evt = s.evt := rfl
@[simp] theorem setBand_core (b : Nat) (x : BandSt) (s : State) : (setBand b x s).core = s.core := rfl
@[simp] theorem setBand_pos (b : Nat) (x : BandSt) (s : State) : (setBand b x s).pos = s.pos := rfl
@[simp] theorem setBand_links (b : Nat) (x : BandSt) (s : State) : (setBand b x s).links = s.links := rfl
@[simp] theorem setBand_que (b : Nat) (x : BandSt) (s : State) : (setBand b x s).que = s.que := rfl
@[simp] theorem setBand_mtr (b : Nat) (x : BandSt) (s : State) : (setBand b x s).mtr = s.mtr := rfl
@[simp] theorem setBand_ten (b : Nat) (x : BandSt) (s : State) : (setBand b x s).ten = s.ten := rfl
@[simp] theorem setBand_vol (b : Nat) (x : BandSt) (s : State) : (setBand b x s).vol = s.vol := rfl
@[simp] theorem setBand_fmt (b : Nat) (x : BandSt) (s : State) : (setBand b x s).fmt = s.fmt := rfl
@[simp] theorem setBand_band (b : Nat) (x : BandSt) (s : State) : (setBand b x s).band = Tbl.set s.band b x := rfl
@[simp] theorem setBand_enc (b : Nat) (x : BandSt) (s : State) : (setBand b x s).enc = s.enc := rfl
@[simp] theorem setBand_cal (b : Nat) (x : BandSt) (s : State) : (setBand b x s).cal = s.cal := rfl
@[simp] theorem setBand_rch (b : Nat) (x : BandSt) (s : State) : (setBand b x s).rch = s.rch := rfl
@[simp] theorem setBand_cmp (b : Nat) (x : BandSt) (s : State) : (setBand b x s).cmp = s.cmp := rfl
@[simp] theorem setBand_keys (b : Nat) (x : BandSt) (s : State) : (setBand b x s).keys = s.keys := rfl
@[simp] theorem setBand_ciph (b : Nat) (x : BandSt) (s : State) : (setBand b x s).ciph = s.ciph := rfl
@[simp] theorem setBand_mot (b : Nat) (x : BandSt) (s : State) : (setBand b x s).mot = s.mot := rfl
@[simp] theorem setBand_mem (b : Nat) (x : BandSt) (s : State) : (setBand b x s).mem = s.mem := rfl
@[simp] theorem setBand_pool (b : Nat) (x : BandSt) (s : State) : (setBand b x s).pool = s.pool := rfl
@[simp] theorem setBand_fuseMap (b : Nat) (x : BandSt) (s : State) : (setBand b x s).fuseMap = s.fuseMap := rfl
@[simp] theorem setBand_lnk (b : Nat) (x : BandSt) (s : State) : (setBand b x s).lnk = s.lnk := rfl
@[simp] theorem setBand_sec (b : Nat) (x : BandSt) (s : State) : (setBand b x s).sec = s.sec := rfl
@[simp] theorem setBand_pins (b : Nat) (x : BandSt) (s : State) : (setBand b x s).pins = s.pins := rfl
@[simp] theorem setBand_freeCount (b : Nat) (x : BandSt) (s : State) : (setBand b x s).freeCount = s.freeCount := rfl
@[simp] theorem setBand_pending (b : Nat) (x : BandSt) (s : State) : (setBand b x s).pending = s.pending := rfl

/-! ## setPos -/

@[simp] theorem setPos_regs (p : PosSt) (s : State) : (setPos p s).regs = s.regs := rfl
@[simp] theorem setPos_latch (p : PosSt) (s : State) : (setPos p s).latch = s.latch := rfl
@[simp] theorem setPos_evt (p : PosSt) (s : State) : (setPos p s).evt = s.evt := rfl
@[simp] theorem setPos_core (p : PosSt) (s : State) : (setPos p s).core = s.core := rfl
@[simp] theorem setPos_pos (p : PosSt) (s : State) : (setPos p s).pos = p := rfl
@[simp] theorem setPos_links (p : PosSt) (s : State) : (setPos p s).links = s.links := rfl
@[simp] theorem setPos_que (p : PosSt) (s : State) : (setPos p s).que = s.que := rfl
@[simp] theorem setPos_mtr (p : PosSt) (s : State) : (setPos p s).mtr = s.mtr := rfl
@[simp] theorem setPos_ten (p : PosSt) (s : State) : (setPos p s).ten = s.ten := rfl
@[simp] theorem setPos_vol (p : PosSt) (s : State) : (setPos p s).vol = s.vol := rfl
@[simp] theorem setPos_fmt (p : PosSt) (s : State) : (setPos p s).fmt = s.fmt := rfl
@[simp] theorem setPos_band (p : PosSt) (s : State) : (setPos p s).band = s.band := rfl
@[simp] theorem setPos_enc (p : PosSt) (s : State) : (setPos p s).enc = s.enc := rfl
@[simp] theorem setPos_cal (p : PosSt) (s : State) : (setPos p s).cal = s.cal := rfl
@[simp] theorem setPos_rch (p : PosSt) (s : State) : (setPos p s).rch = s.rch := rfl
@[simp] theorem setPos_cmp (p : PosSt) (s : State) : (setPos p s).cmp = s.cmp := rfl
@[simp] theorem setPos_keys (p : PosSt) (s : State) : (setPos p s).keys = s.keys := rfl
@[simp] theorem setPos_ciph (p : PosSt) (s : State) : (setPos p s).ciph = s.ciph := rfl
@[simp] theorem setPos_mot (p : PosSt) (s : State) : (setPos p s).mot = s.mot := rfl
@[simp] theorem setPos_mem (p : PosSt) (s : State) : (setPos p s).mem = s.mem := rfl
@[simp] theorem setPos_pool (p : PosSt) (s : State) : (setPos p s).pool = s.pool := rfl
@[simp] theorem setPos_fuseMap (p : PosSt) (s : State) : (setPos p s).fuseMap = s.fuseMap := rfl
@[simp] theorem setPos_lnk (p : PosSt) (s : State) : (setPos p s).lnk = s.lnk := rfl
@[simp] theorem setPos_sec (p : PosSt) (s : State) : (setPos p s).sec = s.sec := rfl
@[simp] theorem setPos_pins (p : PosSt) (s : State) : (setPos p s).pins = s.pins := rfl
@[simp] theorem setPos_freeCount (p : PosSt) (s : State) : (setPos p s).freeCount = s.freeCount := rfl
@[simp] theorem setPos_pending (p : PosSt) (s : State) : (setPos p s).pending = s.pending := rfl

/-! ## setLinks -/

@[simp] theorem setLinks_regs (l : LinkSt) (s : State) : (setLinks l s).regs = s.regs := rfl
@[simp] theorem setLinks_latch (l : LinkSt) (s : State) : (setLinks l s).latch = s.latch := rfl
@[simp] theorem setLinks_evt (l : LinkSt) (s : State) : (setLinks l s).evt = s.evt := rfl
@[simp] theorem setLinks_core (l : LinkSt) (s : State) : (setLinks l s).core = s.core := rfl
@[simp] theorem setLinks_pos (l : LinkSt) (s : State) : (setLinks l s).pos = s.pos := rfl
@[simp] theorem setLinks_links (l : LinkSt) (s : State) : (setLinks l s).links = l := rfl
@[simp] theorem setLinks_que (l : LinkSt) (s : State) : (setLinks l s).que = s.que := rfl
@[simp] theorem setLinks_mtr (l : LinkSt) (s : State) : (setLinks l s).mtr = s.mtr := rfl
@[simp] theorem setLinks_ten (l : LinkSt) (s : State) : (setLinks l s).ten = s.ten := rfl
@[simp] theorem setLinks_vol (l : LinkSt) (s : State) : (setLinks l s).vol = s.vol := rfl
@[simp] theorem setLinks_fmt (l : LinkSt) (s : State) : (setLinks l s).fmt = s.fmt := rfl
@[simp] theorem setLinks_band (l : LinkSt) (s : State) : (setLinks l s).band = s.band := rfl
@[simp] theorem setLinks_enc (l : LinkSt) (s : State) : (setLinks l s).enc = s.enc := rfl
@[simp] theorem setLinks_cal (l : LinkSt) (s : State) : (setLinks l s).cal = s.cal := rfl
@[simp] theorem setLinks_rch (l : LinkSt) (s : State) : (setLinks l s).rch = s.rch := rfl
@[simp] theorem setLinks_cmp (l : LinkSt) (s : State) : (setLinks l s).cmp = s.cmp := rfl
@[simp] theorem setLinks_keys (l : LinkSt) (s : State) : (setLinks l s).keys = s.keys := rfl
@[simp] theorem setLinks_ciph (l : LinkSt) (s : State) : (setLinks l s).ciph = s.ciph := rfl
@[simp] theorem setLinks_mot (l : LinkSt) (s : State) : (setLinks l s).mot = s.mot := rfl
@[simp] theorem setLinks_mem (l : LinkSt) (s : State) : (setLinks l s).mem = s.mem := rfl
@[simp] theorem setLinks_pool (l : LinkSt) (s : State) : (setLinks l s).pool = s.pool := rfl
@[simp] theorem setLinks_fuseMap (l : LinkSt) (s : State) : (setLinks l s).fuseMap = s.fuseMap := rfl
@[simp] theorem setLinks_lnk (l : LinkSt) (s : State) : (setLinks l s).lnk = s.lnk := rfl
@[simp] theorem setLinks_sec (l : LinkSt) (s : State) : (setLinks l s).sec = s.sec := rfl
@[simp] theorem setLinks_pins (l : LinkSt) (s : State) : (setLinks l s).pins = s.pins := rfl
@[simp] theorem setLinks_freeCount (l : LinkSt) (s : State) : (setLinks l s).freeCount = s.freeCount := rfl
@[simp] theorem setLinks_pending (l : LinkSt) (s : State) : (setLinks l s).pending = s.pending := rfl

/-! ## setCmp -/

@[simp] theorem setCmp_regs (c : CmpSt) (s : State) : (setCmp c s).regs = s.regs := rfl
@[simp] theorem setCmp_latch (c : CmpSt) (s : State) : (setCmp c s).latch = s.latch := rfl
@[simp] theorem setCmp_evt (c : CmpSt) (s : State) : (setCmp c s).evt = s.evt := rfl
@[simp] theorem setCmp_core (c : CmpSt) (s : State) : (setCmp c s).core = s.core := rfl
@[simp] theorem setCmp_pos (c : CmpSt) (s : State) : (setCmp c s).pos = s.pos := rfl
@[simp] theorem setCmp_links (c : CmpSt) (s : State) : (setCmp c s).links = s.links := rfl
@[simp] theorem setCmp_que (c : CmpSt) (s : State) : (setCmp c s).que = s.que := rfl
@[simp] theorem setCmp_mtr (c : CmpSt) (s : State) : (setCmp c s).mtr = s.mtr := rfl
@[simp] theorem setCmp_ten (c : CmpSt) (s : State) : (setCmp c s).ten = s.ten := rfl
@[simp] theorem setCmp_vol (c : CmpSt) (s : State) : (setCmp c s).vol = s.vol := rfl
@[simp] theorem setCmp_fmt (c : CmpSt) (s : State) : (setCmp c s).fmt = s.fmt := rfl
@[simp] theorem setCmp_band (c : CmpSt) (s : State) : (setCmp c s).band = s.band := rfl
@[simp] theorem setCmp_enc (c : CmpSt) (s : State) : (setCmp c s).enc = s.enc := rfl
@[simp] theorem setCmp_cal (c : CmpSt) (s : State) : (setCmp c s).cal = s.cal := rfl
@[simp] theorem setCmp_rch (c : CmpSt) (s : State) : (setCmp c s).rch = s.rch := rfl
@[simp] theorem setCmp_cmp (c : CmpSt) (s : State) : (setCmp c s).cmp = c := rfl
@[simp] theorem setCmp_keys (c : CmpSt) (s : State) : (setCmp c s).keys = s.keys := rfl
@[simp] theorem setCmp_ciph (c : CmpSt) (s : State) : (setCmp c s).ciph = s.ciph := rfl
@[simp] theorem setCmp_mot (c : CmpSt) (s : State) : (setCmp c s).mot = s.mot := rfl
@[simp] theorem setCmp_mem (c : CmpSt) (s : State) : (setCmp c s).mem = s.mem := rfl
@[simp] theorem setCmp_pool (c : CmpSt) (s : State) : (setCmp c s).pool = s.pool := rfl
@[simp] theorem setCmp_fuseMap (c : CmpSt) (s : State) : (setCmp c s).fuseMap = s.fuseMap := rfl
@[simp] theorem setCmp_lnk (c : CmpSt) (s : State) : (setCmp c s).lnk = s.lnk := rfl
@[simp] theorem setCmp_sec (c : CmpSt) (s : State) : (setCmp c s).sec = s.sec := rfl
@[simp] theorem setCmp_pins (c : CmpSt) (s : State) : (setCmp c s).pins = s.pins := rfl
@[simp] theorem setCmp_freeCount (c : CmpSt) (s : State) : (setCmp c s).freeCount = s.freeCount := rfl
@[simp] theorem setCmp_pending (c : CmpSt) (s : State) : (setCmp c s).pending = s.pending := rfl

/-! ## setMem -/

@[simp] theorem setMem_regs (m : MemSt) (s : State) : (setMem m s).regs = s.regs := rfl
@[simp] theorem setMem_latch (m : MemSt) (s : State) : (setMem m s).latch = s.latch := rfl
@[simp] theorem setMem_evt (m : MemSt) (s : State) : (setMem m s).evt = s.evt := rfl
@[simp] theorem setMem_core (m : MemSt) (s : State) : (setMem m s).core = s.core := rfl
@[simp] theorem setMem_pos (m : MemSt) (s : State) : (setMem m s).pos = s.pos := rfl
@[simp] theorem setMem_links (m : MemSt) (s : State) : (setMem m s).links = s.links := rfl
@[simp] theorem setMem_que (m : MemSt) (s : State) : (setMem m s).que = s.que := rfl
@[simp] theorem setMem_mtr (m : MemSt) (s : State) : (setMem m s).mtr = s.mtr := rfl
@[simp] theorem setMem_ten (m : MemSt) (s : State) : (setMem m s).ten = s.ten := rfl
@[simp] theorem setMem_vol (m : MemSt) (s : State) : (setMem m s).vol = s.vol := rfl
@[simp] theorem setMem_fmt (m : MemSt) (s : State) : (setMem m s).fmt = s.fmt := rfl
@[simp] theorem setMem_band (m : MemSt) (s : State) : (setMem m s).band = s.band := rfl
@[simp] theorem setMem_enc (m : MemSt) (s : State) : (setMem m s).enc = s.enc := rfl
@[simp] theorem setMem_cal (m : MemSt) (s : State) : (setMem m s).cal = s.cal := rfl
@[simp] theorem setMem_rch (m : MemSt) (s : State) : (setMem m s).rch = s.rch := rfl
@[simp] theorem setMem_cmp (m : MemSt) (s : State) : (setMem m s).cmp = s.cmp := rfl
@[simp] theorem setMem_keys (m : MemSt) (s : State) : (setMem m s).keys = s.keys := rfl
@[simp] theorem setMem_ciph (m : MemSt) (s : State) : (setMem m s).ciph = s.ciph := rfl
@[simp] theorem setMem_mot (m : MemSt) (s : State) : (setMem m s).mot = s.mot := rfl
@[simp] theorem setMem_mem (m : MemSt) (s : State) : (setMem m s).mem = m := rfl
@[simp] theorem setMem_pool (m : MemSt) (s : State) : (setMem m s).pool = s.pool := rfl
@[simp] theorem setMem_fuseMap (m : MemSt) (s : State) : (setMem m s).fuseMap = s.fuseMap := rfl
@[simp] theorem setMem_lnk (m : MemSt) (s : State) : (setMem m s).lnk = s.lnk := rfl
@[simp] theorem setMem_sec (m : MemSt) (s : State) : (setMem m s).sec = s.sec := rfl
@[simp] theorem setMem_pins (m : MemSt) (s : State) : (setMem m s).pins = s.pins := rfl
@[simp] theorem setMem_freeCount (m : MemSt) (s : State) : (setMem m s).freeCount = s.freeCount := rfl
@[simp] theorem setMem_pending (m : MemSt) (s : State) : (setMem m s).pending = s.pending := rfl

/-! ## setPool -/

@[simp] theorem setPool_regs (p : PoolSt) (s : State) : (setPool p s).regs = s.regs := rfl
@[simp] theorem setPool_latch (p : PoolSt) (s : State) : (setPool p s).latch = s.latch := rfl
@[simp] theorem setPool_evt (p : PoolSt) (s : State) : (setPool p s).evt = s.evt := rfl
@[simp] theorem setPool_core (p : PoolSt) (s : State) : (setPool p s).core = s.core := rfl
@[simp] theorem setPool_pos (p : PoolSt) (s : State) : (setPool p s).pos = s.pos := rfl
@[simp] theorem setPool_links (p : PoolSt) (s : State) : (setPool p s).links = s.links := rfl
@[simp] theorem setPool_que (p : PoolSt) (s : State) : (setPool p s).que = s.que := rfl
@[simp] theorem setPool_mtr (p : PoolSt) (s : State) : (setPool p s).mtr = s.mtr := rfl
@[simp] theorem setPool_ten (p : PoolSt) (s : State) : (setPool p s).ten = s.ten := rfl
@[simp] theorem setPool_vol (p : PoolSt) (s : State) : (setPool p s).vol = s.vol := rfl
@[simp] theorem setPool_fmt (p : PoolSt) (s : State) : (setPool p s).fmt = s.fmt := rfl
@[simp] theorem setPool_band (p : PoolSt) (s : State) : (setPool p s).band = s.band := rfl
@[simp] theorem setPool_enc (p : PoolSt) (s : State) : (setPool p s).enc = s.enc := rfl
@[simp] theorem setPool_cal (p : PoolSt) (s : State) : (setPool p s).cal = s.cal := rfl
@[simp] theorem setPool_rch (p : PoolSt) (s : State) : (setPool p s).rch = s.rch := rfl
@[simp] theorem setPool_cmp (p : PoolSt) (s : State) : (setPool p s).cmp = s.cmp := rfl
@[simp] theorem setPool_keys (p : PoolSt) (s : State) : (setPool p s).keys = s.keys := rfl
@[simp] theorem setPool_ciph (p : PoolSt) (s : State) : (setPool p s).ciph = s.ciph := rfl
@[simp] theorem setPool_mot (p : PoolSt) (s : State) : (setPool p s).mot = s.mot := rfl
@[simp] theorem setPool_mem (p : PoolSt) (s : State) : (setPool p s).mem = s.mem := rfl
@[simp] theorem setPool_pool (p : PoolSt) (s : State) : (setPool p s).pool = p := rfl
@[simp] theorem setPool_fuseMap (p : PoolSt) (s : State) : (setPool p s).fuseMap = s.fuseMap := rfl
@[simp] theorem setPool_lnk (p : PoolSt) (s : State) : (setPool p s).lnk = s.lnk := rfl
@[simp] theorem setPool_sec (p : PoolSt) (s : State) : (setPool p s).sec = s.sec := rfl
@[simp] theorem setPool_pins (p : PoolSt) (s : State) : (setPool p s).pins = s.pins := rfl
@[simp] theorem setPool_freeCount (p : PoolSt) (s : State) : (setPool p s).freeCount = s.freeCount := rfl
@[simp] theorem setPool_pending (p : PoolSt) (s : State) : (setPool p s).pending = s.pending := rfl

/-! ## setKeys -/

@[simp] theorem setKeys_regs (k : KeySt) (s : State) : (setKeys k s).regs = s.regs := rfl
@[simp] theorem setKeys_latch (k : KeySt) (s : State) : (setKeys k s).latch = s.latch := rfl
@[simp] theorem setKeys_evt (k : KeySt) (s : State) : (setKeys k s).evt = s.evt := rfl
@[simp] theorem setKeys_core (k : KeySt) (s : State) : (setKeys k s).core = s.core := rfl
@[simp] theorem setKeys_pos (k : KeySt) (s : State) : (setKeys k s).pos = s.pos := rfl
@[simp] theorem setKeys_links (k : KeySt) (s : State) : (setKeys k s).links = s.links := rfl
@[simp] theorem setKeys_que (k : KeySt) (s : State) : (setKeys k s).que = s.que := rfl
@[simp] theorem setKeys_mtr (k : KeySt) (s : State) : (setKeys k s).mtr = s.mtr := rfl
@[simp] theorem setKeys_ten (k : KeySt) (s : State) : (setKeys k s).ten = s.ten := rfl
@[simp] theorem setKeys_vol (k : KeySt) (s : State) : (setKeys k s).vol = s.vol := rfl
@[simp] theorem setKeys_fmt (k : KeySt) (s : State) : (setKeys k s).fmt = s.fmt := rfl
@[simp] theorem setKeys_band (k : KeySt) (s : State) : (setKeys k s).band = s.band := rfl
@[simp] theorem setKeys_enc (k : KeySt) (s : State) : (setKeys k s).enc = s.enc := rfl
@[simp] theorem setKeys_cal (k : KeySt) (s : State) : (setKeys k s).cal = s.cal := rfl
@[simp] theorem setKeys_rch (k : KeySt) (s : State) : (setKeys k s).rch = s.rch := rfl
@[simp] theorem setKeys_cmp (k : KeySt) (s : State) : (setKeys k s).cmp = s.cmp := rfl
@[simp] theorem setKeys_keys (k : KeySt) (s : State) : (setKeys k s).keys = k := rfl
@[simp] theorem setKeys_ciph (k : KeySt) (s : State) : (setKeys k s).ciph = s.ciph := rfl
@[simp] theorem setKeys_mot (k : KeySt) (s : State) : (setKeys k s).mot = s.mot := rfl
@[simp] theorem setKeys_mem (k : KeySt) (s : State) : (setKeys k s).mem = s.mem := rfl
@[simp] theorem setKeys_pool (k : KeySt) (s : State) : (setKeys k s).pool = s.pool := rfl
@[simp] theorem setKeys_fuseMap (k : KeySt) (s : State) : (setKeys k s).fuseMap = s.fuseMap := rfl
@[simp] theorem setKeys_lnk (k : KeySt) (s : State) : (setKeys k s).lnk = s.lnk := rfl
@[simp] theorem setKeys_sec (k : KeySt) (s : State) : (setKeys k s).sec = s.sec := rfl
@[simp] theorem setKeys_pins (k : KeySt) (s : State) : (setKeys k s).pins = s.pins := rfl
@[simp] theorem setKeys_freeCount (k : KeySt) (s : State) : (setKeys k s).freeCount = s.freeCount := rfl
@[simp] theorem setKeys_pending (k : KeySt) (s : State) : (setKeys k s).pending = s.pending := rfl

/-! ## setRch -/

@[simp] theorem setRch_regs (r : ReadSt) (s : State) : (setRch r s).regs = s.regs := rfl
@[simp] theorem setRch_latch (r : ReadSt) (s : State) : (setRch r s).latch = s.latch := rfl
@[simp] theorem setRch_evt (r : ReadSt) (s : State) : (setRch r s).evt = s.evt := rfl
@[simp] theorem setRch_core (r : ReadSt) (s : State) : (setRch r s).core = s.core := rfl
@[simp] theorem setRch_pos (r : ReadSt) (s : State) : (setRch r s).pos = s.pos := rfl
@[simp] theorem setRch_links (r : ReadSt) (s : State) : (setRch r s).links = s.links := rfl
@[simp] theorem setRch_que (r : ReadSt) (s : State) : (setRch r s).que = s.que := rfl
@[simp] theorem setRch_mtr (r : ReadSt) (s : State) : (setRch r s).mtr = s.mtr := rfl
@[simp] theorem setRch_ten (r : ReadSt) (s : State) : (setRch r s).ten = s.ten := rfl
@[simp] theorem setRch_vol (r : ReadSt) (s : State) : (setRch r s).vol = s.vol := rfl
@[simp] theorem setRch_fmt (r : ReadSt) (s : State) : (setRch r s).fmt = s.fmt := rfl
@[simp] theorem setRch_band (r : ReadSt) (s : State) : (setRch r s).band = s.band := rfl
@[simp] theorem setRch_enc (r : ReadSt) (s : State) : (setRch r s).enc = s.enc := rfl
@[simp] theorem setRch_cal (r : ReadSt) (s : State) : (setRch r s).cal = s.cal := rfl
@[simp] theorem setRch_rch (r : ReadSt) (s : State) : (setRch r s).rch = r := rfl
@[simp] theorem setRch_cmp (r : ReadSt) (s : State) : (setRch r s).cmp = s.cmp := rfl
@[simp] theorem setRch_keys (r : ReadSt) (s : State) : (setRch r s).keys = s.keys := rfl
@[simp] theorem setRch_ciph (r : ReadSt) (s : State) : (setRch r s).ciph = s.ciph := rfl
@[simp] theorem setRch_mot (r : ReadSt) (s : State) : (setRch r s).mot = s.mot := rfl
@[simp] theorem setRch_mem (r : ReadSt) (s : State) : (setRch r s).mem = s.mem := rfl
@[simp] theorem setRch_pool (r : ReadSt) (s : State) : (setRch r s).pool = s.pool := rfl
@[simp] theorem setRch_fuseMap (r : ReadSt) (s : State) : (setRch r s).fuseMap = s.fuseMap := rfl
@[simp] theorem setRch_lnk (r : ReadSt) (s : State) : (setRch r s).lnk = s.lnk := rfl
@[simp] theorem setRch_sec (r : ReadSt) (s : State) : (setRch r s).sec = s.sec := rfl
@[simp] theorem setRch_pins (r : ReadSt) (s : State) : (setRch r s).pins = s.pins := rfl
@[simp] theorem setRch_freeCount (r : ReadSt) (s : State) : (setRch r s).freeCount = s.freeCount := rfl
@[simp] theorem setRch_pending (r : ReadSt) (s : State) : (setRch r s).pending = s.pending := rfl

/-! ## setCal -/

@[simp] theorem setCal_regs (c : CalSt) (s : State) : (setCal c s).regs = s.regs := rfl
@[simp] theorem setCal_latch (c : CalSt) (s : State) : (setCal c s).latch = s.latch := rfl
@[simp] theorem setCal_evt (c : CalSt) (s : State) : (setCal c s).evt = s.evt := rfl
@[simp] theorem setCal_core (c : CalSt) (s : State) : (setCal c s).core = s.core := rfl
@[simp] theorem setCal_pos (c : CalSt) (s : State) : (setCal c s).pos = s.pos := rfl
@[simp] theorem setCal_links (c : CalSt) (s : State) : (setCal c s).links = s.links := rfl
@[simp] theorem setCal_que (c : CalSt) (s : State) : (setCal c s).que = s.que := rfl
@[simp] theorem setCal_mtr (c : CalSt) (s : State) : (setCal c s).mtr = s.mtr := rfl
@[simp] theorem setCal_ten (c : CalSt) (s : State) : (setCal c s).ten = s.ten := rfl
@[simp] theorem setCal_vol (c : CalSt) (s : State) : (setCal c s).vol = s.vol := rfl
@[simp] theorem setCal_fmt (c : CalSt) (s : State) : (setCal c s).fmt = s.fmt := rfl
@[simp] theorem setCal_band (c : CalSt) (s : State) : (setCal c s).band = s.band := rfl
@[simp] theorem setCal_enc (c : CalSt) (s : State) : (setCal c s).enc = s.enc := rfl
@[simp] theorem setCal_cal (c : CalSt) (s : State) : (setCal c s).cal = c := rfl
@[simp] theorem setCal_rch (c : CalSt) (s : State) : (setCal c s).rch = s.rch := rfl
@[simp] theorem setCal_cmp (c : CalSt) (s : State) : (setCal c s).cmp = s.cmp := rfl
@[simp] theorem setCal_keys (c : CalSt) (s : State) : (setCal c s).keys = s.keys := rfl
@[simp] theorem setCal_ciph (c : CalSt) (s : State) : (setCal c s).ciph = s.ciph := rfl
@[simp] theorem setCal_mot (c : CalSt) (s : State) : (setCal c s).mot = s.mot := rfl
@[simp] theorem setCal_mem (c : CalSt) (s : State) : (setCal c s).mem = s.mem := rfl
@[simp] theorem setCal_pool (c : CalSt) (s : State) : (setCal c s).pool = s.pool := rfl
@[simp] theorem setCal_fuseMap (c : CalSt) (s : State) : (setCal c s).fuseMap = s.fuseMap := rfl
@[simp] theorem setCal_lnk (c : CalSt) (s : State) : (setCal c s).lnk = s.lnk := rfl
@[simp] theorem setCal_sec (c : CalSt) (s : State) : (setCal c s).sec = s.sec := rfl
@[simp] theorem setCal_pins (c : CalSt) (s : State) : (setCal c s).pins = s.pins := rfl
@[simp] theorem setCal_freeCount (c : CalSt) (s : State) : (setCal c s).freeCount = s.freeCount := rfl
@[simp] theorem setCal_pending (c : CalSt) (s : State) : (setCal c s).pending = s.pending := rfl

/-! ## setCore -/

@[simp] theorem setCore_regs (c : CoreSt) (s : State) : (setCore c s).regs = s.regs := rfl
@[simp] theorem setCore_latch (c : CoreSt) (s : State) : (setCore c s).latch = s.latch := rfl
@[simp] theorem setCore_evt (c : CoreSt) (s : State) : (setCore c s).evt = s.evt := rfl
@[simp] theorem setCore_core (c : CoreSt) (s : State) : (setCore c s).core = c := rfl
@[simp] theorem setCore_pos (c : CoreSt) (s : State) : (setCore c s).pos = s.pos := rfl
@[simp] theorem setCore_links (c : CoreSt) (s : State) : (setCore c s).links = s.links := rfl
@[simp] theorem setCore_que (c : CoreSt) (s : State) : (setCore c s).que = s.que := rfl
@[simp] theorem setCore_mtr (c : CoreSt) (s : State) : (setCore c s).mtr = s.mtr := rfl
@[simp] theorem setCore_ten (c : CoreSt) (s : State) : (setCore c s).ten = s.ten := rfl
@[simp] theorem setCore_vol (c : CoreSt) (s : State) : (setCore c s).vol = s.vol := rfl
@[simp] theorem setCore_fmt (c : CoreSt) (s : State) : (setCore c s).fmt = s.fmt := rfl
@[simp] theorem setCore_band (c : CoreSt) (s : State) : (setCore c s).band = s.band := rfl
@[simp] theorem setCore_enc (c : CoreSt) (s : State) : (setCore c s).enc = s.enc := rfl
@[simp] theorem setCore_cal (c : CoreSt) (s : State) : (setCore c s).cal = s.cal := rfl
@[simp] theorem setCore_rch (c : CoreSt) (s : State) : (setCore c s).rch = s.rch := rfl
@[simp] theorem setCore_cmp (c : CoreSt) (s : State) : (setCore c s).cmp = s.cmp := rfl
@[simp] theorem setCore_keys (c : CoreSt) (s : State) : (setCore c s).keys = s.keys := rfl
@[simp] theorem setCore_ciph (c : CoreSt) (s : State) : (setCore c s).ciph = s.ciph := rfl
@[simp] theorem setCore_mot (c : CoreSt) (s : State) : (setCore c s).mot = s.mot := rfl
@[simp] theorem setCore_mem (c : CoreSt) (s : State) : (setCore c s).mem = s.mem := rfl
@[simp] theorem setCore_pool (c : CoreSt) (s : State) : (setCore c s).pool = s.pool := rfl
@[simp] theorem setCore_fuseMap (c : CoreSt) (s : State) : (setCore c s).fuseMap = s.fuseMap := rfl
@[simp] theorem setCore_lnk (c : CoreSt) (s : State) : (setCore c s).lnk = s.lnk := rfl
@[simp] theorem setCore_sec (c : CoreSt) (s : State) : (setCore c s).sec = s.sec := rfl
@[simp] theorem setCore_pins (c : CoreSt) (s : State) : (setCore c s).pins = s.pins := rfl
@[simp] theorem setCore_freeCount (c : CoreSt) (s : State) : (setCore c s).freeCount = s.freeCount := rfl
@[simp] theorem setCore_pending (c : CoreSt) (s : State) : (setCore c s).pending = s.pending := rfl

/-! ## setLnk -/

@[simp] theorem setLnk_regs (l : EpbxSt) (s : State) : (setLnk l s).regs = s.regs := rfl
@[simp] theorem setLnk_latch (l : EpbxSt) (s : State) : (setLnk l s).latch = s.latch := rfl
@[simp] theorem setLnk_evt (l : EpbxSt) (s : State) : (setLnk l s).evt = s.evt := rfl
@[simp] theorem setLnk_core (l : EpbxSt) (s : State) : (setLnk l s).core = s.core := rfl
@[simp] theorem setLnk_pos (l : EpbxSt) (s : State) : (setLnk l s).pos = s.pos := rfl
@[simp] theorem setLnk_links (l : EpbxSt) (s : State) : (setLnk l s).links = s.links := rfl
@[simp] theorem setLnk_que (l : EpbxSt) (s : State) : (setLnk l s).que = s.que := rfl
@[simp] theorem setLnk_mtr (l : EpbxSt) (s : State) : (setLnk l s).mtr = s.mtr := rfl
@[simp] theorem setLnk_ten (l : EpbxSt) (s : State) : (setLnk l s).ten = s.ten := rfl
@[simp] theorem setLnk_vol (l : EpbxSt) (s : State) : (setLnk l s).vol = s.vol := rfl
@[simp] theorem setLnk_fmt (l : EpbxSt) (s : State) : (setLnk l s).fmt = s.fmt := rfl
@[simp] theorem setLnk_band (l : EpbxSt) (s : State) : (setLnk l s).band = s.band := rfl
@[simp] theorem setLnk_enc (l : EpbxSt) (s : State) : (setLnk l s).enc = s.enc := rfl
@[simp] theorem setLnk_cal (l : EpbxSt) (s : State) : (setLnk l s).cal = s.cal := rfl
@[simp] theorem setLnk_rch (l : EpbxSt) (s : State) : (setLnk l s).rch = s.rch := rfl
@[simp] theorem setLnk_cmp (l : EpbxSt) (s : State) : (setLnk l s).cmp = s.cmp := rfl
@[simp] theorem setLnk_keys (l : EpbxSt) (s : State) : (setLnk l s).keys = s.keys := rfl
@[simp] theorem setLnk_ciph (l : EpbxSt) (s : State) : (setLnk l s).ciph = s.ciph := rfl
@[simp] theorem setLnk_mot (l : EpbxSt) (s : State) : (setLnk l s).mot = s.mot := rfl
@[simp] theorem setLnk_mem (l : EpbxSt) (s : State) : (setLnk l s).mem = s.mem := rfl
@[simp] theorem setLnk_pool (l : EpbxSt) (s : State) : (setLnk l s).pool = s.pool := rfl
@[simp] theorem setLnk_fuseMap (l : EpbxSt) (s : State) : (setLnk l s).fuseMap = s.fuseMap := rfl
@[simp] theorem setLnk_lnk (l : EpbxSt) (s : State) : (setLnk l s).lnk = l := rfl
@[simp] theorem setLnk_sec (l : EpbxSt) (s : State) : (setLnk l s).sec = s.sec := rfl
@[simp] theorem setLnk_pins (l : EpbxSt) (s : State) : (setLnk l s).pins = s.pins := rfl
@[simp] theorem setLnk_freeCount (l : EpbxSt) (s : State) : (setLnk l s).freeCount = s.freeCount := rfl
@[simp] theorem setLnk_pending (l : EpbxSt) (s : State) : (setLnk l s).pending = s.pending := rfl

/-! ## setSec -/

@[simp] theorem setSec_regs (x : SecSt) (s : State) : (setSec x s).regs = s.regs := rfl
@[simp] theorem setSec_latch (x : SecSt) (s : State) : (setSec x s).latch = s.latch := rfl
@[simp] theorem setSec_evt (x : SecSt) (s : State) : (setSec x s).evt = s.evt := rfl
@[simp] theorem setSec_core (x : SecSt) (s : State) : (setSec x s).core = s.core := rfl
@[simp] theorem setSec_pos (x : SecSt) (s : State) : (setSec x s).pos = s.pos := rfl
@[simp] theorem setSec_links (x : SecSt) (s : State) : (setSec x s).links = s.links := rfl
@[simp] theorem setSec_que (x : SecSt) (s : State) : (setSec x s).que = s.que := rfl
@[simp] theorem setSec_mtr (x : SecSt) (s : State) : (setSec x s).mtr = s.mtr := rfl
@[simp] theorem setSec_ten (x : SecSt) (s : State) : (setSec x s).ten = s.ten := rfl
@[simp] theorem setSec_vol (x : SecSt) (s : State) : (setSec x s).vol = s.vol := rfl
@[simp] theorem setSec_fmt (x : SecSt) (s : State) : (setSec x s).fmt = s.fmt := rfl
@[simp] theorem setSec_band (x : SecSt) (s : State) : (setSec x s).band = s.band := rfl
@[simp] theorem setSec_enc (x : SecSt) (s : State) : (setSec x s).enc = s.enc := rfl
@[simp] theorem setSec_cal (x : SecSt) (s : State) : (setSec x s).cal = s.cal := rfl
@[simp] theorem setSec_rch (x : SecSt) (s : State) : (setSec x s).rch = s.rch := rfl
@[simp] theorem setSec_cmp (x : SecSt) (s : State) : (setSec x s).cmp = s.cmp := rfl
@[simp] theorem setSec_keys (x : SecSt) (s : State) : (setSec x s).keys = s.keys := rfl
@[simp] theorem setSec_ciph (x : SecSt) (s : State) : (setSec x s).ciph = s.ciph := rfl
@[simp] theorem setSec_mot (x : SecSt) (s : State) : (setSec x s).mot = s.mot := rfl
@[simp] theorem setSec_mem (x : SecSt) (s : State) : (setSec x s).mem = s.mem := rfl
@[simp] theorem setSec_pool (x : SecSt) (s : State) : (setSec x s).pool = s.pool := rfl
@[simp] theorem setSec_fuseMap (x : SecSt) (s : State) : (setSec x s).fuseMap = s.fuseMap := rfl
@[simp] theorem setSec_lnk (x : SecSt) (s : State) : (setSec x s).lnk = s.lnk := rfl
@[simp] theorem setSec_sec (x : SecSt) (s : State) : (setSec x s).sec = x := rfl
@[simp] theorem setSec_pins (x : SecSt) (s : State) : (setSec x s).pins = s.pins := rfl
@[simp] theorem setSec_freeCount (x : SecSt) (s : State) : (setSec x s).freeCount = s.freeCount := rfl
@[simp] theorem setSec_pending (x : SecSt) (s : State) : (setSec x s).pending = s.pending := rfl

/-! ## setCiph -/

@[simp] theorem setCiph_regs (c : CiphSt) (s : State) : (setCiph c s).regs = s.regs := rfl
@[simp] theorem setCiph_latch (c : CiphSt) (s : State) : (setCiph c s).latch = s.latch := rfl
@[simp] theorem setCiph_evt (c : CiphSt) (s : State) : (setCiph c s).evt = s.evt := rfl
@[simp] theorem setCiph_core (c : CiphSt) (s : State) : (setCiph c s).core = s.core := rfl
@[simp] theorem setCiph_pos (c : CiphSt) (s : State) : (setCiph c s).pos = s.pos := rfl
@[simp] theorem setCiph_links (c : CiphSt) (s : State) : (setCiph c s).links = s.links := rfl
@[simp] theorem setCiph_que (c : CiphSt) (s : State) : (setCiph c s).que = s.que := rfl
@[simp] theorem setCiph_mtr (c : CiphSt) (s : State) : (setCiph c s).mtr = s.mtr := rfl
@[simp] theorem setCiph_ten (c : CiphSt) (s : State) : (setCiph c s).ten = s.ten := rfl
@[simp] theorem setCiph_vol (c : CiphSt) (s : State) : (setCiph c s).vol = s.vol := rfl
@[simp] theorem setCiph_fmt (c : CiphSt) (s : State) : (setCiph c s).fmt = s.fmt := rfl
@[simp] theorem setCiph_band (c : CiphSt) (s : State) : (setCiph c s).band = s.band := rfl
@[simp] theorem setCiph_enc (c : CiphSt) (s : State) : (setCiph c s).enc = s.enc := rfl
@[simp] theorem setCiph_cal (c : CiphSt) (s : State) : (setCiph c s).cal = s.cal := rfl
@[simp] theorem setCiph_rch (c : CiphSt) (s : State) : (setCiph c s).rch = s.rch := rfl
@[simp] theorem setCiph_cmp (c : CiphSt) (s : State) : (setCiph c s).cmp = s.cmp := rfl
@[simp] theorem setCiph_keys (c : CiphSt) (s : State) : (setCiph c s).keys = s.keys := rfl
@[simp] theorem setCiph_ciph (c : CiphSt) (s : State) : (setCiph c s).ciph = c := rfl
@[simp] theorem setCiph_mot (c : CiphSt) (s : State) : (setCiph c s).mot = s.mot := rfl
@[simp] theorem setCiph_mem (c : CiphSt) (s : State) : (setCiph c s).mem = s.mem := rfl
@[simp] theorem setCiph_pool (c : CiphSt) (s : State) : (setCiph c s).pool = s.pool := rfl
@[simp] theorem setCiph_fuseMap (c : CiphSt) (s : State) : (setCiph c s).fuseMap = s.fuseMap := rfl
@[simp] theorem setCiph_lnk (c : CiphSt) (s : State) : (setCiph c s).lnk = s.lnk := rfl
@[simp] theorem setCiph_sec (c : CiphSt) (s : State) : (setCiph c s).sec = s.sec := rfl
@[simp] theorem setCiph_pins (c : CiphSt) (s : State) : (setCiph c s).pins = s.pins := rfl
@[simp] theorem setCiph_freeCount (c : CiphSt) (s : State) : (setCiph c s).freeCount = s.freeCount := rfl
@[simp] theorem setCiph_pending (c : CiphSt) (s : State) : (setCiph c s).pending = s.pending := rfl

/-! ## setMot -/

@[simp] theorem setMot_regs (m : MotionSt) (s : State) : (setMot m s).regs = s.regs := rfl
@[simp] theorem setMot_latch (m : MotionSt) (s : State) : (setMot m s).latch = s.latch := rfl
@[simp] theorem setMot_evt (m : MotionSt) (s : State) : (setMot m s).evt = s.evt := rfl
@[simp] theorem setMot_core (m : MotionSt) (s : State) : (setMot m s).core = s.core := rfl
@[simp] theorem setMot_pos (m : MotionSt) (s : State) : (setMot m s).pos = s.pos := rfl
@[simp] theorem setMot_links (m : MotionSt) (s : State) : (setMot m s).links = s.links := rfl
@[simp] theorem setMot_que (m : MotionSt) (s : State) : (setMot m s).que = s.que := rfl
@[simp] theorem setMot_mtr (m : MotionSt) (s : State) : (setMot m s).mtr = s.mtr := rfl
@[simp] theorem setMot_ten (m : MotionSt) (s : State) : (setMot m s).ten = s.ten := rfl
@[simp] theorem setMot_vol (m : MotionSt) (s : State) : (setMot m s).vol = s.vol := rfl
@[simp] theorem setMot_fmt (m : MotionSt) (s : State) : (setMot m s).fmt = s.fmt := rfl
@[simp] theorem setMot_band (m : MotionSt) (s : State) : (setMot m s).band = s.band := rfl
@[simp] theorem setMot_enc (m : MotionSt) (s : State) : (setMot m s).enc = s.enc := rfl
@[simp] theorem setMot_cal (m : MotionSt) (s : State) : (setMot m s).cal = s.cal := rfl
@[simp] theorem setMot_rch (m : MotionSt) (s : State) : (setMot m s).rch = s.rch := rfl
@[simp] theorem setMot_cmp (m : MotionSt) (s : State) : (setMot m s).cmp = s.cmp := rfl
@[simp] theorem setMot_keys (m : MotionSt) (s : State) : (setMot m s).keys = s.keys := rfl
@[simp] theorem setMot_ciph (m : MotionSt) (s : State) : (setMot m s).ciph = s.ciph := rfl
@[simp] theorem setMot_mot (m : MotionSt) (s : State) : (setMot m s).mot = m := rfl
@[simp] theorem setMot_mem (m : MotionSt) (s : State) : (setMot m s).mem = s.mem := rfl
@[simp] theorem setMot_pool (m : MotionSt) (s : State) : (setMot m s).pool = s.pool := rfl
@[simp] theorem setMot_fuseMap (m : MotionSt) (s : State) : (setMot m s).fuseMap = s.fuseMap := rfl
@[simp] theorem setMot_lnk (m : MotionSt) (s : State) : (setMot m s).lnk = s.lnk := rfl
@[simp] theorem setMot_sec (m : MotionSt) (s : State) : (setMot m s).sec = s.sec := rfl
@[simp] theorem setMot_pins (m : MotionSt) (s : State) : (setMot m s).pins = s.pins := rfl
@[simp] theorem setMot_freeCount (m : MotionSt) (s : State) : (setMot m s).freeCount = s.freeCount := rfl
@[simp] theorem setMot_pending (m : MotionSt) (s : State) : (setMot m s).pending = s.pending := rfl

/-! ## setRails -/

@[simp] theorem setRails_regs (rails : Nat) (s : State) : (setRails rails s).regs = s.regs := rfl
@[simp] theorem setRails_latch (rails : Nat) (s : State) : (setRails rails s).latch = s.latch := rfl
@[simp] theorem setRails_evt (rails : Nat) (s : State) : (setRails rails s).evt = s.evt := rfl
@[simp] theorem setRails_core (rails : Nat) (s : State) : (setRails rails s).core = s.core := rfl
@[simp] theorem setRails_pos (rails : Nat) (s : State) : (setRails rails s).pos = s.pos := rfl
@[simp] theorem setRails_links (rails : Nat) (s : State) : (setRails rails s).links = s.links := rfl
@[simp] theorem setRails_que (rails : Nat) (s : State) : (setRails rails s).que = s.que := rfl
@[simp] theorem setRails_mtr (rails : Nat) (s : State) : (setRails rails s).mtr = s.mtr := rfl
@[simp] theorem setRails_ten (rails : Nat) (s : State) : (setRails rails s).ten = s.ten := rfl
@[simp] theorem setRails_vol (rails : Nat) (s : State) : (setRails rails s).vol = s.vol := rfl
@[simp] theorem setRails_fmt (rails : Nat) (s : State) : (setRails rails s).fmt = s.fmt := rfl
@[simp] theorem setRails_band (rails : Nat) (s : State) : (setRails rails s).band = s.band := rfl
@[simp] theorem setRails_enc (rails : Nat) (s : State) : (setRails rails s).enc = s.enc := rfl
@[simp] theorem setRails_cal (rails : Nat) (s : State) : (setRails rails s).cal = s.cal := rfl
@[simp] theorem setRails_rch (rails : Nat) (s : State) : (setRails rails s).rch = s.rch := rfl
@[simp] theorem setRails_cmp (rails : Nat) (s : State) : (setRails rails s).cmp = s.cmp := rfl
@[simp] theorem setRails_keys (rails : Nat) (s : State) : (setRails rails s).keys = s.keys := rfl
@[simp] theorem setRails_ciph (rails : Nat) (s : State) : (setRails rails s).ciph = s.ciph := rfl
@[simp] theorem setRails_mot (rails : Nat) (s : State) : (setRails rails s).mot = s.mot := rfl
@[simp] theorem setRails_mem (rails : Nat) (s : State) : (setRails rails s).mem = s.mem := rfl
@[simp] theorem setRails_pool (rails : Nat) (s : State) : (setRails rails s).pool = s.pool := rfl
@[simp] theorem setRails_fuseMap (rails : Nat) (s : State) : (setRails rails s).fuseMap = s.fuseMap := rfl
@[simp] theorem setRails_lnk (rails : Nat) (s : State) : (setRails rails s).lnk = s.lnk := rfl
@[simp] theorem setRails_sec (rails : Nat) (s : State) : (setRails rails s).sec = s.sec := rfl
@[simp] theorem setRails_pins (rails : Nat) (s : State) : (setRails rails s).pins = { s.pins with rails := rails } := rfl
@[simp] theorem setRails_freeCount (rails : Nat) (s : State) : (setRails rails s).freeCount = s.freeCount := rfl
@[simp] theorem setRails_pending (rails : Nat) (s : State) : (setRails rails s).pending = s.pending := rfl

/-! ## setF -/

@[simp] theorem setF_latch (f : Fld) (v : Nat) (s : State) : (setF f v s).latch = s.latch := rfl
@[simp] theorem setF_evt (f : Fld) (v : Nat) (s : State) : (setF f v s).evt = s.evt := rfl
@[simp] theorem setF_core (f : Fld) (v : Nat) (s : State) : (setF f v s).core = s.core := rfl
@[simp] theorem setF_pos (f : Fld) (v : Nat) (s : State) : (setF f v s).pos = s.pos := rfl
@[simp] theorem setF_links (f : Fld) (v : Nat) (s : State) : (setF f v s).links = s.links := rfl
@[simp] theorem setF_que (f : Fld) (v : Nat) (s : State) : (setF f v s).que = s.que := rfl
@[simp] theorem setF_mtr (f : Fld) (v : Nat) (s : State) : (setF f v s).mtr = s.mtr := rfl
@[simp] theorem setF_ten (f : Fld) (v : Nat) (s : State) : (setF f v s).ten = s.ten := rfl
@[simp] theorem setF_vol (f : Fld) (v : Nat) (s : State) : (setF f v s).vol = s.vol := rfl
@[simp] theorem setF_fmt (f : Fld) (v : Nat) (s : State) : (setF f v s).fmt = s.fmt := rfl
@[simp] theorem setF_band (f : Fld) (v : Nat) (s : State) : (setF f v s).band = s.band := rfl
@[simp] theorem setF_enc (f : Fld) (v : Nat) (s : State) : (setF f v s).enc = s.enc := rfl
@[simp] theorem setF_cal (f : Fld) (v : Nat) (s : State) : (setF f v s).cal = s.cal := rfl
@[simp] theorem setF_rch (f : Fld) (v : Nat) (s : State) : (setF f v s).rch = s.rch := rfl
@[simp] theorem setF_cmp (f : Fld) (v : Nat) (s : State) : (setF f v s).cmp = s.cmp := rfl
@[simp] theorem setF_keys (f : Fld) (v : Nat) (s : State) : (setF f v s).keys = s.keys := rfl
@[simp] theorem setF_ciph (f : Fld) (v : Nat) (s : State) : (setF f v s).ciph = s.ciph := rfl
@[simp] theorem setF_mot (f : Fld) (v : Nat) (s : State) : (setF f v s).mot = s.mot := rfl
@[simp] theorem setF_mem (f : Fld) (v : Nat) (s : State) : (setF f v s).mem = s.mem := rfl
@[simp] theorem setF_pool (f : Fld) (v : Nat) (s : State) : (setF f v s).pool = s.pool := rfl
@[simp] theorem setF_fuseMap (f : Fld) (v : Nat) (s : State) : (setF f v s).fuseMap = s.fuseMap := rfl
@[simp] theorem setF_lnk (f : Fld) (v : Nat) (s : State) : (setF f v s).lnk = s.lnk := rfl
@[simp] theorem setF_sec (f : Fld) (v : Nat) (s : State) : (setF f v s).sec = s.sec := rfl
@[simp] theorem setF_pins (f : Fld) (v : Nat) (s : State) : (setF f v s).pins = s.pins := rfl
@[simp] theorem setF_freeCount (f : Fld) (v : Nat) (s : State) : (setF f v s).freeCount = s.freeCount := rfl
@[simp] theorem setF_pending (f : Fld) (v : Nat) (s : State) : (setF f v s).pending = s.pending := rfl

/-! ## setB -/

@[simp] theorem setB_latch (f : Fld) (b : Bool) (s : State) : (setB f b s).latch = s.latch := rfl
@[simp] theorem setB_evt (f : Fld) (b : Bool) (s : State) : (setB f b s).evt = s.evt := rfl
@[simp] theorem setB_core (f : Fld) (b : Bool) (s : State) : (setB f b s).core = s.core := rfl
@[simp] theorem setB_pos (f : Fld) (b : Bool) (s : State) : (setB f b s).pos = s.pos := rfl
@[simp] theorem setB_links (f : Fld) (b : Bool) (s : State) : (setB f b s).links = s.links := rfl
@[simp] theorem setB_que (f : Fld) (b : Bool) (s : State) : (setB f b s).que = s.que := rfl
@[simp] theorem setB_mtr (f : Fld) (b : Bool) (s : State) : (setB f b s).mtr = s.mtr := rfl
@[simp] theorem setB_ten (f : Fld) (b : Bool) (s : State) : (setB f b s).ten = s.ten := rfl
@[simp] theorem setB_vol (f : Fld) (b : Bool) (s : State) : (setB f b s).vol = s.vol := rfl
@[simp] theorem setB_fmt (f : Fld) (b : Bool) (s : State) : (setB f b s).fmt = s.fmt := rfl
@[simp] theorem setB_band (f : Fld) (b : Bool) (s : State) : (setB f b s).band = s.band := rfl
@[simp] theorem setB_enc (f : Fld) (b : Bool) (s : State) : (setB f b s).enc = s.enc := rfl
@[simp] theorem setB_cal (f : Fld) (b : Bool) (s : State) : (setB f b s).cal = s.cal := rfl
@[simp] theorem setB_rch (f : Fld) (b : Bool) (s : State) : (setB f b s).rch = s.rch := rfl
@[simp] theorem setB_cmp (f : Fld) (b : Bool) (s : State) : (setB f b s).cmp = s.cmp := rfl
@[simp] theorem setB_keys (f : Fld) (b : Bool) (s : State) : (setB f b s).keys = s.keys := rfl
@[simp] theorem setB_ciph (f : Fld) (b : Bool) (s : State) : (setB f b s).ciph = s.ciph := rfl
@[simp] theorem setB_mot (f : Fld) (b : Bool) (s : State) : (setB f b s).mot = s.mot := rfl
@[simp] theorem setB_mem (f : Fld) (b : Bool) (s : State) : (setB f b s).mem = s.mem := rfl
@[simp] theorem setB_pool (f : Fld) (b : Bool) (s : State) : (setB f b s).pool = s.pool := rfl
@[simp] theorem setB_fuseMap (f : Fld) (b : Bool) (s : State) : (setB f b s).fuseMap = s.fuseMap := rfl
@[simp] theorem setB_lnk (f : Fld) (b : Bool) (s : State) : (setB f b s).lnk = s.lnk := rfl
@[simp] theorem setB_sec (f : Fld) (b : Bool) (s : State) : (setB f b s).sec = s.sec := rfl
@[simp] theorem setB_pins (f : Fld) (b : Bool) (s : State) : (setB f b s).pins = s.pins := rfl
@[simp] theorem setB_freeCount (f : Fld) (b : Bool) (s : State) : (setB f b s).freeCount = s.freeCount := rfl
@[simp] theorem setB_pending (f : Fld) (b : Bool) (s : State) : (setB f b s).pending = s.pending := rfl

/-! ## setS -/

@[simp] theorem setS_latch (f : Fld) (i : Int) (s : State) : (setS f i s).latch = s.latch := rfl
@[simp] theorem setS_evt (f : Fld) (i : Int) (s : State) : (setS f i s).evt = s.evt := rfl
@[simp] theorem setS_core (f : Fld) (i : Int) (s : State) : (setS f i s).core = s.core := rfl
@[simp] theorem setS_pos (f : Fld) (i : Int) (s : State) : (setS f i s).pos = s.pos := rfl
@[simp] theorem setS_links (f : Fld) (i : Int) (s : State) : (setS f i s).links = s.links := rfl
@[simp] theorem setS_que (f : Fld) (i : Int) (s : State) : (setS f i s).que = s.que := rfl
@[simp] theorem setS_mtr (f : Fld) (i : Int) (s : State) : (setS f i s).mtr = s.mtr := rfl
@[simp] theorem setS_ten (f : Fld) (i : Int) (s : State) : (setS f i s).ten = s.ten := rfl
@[simp] theorem setS_vol (f : Fld) (i : Int) (s : State) : (setS f i s).vol = s.vol := rfl
@[simp] theorem setS_fmt (f : Fld) (i : Int) (s : State) : (setS f i s).fmt = s.fmt := rfl
@[simp] theorem setS_band (f : Fld) (i : Int) (s : State) : (setS f i s).band = s.band := rfl
@[simp] theorem setS_enc (f : Fld) (i : Int) (s : State) : (setS f i s).enc = s.enc := rfl
@[simp] theorem setS_cal (f : Fld) (i : Int) (s : State) : (setS f i s).cal = s.cal := rfl
@[simp] theorem setS_rch (f : Fld) (i : Int) (s : State) : (setS f i s).rch = s.rch := rfl
@[simp] theorem setS_cmp (f : Fld) (i : Int) (s : State) : (setS f i s).cmp = s.cmp := rfl
@[simp] theorem setS_keys (f : Fld) (i : Int) (s : State) : (setS f i s).keys = s.keys := rfl
@[simp] theorem setS_ciph (f : Fld) (i : Int) (s : State) : (setS f i s).ciph = s.ciph := rfl
@[simp] theorem setS_mot (f : Fld) (i : Int) (s : State) : (setS f i s).mot = s.mot := rfl
@[simp] theorem setS_mem (f : Fld) (i : Int) (s : State) : (setS f i s).mem = s.mem := rfl
@[simp] theorem setS_pool (f : Fld) (i : Int) (s : State) : (setS f i s).pool = s.pool := rfl
@[simp] theorem setS_fuseMap (f : Fld) (i : Int) (s : State) : (setS f i s).fuseMap = s.fuseMap := rfl
@[simp] theorem setS_lnk (f : Fld) (i : Int) (s : State) : (setS f i s).lnk = s.lnk := rfl
@[simp] theorem setS_sec (f : Fld) (i : Int) (s : State) : (setS f i s).sec = s.sec := rfl
@[simp] theorem setS_pins (f : Fld) (i : Int) (s : State) : (setS f i s).pins = s.pins := rfl
@[simp] theorem setS_freeCount (f : Fld) (i : Int) (s : State) : (setS f i s).freeCount = s.freeCount := rfl
@[simp] theorem setS_pending (f : Fld) (i : Int) (s : State) : (setS f i s).pending = s.pending := rfl

/-! ## addF -/

@[simp] theorem addF_latch (f : Fld) (n : Nat) (s : State) : (addF f n s).latch = s.latch := rfl
@[simp] theorem addF_evt (f : Fld) (n : Nat) (s : State) : (addF f n s).evt = s.evt := rfl
@[simp] theorem addF_core (f : Fld) (n : Nat) (s : State) : (addF f n s).core = s.core := rfl
@[simp] theorem addF_pos (f : Fld) (n : Nat) (s : State) : (addF f n s).pos = s.pos := rfl
@[simp] theorem addF_links (f : Fld) (n : Nat) (s : State) : (addF f n s).links = s.links := rfl
@[simp] theorem addF_que (f : Fld) (n : Nat) (s : State) : (addF f n s).que = s.que := rfl
@[simp] theorem addF_mtr (f : Fld) (n : Nat) (s : State) : (addF f n s).mtr = s.mtr := rfl
@[simp] theorem addF_ten (f : Fld) (n : Nat) (s : State) : (addF f n s).ten = s.ten := rfl
@[simp] theorem addF_vol (f : Fld) (n : Nat) (s : State) : (addF f n s).vol = s.vol := rfl
@[simp] theorem addF_fmt (f : Fld) (n : Nat) (s : State) : (addF f n s).fmt = s.fmt := rfl
@[simp] theorem addF_band (f : Fld) (n : Nat) (s : State) : (addF f n s).band = s.band := rfl
@[simp] theorem addF_enc (f : Fld) (n : Nat) (s : State) : (addF f n s).enc = s.enc := rfl
@[simp] theorem addF_cal (f : Fld) (n : Nat) (s : State) : (addF f n s).cal = s.cal := rfl
@[simp] theorem addF_rch (f : Fld) (n : Nat) (s : State) : (addF f n s).rch = s.rch := rfl
@[simp] theorem addF_cmp (f : Fld) (n : Nat) (s : State) : (addF f n s).cmp = s.cmp := rfl
@[simp] theorem addF_keys (f : Fld) (n : Nat) (s : State) : (addF f n s).keys = s.keys := rfl
@[simp] theorem addF_ciph (f : Fld) (n : Nat) (s : State) : (addF f n s).ciph = s.ciph := rfl
@[simp] theorem addF_mot (f : Fld) (n : Nat) (s : State) : (addF f n s).mot = s.mot := rfl
@[simp] theorem addF_mem (f : Fld) (n : Nat) (s : State) : (addF f n s).mem = s.mem := rfl
@[simp] theorem addF_pool (f : Fld) (n : Nat) (s : State) : (addF f n s).pool = s.pool := rfl
@[simp] theorem addF_fuseMap (f : Fld) (n : Nat) (s : State) : (addF f n s).fuseMap = s.fuseMap := rfl
@[simp] theorem addF_lnk (f : Fld) (n : Nat) (s : State) : (addF f n s).lnk = s.lnk := rfl
@[simp] theorem addF_sec (f : Fld) (n : Nat) (s : State) : (addF f n s).sec = s.sec := rfl
@[simp] theorem addF_pins (f : Fld) (n : Nat) (s : State) : (addF f n s).pins = s.pins := rfl
@[simp] theorem addF_freeCount (f : Fld) (n : Nat) (s : State) : (addF f n s).freeCount = s.freeCount := rfl
@[simp] theorem addF_pending (f : Fld) (n : Nat) (s : State) : (addF f n s).pending = s.pending := rfl

/-! ## incF -/

@[simp] theorem incF_latch (f : Fld) (s : State) : (incF f s).latch = s.latch := rfl
@[simp] theorem incF_evt (f : Fld) (s : State) : (incF f s).evt = s.evt := rfl
@[simp] theorem incF_core (f : Fld) (s : State) : (incF f s).core = s.core := rfl
@[simp] theorem incF_pos (f : Fld) (s : State) : (incF f s).pos = s.pos := rfl
@[simp] theorem incF_links (f : Fld) (s : State) : (incF f s).links = s.links := rfl
@[simp] theorem incF_que (f : Fld) (s : State) : (incF f s).que = s.que := rfl
@[simp] theorem incF_mtr (f : Fld) (s : State) : (incF f s).mtr = s.mtr := rfl
@[simp] theorem incF_ten (f : Fld) (s : State) : (incF f s).ten = s.ten := rfl
@[simp] theorem incF_vol (f : Fld) (s : State) : (incF f s).vol = s.vol := rfl
@[simp] theorem incF_fmt (f : Fld) (s : State) : (incF f s).fmt = s.fmt := rfl
@[simp] theorem incF_band (f : Fld) (s : State) : (incF f s).band = s.band := rfl
@[simp] theorem incF_enc (f : Fld) (s : State) : (incF f s).enc = s.enc := rfl
@[simp] theorem incF_cal (f : Fld) (s : State) : (incF f s).cal = s.cal := rfl
@[simp] theorem incF_rch (f : Fld) (s : State) : (incF f s).rch = s.rch := rfl
@[simp] theorem incF_cmp (f : Fld) (s : State) : (incF f s).cmp = s.cmp := rfl
@[simp] theorem incF_keys (f : Fld) (s : State) : (incF f s).keys = s.keys := rfl
@[simp] theorem incF_ciph (f : Fld) (s : State) : (incF f s).ciph = s.ciph := rfl
@[simp] theorem incF_mot (f : Fld) (s : State) : (incF f s).mot = s.mot := rfl
@[simp] theorem incF_mem (f : Fld) (s : State) : (incF f s).mem = s.mem := rfl
@[simp] theorem incF_pool (f : Fld) (s : State) : (incF f s).pool = s.pool := rfl
@[simp] theorem incF_fuseMap (f : Fld) (s : State) : (incF f s).fuseMap = s.fuseMap := rfl
@[simp] theorem incF_lnk (f : Fld) (s : State) : (incF f s).lnk = s.lnk := rfl
@[simp] theorem incF_sec (f : Fld) (s : State) : (incF f s).sec = s.sec := rfl
@[simp] theorem incF_pins (f : Fld) (s : State) : (incF f s).pins = s.pins := rfl
@[simp] theorem incF_freeCount (f : Fld) (s : State) : (incF f s).freeCount = s.freeCount := rfl
@[simp] theorem incF_pending (f : Fld) (s : State) : (incF f s).pending = s.pending := rfl

end Sys2Proof.Machine
end

