-- ==== Sys2Proof/Laws/Ops.lean ====
section
/-!
SUPPORT. The laws of tables, of registers and their fields, and of events: what a write leaves to be read, in the word written and in every other.
-/
namespace Sys2Proof.Machine

/-! ## Tables -/

@[simp] theorem Tbl.get_set_same {α : Type} (d : α) (l : Tbl α) (k : Nat) (v : α) : Tbl.get d (Tbl.set l k v) k = v := by
  induction l with
  | nil => simp only [Tbl.set, Tbl.get, if_true]
  | cons e l ih =>
    simp only [Tbl.set]
    split
    · simp only [Tbl.get, if_true]
    · rename_i hk
      split
      · simp only [Tbl.get, if_true]
      · rename_i hlt; simp only [Tbl.get, hk, hlt, if_false, ih]

theorem Tbl.get_set_other {α : Type} (d : α) (l : Tbl α) {j k : Nat} (hj : j ≠ k) (v : α) : Tbl.get d (Tbl.set l k v) j = Tbl.get d l j := by
  induction l with
  | nil => simp only [Tbl.set, Tbl.get, Ne.symm hj, if_false, ite_self]
  | cons e l ih =>
    simp only [Tbl.set]
    split
    · rename_i hk; simp only [Tbl.get, hk, Ne.symm hj, if_false]
    · split
      · rename_i hlt
        simp only [Tbl.get, Ne.symm hj, if_false]
        split
        · rename_i hjk
          have h1 : ¬e.1 = j := by omega
          have h2 : j < e.1 := by omega
          simp only [h1, h2, if_true, if_false]
        · rfl
      · simp only [Tbl.get, ih]

/-! ## Words -/

@[simp] theorem rd_wr_same (s : State) (a : Nat) (w : Word) : rd (wr a w s) a = w := Tbl.get_set_same _ _ _ _

theorem rd_wr_other (s : State) {a b : Nat} (h : b ≠ a) (w : Word) : rd (wr a w s) b = rd s b := Tbl.get_set_other _ _ h _

/-- A field's write leaves every other word as it was. -/
theorem rd_setF_other (s : State) {f : Fld} {a : Nat} (h : a ≠ f.addr) (v : Nat) : rd (setF f v s) a = rd s a := rd_wr_other s h _

/-! ## Fields -/

theorem testBit_slice (n lo w i : Nat) : (slice n lo w).testBit i = (decide (i < w) && n.testBit (lo + i)) := by
  simp only [slice, Nat.testBit_mod_two_pow, Nat.testBit_shiftRight]

/-- Bit by bit, a slice's replacement. -/
theorem testBit_setSlice (n lo w v i : Nat) :
    (setSlice n lo w v).testBit i = if lo ≤ i ∧ i < lo + w then v.testBit (i - lo) else n.testBit i := by
  have hsplit : n = n % 2 ^ lo + slice n lo w * 2 ^ lo + n / 2 ^ (lo + w) * 2 ^ (lo + w) := by
    have h1 := Nat.mod_add_div n (2 ^ lo)
    have h2 := Nat.mod_add_div (n / 2 ^ lo) (2 ^ w)
    rw [Nat.div_div_eq_div_mul, ← Nat.pow_add] at h2
    rw [slice, Nat.shiftRight_eq_div_pow]
    calc n = n % 2 ^ lo + 2 ^ lo * (n / 2 ^ lo) := h1.symm
      _ = n % 2 ^ lo + 2 ^ lo * (n / 2 ^ lo % 2 ^ w + 2 ^ w * (n / 2 ^ (lo + w))) := by rw [h2]
      _ = _ := by simp only [Nat.mul_add, Nat.pow_add, Nat.add_assoc, Nat.mul_comm, Nat.mul_assoc]
  have hset : setSlice n lo w v = n % 2 ^ lo + 2 ^ lo * (v % 2 ^ w + 2 ^ w * (n / 2 ^ (lo + w))) := by
    unfold setSlice
    have : n - slice n lo w * 2 ^ lo = n % 2 ^ lo + n / 2 ^ (lo + w) * 2 ^ (lo + w) := by omega
    rw [this]; simp only [Nat.mul_add, Nat.pow_add, Nat.add_comm, Nat.add_left_comm, Nat.mul_comm, Nat.mul_assoc]
  rw [hset]
  have hm := Nat.mod_lt n (Nat.two_pow_pos lo)
  have hv := Nat.mod_lt v (Nat.two_pow_pos w)
  rw [Nat.add_comm (n % 2 ^ lo), Nat.testBit_two_pow_mul_add _ hm, Nat.add_comm (v % 2 ^ w), Nat.testBit_two_pow_mul_add _ hv]
  by_cases h1 : i < lo
  · have h2 : ¬(lo ≤ i ∧ i < lo + w) := by omega
    simp only [h1, h2, if_true, if_false, Nat.testBit_mod_two_pow, decide_true, Bool.true_and]
  · by_cases h2 : i < lo + w
    · have h3 : lo ≤ i ∧ i < lo + w := by omega
      have h4 : i - lo < w := by omega
      simp only [h1, h3, h4, and_self, if_true, if_false, Nat.testBit_mod_two_pow, decide_true, Bool.true_and]
    · have h3 : ¬(lo ≤ i ∧ i < lo + w) := by omega
      have h4 : ¬i - lo < w := by omega
      simp only [h1, h3, h4, if_false, Nat.testBit_div_two_pow]
      congr 1; omega

theorem setSlice_lt {n lo w v : Nat} (hn : n < 2 ^ 32) (hw : lo + w ≤ 32) : setSlice n lo w v < 2 ^ 32 := by
  apply Nat.lt_pow_two_of_testBit
  intro i hi
  have h1 : ¬(lo ≤ i ∧ i < lo + w) := by omega
  rw [testBit_setSlice, if_neg h1]
  exact Nat.testBit_lt_two_pow (Nat.lt_of_lt_of_le hn (Nat.pow_le_pow_right (by decide) hi))

/-- The word that a field's write leaves. -/
theorem rd_setF_same (s : State) {f : Fld} (hf : f.lo + f.width ≤ 32) (v : Nat) :
    (rd (setF f v s) f.addr).toNat = setSlice (rd s f.addr).toNat f.lo f.width v := by
  rw [setF, rd_wr_same, BitVec.toNat_ofNat]
  exact Nat.mod_eq_of_lt (setSlice_lt (rd s f.addr).isLt hf)

theorem slice_setSlice_same (n lo w v : Nat) : slice (setSlice n lo w v) lo w = v % 2 ^ w := by
  apply Nat.eq_of_testBit_eq
  intro i
  rw [testBit_slice, testBit_setSlice, Nat.testBit_mod_two_pow]
  by_cases hi : i < w
  · have h1 : lo ≤ lo + i ∧ lo + i < lo + w := by omega
    simp only [hi, h1, and_self, if_true, Nat.add_sub_cancel_left]
  · simp only [hi, decide_false, Bool.false_and]

theorem slice_setSlice_disjoint {n lo w v lo' w' : Nat} (h : lo + w ≤ lo' ∨ lo' + w' ≤ lo) :
    slice (setSlice n lo w v) lo' w' = slice n lo' w' := by
  apply Nat.eq_of_testBit_eq
  intro i
  rw [testBit_slice, testBit_slice, testBit_setSlice]
  by_cases hi : i < w'
  · have h1 : ¬(lo ≤ lo' + i ∧ lo' + i < lo + w) := by omega
    rw [if_neg h1]
  · simp only [hi, decide_false, Bool.false_and]

/-- A field written reads as the low bits of what was written. -/
theorem getF_setF_same (s : State) {f : Fld} (hf : f.lo + f.width ≤ 32) (v : Nat) : getF (setF f v s) f = v % 2 ^ f.width := by
  rw [getF, rd_setF_same s hf, slice_setSlice_same]

/-- A field of another word reads as before. -/
theorem getF_setF_addr (s : State) {f g : Fld} (h : g.addr ≠ f.addr) (v : Nat) : getF (setF f v s) g = getF s g := by
  rw [getF, rd_setF_other s h, getF]

/-- So does a field of other bits of the same word. -/
theorem getF_setF_disjoint (s : State) {f g : Fld} (hf : f.lo + f.width ≤ 32) (h : f.lo + f.width ≤ g.lo ∨ g.lo + g.width ≤ f.lo) (v : Nat) :
    getF (setF f v s) g = getF s g := by
  by_cases ha : g.addr = f.addr
  · rw [getF, ha, rd_setF_same s hf, slice_setSlice_disjoint h, getF, ha]
  · exact getF_setF_addr s ha v

/-! ## Events (R612–R614) -/

/-- Words that an occurrence on a page may change: EVT_STATUS, EVT_FIRST and the position captured. -/
theorem rd_markEvent_other (s : State) {p a : Nat} (h : a ≠ 0x1000 * p + 0x010 ∧ a ≠ 0x1000 * p + 0x01c ∧ a ≠ 0x1000 * p + 0x020 ∧ a ≠ 0x1000 * p + 0x024)
    (bit fault : Nat) (forced : Bool) : rd (markEvent p bit fault forced s) a = rd s a := by
  unfold markEvent
  dsimp only
  split
  · exact rd_setF_other s h.1 _
  · rw [rd_setF_other _ h.2.2.2, rd_setF_other _ h.2.2.1, rd_setF_other _ h.2.1, rd_setF_other _ h.1]

/-- An occurrence sets the event's bit (R612). -/
theorem getF_markEvent (s : State) (p : Nat) {bit : Nat} (hb : bit < 32) (fault : Nat) (forced : Bool) :
    getF (markEvent p bit fault forced s) (evtBit p bit) = 1 := by
  have h1 : getF (setF (evtBit p bit) 1 s) (evtBit p bit) = 1 := getF_setF_same s (show bit + 1 ≤ 32 from hb) 1
  unfold markEvent
  dsimp only
  split
  · exact h1
  · rw [getF_setF_addr, getF_setF_addr, getF_setF_addr, h1] <;> simp only [evtBit, hdrERR_POS_HI, hdrERR_POS_LO, hdrEVT_FIRST] <;> omega

end Sys2Proof.Machine
end

