-- ==== Sys2Proof/Laws/Events.lean ====
section
/-!
SUPPORT. The laws of an event's occurrence (R612–R614, R560, R561): the words it may change, and that it is recorded and captured.
-/
namespace Sys2Proof.Machine

/-! ## Words -/

/-- What only the fault manager and the event FIFO hold changes no word. -/
theorem rd_setEvt (s : State) (e : EvtSt) (a : Nat) : rd { s with evt := e } a = rd s a := rfl

theorem rd_incF_other (s : State) {f : Fld} {a : Nat} (h : a ≠ f.addr) : rd (incF f s) a = rd s a := rd_setF_other s h _

theorem rd_toManager_other (r : FaultRec) (s : State) {a : Nat} (h : a ≠ Reg.FAULT_LOST.addr) : rd (toManager r s) a = rd s a := by
  unfold toManager
  split
  · rfl
  · split
    · rfl
    · split
      · rfl
      · exact rd_incF_other s h

theorem rd_toSafetyBuf_other (r : FaultRec) (s : State) {a : Nat} (h : a ≠ Reg.FAULT_LOST.addr) : rd (toSafetyBuf r s) a = rd s a := by
  unfold toSafetyBuf
  split
  · rfl
  · exact rd_incF_other s h

theorem markEvent_words (p bit fault : Nat) (forced : Bool) (s : State) : WordsKept (evtWord p) s (markEvent p bit fault forced s) := by
  intro a h
  simp only [evtWord, not_or] at h
  exact rd_markEvent_other s h bit fault forced

theorem rd_sendEvent_other (p bit fault account data : Nat) (st : Stamp) (s : State) {a : Nat} (h : ¬ evtWord 0x68 a) (h1 : a ≠ Reg.EVT_LOST_CNT.addr)
    (h2 : a ≠ Reg.FAULT_LOST.addr) : rd (sendEvent p bit fault account data st s) a = rd s a := by
  unfold sendEvent
  dsimp only
  split
  · rfl
  · split
    · rw [rd_toManager_other _ _ h2, markEvent_words _ _ _ _ _ a h, rd_incF_other _ h1]; rfl
    · rw [markEvent_words _ _ _ _ _ a h, rd_incF_other _ h1]; rfl

/-- An event without a fault code changes its words and no others. -/
theorem notify_words (p bit data : Nat) (s : State) : WordsKept (noticeWord p) s (notify p bit data s) := by
  intro a h
  simp only [noticeWord, not_or] at h
  unfold notify
  dsimp only
  split
  · rw [rd_sendEvent_other _ _ _ _ _ _ _ h.2.1 h.2.2.1 h.2.2.2, markEvent_words _ _ _ _ _ a h.1]
  · exact markEvent_words _ _ _ _ _ a h.1

/-- An event with a fault code changes its words and no others. -/
theorem raise_words (p bit code account data : Nat) (s : State) : WordsKept (faultWord p) s (raise p bit code account data s) := by
  intro a h
  simp only [faultWord, not_or] at h
  unfold raise
  dsimp only
  have hm := markEvent_words p bit code false s a h.1
  split
  · have hc : rd (incF Reg.SAFETY_CNT (setF Reg.SAFETY_LAST code (markEvent p bit code false s))) a = rd s a := by
      rw [rd_incF_other _ h.2.2.2, rd_setF_other _ h.2.2.1, hm]
    split
    · rw [rd_toSafetyBuf_other _ _ h.2.1, hc]
    · exact hc
  · split
    · split
      · rw [rd_toManager_other _ _ h.2.1, hm]
      · split
        · exact hm
        · exact hm
    · exact hm

theorem raiseB_words (p bit sev cause account data : Nat) (s : State) : WordsKept (faultWord p) s (raiseB p bit sev cause account data s) :=
  raise_words p bit _ account data s

/-! ## Record and capture -/

theorem getF_congr {s t : State} {f : Fld} (h : rd t f.addr = rd s f.addr) : getF t f = getF s f := by rw [getF, getF, h]

theorem slice_valid {bit code : Nat} (hb : bit < 32) (hc : code < 0x10000) : slice (bit + code * 2 ^ 8 + 2 ^ 31) 31 1 = 1 := by
  rw [slice, Nat.shiftRight_eq_div_pow]; omega

/-- An occurrence is recorded and, with nothing captured before, captured. -/
theorem markEvent_recorded (s : State) (p : Nat) {bit fault : Nat} (hb : bit < 32) (hc : fault < 0x10000) : Recorded p bit fault s (markEvent p bit fault false s) := by
  refine ⟨getF_markEvent s p hb fault false, fun hv => ?_⟩
  unfold markEvent
  dsimp only
  rw [hv, if_neg (by decide), getF_setF_addr, getF_setF_addr, getF_setF_same] <;>
    simp only [hdrERR_POS_HI, hdrERR_POS_LO, hdrEVT_FIRST, b2n, Bool.false_eq_true, if_false] <;> omega

/-- A record stays while the words that hold it stay. -/
theorem Recorded.of_words {p bit code : Nat} {s t u : State} (h : Recorded p bit code s t) (h0 : rd u (0x1000 * p + 0x010) = rd t (0x1000 * p + 0x010))
    (h1 : rd u (0x1000 * p + 0x01C) = rd t (0x1000 * p + 0x01C)) : Recorded p bit code s u :=
  ⟨(getF_congr (f := evtBit p bit) h0).trans h.1, fun hv => (getF_congr (f := hdrEVT_FIRST p) h1).trans (h.2 hv)⟩

/-- An event with a fault code is recorded and captured, on any page but FAULT's own words. -/
theorem raise_recorded (s : State) (p : Nat) {bit code : Nat} (hb : bit < 32) (hc : code < 0x10000) (account data : Nat) :
    Recorded p bit code s (raise p bit code account data s) := by
  have hm := markEvent_recorded s p hb hc
  have key : ∀ u, (∀ a, a ≠ Reg.FAULT_LOST.addr → a ≠ Reg.SAFETY_LAST.addr → a ≠ Reg.SAFETY_CNT.addr → rd u a = rd (markEvent p bit code false s) a) →
      Recorded p bit code s u := fun u h =>
    hm.of_words (h _ (by dsimp only; omega) (by dsimp only; omega) (by dsimp only; omega))
      (h _ (by dsimp only; omega) (by dsimp only; omega) (by dsimp only; omega))
  unfold raise
  dsimp only
  split
  · refine key _ fun a h1 h2 h3 => ?_
    split
    · rw [rd_toSafetyBuf_other _ _ h1, rd_incF_other _ h3, rd_setF_other _ h2]
    · rw [rd_incF_other _ h3, rd_setF_other _ h2]
  · split
    · split
      · exact key _ fun a h1 _ _ => rd_toManager_other _ _ h1
      · split
        · exact hm
        · exact hm
    · exact hm

/-- An event without a fault code is recorded and captured, on any page but EPBX's, whose own lost-event record may come after it. -/
theorem notify_recorded (s : State) {p bit : Nat} (hp : p ≠ 0x68) (hb : bit < 32) (data : Nat) : Recorded p bit 0 s (notify p bit data s) := by
  have hm := markEvent_recorded s p hb (by decide : 0 < 0x10000)
  unfold notify
  dsimp only
  split
  · refine hm.of_words (rd_sendEvent_other _ _ _ _ _ _ _ ?_ ?_ ?_) (rd_sendEvent_other _ _ _ _ _ _ _ ?_ ?_ ?_) <;>
      simp only [evtWord] <;> omega
  · exact hm

end Sys2Proof.Machine
end

