-- ==== Sys2Proof/Laws/MarksMask.lean ====
section
/-!
SUPPORT. What each function of Machine/Marks.lean touches at most.
-/
namespace Sys2Proof.Machine

variable {μ : Part → Bool}

theorem dsStart_mask (hμ : μ .regs = true ∧ μ .fmt = true ∧ μ .mot = true) (n : Nat) (s : State) :
    (dsStart n s).mask μ = s.mask μ := by
  simp only [dsStart, ↓onSet_mask, ↓speedMatch_mask, ↓mask_ite, ite_self, and_self, hμ]

theorem markSquare_mask (hμ : μ .regs = true ∧ μ .evt = true ∧ μ .fmt = true ∧ μ .band = true ∧ μ .mot = true) (b : Nat) (s : State) :
    (markSquare b s).mask μ = s.mask μ := by
  simp only [markSquare]
  (repeat' split) <;> simp only [↓setF_mask, ↓notify_mask, ↓nextSquare_mask, ↓dsStart_mask, and_self, hμ]

theorem applyRch_mask (hμ : μ .regs = true) (b : Nat) (s : State) :
    (applyRch b s).mask μ = s.mask μ := by
  simp only [applyRch, ↓wr_mask, hμ]

theorem applySquare_mask (hμ : μ .regs = true ∧ μ .links = true ∧ μ .band = true ∧ μ .cal = true ∧ μ .rch = true) (b : Nat) (s : State) :
    (applySquare b s).mask μ = s.mask μ := by
  simp only [applySquare]
  (repeat' split) <;> simp only [↓sendApply_mask, ↓nextSquare_mask, ↓calAtOrigin_mask, ↓calNext_mask, ↓applyRch_mask, ↓mask_forEach, and_self, implies_true, hμ]

/-! ## Commands -/

theorem execMarkEvent_mask (hμ : μ .regs = true ∧ μ .evt = true ∧ μ .fmt = true ∧ μ .band = true ∧ μ .mot = true) (band : Nat) (s : State) {t : State}
    (ht : execMarkEvent band s = .next t) : t.mask μ = s.mask μ := by
  rw [execMarkEvent] at ht
  rw [← Host.Outcome.next.inj ht]
  simp only [↓markSquare_mask, and_self, hμ]

theorem execApplyStaged_mask (hμ : μ .regs = true ∧ μ .links = true ∧ μ .band = true ∧ μ .cal = true ∧ μ .rch = true) (band : Nat) (s : State) {t : State}
    (ht : execApplyStaged band s = .next t) : t.mask μ = s.mask μ := by
  rw [execApplyStaged] at ht
  rw [← Host.Outcome.next.inj ht]
  simp only [↓applySquare_mask, and_self, hμ]

end Sys2Proof.Machine
end

