-- ==== Sys2Proof/Laws/MeterMask.lean ====
section
/-!
SUPPORT. What each function of Machine/Meter.lean touches at most.
-/
namespace Sys2Proof.Machine

variable {μ : Part → Bool}

theorem minuteExecute_mask (hμ : μ .regs = true ∧ μ .evt = true ∧ μ .que = true ∧ μ .mtr = true ∧ μ .ten = true ∧ μ .vol = true ∧ μ .fmt = true ∧ μ .cmp = true ∧ μ .lnk = true) (s : State) :
    (minuteExecute s).mask μ = s.mask μ := by
  simp only [minuteExecute]
  (repeat' split) <;> simp only [↓setF_mask, ↓incF_mask, ↓raise_mask, ↓setQue_mask, ↓tryFinish_mask, ↓giveBack_mask, ↓drainStray_mask, and_self, hμ]

theorem mtrAppend_mask (hμ : μ .regs = true ∧ μ .mtr = true) (f : Nat → List Byte) (s : State) :
    (mtrAppend f s).mask μ = s.mask μ := by
  simp only [mtrAppend, ↓setF_mask, ↓setMtr_mask, hμ]

theorem logBracket_mask (hμ : μ .regs = true ∧ μ .evt = true ∧ μ .mtr = true) (s : State) :
    (logBracket s).mask μ = s.mask μ := by
  unfold logBracket
  (repeat' split) <;> simp only [↓notify_mask, ↓setMtr_mask, ↓mtrAppend_mask, ↓mask_ite, ite_self, ↓mask_foldl, and_self, implies_true, hμ]

theorem mtrAck_mask (hμ : μ .regs = true) (v : Nat) (s : State) :
    (mtrAck v s).mask μ = s.mask μ := by
  simp only [mtrAck, ↓setF_mask, ↓mask_ite, ite_self, hμ]

theorem meterRead_mask (hμ : μ .regs = true ∧ μ .evt = true ∧ μ .que = true) (q : Nat) (x : ExecSt) (s : State) :
    (meterRead q x s).mask μ = s.mask μ := by
  simp only [meterRead, ↓setF_mask, ↓sideReturn_mask, ↓sideEnd_mask, ↓mask_ite, ite_self, and_self, hμ]

/-! ## Commands -/

theorem execMinuteExecute_mask (hμ : μ .regs = true ∧ μ .evt = true ∧ μ .que = true ∧ μ .mtr = true ∧ μ .ten = true ∧ μ .vol = true ∧ μ .fmt = true ∧ μ .cmp = true ∧ μ .lnk = true) (s : State) {t : State}
    (ht : execMinuteExecute s = .next t) : t.mask μ = s.mask μ := by
  rw [execMinuteExecute] at ht
  rw [← Host.Outcome.next.inj ht]
  simp only [↓minuteExecute_mask, and_self, hμ]

theorem execBracketFinal_mask (hμ : μ .regs = true ∧ μ .evt = true ∧ μ .mtr = true) (s : State) {t : State}
    (ht : execBracketFinal s = .next t) : t.mask μ = s.mask μ := by
  rw [execBracketFinal] at ht
  rw [← Host.Outcome.next.inj ht]
  simp only [↓logBracket_mask, and_self, hμ]

theorem execMtrTailWrite_mask (hμ : μ .regs = true) (value : Nat) (s : State) {t : State}
    (ht : execMtrTailWrite value s = .next t) : t.mask μ = s.mask μ := by
  rw [execMtrTailWrite] at ht
  rw [← Host.Outcome.next.inj ht]
  simp only [↓lockGate_mask, ↓mtrAck_mask, implies_true, hμ]

theorem execMeterRead_mask (hμ : μ .regs = true ∧ μ .evt = true ∧ μ .que = true ∧ μ .lnk = true) (queue : Nat) (s : State) {t : State}
    (ht : execMeterRead queue s = .next t) : t.mask μ = s.mask μ := by
  rw [execMeterRead] at ht
  rw [← Host.Outcome.next.inj ht]
  simp only [↓sideRow_mask, ↓meterRead_mask, and_self, implies_true, hμ]

end Sys2Proof.Machine
end

