-- ==== Sys2Proof/Laws/SideMask.lean ====
section
/-!
SUPPORT. What each function of Machine/Side.lean touches at most.
-/
namespace Sys2Proof.Machine

variable {μ : Part → Bool}

theorem sideWork_mask (hμ : μ .que = true) (q : Nat) (s : State) :
    (sideWork q s).mask μ = s.mask μ := by
  simp only [sideWork, ↓onSide_mask, hμ]

theorem keyImport_mask (hμ : μ .regs = true ∧ μ .evt = true ∧ μ .que = true ∧ μ .ciph = true) (q : Nat) (x : ExecSt) (s : State) :
    (keyImport q x s).mask μ = s.mask μ := by
  simp only [keyImport, ↓setCiph_mask, ↓sideEnd_mask, ↓sideWork_mask, ↓mask_ite, ite_self, and_self, hμ]

theorem keyErase_mask (hμ : μ .regs = true ∧ μ .evt = true ∧ μ .que = true ∧ μ .keys = true) (q : Nat) (x : ExecSt) (s : State) :
    (keyErase q x s).mask μ = s.mask μ := by
  simp only [keyErase, ↓setSlot_mask, ↓sideEnd_mask, ↓sideWork_mask, ↓mask_ite, ite_self, and_self, hμ]

theorem kekErase_mask (hμ : μ .regs = true ∧ μ .evt = true ∧ μ .que = true) (q : Nat) (x : ExecSt) (s : State) :
    (kekErase q x s).mask μ = s.mask μ := by
  simp only [kekErase, ↓sideEnd_mask, ↓sideWork_mask, ↓mask_ite, ite_self, and_self, hμ]

theorem kekAgree_mask (hμ : μ .regs = true ∧ μ .evt = true ∧ μ .que = true ∧ μ .keys = true ∧ μ .freeCount = true) (q : Nat) (x : ExecSt) (s : State) :
    (kekAgree q x s).mask μ = s.mask μ := by
  simp only [kekAgree, ↓incF_mask, ↓setKeys_mask, ↓drawBytes_mask, ↓sideReturn_mask, ↓sideEnd_mask, ↓mask_ite, ite_self, and_self, hμ]

theorem cipherRow_mask (hμ : μ .regs = true ∧ μ .evt = true ∧ μ .que = true ∧ μ .mtr = true ∧ μ .ten = true ∧ μ .vol = true ∧ μ .fmt = true ∧ μ .band = true ∧ μ .cal = true ∧ μ .rch = true ∧ μ .cmp = true ∧ μ .ciph = true ∧ μ .mot = true ∧ μ .mem = true ∧ μ .cells = true ∧ μ .pool = true) (q : Nat) (x : ExecSt) (s : State) :
    (cipherRow q x s).mask μ = s.mask μ := by
  simp only [cipherRow, ↓finishSide_mask, ↓setCiph_mask, ↓onSide_mask, ↓mask_ite, ite_self, and_self, hμ]
  (repeat' split) <;> simp only [↓readList_mask, and_self, hμ]

theorem setQuota_mask (hμ : μ .regs = true ∧ μ .evt = true ∧ μ .que = true ∧ μ .mem = true ∧ μ .pool = true) (q : Nat) (x : ExecSt) (s : State) :
    (setQuota q x s).mask μ = s.mask μ := by
  simp only [setQuota, ↓finishSide_mask, ↓writeBounds_mask, ↓sideEnd_mask, ↓mask_ite, ite_self, and_self, hμ]

theorem attest_mask (hμ : μ .regs = true ∧ μ .evt = true ∧ μ .que = true) (q : Nat) (x : ExecSt) (s : State) :
    (attest q x s).mask μ = s.mask μ := by
  simp only [attest, ↓sideReturn_mask, ↓sideEnd_mask, ↓mask_ite, ite_self, and_self, hμ]

/-! ## Commands -/

theorem execKeyImport_mask (hμ : μ .regs = true ∧ μ .evt = true ∧ μ .que = true ∧ μ .ciph = true ∧ μ .lnk = true) (queue : Nat) (s : State) {t : State}
    (ht : execKeyImport queue s = .next t) : t.mask μ = s.mask μ := by
  rw [execKeyImport] at ht
  rw [← Host.Outcome.next.inj ht]
  simp only [↓sideRow_mask, ↓keyImport_mask, and_self, implies_true, hμ]

theorem execKeyErase_mask (hμ : μ .regs = true ∧ μ .evt = true ∧ μ .que = true ∧ μ .keys = true ∧ μ .lnk = true) (queue : Nat) (s : State) {t : State}
    (ht : execKeyErase queue s = .next t) : t.mask μ = s.mask μ := by
  rw [execKeyErase] at ht
  rw [← Host.Outcome.next.inj ht]
  simp only [↓sideRow_mask, ↓keyErase_mask, and_self, implies_true, hμ]

theorem execKekAgree_mask (hμ : μ .regs = true ∧ μ .evt = true ∧ μ .que = true ∧ μ .keys = true ∧ μ .lnk = true ∧ μ .freeCount = true) (queue : Nat) (s : State) {t : State}
    (ht : execKekAgree queue s = .next t) : t.mask μ = s.mask μ := by
  rw [execKekAgree] at ht
  rw [← Host.Outcome.next.inj ht]
  simp only [↓sideRow_mask, ↓kekAgree_mask, and_self, implies_true, hμ]

theorem execKekErase_mask (hμ : μ .regs = true ∧ μ .evt = true ∧ μ .que = true ∧ μ .lnk = true) (queue : Nat) (s : State) {t : State}
    (ht : execKekErase queue s = .next t) : t.mask μ = s.mask μ := by
  rw [execKekErase] at ht
  rw [← Host.Outcome.next.inj ht]
  simp only [↓sideRow_mask, ↓kekErase_mask, and_self, implies_true, hμ]

theorem execCipher_mask (hμ : μ .regs = true ∧ μ .evt = true ∧ μ .que = true ∧ μ .mtr = true ∧ μ .ten = true ∧ μ .vol = true ∧ μ .fmt = true ∧ μ .band = true ∧ μ .cal = true ∧ μ .rch = true ∧ μ .cmp = true ∧ μ .ciph = true ∧ μ .mot = true ∧ μ .mem = true ∧ μ .cells = true ∧ μ .pool = true ∧ μ .lnk = true) (queue : Nat) (s : State) {t : State}
    (ht : execCipher queue s = .next t) : t.mask μ = s.mask μ := by
  rw [execCipher] at ht
  rw [← Host.Outcome.next.inj ht]
  simp only [↓sideRow_mask, ↓cipherRow_mask, and_self, implies_true, hμ]

theorem execSetQuota_mask (hμ : μ .regs = true ∧ μ .evt = true ∧ μ .que = true ∧ μ .mem = true ∧ μ .pool = true ∧ μ .lnk = true) (queue : Nat) (s : State) {t : State}
    (ht : execSetQuota queue s = .next t) : t.mask μ = s.mask μ := by
  rw [execSetQuota] at ht
  rw [← Host.Outcome.next.inj ht]
  simp only [↓sideRow_mask, ↓setQuota_mask, and_self, implies_true, hμ]

theorem execAttest_mask (hμ : μ .regs = true ∧ μ .evt = true ∧ μ .que = true ∧ μ .lnk = true) (queue : Nat) (s : State) {t : State}
    (ht : execAttest queue s = .next t) : t.mask μ = s.mask μ := by
  rw [execAttest] at ht
  rw [← Host.Outcome.next.inj ht]
  simp only [↓sideRow_mask, ↓attest_mask, and_self, implies_true, hμ]

end Sys2Proof.Machine
end

