-- ==== Sys2Proof/Laws/ReelMask.lean ====
section
/-!
SUPPORT. What each function of Machine/Reel.lean touches at most.
-/
namespace Sys2Proof.Machine

variable {μ : Part → Bool}

theorem setMot_mask (hμ : μ .mot = true) (m : MotionSt) (s : State) :
    (setMot m s).mask μ = s.mask μ := by
  simp only [setMot, ↓mask_mot, hμ]

theorem setReel_mask (hμ : μ .mot = true) (x : Nat) (r : ReelSt) (s : State) :
    (setReel x r s).mask μ = s.mask μ := by
  simp only [setReel, ↓setMot_mask, hμ]

theorem setAdc_mask (hμ : μ .mot = true) (ch : Nat) (code : Nat) (s : State) :
    (setAdc ch code s).mask μ = s.mask μ := by
  simp only [setAdc, ↓setMot_mask, hμ]

theorem capTrigger_mask (hμ : μ .regs = true ∧ μ .mot = true) (s : State) :
    (capTrigger s).mask μ = s.mask μ := by
  simp only [capTrigger, ↓setF_mask, ↓setMot_mask, ↓mask_ite, ite_self, hμ]

theorem raiseMot_mask (hμ : μ .regs = true ∧ μ .evt = true ∧ μ .mot = true) (p : Nat) (bit : Nat) (sev : Nat) (cause : Nat) (data : Nat) (s : State) :
    (raiseMot p bit sev cause data s).mask μ = s.mask μ := by
  simp only [raiseMot, ↓raise_mask, ↓capTrigger_mask, ↓mask_ite, ite_self, and_self, hμ]

theorem motionStop_mask (hμ : μ .regs = true ∧ μ .evt = true ∧ μ .que = true ∧ μ .mtr = true ∧ μ .ten = true ∧ μ .vol = true ∧ μ .fmt = true ∧ μ .band = true ∧ μ .cal = true ∧ μ .rch = true ∧ μ .mot = true) (safe : Nat) (code : Nat) (s : State) :
    (motionStop safe code s).mask μ = s.mask μ := by
  simp only [motionStop, ↓enterS1_mask, ↓enterS2_mask, ↓mask_ite, ite_self, and_self, hμ]

theorem angleLost_mask (hμ : μ .regs = true ∧ μ .evt = true ∧ μ .que = true ∧ μ .mtr = true ∧ μ .ten = true ∧ μ .vol = true ∧ μ .fmt = true ∧ μ .band = true ∧ μ .cal = true ∧ μ .rch = true ∧ μ .mot = true) (x : Nat) (s : State) :
    (angleLost x s).mask μ = s.mask μ := by
  simp only [angleLost, ↓raiseMot_mask, ↓motionStop_mask, and_self, hμ]

theorem chooseSrc_mask (hμ : μ .regs = true ∧ μ .evt = true ∧ μ .que = true ∧ μ .mtr = true ∧ μ .ten = true ∧ μ .vol = true ∧ μ .fmt = true ∧ μ .band = true ∧ μ .cal = true ∧ μ .rch = true ∧ μ .mot = true) (x : Nat) (s : State) :
    (chooseSrc x s).mask μ = s.mask μ := by
  simp only [chooseSrc, ↓setF_mask, ↓notify_mask, ↓setReel_mask, ↓angleLost_mask, ↓mask_ite, ite_self, and_self, hμ]

theorem hallFault_mask (hμ : μ .regs = true ∧ μ .evt = true ∧ μ .que = true ∧ μ .mtr = true ∧ μ .ten = true ∧ μ .vol = true ∧ μ .fmt = true ∧ μ .band = true ∧ μ .cal = true ∧ μ .rch = true ∧ μ .mot = true) (x : Nat) (s : State) :
    (hallFault x s).mask μ = s.mask μ := by
  simp only [hallFault, ↓setF_mask, ↓raiseMot_mask, ↓chooseSrc_mask, ↓mask_ite, ite_self, and_self, hμ]

theorem hallEdge_mask (hμ : μ .regs = true ∧ μ .evt = true ∧ μ .que = true ∧ μ .mtr = true ∧ μ .ten = true ∧ μ .vol = true ∧ μ .fmt = true ∧ μ .band = true ∧ μ .cal = true ∧ μ .rch = true ∧ μ .mot = true) (x : Nat) (code : Nat) (interval : Nat) (s : State) :
    (hallEdge x code interval s).mask μ = s.mask μ := by
  unfold hallEdge
  (repeat' split) <;> simp only [↓setF_mask, ↓incF_mask, ↓setReel_mask, ↓hallFault_mask, ↓mask_ite, ite_self, and_self, hμ]

theorem restoreHalls_mask (hμ : μ .regs = true) (s : State) :
    (restoreHalls s).mask μ = s.mask μ := by
  simp only [restoreHalls, ↓setF_mask, ↓mask_ite, ite_self, ↓mask_forEach, implies_true, hμ]

theorem observe_mask (hμ : μ .regs = true ∧ μ .mot = true) (x : Nat) (s : State) :
    (observe x s).mask μ = s.mask μ := by
  simp only [observe, ↓setF_mask, ↓setS_mask, ↓setReel_mask, ↓mask_ite, ite_self, hμ]

theorem observerRests_mask (hμ : μ .regs = true ∧ μ .mot = true) (x : Nat) (s : State) :
    (observerRests x s).mask μ = s.mask μ := by
  simp only [observerRests, ↓setF_mask, ↓setReel_mask, hμ]

theorem obsLost_mask (hμ : μ .regs = true ∧ μ .evt = true ∧ μ .que = true ∧ μ .mtr = true ∧ μ .ten = true ∧ μ .vol = true ∧ μ .fmt = true ∧ μ .band = true ∧ μ .cal = true ∧ μ .rch = true ∧ μ .mot = true) (x : Nat) (s : State) :
    (obsLost x s).mask μ = s.mask μ := by
  simp only [obsLost, ↓setF_mask, ↓setReel_mask, ↓raiseMot_mask, ↓motionStop_mask, ↓chooseSrc_mask, ↓mask_ite, ite_self, and_self, hμ]

theorem driveOff_mask (hμ : μ .regs = true ∧ μ .mot = true) (x : Nat) (s : State) :
    (driveOff x s).mask μ = s.mask μ := by
  simp only [driveOff, ↓setF_mask, ↓setReel_mask, ↓observerRests_mask, and_self, hμ]

theorem startFail_mask (hμ : μ .regs = true ∧ μ .evt = true ∧ μ .que = true ∧ μ .mtr = true ∧ μ .ten = true ∧ μ .mot = true) (x : Nat) (ends : Bool) (s : State) :
    (startFail x ends s).mask μ = s.mask μ := by
  simp only [startFail, ↓setF_mask, ↓failExec_mask, ↓raiseMot_mask, ↓driveOff_mask, ↓mask_ite, ite_self, and_self, hμ]

theorem driveStart_mask (hμ : μ .regs = true ∧ μ .evt = true ∧ μ .que = true ∧ μ .mtr = true ∧ μ .ten = true ∧ μ .vol = true ∧ μ .fmt = true ∧ μ .band = true ∧ μ .cal = true ∧ μ .rch = true ∧ μ .mot = true) (x : Nat) (s : State) :
    (driveStart x s).mask μ = s.mask μ := by
  simp only [driveStart, ↓setF_mask, ↓setReel_mask, ↓chooseSrc_mask, ↓startFail_mask, ↓mask_ite, ite_self, and_self, hμ]

theorem motEnable_mask (hμ : μ .regs = true ∧ μ .evt = true ∧ μ .que = true ∧ μ .mtr = true ∧ μ .ten = true ∧ μ .vol = true ∧ μ .fmt = true ∧ μ .band = true ∧ μ .cal = true ∧ μ .rch = true ∧ μ .mot = true) (x : Nat) (s : State) :
    (motEnable x s).mask μ = s.mask μ := by
  simp only [motEnable, ↓setF_mask, ↓notify_mask, ↓driveStart_mask, ↓mask_ite, ite_self, and_self, hμ]

theorem pulsesDone_mask (hμ : μ .regs = true ∧ μ .evt = true ∧ μ .que = true ∧ μ .mtr = true ∧ μ .ten = true ∧ μ .vol = true ∧ μ .fmt = true ∧ μ .band = true ∧ μ .cal = true ∧ μ .rch = true ∧ μ .mot = true) (x : Nat) (peaks : List Nat) (s : State) :
    (pulsesDone x peaks s).mask μ = s.mask μ := by
  simp only [pulsesDone, ↓setF_mask, ↓setReel_mask, ↓chooseSrc_mask, ↓startFail_mask, ↓mask_ite, ite_self, and_self, hμ]

theorem startTimeout_mask (hμ : μ .regs = true ∧ μ .evt = true ∧ μ .que = true ∧ μ .mtr = true ∧ μ .ten = true ∧ μ .mot = true) (x : Nat) (s : State) :
    (startTimeout x s).mask μ = s.mask μ := by
  simp only [startTimeout, ↓startFail_mask, ↓mask_ite, ite_self, and_self, hμ]

theorem currentLoop_mask (hμ : μ .regs = true ∧ μ .evt = true ∧ μ .mot = true) (x : Nat) (th : Nat) (currents : List Int) (s : State) :
    (currentLoop x th currents s).mask μ = s.mask μ := by
  simp only [currentLoop, ↓setF_mask, ↓setS_mask, ↓setReel_mask, ↓raiseMot_mask, ↓mask_ite, ite_self, and_self, hμ]

theorem plausPeriod_mask (hμ : μ .mot = true) (x : Nat) (bad : Bool) (s : State) :
    (plausPeriod x bad s).mask μ = s.mask μ := by
  simp only [plausPeriod, ↓setReel_mask, hμ]

theorem measured_mask (hμ : μ .regs = true ∧ μ .mot = true) (x : Nat) (id : Int) (iq : Int) (hold : Bool) (s : State) :
    (measured x id iq hold s).mask μ = s.mask μ := by
  simp only [measured, ↓setB_mask, ↓setS_mask, ↓setReel_mask, hμ]

theorem csoSample_mask (hμ : μ .cal = true ∧ μ .mot = true) (x : Nat) (z : Option Nat) (s : State) :
    (csoSample x z s).mask μ = s.mask μ := by
  unfold csoSample
  (repeat' split) <;> simp only [↓onFrames_mask, ↓setReel_mask, hμ]

theorem switchPeriod_mask (hμ : μ .regs = true ∧ μ .evt = true ∧ μ .cal = true ∧ μ .mot = true) (x : Nat) (p : PwmIn) (s : State) :
    (switchPeriod x p s).mask μ = s.mask μ := by
  simp only [switchPeriod, ↓setF_mask, ↓incF_mask, ↓notify_mask, ↓setReel_mask, ↓setAdc_mask, ↓currentLoop_mask, ↓plausPeriod_mask, ↓measured_mask, ↓csoSample_mask, ↓mask_ite, ite_self, and_self, hμ]

theorem advanceAngles_mask (hμ : μ .regs = true ∧ μ .mot = true) (x : Nat) (s : State) :
    (advanceAngles x s).mask μ = s.mask μ := by
  simp only [advanceAngles, ↓setS_mask, ↓setReel_mask, hμ]

theorem supervise_mask (hμ : μ .mot = true) (x : Nat) (s : State) :
    (supervise x s).mask μ = s.mask μ := by
  simp only [supervise, ↓setReel_mask, hμ]

theorem pwmPeriod_mask (hμ : μ .regs = true ∧ μ .evt = true ∧ μ .que = true ∧ μ .mtr = true ∧ μ .ten = true ∧ μ .vol = true ∧ μ .fmt = true ∧ μ .band = true ∧ μ .cal = true ∧ μ .rch = true ∧ μ .mot = true) (x : Nat) (p : PwmIn) (s : State) :
    (pwmPeriod x p s).mask μ = s.mask μ := by
  simp only [pwmPeriod, ↓setF_mask, ↓chooseSrc_mask, ↓observe_mask, ↓driveOff_mask, ↓driveStart_mask, ↓switchPeriod_mask, ↓advanceAngles_mask, ↓supervise_mask, ↓mask_ite, ite_self, and_self, hμ]

theorem revolution_mask (hμ : μ .regs = true ∧ μ .mot = true) (x : Nat) (tick : Nat) (other : Nat) (s : State) :
    (revolution x tick other s).mask μ = s.mask μ := by
  simp only [revolution, ↓setF_mask, ↓setReel_mask, ↓mask_ite, ite_self, hμ]
  (repeat' split) <;> simp only [↓setF_mask, ↓setReel_mask, hμ]

theorem vbusSample_mask (hμ : μ .regs = true ∧ μ .evt = true ∧ μ .mot = true) (code : Nat) (late : Bool) (s : State) :
    (vbusSample code late s).mask μ = s.mask μ := by
  simp only [vbusSample, ↓setF_mask, ↓setB_mask, ↓incF_mask, ↓setMot_mask, ↓setAdc_mask, ↓raiseMot_mask, ↓mask_ite, ite_self, and_self, hμ]

theorem chopperFault_mask (hμ : μ .regs = true ∧ μ .evt = true ∧ μ .que = true ∧ μ .mtr = true ∧ μ .ten = true ∧ μ .vol = true ∧ μ .fmt = true ∧ μ .band = true ∧ μ .cal = true ∧ μ .rch = true ∧ μ .mot = true) (s : State) :
    (chopperFault s).mask μ = s.mask μ := by
  simp only [chopperFault, ↓setF_mask, ↓setS_mask, ↓raiseMot_mask, ↓motionStop_mask, ↓mask_ite, ite_self, ↓mask_forEach, and_self, implies_true, hμ]

theorem busOvervolt_mask (hμ : μ .regs = true ∧ μ .evt = true ∧ μ .que = true ∧ μ .mtr = true ∧ μ .ten = true ∧ μ .vol = true ∧ μ .fmt = true ∧ μ .band = true ∧ μ .cal = true ∧ μ .rch = true ∧ μ .mot = true) (s : State) :
    (busOvervolt s).mask μ = s.mask μ := by
  simp only [busOvervolt, ↓setF_mask, ↓raiseMot_mask, ↓motionStop_mask, ↓mask_ite, ite_self, and_self, hμ]

theorem radSeed_mask (hμ : μ .regs = true) (value : Nat) (s : State) :
    (radSeed value s).mask μ = s.mask μ := by
  simp only [radSeed, ↓setF_mask, hμ]

/-! ## Commands -/

theorem execPwmPeriod_mask (hμ : μ .regs = true ∧ μ .evt = true ∧ μ .que = true ∧ μ .mtr = true ∧ μ .ten = true ∧ μ .vol = true ∧ μ .fmt = true ∧ μ .band = true ∧ μ .cal = true ∧ μ .rch = true ∧ μ .mot = true) (reel : Nat) (x : PwmIn) (s : State) {t : State}
    (ht : execPwmPeriod reel x s = .next t) : t.mask μ = s.mask μ := by
  rw [execPwmPeriod] at ht
  rw [← Host.Outcome.next.inj ht]
  simp only [↓pwmPeriod_mask, and_self, hμ]

theorem execCurPlaus_mask (hμ : μ .regs = true ∧ μ .evt = true ∧ μ .que = true ∧ μ .mtr = true ∧ μ .ten = true ∧ μ .vol = true ∧ μ .fmt = true ∧ μ .band = true ∧ μ .cal = true ∧ μ .rch = true ∧ μ .mot = true) (reel : Nat) (s : State) {t : State}
    (ht : execCurPlaus reel s = .next t) : t.mask μ = s.mask μ := by
  rw [execCurPlaus] at ht
  rw [← Host.Outcome.next.inj ht]
  simp only [↓raiseMot_mask, ↓motionStop_mask, ↓mask_ite, ite_self, and_self, hμ]

theorem execHallEdge_mask (hμ : μ .regs = true ∧ μ .evt = true ∧ μ .que = true ∧ μ .mtr = true ∧ μ .ten = true ∧ μ .vol = true ∧ μ .fmt = true ∧ μ .band = true ∧ μ .cal = true ∧ μ .rch = true ∧ μ .mot = true) (reel : Nat) (code : Nat) (interval : Nat) (s : State) {t : State}
    (ht : execHallEdge reel code interval s = .next t) : t.mask μ = s.mask μ := by
  rw [execHallEdge] at ht
  rw [← Host.Outcome.next.inj ht]
  simp only [↓hallEdge_mask, ↓mask_ite, ite_self, and_self, hμ]

theorem execObsLost_mask (hμ : μ .regs = true ∧ μ .evt = true ∧ μ .que = true ∧ μ .mtr = true ∧ μ .ten = true ∧ μ .vol = true ∧ μ .fmt = true ∧ μ .band = true ∧ μ .cal = true ∧ μ .rch = true ∧ μ .mot = true) (reel : Nat) (s : State) {t : State}
    (ht : execObsLost reel s = .next t) : t.mask μ = s.mask μ := by
  rw [execObsLost] at ht
  rw [← Host.Outcome.next.inj ht]
  simp only [↓obsLost_mask, ↓mask_ite, ite_self, and_self, hμ]

theorem execMotEn_mask (hμ : μ .regs = true ∧ μ .evt = true ∧ μ .que = true ∧ μ .mtr = true ∧ μ .ten = true ∧ μ .vol = true ∧ μ .fmt = true ∧ μ .band = true ∧ μ .cal = true ∧ μ .rch = true ∧ μ .mot = true) (reel : Nat) (s : State) {t : State}
    (ht : execMotEn reel s = .next t) : t.mask μ = s.mask μ := by
  rw [execMotEn] at ht
  rw [← Host.Outcome.next.inj ht]
  simp only [↓lockGate_mask, ↓motEnable_mask, ↓mask_ite, ite_self, and_self, implies_true, hμ]

theorem execPulseStartDone_mask (hμ : μ .regs = true ∧ μ .evt = true ∧ μ .que = true ∧ μ .mtr = true ∧ μ .ten = true ∧ μ .vol = true ∧ μ .fmt = true ∧ μ .band = true ∧ μ .cal = true ∧ μ .rch = true ∧ μ .mot = true) (reel : Nat) (peaks : List Nat) (s : State) {t : State}
    (ht : execPulseStartDone reel peaks s = .next t) : t.mask μ = s.mask μ := by
  rw [execPulseStartDone] at ht
  rw [← Host.Outcome.next.inj ht]
  simp only [↓pulsesDone_mask, ↓mask_ite, ite_self, and_self, hμ]

theorem execStartTimeout_mask (hμ : μ .regs = true ∧ μ .evt = true ∧ μ .que = true ∧ μ .mtr = true ∧ μ .ten = true ∧ μ .mot = true) (reel : Nat) (s : State) {t : State}
    (ht : execStartTimeout reel s = .next t) : t.mask μ = s.mask μ := by
  rw [execStartTimeout] at ht
  rw [← Host.Outcome.next.inj ht]
  simp only [↓startTimeout_mask, ↓mask_ite, ite_self, and_self, hμ]

theorem execReelRevolution_mask (hμ : μ .regs = true ∧ μ .mot = true) (reel : Nat) (tick : Nat) (other : Nat) (s : State) {t : State}
    (ht : execReelRevolution reel tick other s = .next t) : t.mask μ = s.mask μ := by
  rw [execReelRevolution] at ht
  rw [← Host.Outcome.next.inj ht]
  simp only [↓revolution_mask, and_self, hμ]

theorem execRadSeed_mask (hμ : μ .regs = true) (value : Nat) (s : State) {t : State}
    (ht : execRadSeed value s = .next t) : t.mask μ = s.mask μ := by
  rw [execRadSeed] at ht
  rw [← Host.Outcome.next.inj ht]
  simp only [↓lockGate_mask, ↓radSeed_mask, implies_true, hμ]

theorem execVbusSample_mask (hμ : μ .regs = true ∧ μ .evt = true ∧ μ .mot = true) (code : Nat) (late : Bool) (s : State) {t : State}
    (ht : execVbusSample code late s = .next t) : t.mask μ = s.mask μ := by
  rw [execVbusSample] at ht
  rw [← Host.Outcome.next.inj ht]
  simp only [↓vbusSample_mask, and_self, hμ]

theorem execBusUv_mask (hμ : μ .regs = true ∧ μ .evt = true ∧ μ .que = true ∧ μ .mtr = true ∧ μ .ten = true ∧ μ .vol = true ∧ μ .fmt = true ∧ μ .band = true ∧ μ .cal = true ∧ μ .rch = true ∧ μ .mot = true) (s : State) {t : State}
    (ht : execBusUv s = .next t) : t.mask μ = s.mask μ := by
  rw [execBusUv] at ht
  rw [← Host.Outcome.next.inj ht]
  simp only [↓raiseMot_mask, ↓motionStop_mask, ↓mask_ite, ite_self, and_self, hμ]

theorem execChopperFault_mask (hμ : μ .regs = true ∧ μ .evt = true ∧ μ .que = true ∧ μ .mtr = true ∧ μ .ten = true ∧ μ .vol = true ∧ μ .fmt = true ∧ μ .band = true ∧ μ .cal = true ∧ μ .rch = true ∧ μ .mot = true) (s : State) {t : State}
    (ht : execChopperFault s = .next t) : t.mask μ = s.mask μ := by
  rw [execChopperFault] at ht
  rw [← Host.Outcome.next.inj ht]
  simp only [↓chopperFault_mask, and_self, hμ]

theorem execBusOvervolt_mask (hμ : μ .regs = true ∧ μ .evt = true ∧ μ .que = true ∧ μ .mtr = true ∧ μ .ten = true ∧ μ .vol = true ∧ μ .fmt = true ∧ μ .band = true ∧ μ .cal = true ∧ μ .rch = true ∧ μ .mot = true) (s : State) {t : State}
    (ht : execBusOvervolt s = .next t) : t.mask μ = s.mask μ := by
  rw [execBusOvervolt] at ht
  rw [← Host.Outcome.next.inj ht]
  simp only [↓busOvervolt_mask, and_self, hμ]

theorem execReelOverspeed_mask (hμ : μ .regs = true ∧ μ .evt = true ∧ μ .que = true ∧ μ .mtr = true ∧ μ .ten = true ∧ μ .vol = true ∧ μ .fmt = true ∧ μ .band = true ∧ μ .cal = true ∧ μ .rch = true ∧ μ .mot = true) (reel : Nat) (s : State) {t : State}
    (ht : execReelOverspeed reel s = .next t) : t.mask μ = s.mask μ := by
  rw [execReelOverspeed] at ht
  rw [← Host.Outcome.next.inj ht]
  simp only [↓raiseMot_mask, ↓motionStop_mask, ↓mask_ite, ite_self, and_self, hμ]

end Sys2Proof.Machine
end

