-- ==== Sys2Proof/Laws/LoopMask.lean ====
section
/-!
SUPPORT. What each function of Machine/Loop.lean touches at most.
-/
namespace Sys2Proof.Machine

variable {μ : Part → Bool}

theorem setLoopSlot_mask (hμ : μ .mot = true) (n : Nat) (x : SlotSt) (s : State) :
    (setLoopSlot n x s).mask μ = s.mask μ := by
  simp only [setLoopSlot, ↓setMot_mask, hμ]

theorem slotWinNext_mask (hμ : μ .regs = true) (s : State) :
    (slotWinNext s).mask μ = s.mask μ := by
  simp only [slotWinNext, ↓setF_mask, ↓mask_ite, ite_self, hμ]

theorem slotWinWrite_mask (hμ : μ .regs = true ∧ μ .evt = true ∧ μ .mot = true) (value : Nat) (s : State) :
    (slotWinWrite value s).mask μ = s.mask μ := by
  simp only [slotWinWrite, ↓notify_mask, ↓setMot_mask, ↓slotWinNext_mask, ↓mask_ite, ite_self, and_self, hμ]

theorem injStep_mask (hμ : μ .regs = true ∧ μ .mot = true) (n : Nat) (s : State) :
    (injStep n s).2.mask μ = s.mask μ := by
  simp only [injStep]
  (repeat' split) <;> simp only [↓setMot_mask, ↓capTrigger_mask, and_self, hμ]

theorem injGo_mask (hμ : μ .regs = true ∧ μ .mot = true) (s : State) :
    (injGo s).mask μ = s.mask μ := by
  simp only [injGo, ↓setF_mask, ↓setMot_mask, ↓mask_ite, ite_self, hμ]

theorem injEnd_mask (hμ : μ .regs = true ∧ μ .evt = true) (s : State) :
    (injEnd s).mask μ = s.mask μ := by
  simp only [injEnd, ↓setF_mask, ↓notify_mask, ↓mask_ite, ite_self, and_self, hμ]

theorem capArm_mask (hμ : μ .regs = true ∧ μ .mot = true) (s : State) :
    (capArm s).mask μ = s.mask μ := by
  simp only [capArm, ↓setF_mask, ↓setMot_mask, ↓capTrigger_mask, ↓mask_ite, ite_self, and_self, hμ]

theorem capAbort_mask (hμ : μ .regs = true) (s : State) :
    (capAbort s).mask μ = s.mask μ := by
  simp only [capAbort, ↓setF_mask, hμ]

theorem capDone_mask (hμ : μ .regs = true) (s : State) :
    (capDone s).mask μ = s.mask μ := by
  simp only [capDone, ↓setF_mask, ↓mask_ite, ite_self, hμ]

theorem capTick_mask (hμ : μ .regs = true ∧ μ .mot = true) (n : Nat) (s : State) :
    (capTick n s).mask μ = s.mask μ := by
  simp only [capTick, ↓setF_mask, ↓setMot_mask, ↓capTrigger_mask, ↓mask_ite, ite_self, and_self, hμ]

theorem slotSwap_mask (hμ : μ .regs = true ∧ μ .evt = true ∧ μ .mot = true) (n : Nat) (s : State) :
    (slotSwap n s).mask μ = s.mask μ := by
  simp only [slotSwap, ↓notify_mask, ↓setMot_mask, ↓setLoopSlot_mask, ↓mask_ite, ite_self, and_self, hμ]

theorem loopCommit_mask (hμ : μ .mot = true) (mask : Nat) (s : State) :
    (loopCommit mask s).mask μ = s.mask μ := by
  simp only [loopCommit, ↓setLoopSlot_mask, ↓mask_forEach, implies_true, hμ]

theorem slotCore_mask (hμ : μ .regs = true ∧ μ .mot = true) (n : Nat) (i : SlotIn) (s : State) :
    (slotCore n i s).mask μ = s.mask μ := by
  simp only [slotCore, ↓setLoopSlot_mask, ↓capTick_mask, and_self, hμ]

theorem slotSample_mask (hμ : μ .regs = true ∧ μ .evt = true ∧ μ .mot = true) (n : Nat) (target : Int) (meas : Int) (ffIn : Int) (s : State) :
    (slotSample n target meas ffIn s).mask μ = s.mask μ := by
  simp only [slotSample, ↓injStep_mask, ↓slotSwap_mask, ↓slotCore_mask, and_self, hμ]

theorem slotSkip_mask (hμ : μ .mot = true) (n : Nat) (s : State) :
    (slotSkip n s).mask μ = s.mask μ := by
  simp only [slotSkip, ↓setLoopSlot_mask, hμ]

theorem slotOverrun_mask (hμ : μ .regs = true ∧ μ .evt = true ∧ μ .que = true ∧ μ .mtr = true ∧ μ .ten = true ∧ μ .vol = true ∧ μ .fmt = true ∧ μ .band = true ∧ μ .cal = true ∧ μ .rch = true ∧ μ .mot = true) (n : Nat) (s : State) :
    (slotOverrun n s).mask μ = s.mask μ := by
  simp only [slotOverrun, ↓incF_mask, ↓raiseMot_mask, ↓motionStop_mask, ↓setLoopSlot_mask, ↓mask_ite, ite_self, and_self, hμ]

theorem slotTurn_mask (hμ : μ .regs = true ∧ μ .evt = true ∧ μ .que = true ∧ μ .mtr = true ∧ μ .ten = true ∧ μ .vol = true ∧ μ .fmt = true ∧ μ .band = true ∧ μ .cal = true ∧ μ .rch = true ∧ μ .mot = true) (n : Nat) (late : List Nat) (act : State → State) (s : State) (hact : ∀ s, (act s).mask μ = s.mask μ) :
    (slotTurn n late act s).mask μ = s.mask μ := by
  simp only [slotTurn, ↓setLoopSlot_mask, ↓slotOverrun_mask, ↓mask_ite, ite_self, and_self, hμ, hact]

theorem spdSource_mask (hμ : μ .regs = true) (src : Nat) (s : State) :
    (spdSource src s).mask μ = s.mask μ := by
  simp only [spdSource, ↓setF_mask, ↓mask_ite, ite_self, hμ]

theorem spdrefEdge_mask (hμ : μ .regs = true ∧ μ .mot = true) (at_ : Nat) (s : State) :
    (spdrefEdge at_ s).mask μ = s.mask μ := by
  simp only [spdrefEdge, ↓setF_mask, ↓setMot_mask, hμ]

theorem spdrefLost_mask (hμ : μ .regs = true ∧ μ .evt = true ∧ μ .mot = true) (s : State) :
    (spdrefLost s).mask μ = s.mask μ := by
  simp only [spdrefLost, ↓setF_mask, ↓notify_mask, ↓setMot_mask, ↓raiseMot_mask, ↓mask_ite, ite_self, and_self, hμ]

theorem spdrefRate_mask (hμ : μ .regs = true ∧ μ .evt = true ∧ μ .mot = true) (s : State) :
    (spdrefRate s).mask μ = s.mask μ := by
  simp only [spdrefRate]
  (repeat' split) <;> simp only [↓setF_mask, ↓setMot_mask, ↓raiseMot_mask, and_self, hμ]

theorem tapeLimiter_mask (hμ : μ .regs = true ∧ μ .mot = true) (s : State) :
    (tapeLimiter s).2.2.mask μ = s.mask μ := by
  simp only [tapeLimiter, ↓setB_mask, ↓setS_mask, ↓setMot_mask, hμ]
  (repeat' split) <;> simp only [↓injStep_mask, and_self, hμ]

theorem tensionEstimate_mask (hμ : μ .regs = true ∧ μ .mot = true) (s : State) :
    (tensionEstimate s).mask μ = s.mask μ := by
  simp only [tensionEstimate, ↓setF_mask, ↓setMot_mask, ↓setReel_mask, ↓mask_ite, ite_self, ↓mask_forEach, implies_true, hμ]

theorem reelCeil_mask (hμ : μ .regs = true ∧ μ .mot = true) (x : Nat) (s : State) :
    (reelCeil x s).mask μ = s.mask μ := by
  simp only [reelCeil, ↓setF_mask, ↓setReel_mask, ↓mask_ite, ite_self, hμ]

theorem ceiling_mask (hμ : μ .regs = true ∧ μ .mot = true) (s : State) :
    (ceiling s).mask μ = s.mask μ := by
  simp only [ceiling, ↓setF_mask, ↓setMot_mask, ↓reelCeil_mask, ↓mask_ite, ite_self, ↓mask_forEach, and_self, implies_true, hμ]

theorem setBin_mask (hμ : μ .mot = true) (x : Nat) (k : Nat) (v : Int) (s : State) :
    (setBin x k v s).mask μ = s.mask μ := by
  simp only [setBin, ↓setMot_mask, hμ]

theorem repUpdate_mask (hμ : μ .regs = true ∧ μ .mot = true) (x : Nat) (s : State) :
    (repUpdate x s).mask μ = s.mask μ := by
  simp only [repUpdate, ↓setB_mask, ↓setReel_mask, ↓setBin_mask, ↓mask_ite, ite_self, hμ]

theorem group_mask (hμ : μ .regs = true ∧ μ .mot = true) (x : Nat) (s : State) :
    (group x s).mask μ = s.mask μ := by
  simp only [group, ↓setB_mask, ↓setS_mask, ↓setReel_mask, ↓setLoopSlot_mask, hμ]

theorem velocitySlot_mask (hμ : μ .regs = true ∧ μ .evt = true ∧ μ .mot = true) (n : Nat) (x : Int) (iv : Int) (s : State) :
    (velocitySlot n x iv s).mask μ = s.mask μ := by
  simp only [velocitySlot, ↓slotSwap_mask, ↓slotCore_mask, and_self, hμ]

theorem coarseCount_mask (hμ : μ .regs = true ∧ μ .pos = true) (s : State) :
    (coarseCount s).mask μ = s.mask μ := by
  unfold coarseCount
  (repeat' split) <;> simp only [↓setS_mask, ↓setPos_mask, hμ]

theorem turnAge_mask (hμ : μ .regs = true) (s : State) :
    (turnAge s).mask μ = s.mask μ := by
  simp only [turnAge, ↓setF_mask, ↓mask_ite, ite_self, hμ]

theorem loopSample_mask (hμ : μ .regs = true ∧ μ .evt = true ∧ μ .pos = true ∧ μ .que = true ∧ μ .mtr = true ∧ μ .ten = true ∧ μ .vol = true ∧ μ .fmt = true ∧ μ .band = true ∧ μ .cal = true ∧ μ .rch = true ∧ μ .mot = true) (aux : List Nat) (late : List Nat) (s : State) :
    (loopSample aux late s).mask μ = s.mask μ := by
  simp (maxDischargeDepth := 6) only [loopSample, ↓setMot_mask, ↓setAdc_mask, ↓slotSample_mask, ↓slotTurn_mask, ↓spdrefRate_mask, ↓tapeLimiter_mask, ↓tensionEstimate_mask, ↓ceiling_mask, ↓repUpdate_mask, ↓group_mask, ↓velocitySlot_mask, ↓coarseCount_mask, ↓turnAge_mask, ↓mask_ite, ite_self, ↓mask_forEach, and_self, implies_true, hμ]

theorem loopFollow_mask (hμ : μ .regs = true ∧ μ .evt = true ∧ μ .que = true ∧ μ .mtr = true ∧ μ .ten = true ∧ μ .vol = true ∧ μ .fmt = true ∧ μ .band = true ∧ μ .cal = true ∧ μ .rch = true ∧ μ .mot = true) (n : Nat) (s : State) :
    (loopFollow n s).mask μ = s.mask μ := by
  simp only [loopFollow, ↓incF_mask, ↓raiseMot_mask, ↓motionStop_mask, ↓setLoopSlot_mask, ↓mask_ite, ite_self, and_self, hμ]

theorem overTension_mask (hμ : μ .regs = true ∧ μ .evt = true ∧ μ .que = true ∧ μ .mtr = true ∧ μ .ten = true ∧ μ .vol = true ∧ μ .fmt = true ∧ μ .band = true ∧ μ .cal = true ∧ μ .rch = true ∧ μ .mot = true) (s : State) :
    (overTension s).mask μ = s.mask μ := by
  simp only [overTension, ↓raiseMot_mask, ↓motionStop_mask, ↓mask_ite, ite_self, and_self, hμ]

theorem slackTape_mask (hμ : μ .regs = true ∧ μ .evt = true ∧ μ .que = true ∧ μ .mtr = true ∧ μ .ten = true ∧ μ .vol = true ∧ μ .fmt = true ∧ μ .band = true ∧ μ .cal = true ∧ μ .rch = true ∧ μ .mot = true) (s : State) :
    (slackTape s).mask μ = s.mask μ := by
  simp only [slackTape, ↓raiseMot_mask, ↓motionStop_mask, ↓mask_ite, ite_self, and_self, hμ]

theorem overTensionHw_mask (hμ : μ .regs = true ∧ μ .evt = true ∧ μ .que = true ∧ μ .mtr = true ∧ μ .ten = true ∧ μ .vol = true ∧ μ .fmt = true ∧ μ .band = true ∧ μ .cal = true ∧ μ .rch = true ∧ μ .mot = true) (s : State) :
    (overTensionHw s).mask μ = s.mask μ := by
  simp only [overTensionHw, ↓raiseMot_mask, ↓motionStop_mask, ↓mask_ite, ite_self, and_self, hμ]

theorem repClear_mask (hμ : μ .mot = true) (a : Bool) (b : Bool) (s : State) :
    (repClear a b s).mask μ = s.mask μ := by
  simp only [repClear, ↓setMot_mask, hμ]

theorem binWrite_mask (hμ : μ .regs = true ∧ μ .mot = true) (value : Nat) (s : State) :
    (binWrite value s).mask μ = s.mask μ := by
  simp only [binWrite, ↓setF_mask, ↓setBin_mask, ↓mask_ite, ite_self, hμ]

/-! ## Commands -/

theorem execLoopSample10khz_mask (hμ : μ .regs = true ∧ μ .evt = true ∧ μ .pos = true ∧ μ .que = true ∧ μ .mtr = true ∧ μ .ten = true ∧ μ .vol = true ∧ μ .fmt = true ∧ μ .band = true ∧ μ .cal = true ∧ μ .rch = true ∧ μ .mot = true) (aux : List Nat) (late : List Nat) (s : State) {t : State}
    (ht : execLoopSample10khz aux late s = .next t) : t.mask μ = s.mask μ := by
  rw [execLoopSample10khz] at ht
  rw [← Host.Outcome.next.inj ht]
  simp only [↓loopSample_mask, and_self, hμ]

theorem execOvertension_mask (hμ : μ .regs = true ∧ μ .evt = true ∧ μ .que = true ∧ μ .mtr = true ∧ μ .ten = true ∧ μ .vol = true ∧ μ .fmt = true ∧ μ .band = true ∧ μ .cal = true ∧ μ .rch = true ∧ μ .mot = true) (s : State) {t : State}
    (ht : execOvertension s = .next t) : t.mask μ = s.mask μ := by
  rw [execOvertension] at ht
  rw [← Host.Outcome.next.inj ht]
  simp only [↓overTension_mask, and_self, hμ]

theorem execOvertensionHw_mask (hμ : μ .regs = true ∧ μ .evt = true ∧ μ .que = true ∧ μ .mtr = true ∧ μ .ten = true ∧ μ .vol = true ∧ μ .fmt = true ∧ μ .band = true ∧ μ .cal = true ∧ μ .rch = true ∧ μ .mot = true) (s : State) {t : State}
    (ht : execOvertensionHw s = .next t) : t.mask μ = s.mask μ := by
  rw [execOvertensionHw] at ht
  rw [← Host.Outcome.next.inj ht]
  simp only [↓overTensionHw_mask, and_self, hμ]

theorem execSlackTape_mask (hμ : μ .regs = true ∧ μ .evt = true ∧ μ .que = true ∧ μ .mtr = true ∧ μ .ten = true ∧ μ .vol = true ∧ μ .fmt = true ∧ μ .band = true ∧ μ .cal = true ∧ μ .rch = true ∧ μ .mot = true) (s : State) {t : State}
    (ht : execSlackTape s = .next t) : t.mask μ = s.mask μ := by
  rw [execSlackTape] at ht
  rw [← Host.Outcome.next.inj ht]
  simp only [↓slackTape_mask, and_self, hμ]

theorem execLoopFollow_mask (hμ : μ .regs = true ∧ μ .evt = true ∧ μ .que = true ∧ μ .mtr = true ∧ μ .ten = true ∧ μ .vol = true ∧ μ .fmt = true ∧ μ .band = true ∧ μ .cal = true ∧ μ .rch = true ∧ μ .mot = true) (slot : Nat) (s : State) {t : State}
    (ht : execLoopFollow slot s = .next t) : t.mask μ = s.mask μ := by
  rw [execLoopFollow] at ht
  rw [← Host.Outcome.next.inj ht]
  simp only [↓loopFollow_mask, and_self, hμ]

theorem execLoopCommit_mask (hμ : μ .regs = true ∧ μ .mot = true) (mask : Nat) (s : State) {t : State}
    (ht : execLoopCommit mask s = .next t) : t.mask μ = s.mask μ := by
  rw [execLoopCommit] at ht
  rw [← Host.Outcome.next.inj ht]
  simp only [↓lockGate_mask, ↓loopCommit_mask, implies_true, hμ]

theorem execSlotWinWrite_mask (hμ : μ .regs = true ∧ μ .evt = true ∧ μ .mot = true) (value : Nat) (s : State) {t : State}
    (ht : execSlotWinWrite value s = .next t) : t.mask μ = s.mask μ := by
  rw [execSlotWinWrite] at ht
  rw [← Host.Outcome.next.inj ht]
  simp only [↓lockGate_mask, ↓slotWinWrite_mask, and_self, implies_true, hμ]

theorem execSpdSrcWrite_mask (hμ : μ .regs = true) (src : Nat) (s : State) {t : State}
    (ht : execSpdSrcWrite src s = .next t) : t.mask μ = s.mask μ := by
  rw [execSpdSrcWrite] at ht
  rw [← Host.Outcome.next.inj ht]
  simp only [↓lockGate_mask, ↓spdSource_mask, implies_true, hμ]

theorem execSpdrefLost_mask (hμ : μ .regs = true ∧ μ .evt = true ∧ μ .mot = true) (s : State) {t : State}
    (ht : execSpdrefLost s = .next t) : t.mask μ = s.mask μ := by
  rw [execSpdrefLost] at ht
  rw [← Host.Outcome.next.inj ht]
  simp only [↓spdrefLost_mask, and_self, hμ]

theorem execSpdrefEdge_mask (hμ : μ .regs = true ∧ μ .mot = true) (at_ : Nat) (s : State) {t : State}
    (ht : execSpdrefEdge at_ s = .next t) : t.mask μ = s.mask μ := by
  rw [execSpdrefEdge] at ht
  rw [← Host.Outcome.next.inj ht]
  simp only [↓spdrefEdge_mask, and_self, hμ]

theorem execInjGo_mask (hμ : μ .regs = true ∧ μ .mot = true) (s : State) {t : State}
    (ht : execInjGo s = .next t) : t.mask μ = s.mask μ := by
  rw [execInjGo] at ht
  rw [← Host.Outcome.next.inj ht]
  simp only [↓lockGate_mask, ↓injGo_mask, and_self, implies_true, hμ]

theorem execInjStop_mask (hμ : μ .regs = true ∧ μ .evt = true) (s : State) {t : State}
    (ht : execInjStop s = .next t) : t.mask μ = s.mask μ := by
  rw [execInjStop] at ht
  rw [← Host.Outcome.next.inj ht]
  simp only [↓lockGate_mask, ↓injEnd_mask, and_self, implies_true, hμ]

theorem execInjDone_mask (hμ : μ .regs = true ∧ μ .evt = true) (s : State) {t : State}
    (ht : execInjDone s = .next t) : t.mask μ = s.mask μ := by
  rw [execInjDone] at ht
  rw [← Host.Outcome.next.inj ht]
  simp only [↓injEnd_mask, ↓mask_ite, ite_self, and_self, hμ]

theorem execCapArm_mask (hμ : μ .regs = true ∧ μ .mot = true) (s : State) {t : State}
    (ht : execCapArm s = .next t) : t.mask μ = s.mask μ := by
  rw [execCapArm] at ht
  rw [← Host.Outcome.next.inj ht]
  simp only [↓lockGate_mask, ↓capArm_mask, and_self, implies_true, hμ]

theorem execCapAbort_mask (hμ : μ .regs = true) (s : State) {t : State}
    (ht : execCapAbort s = .next t) : t.mask μ = s.mask μ := by
  rw [execCapAbort] at ht
  rw [← Host.Outcome.next.inj ht]
  simp only [↓lockGate_mask, ↓capAbort_mask, implies_true, hμ]

theorem execCapDone_mask (hμ : μ .regs = true) (s : State) {t : State}
    (ht : execCapDone s = .next t) : t.mask μ = s.mask μ := by
  rw [execCapDone] at ht
  rw [← Host.Outcome.next.inj ht]
  simp only [↓capDone_mask, hμ]

theorem execRepClr_mask (hμ : μ .regs = true ∧ μ .mot = true) (a : Bool) (b : Bool) (s : State) {t : State}
    (ht : execRepClr a b s = .next t) : t.mask μ = s.mask μ := by
  rw [execRepClr] at ht
  rw [← Host.Outcome.next.inj ht]
  simp only [↓lockGate_mask, ↓repClear_mask, implies_true, hμ]

theorem execBinWinWrite_mask (hμ : μ .regs = true ∧ μ .mot = true) (value : Nat) (s : State) {t : State}
    (ht : execBinWinWrite value s = .next t) : t.mask μ = s.mask μ := by
  rw [execBinWinWrite] at ht
  rw [← Host.Outcome.next.inj ht]
  simp only [↓lockGate_mask, ↓binWrite_mask, and_self, implies_true, hμ]

end Sys2Proof.Machine
end

