-- ==== Sys2Proof/Laws/FrameMask.lean ====
section
/-!
SUPPORT. What each function of Machine/Frame.lean touches at most.
-/
namespace Sys2Proof.Machine

variable {μ : Part → Bool}

theorem frameCount_mask (hμ : μ .regs = true ∧ μ .pos = true) (speed : Int) (s : State) :
    (frameCount speed s).mask μ = s.mask μ := by
  simp only [frameCount, ↓setB_mask, ↓setS_mask, ↓setPos_mask, hμ]

theorem lockAtBoundary_mask (hμ : μ .regs = true ∧ μ .evt = true ∧ μ .pos = true) (s : State) :
    (lockAtBoundary s).mask μ = s.mask μ := by
  simp only [lockAtBoundary, ↓lockGained_mask, ↓mask_ite, ite_self, and_self, hμ]

theorem followOffset_mask (hμ : μ .band = true) (b : Nat) (s : State) :
    (followOffset b s).mask μ = s.mask μ := by
  simp only [followOffset, ↓setBand_mask, hμ]

theorem applyFrame_mask (hμ : μ .regs = true) (s : State) :
    (applyFrame s).mask μ = s.mask μ := by
  simp only [applyFrame, ↓wr_mask, ↓setF_mask, ↓applyRch_mask, ↓mask_ite, ite_self, ↓mask_forEach, implies_true, hμ]

theorem showI_mask (hμ : μ .regs = true) (f : Fld) (v : Option Int) (s : State) :
    (showI f v s).mask μ = s.mask μ := by
  unfold showI
  (repeat' split) <;> simp only [↓setS_mask, hμ]

theorem bandError_mask (hμ : μ .regs = true ∧ μ .band = true ∧ μ .mot = true) (b : Nat) (e : Option Int) (s : State) :
    (bandError b e s).mask μ = s.mask μ := by
  simp only [bandError, ↓setB_mask, ↓setBand_mask, ↓setMot_mask, ↓showI_mask, hμ]

theorem lateralValues_mask (hμ : μ .regs = true ∧ μ .band = true ∧ μ .mot = true) (s : State) :
    (lateralValues s).2.2.mask μ = s.mask μ := by
  simp only [lateralValues, ↓setB_mask, ↓setS_mask, ↓setMot_mask, ↓showI_mask, ↓bandError_mask, ↓mask_forEach, and_self, implies_true, hμ]

theorem frameSlots_mask (hμ : μ .regs = true ∧ μ .evt = true ∧ μ .que = true ∧ μ .mtr = true ∧ μ .ten = true ∧ μ .vol = true ∧ μ .fmt = true ∧ μ .band = true ∧ μ .cal = true ∧ μ .rch = true ∧ μ .mot = true) (late : List Nat) (meas : Option Int) (d : Option Int) (s : State) :
    (frameSlots late meas d s).mask μ = s.mask μ := by
  simp only [frameSlots]
  (repeat' split) <;> simp only [↓slotSample_mask, ↓slotSkip_mask, ↓slotTurn_mask, and_self, implies_true, hμ]

theorem swapsDue_mask (hμ : μ .mot = true) (s : State) :
    (swapsDue s).mask μ = s.mask μ := by
  simp only [swapsDue, ↓setMot_mask, hμ]

theorem frameBoundary_mask (hμ : μ .regs = true ∧ μ .evt = true ∧ μ .pos = true ∧ μ .que = true ∧ μ .mtr = true ∧ μ .ten = true ∧ μ .vol = true ∧ μ .fmt = true ∧ μ .band = true ∧ μ .cal = true ∧ μ .rch = true ∧ μ .mot = true) (speed : Int) (late : List Nat) (s : State) :
    (frameBoundary speed late s).mask μ = s.mask μ := by
  simp only [frameBoundary, ↓travelled_mask, ↓requalify_mask, ↓measureFrame_mask, ↓calFrame_mask, ↓frameCount_mask, ↓lockAtBoundary_mask, ↓followOffset_mask, ↓applyFrame_mask, ↓lateralValues_mask, ↓frameSlots_mask, ↓swapsDue_mask, ↓mask_ite, ite_self, ↓mask_forEach, and_self, implies_true, hμ]

theorem stoAtStill_mask (hμ : μ .regs = true) (s : State) :
    (stoAtStill s).mask μ = s.mask μ := by
  simp only [stoAtStill, ↓setF_mask, ↓mask_ite, ite_self, hμ]

theorem stillTimeout_mask (hμ : μ .regs = true ∧ μ .fmt = true ∧ μ .mot = true) (s : State) :
    (stillTimeout s).mask μ = s.mask μ := by
  simp only [stillTimeout, ↓setF_mask, ↓travel_mask, ↓stoAtStill_mask, and_self, hμ]

theorem actOff_mask (hμ : μ .regs = true ∧ μ .mot = true) (a : Nat) (s : State) :
    (actOff a s).mask μ = s.mask μ := by
  simp only [actOff, ↓setF_mask, ↓setLoopSlot_mask, hμ]

theorem actPeriod_mask (hμ : μ .regs = true ∧ μ .evt = true ∧ μ .que = true ∧ μ .mtr = true ∧ μ .ten = true ∧ μ .vol = true ∧ μ .fmt = true ∧ μ .band = true ∧ μ .cal = true ∧ μ .rch = true ∧ μ .mot = true) (a : Nat) (cur : Nat) (pos : Nat) (late : Bool) (overrun : Bool) (s : State) :
    (actPeriod a cur pos late overrun s).mask μ = s.mask μ := by
  simp only [actPeriod, ↓setF_mask, ↓setS_mask, ↓incF_mask, ↓setMot_mask, ↓setAdc_mask, ↓slotSample_mask, ↓slotTurn_mask, ↓actOff_mask, ↓mask_ite, ite_self, and_self, implies_true, hμ]

/-! ## Commands -/

theorem execServoFrameBoundary_mask (hμ : μ .regs = true ∧ μ .evt = true ∧ μ .pos = true ∧ μ .que = true ∧ μ .mtr = true ∧ μ .ten = true ∧ μ .vol = true ∧ μ .fmt = true ∧ μ .band = true ∧ μ .cal = true ∧ μ .rch = true ∧ μ .mot = true) (speed : Int) (late : List Nat) (s : State) {t : State}
    (ht : execServoFrameBoundary speed late s = .next t) : t.mask μ = s.mask μ := by
  rw [execServoFrameBoundary] at ht
  rw [← Host.Outcome.next.inj ht]
  simp only [↓frameBoundary_mask, and_self, hμ]

theorem execPosStillTimeout_mask (hμ : μ .regs = true ∧ μ .fmt = true ∧ μ .mot = true) (s : State) {t : State}
    (ht : execPosStillTimeout s = .next t) : t.mask μ = s.mask μ := by
  rw [execPosStillTimeout] at ht
  rw [← Host.Outcome.next.inj ht]
  simp only [↓stillTimeout_mask, and_self, hμ]

theorem execActPwmPeriod_mask (hμ : μ .regs = true ∧ μ .evt = true ∧ μ .que = true ∧ μ .mtr = true ∧ μ .ten = true ∧ μ .vol = true ∧ μ .fmt = true ∧ μ .band = true ∧ μ .cal = true ∧ μ .rch = true ∧ μ .mot = true) (act : Nat) (cur : Nat) (pos : Nat) (late : Bool) (overrun : Bool) (s : State) {t : State}
    (ht : execActPwmPeriod act cur pos late overrun s = .next t) : t.mask μ = s.mask μ := by
  rw [execActPwmPeriod] at ht
  rw [← Host.Outcome.next.inj ht]
  simp only [↓actPeriod_mask, and_self, hμ]

theorem execActSense_mask (hμ : μ .regs = true ∧ μ .evt = true ∧ μ .que = true ∧ μ .mtr = true ∧ μ .ten = true ∧ μ .vol = true ∧ μ .fmt = true ∧ μ .band = true ∧ μ .cal = true ∧ μ .rch = true ∧ μ .mot = true) (act : Nat) (s : State) {t : State}
    (ht : execActSense act s = .next t) : t.mask μ = s.mask μ := by
  rw [execActSense] at ht
  rw [← Host.Outcome.next.inj ht]
  simp only [↓raiseMot_mask, ↓motionStop_mask, ↓mask_ite, ite_self, and_self, hμ]

end Sys2Proof.Machine
end

