-- ==== Sys2Proof/Laws/FaultsMask.lean ====
section
/-!
SUPPORT. What each function of Machine/Faults.lean touches at most.
-/
namespace Sys2Proof.Machine

variable {μ : Part → Bool}

theorem releaseSto_mask (hμ : μ .regs = true) (s : State) :
    (releaseSto s).mask μ = s.mask μ := by
  simp only [releaseSto, ↓setF_mask, hμ]

theorem configSeal_mask (hμ : μ .regs = true) (s : State) :
    (configSeal s).mask μ = s.mask μ := by
  simp only [configSeal, ↓setF_mask, ↓mask_ite, ite_self, hμ]

theorem sealComplete_mask (hμ : μ .regs = true ∧ μ .evt = true ∧ μ .sec = true) (s : State) :
    (sealComplete s).mask μ = s.mask μ := by
  simp only [sealComplete, ↓setF_mask, ↓notify_mask, ↓setSec_maskRest, ↓putWords_mask, ↓restoreHalls_mask, ↓releaseSto_mask, ↓mask_ite, ite_self, and_self, hμ]

theorem s1Timeout_mask (hμ : μ .regs = true ∧ μ .evt = true ∧ μ .que = true ∧ μ .mtr = true ∧ μ .ten = true ∧ μ .vol = true ∧ μ .fmt = true ∧ μ .band = true ∧ μ .cal = true ∧ μ .rch = true ∧ μ .mot = true) (s : State) :
    (s1Timeout s).mask μ = s.mask μ := by
  simp only [s1Timeout, ↓raiseC_mask, ↓enterS2_mask, ↓mask_ite, ite_self, and_self, hμ]

theorem safeStop_mask (hμ : μ .regs = true ∧ μ .evt = true ∧ μ .que = true ∧ μ .mtr = true ∧ μ .ten = true ∧ μ .vol = true ∧ μ .fmt = true ∧ μ .band = true ∧ μ .cal = true ∧ μ .rch = true ∧ μ .mot = true) (s : State) :
    (safeStop s).mask μ = s.mask μ := by
  simp only [safeStop, ↓setF_mask, ↓raiseC_mask, ↓enterS1_mask, ↓enterS2_mask, ↓stoAtStill_mask, ↓mask_ite, ite_self, and_self, hμ]

theorem stoReadback_mask (hμ : μ .regs = true ∧ μ .evt = true ∧ μ .que = true ∧ μ .mtr = true ∧ μ .ten = true ∧ μ .vol = true ∧ μ .fmt = true ∧ μ .band = true ∧ μ .cal = true ∧ μ .rch = true ∧ μ .mot = true) (s : State) :
    (stoReadback s).mask μ = s.mask μ := by
  simp only [stoReadback, ↓raiseC_mask, ↓enterS2_mask, and_self, hμ]

theorem clkFail_mask (hμ : μ .regs = true ∧ μ .evt = true ∧ μ .que = true ∧ μ .mtr = true ∧ μ .ten = true ∧ μ .vol = true ∧ μ .fmt = true ∧ μ .band = true ∧ μ .cal = true ∧ μ .rch = true ∧ μ .mot = true) (island : Bool) (count : Nat) (s : State) :
    (clkFail island count s).mask μ = s.mask μ := by
  simp only [clkFail, ↓setF_mask, ↓raiseC_mask, ↓enterS2_mask, ↓mask_ite, ite_self, and_self, hμ]

theorem safeCfgMismatch_mask (hμ : μ .regs = true ∧ μ .evt = true ∧ μ .que = true ∧ μ .mtr = true ∧ μ .ten = true ∧ μ .vol = true ∧ μ .fmt = true ∧ μ .band = true ∧ μ .cal = true ∧ μ .rch = true ∧ μ .mot = true) (n : Nat) (value : Word) (s : State) :
    (safeCfgMismatch n value s).mask μ = s.mask μ := by
  simp only [safeCfgMismatch, ↓wr_mask, ↓raiseC_mask, ↓enterS2_mask, ↓mask_ite, ite_self, and_self, hμ]

theorem logFault_mask (hμ : μ .regs = true ∧ μ .evt = true) (r : FaultRec) (s : State) :
    (logFault r s).mask μ = s.mask μ := by
  simp only [logFault, ↓setF_mask, ↓incF_mask, ↓sendEvent_mask, ↓mask_evt, ↓mask_ite, ite_self, and_self, hμ]

theorem nextFault_mask (hμ : μ .evt = true) (s : State) :
    (nextFault s).mask μ = s.mask μ := by
  unfold nextFault
  (repeat' split) <;> simp only [↓mask_evt, hμ]

theorem faultHandle_mask (hμ : μ .regs = true ∧ μ .evt = true) (s : State) :
    (faultHandle s).mask μ = s.mask μ := by
  unfold faultHandle
  (repeat' split) <;> simp only [↓logFault_mask, ↓nextFault_mask, ↓mask_evt, and_self, hμ]

theorem fltLogTail_mask (hμ : μ .regs = true) (v : Nat) (s : State) :
    (fltLogTail v s).mask μ = s.mask μ := by
  simp only [fltLogTail, ↓setF_mask, hμ]

theorem turnPass_mask (hμ : μ .regs = true ∧ μ .freeCount = true) (n : Nat) (s : State) :
    (turnPass n s).mask μ = s.mask μ := by
  simp only [turnPass, ↓setF_mask, ↓incF_mask, ↓takeFree_mask, ↓mask_ite, ite_self, hμ]

theorem turnFail_mask (hμ : μ .regs = true ∧ μ .evt = true ∧ μ .que = true ∧ μ .mtr = true ∧ μ .ten = true ∧ μ .vol = true ∧ μ .fmt = true ∧ μ .band = true ∧ μ .cal = true ∧ μ .rch = true ∧ μ .mot = true ∧ μ .mem = true) (n : Nat) (rows : List Nat) (s : State) :
    (turnFail n rows s).mask μ = s.mask μ := by
  simp only [turnFail, ↓setF_mask, ↓raise_mask, ↓enterS2_mask, ↓enterS3_mask, ↓addCandidate_mask, ↓katFail_mask, ↓mask_ite, ite_self, ↓mask_forEach, and_self, implies_true, hμ]

theorem cycleDone_mask (hμ : μ .regs = true) (s : State) :
    (cycleDone s).mask μ = s.mask μ := by
  simp only [cycleDone, ↓setF_mask, ↓incF_mask, hμ]

theorem turn_mask (hμ : μ .regs = true ∧ μ .evt = true ∧ μ .que = true ∧ μ .mtr = true ∧ μ .ten = true ∧ μ .vol = true ∧ μ .fmt = true ∧ μ .band = true ∧ μ .cal = true ∧ μ .rch = true ∧ μ .mot = true ∧ μ .mem = true ∧ μ .freeCount = true) (bad : Bool) (rows : List Nat) (s : State) :
    (turn bad rows s).mask μ = s.mask μ := by
  simp only [turn, ↓setF_mask, ↓incF_mask, ↓turnPass_mask, ↓turnFail_mask, ↓cycleDone_mask, ↓mask_ite, ite_self, and_self, hμ]

theorem turnForceStart_mask (hμ : μ .regs = true) (s : State) :
    (turnForceStart s).mask μ = s.mask μ := by
  simp only [turnForceStart, ↓setF_mask, ↓mask_ite, ite_self, hμ]

theorem turnOverdue_mask (hμ : μ .regs = true ∧ μ .evt = true) (s : State) :
    (turnOverdue s).mask μ = s.mask μ := by
  simp only [turnOverdue, ↓setF_mask, ↓raiseC_mask, ↓mask_ite, ite_self, and_self, hμ]

theorem clearStates_mask (hμ : μ .regs = true) (names : Nat) (s : State) :
    (clearStates names s).mask μ = s.mask μ := by
  simp only [clearStates, ↓setF_mask, ↓restoreHalls_mask, ↓releaseSto_mask, ↓mask_ite, ite_self, hμ]

theorem safeClear_mask (hμ : μ .regs = true ∧ μ .evt = true ∧ μ .que = true ∧ μ .mtr = true ∧ μ .ten = true ∧ μ .vol = true ∧ μ .fmt = true ∧ μ .band = true ∧ μ .cal = true ∧ μ .rch = true ∧ μ .mot = true ∧ μ .mem = true ∧ μ .freeCount = true) (q : Nat) (ssnHigh : Bool) (vbusOver : Bool) (tenOver : Bool) (persist : Option Nat) (bad : Option Nat) (rows : List Nat) (x : ExecSt) (s : State) :
    (safeClear q ssnHigh vbusOver tenOver persist bad rows x s).mask μ = s.mask μ := by
  simp only [safeClear, ↓setB_mask, ↓sideEnd_mask, ↓mask_ite, and_self, hμ]
  (repeat' split) <;> simp only [↓setB_mask, ↓finishSide_mask, ↓sideEnd_mask, ↓turnPass_mask, ↓turnFail_mask, ↓cycleDone_mask, ↓clearStates_mask, ↓mask_forEach, and_self, implies_true, hμ]

/-! ## Commands -/

theorem execS1Timeout_mask (hμ : μ .regs = true ∧ μ .evt = true ∧ μ .que = true ∧ μ .mtr = true ∧ μ .ten = true ∧ μ .vol = true ∧ μ .fmt = true ∧ μ .band = true ∧ μ .cal = true ∧ μ .rch = true ∧ μ .mot = true) (s : State) {t : State}
    (ht : execS1Timeout s = .next t) : t.mask μ = s.mask μ := by
  rw [execS1Timeout] at ht
  rw [← Host.Outcome.next.inj ht]
  simp only [↓s1Timeout_mask, and_self, hμ]

theorem execSafeStop_mask (hμ : μ .regs = true ∧ μ .evt = true ∧ μ .que = true ∧ μ .mtr = true ∧ μ .ten = true ∧ μ .vol = true ∧ μ .fmt = true ∧ μ .band = true ∧ μ .cal = true ∧ μ .rch = true ∧ μ .mot = true) (s : State) {t : State}
    (ht : execSafeStop s = .next t) : t.mask μ = s.mask μ := by
  rw [execSafeStop] at ht
  rw [← Host.Outcome.next.inj ht]
  simp only [↓safeStop_mask, and_self, hμ]

theorem execStoReadback_mask (hμ : μ .regs = true ∧ μ .evt = true ∧ μ .que = true ∧ μ .mtr = true ∧ μ .ten = true ∧ μ .vol = true ∧ μ .fmt = true ∧ μ .band = true ∧ μ .cal = true ∧ μ .rch = true ∧ μ .mot = true) (s : State) {t : State}
    (ht : execStoReadback s = .next t) : t.mask μ = s.mask μ := by
  rw [execStoReadback] at ht
  rw [← Host.Outcome.next.inj ht]
  simp only [↓stoReadback_mask, and_self, hμ]

theorem execClkFail_mask (hμ : μ .regs = true ∧ μ .evt = true ∧ μ .que = true ∧ μ .mtr = true ∧ μ .ten = true ∧ μ .vol = true ∧ μ .fmt = true ∧ μ .band = true ∧ μ .cal = true ∧ μ .rch = true ∧ μ .mot = true) (island : Bool) (count : Nat) (s : State) {t : State}
    (ht : execClkFail island count s = .next t) : t.mask μ = s.mask μ := by
  rw [execClkFail] at ht
  rw [← Host.Outcome.next.inj ht]
  simp only [↓clkFail_mask, and_self, hμ]

theorem execSafeCfgMismatch_mask (hμ : μ .regs = true ∧ μ .evt = true ∧ μ .que = true ∧ μ .mtr = true ∧ μ .ten = true ∧ μ .vol = true ∧ μ .fmt = true ∧ μ .band = true ∧ μ .cal = true ∧ μ .rch = true ∧ μ .mot = true) (pair : Nat) (value : Word) (s : State) {t : State}
    (ht : execSafeCfgMismatch pair value s = .next t) : t.mask μ = s.mask μ := by
  rw [execSafeCfgMismatch] at ht
  rw [← Host.Outcome.next.inj ht]
  simp only [↓safeCfgMismatch_mask, and_self, hμ]

theorem execFaultHandle_mask (hμ : μ .regs = true ∧ μ .evt = true) (s : State) {t : State}
    (ht : execFaultHandle s = .next t) : t.mask μ = s.mask μ := by
  rw [execFaultHandle] at ht
  rw [← Host.Outcome.next.inj ht]
  simp only [↓faultHandle_mask, and_self, hμ]

theorem execFltLogTailWrite_mask (hμ : μ .regs = true) (value : Nat) (s : State) {t : State}
    (ht : execFltLogTailWrite value s = .next t) : t.mask μ = s.mask μ := by
  rw [execFltLogTailWrite] at ht
  rw [← Host.Outcome.next.inj ht]
  simp only [↓lockGate_mask, ↓fltLogTail_mask, implies_true, hμ]

theorem execTurn_mask (hμ : μ .regs = true ∧ μ .evt = true ∧ μ .que = true ∧ μ .mtr = true ∧ μ .ten = true ∧ μ .vol = true ∧ μ .fmt = true ∧ μ .band = true ∧ μ .cal = true ∧ μ .rch = true ∧ μ .mot = true ∧ μ .mem = true ∧ μ .freeCount = true) (bad : Bool) (rows : List Nat) (s : State) {t : State}
    (ht : execTurn bad rows s = .next t) : t.mask μ = s.mask μ := by
  rw [execTurn] at ht
  rw [← Host.Outcome.next.inj ht]
  simp only [↓turn_mask, and_self, hμ]

theorem execTurnForceStart_mask (hμ : μ .regs = true) (s : State) {t : State}
    (ht : execTurnForceStart s = .next t) : t.mask μ = s.mask μ := by
  rw [execTurnForceStart] at ht
  rw [← Host.Outcome.next.inj ht]
  simp only [↓turnForceStart_mask, hμ]

theorem execTurnOverdue_mask (hμ : μ .regs = true ∧ μ .evt = true) (s : State) {t : State}
    (ht : execTurnOverdue s = .next t) : t.mask μ = s.mask μ := by
  rw [execTurnOverdue] at ht
  rw [← Host.Outcome.next.inj ht]
  simp only [↓turnOverdue_mask, and_self, hμ]

theorem execSafeClear_mask (hμ : μ .regs = true ∧ μ .evt = true ∧ μ .que = true ∧ μ .mtr = true ∧ μ .ten = true ∧ μ .vol = true ∧ μ .fmt = true ∧ μ .band = true ∧ μ .cal = true ∧ μ .rch = true ∧ μ .mot = true ∧ μ .mem = true ∧ μ .lnk = true ∧ μ .freeCount = true) (queue : Nat) (ssnHigh : Bool) (vbusOver : Bool) (tenOver : Bool) (persist : Option Nat) (bad : Option Nat) (rows : List Nat) (s : State) {t : State}
    (ht : execSafeClear queue ssnHigh vbusOver tenOver persist bad rows s = .next t) : t.mask μ = s.mask μ := by
  rw [execSafeClear] at ht
  rw [← Host.Outcome.next.inj ht]
  simp only [↓sideRow_mask, ↓safeClear_mask, and_self, implies_true, hμ]

theorem execConfigSeal_mask (hμ : μ .regs = true) (s : State) {t : State}
    (ht : execConfigSeal s = .next t) : t.mask μ = s.mask μ := by
  rw [execConfigSeal] at ht
  rw [← Host.Outcome.next.inj ht]
  simp only [↓lockGate_mask, ↓configSeal_mask, implies_true, hμ]

theorem execSealComplete_mask (hμ : μ .regs = true ∧ μ .evt = true ∧ μ .sec = true) (s : State) {t : State}
    (ht : execSealComplete s = .next t) : t.mask μ = s.mask μ := by
  rw [execSealComplete] at ht
  rw [← Host.Outcome.next.inj ht]
  simp only [↓sealComplete_mask, and_self, hμ]

end Sys2Proof.Machine
end

