-- ==== Sys2Proof/Laws/Fuses.lean ====
section
/-!
SUPPORT. Fuses only ever advance (R570): the law for the four requests that program them, and for everything that does not touch them.
-/
namespace Sys2Proof.Machine

/-- All parts but the fuses. -/
def notFuses (p : Part) : Bool := p != .fuses

theorem within_refl (a : Nat) : within a a = true := by simp only [within, Nat.and_self, beq_self_eq_true]

theorem within_or (a b : Nat) : within a (a ||| b) = true := by
  simp only [within, beq_iff_eq]
  apply Nat.eq_of_testBit_eq
  intro i
  simp only [Nat.testBit_and, Nat.testBit_or]
  cases a.testBit i <;> simp

/-- What leaves the fuses as they are advances them by nothing. -/
theorem fusesAdvance_of_eq {s t : State} (h : t.sec.fuses = s.sec.fuses) : fusesAdvance s t = true := by
  rw [fusesAdvance, h, within_refl, within_refl]
  cases s.sec.fuses.kill0 <;> cases s.sec.fuses.kill1 <;> rfl

/-- A function that does not touch the fuses leaves them as they are. -/
theorem fuses_of_mask {s t : State} (h : t.mask notFuses = s.mask notFuses) : t.sec.fuses = s.sec.fuses := by
  simpa only [State.mask, notFuses, show (Part.sec != Part.fuses) = true from rfl, show (Part.fuses != Part.fuses) = false from rfl, cond_true,
    cond_false] using congrArg (fun z : State => z.sec.fuses) h

theorem fusesAdvance_of_mask {s t : State} (h : t.mask notFuses = s.mask notFuses) : fusesAdvance s t = true := fusesAdvance_of_eq (fuses_of_mask h)

/-- Fuses alike at the start or at the end may stand for one another. -/
theorem fusesAdvance_congr {s s' t t' : State} (hs : s'.sec.fuses = s.sec.fuses) (ht : t'.sec.fuses = t.sec.fuses) (h : fusesAdvance s t = true) :
    fusesAdvance s' t' = true := by rw [fusesAdvance, hs, ht]; exact h

/-- Programming the lifecycle sets a bit, or ID_KILL, and clears none (R570, R584). -/
theorem programLc_fusesAdvance (bit : Nat) (kill : Bool) (s : State) : fusesAdvance s (programLc bit kill s) = true := by
  have hf : (programLc bit kill s).sec.fuses =
      { s.sec.fuses with lc0 := s.sec.fuses.lc0 ||| 2 ^ bit, lc1 := s.sec.fuses.lc1 ||| 2 ^ bit
                         kill0 := s.sec.fuses.kill0 || kill, kill1 := s.sec.fuses.kill1 || kill } := rfl
  rw [fusesAdvance, hf, within_or, within_or]
  cases s.sec.fuses.kill0 <;> cases s.sec.fuses.kill1 <;> rfl

theorem newChallenge_fuses (s : State) : (newChallenge s).sec.fuses = s.sec.fuses := fuses_of_mask (newChallenge_mask (by decide) s)

theorem tokenAdvance_fusesAdvance (to_ : Nat) (fromOk : Nat → Bool) (r : MbReq) (s : State) :
    fusesAdvance s (tokenAdvance to_ fromOk r s).2 = true := by
  unfold tokenAdvance
  dsimp only
  split
  · exact fusesAdvance_of_eq (newChallenge_fuses s)
  · split
    · exact fusesAdvance_congr (newChallenge_fuses s).symm rfl (programLc_fusesAdvance _ _ _)
    · exact fusesAdvance_of_eq ((fuses_of_mask (raiseB_mask (by decide) _ _ _ _ _ _ _)).trans (newChallenge_fuses s))

theorem deployAdvance_fusesAdvance (r : MbReq) (s : State) : fusesAdvance s (deployAdvance r s).2 = true := by
  unfold deployAdvance
  split
  · exact fusesAdvance_of_eq rfl
  · exact programLc_fusesAdvance _ _ _

theorem oemProgram_fusesAdvance (r : MbReq) (s : State) : fusesAdvance s (oemProgram r s).2 = true := by
  unfold oemProgram
  dsimp only
  split
  · exact fusesAdvance_of_eq rfl
  · have hf (b : Bool) (c : FuseCopy) :
        (setB Reg.SEC_STATUS_OEM_SET b (setSec { s.sec with fuses := { s.sec.fuses with oem0 := c, oem1 := c } } s)).sec.fuses =
          { s.sec.fuses with oem0 := c, oem1 := c } := rfl
    rw [fusesAdvance, hf]
    simp only [within_refl]
    cases s.sec.fuses.kill0 <;> cases s.sec.fuses.kill1 <;> rfl

/-- A request of SECU advances the fuses if its action does. -/
theorem secuRequest_fusesAdvance (opcode args : Nat) {act : MbReq → State → Nat × State} (hact : ∀ r s, fusesAdvance s (act r s).2 = true) (s : State) :
    fusesAdvance s (secuRequest opcode args act s) = true := by
  unfold secuRequest
  split
  · exact fusesAdvance_of_eq rfl
  · split
    · exact fusesAdvance_of_eq rfl
    · split
      · exact fusesAdvance_of_mask (mailboxDone_mask (by decide) _ _ _ _ _)
      · exact fusesAdvance_congr rfl (fuses_of_mask (mailboxDone_mask (by decide) _ _ _ _ _)) (hact _ _)

end Sys2Proof.Machine
end

