-- ==== Sys2Proof/Laws/StreamMask.lean ====
section
/-!
SUPPORT. What each function of Machine/Stream.lean touches at most.
-/
namespace Sys2Proof.Machine

variable {μ : Part → Bool}

theorem forgetFrom_mask (hμ : μ .vol = true ∧ μ .rch = true) (n : Nat) (s : State) :
    (forgetFrom n s).mask μ = s.mask μ := by
  simp only [forgetFrom, ↓setVol_mask, ↓absorbEod_mask, ↓mask_rch, hμ]

theorem endAt_mask (hμ : μ .regs = true ∧ μ .vol = true) (n : Nat) (d : ReadSet) (p : List Byte) (hdr : Nat) (s : State) :
    (endAt n d p hdr s).mask μ = s.mask μ := by
  simp only [endAt, ↓setVol_mask, ↓showMap_mask, hμ]

theorem beginMid_mask (hμ : μ .regs = true ∧ μ .vol = true ∧ μ .fmt = true ∧ μ .rch = true) (n : Nat) (off : Nat) (fm : Nat) (hdr : Nat) (s : State) :
    (beginMid n off fm hdr s).mask μ = s.mask μ := by
  unfold beginMid
  (repeat' split) <;> simp only [↓setVol_mask, ↓setFmt_mask, ↓forgetFrom_mask, ↓endAt_mask, and_self, hμ]

theorem beginEod_mask (hμ : μ .vol = true ∧ μ .fmt = true ∧ μ .rch = true) (s : State) :
    (beginEod s).mask μ = s.mask μ := by
  simp only [beginEod, ↓resumeEod_mask, ↓takeGroup_mask, ↓forgetFrom_mask, ↓mask_ite, ite_self, and_self, hμ]

theorem acceptWrite_mask (hμ : μ .regs = true ∧ μ .vol = true ∧ μ .fmt = true ∧ μ .rch = true) (w : WriteAt) (s : State) :
    (acceptWrite w s).mask μ = s.mask μ := by
  unfold acceptWrite
  (repeat' split) <;> simp only [↓setVol_mask, ↓setFmt_mask, ↓dirtyUpdate_mask, ↓beginMid_mask, ↓beginEod_mask, ↓mask_ite, ite_self, and_self, hμ]

theorem writeRow_mask (hμ : μ .regs = true ∧ μ .evt = true ∧ μ .que = true ∧ μ .mtr = true ∧ μ .ten = true ∧ μ .vol = true ∧ μ .fmt = true ∧ μ .rch = true) (ready : ExecSt → Bool) (take : ExecSt → State → State) (x : ExecSt) (s : State) (htake : ∀ z0 s, (take z0 s).mask μ = s.mask μ) :
    (writeRow ready take x s).mask μ = s.mask μ := by
  simp only [writeRow]
  (repeat' split) <;> simp only [↓endExec_mask, ↓eodSetRead_mask, ↓onExec_mask, ↓endWith_mask, ↓freshReads_mask, ↓acceptWrite_mask, and_self, hμ, htake]

theorem takeRecords_mask (hμ : μ .regs = true ∧ μ .evt = true ∧ μ .que = true ∧ μ .mtr = true ∧ μ .ten = true ∧ μ .vol = true ∧ μ .fmt = true ∧ μ .cmp = true) (x : ExecSt) (s : State) :
    (takeRecords x s).mask μ = s.mask μ := by
  simp only [takeRecords, ↓setVol_mask, ↓onUsage_mask, ↓endExec_mask, ↓cutRecord_mask, ↓mask_forEach, and_self, implies_true, hμ]

theorem writeWork_mask (hμ : μ .regs = true ∧ μ .evt = true ∧ μ .que = true ∧ μ .mtr = true ∧ μ .ten = true ∧ μ .vol = true ∧ μ .fmt = true ∧ μ .rch = true ∧ μ .cmp = true) (x : ExecSt) (s : State) :
    (writeWork x s).mask μ = s.mask μ := by
  unfold writeWork
  (repeat' split) <;> simp only [↓endExec_mask, ↓endWith_mask, ↓writeRow_mask, ↓takeRecords_mask, and_self, implies_true, hμ]

theorem takeFilemarks_mask (hμ : μ .regs = true ∧ μ .evt = true ∧ μ .que = true ∧ μ .mtr = true ∧ μ .ten = true ∧ μ .vol = true ∧ μ .fmt = true) (x : ExecSt) (s : State) :
    (takeFilemarks x s).mask μ = s.mask μ := by
  simp only [takeFilemarks, ↓setVol_mask, ↓endExec_mask, ↓cutFilemark_mask, ↓mask_forEach, and_self, implies_true, hμ]

theorem readRow_mask (hμ : μ .que = true ∧ μ .mtr = true ∧ μ .vol = true ∧ μ .fmt = true ∧ μ .rch = true ∧ μ .cmp = true) (tags : List Nat) (work : Bool → State → State) (x : ExecSt) (s : State) (hwork : ∀ z0 s, (work z0 s).mask μ = s.mask μ) :
    (readRow tags work x s).mask μ = s.mask μ := by
  simp only [readRow, ↓afterClosure_mask, ↓freshReads_mask, and_self, implies_true, hμ, hwork]

theorem issueReceipt_mask (hμ : μ .regs = true ∧ μ .evt = true ∧ μ .que = true ∧ μ .ten = true) (kind : Nat) (x : ExecSt) (s : State) :
    (issueReceipt kind x s).mask μ = s.mask μ := by
  simp only [issueReceipt, ↓incF_mask, ↓notify_mask, ↓setTenant_mask, ↓pushDin_mask, and_self, hμ]

theorem receiptWork_mask (hμ : μ .regs = true ∧ μ .evt = true ∧ μ .que = true ∧ μ .mtr = true ∧ μ .ten = true) (s : State) :
    (receiptWork s).mask μ = s.mask μ := by
  unfold receiptWork
  (repeat' split) <;> simp only [↓endExec_mask, ↓issueReceipt_mask, and_self, hμ]

theorem openTenant_mask (hμ : μ .regs = true ∧ μ .evt = true ∧ μ .que = true ∧ μ .mtr = true ∧ μ .ten = true ∧ μ .mem = true ∧ μ .pool = true) (x : ExecSt) (s : State) :
    (openTenant x s).mask μ = s.mask μ := by
  unfold openTenant
  (repeat' split) <;> simp only [↓setMtr_mask, ↓setTenant_mask, ↓endExec_mask, ↓writeBounds_mask, ↓endWith_mask, ↓mask_ite, ite_self, and_self, hμ]

theorem closeTenantWork_mask (hμ : μ .regs = true ∧ μ .evt = true ∧ μ .que = true ∧ μ .mtr = true ∧ μ .ten = true ∧ μ .keys = true ∧ μ .mem = true ∧ μ .pool = true) (s : State) :
    (closeTenantWork s).mask μ = s.mask μ := by
  unfold closeTenantWork
  (repeat' split) <;> simp only [↓setTenant_mask, ↓endExec_mask, ↓setAcct_mask, ↓checkShort_mask, ↓poolEvent_mask, ↓onExec_mask, ↓setSlot_mask, ↓issueReceipt_mask, ↓mask_ite, ite_self, ↓mask_foldl, and_self, implies_true, hμ]

theorem closeTenant_mask (hμ : μ .regs = true ∧ μ .evt = true ∧ μ .que = true ∧ μ .mtr = true ∧ μ .ten = true ∧ μ .vol = true ∧ μ .fmt = true ∧ μ .cmp = true ∧ μ .keys = true ∧ μ .mem = true ∧ μ .pool = true) (x : ExecSt) (s : State) :
    (closeTenant x s).mask μ = s.mask μ := by
  simp only [closeTenant, ↓setTenant_mask, ↓afterClosure_mask, ↓closeTenantWork_mask, ↓mask_ite, ite_self, and_self, implies_true, hμ]

/-! ## Commands -/

theorem execWrite_mask (hμ : μ .regs = true ∧ μ .evt = true ∧ μ .que = true ∧ μ .mtr = true ∧ μ .ten = true ∧ μ .vol = true ∧ μ .fmt = true ∧ μ .rch = true ∧ μ .cmp = true ∧ μ .lnk = true) (s : State) {t : State}
    (ht : execWrite s = .next t) : t.mask μ = s.mask μ := by
  rw [execWrite] at ht
  rw [← Host.Outcome.next.inj ht]
  simp only [↓streamRow_mask, ↓writeWork_mask, and_self, implies_true, hμ]

theorem execFilemark_mask (hμ : μ .regs = true ∧ μ .evt = true ∧ μ .que = true ∧ μ .mtr = true ∧ μ .ten = true ∧ μ .vol = true ∧ μ .fmt = true ∧ μ .rch = true ∧ μ .cmp = true ∧ μ .lnk = true) (s : State) {t : State}
    (ht : execFilemark s = .next t) : t.mask μ = s.mask μ := by
  rw [execFilemark] at ht
  rw [← Host.Outcome.next.inj ht]
  simp (maxDischargeDepth := 6) only [↓streamRow_mask, ↓writeRow_mask, ↓takeFilemarks_mask, and_self, implies_true, hμ]

theorem execFlush_mask (hμ : μ .regs = true ∧ μ .evt = true ∧ μ .que = true ∧ μ .mtr = true ∧ μ .ten = true ∧ μ .vol = true ∧ μ .fmt = true ∧ μ .cmp = true ∧ μ .lnk = true) (s : State) {t : State}
    (ht : execFlush s = .next t) : t.mask μ = s.mask μ := by
  rw [execFlush] at ht
  rw [← Host.Outcome.next.inj ht]
  simp (maxDischargeDepth := 6) only [↓streamRow_mask, ↓endWith_mask, ↓afterClosure_mask, and_self, implies_true, hμ]

theorem execRead_mask (hμ : μ .regs = true ∧ μ .evt = true ∧ μ .que = true ∧ μ .mtr = true ∧ μ .ten = true ∧ μ .vol = true ∧ μ .fmt = true ∧ μ .rch = true ∧ μ .cmp = true ∧ μ .ciph = true ∧ μ .lnk = true) (tags : List Nat) (s : State) {t : State}
    (ht : execRead tags s = .next t) : t.mask μ = s.mask μ := by
  rw [execRead] at ht
  rw [← Host.Outcome.next.inj ht]
  simp (maxDischargeDepth := 6) only [↓readWork_mask, ↓streamRow_mask, ↓readRow_mask, and_self, implies_true, hμ]

theorem execLocate_mask (hμ : μ .regs = true ∧ μ .evt = true ∧ μ .que = true ∧ μ .mtr = true ∧ μ .ten = true ∧ μ .vol = true ∧ μ .fmt = true ∧ μ .rch = true ∧ μ .cmp = true ∧ μ .lnk = true) (tags : List Nat) (s : State) {t : State}
    (ht : execLocate tags s = .next t) : t.mask μ = s.mask μ := by
  rw [execLocate] at ht
  rw [← Host.Outcome.next.inj ht]
  simp (maxDischargeDepth := 6) only [↓locateWork_mask, ↓streamRow_mask, ↓readRow_mask, and_self, implies_true, hμ]

theorem execReceipt_mask (hμ : μ .regs = true ∧ μ .evt = true ∧ μ .que = true ∧ μ .mtr = true ∧ μ .ten = true ∧ μ .vol = true ∧ μ .fmt = true ∧ μ .cmp = true ∧ μ .lnk = true) (s : State) {t : State}
    (ht : execReceipt s = .next t) : t.mask μ = s.mask μ := by
  rw [execReceipt] at ht
  rw [← Host.Outcome.next.inj ht]
  simp (maxDischargeDepth := 6) only [↓streamRow_mask, ↓afterClosure_mask, ↓receiptWork_mask, and_self, implies_true, hμ]

theorem execOpenTenant_mask (hμ : μ .regs = true ∧ μ .evt = true ∧ μ .que = true ∧ μ .mtr = true ∧ μ .ten = true ∧ μ .vol = true ∧ μ .fmt = true ∧ μ .cmp = true ∧ μ .mem = true ∧ μ .pool = true ∧ μ .lnk = true) (s : State) {t : State}
    (ht : execOpenTenant s = .next t) : t.mask μ = s.mask μ := by
  rw [execOpenTenant] at ht
  rw [← Host.Outcome.next.inj ht]
  simp only [↓streamRow_mask, ↓openTenant_mask, and_self, implies_true, hμ]

theorem execCloseTenant_mask (hμ : μ .regs = true ∧ μ .evt = true ∧ μ .que = true ∧ μ .mtr = true ∧ μ .ten = true ∧ μ .vol = true ∧ μ .fmt = true ∧ μ .cmp = true ∧ μ .keys = true ∧ μ .mem = true ∧ μ .pool = true ∧ μ .lnk = true) (s : State) {t : State}
    (ht : execCloseTenant s = .next t) : t.mask μ = s.mask μ := by
  rw [execCloseTenant] at ht
  rw [← Host.Outcome.next.inj ht]
  simp only [↓streamRow_mask, ↓closeTenant_mask, and_self, implies_true, hμ]

end Sys2Proof.Machine
end

