-- ==== Sys2Proof/Laws/HostReadMask.lean ====
section
/-!
SUPPORT. What each function of Machine/HostRead.lean touches at most.
-/
namespace Sys2Proof.Machine

variable {μ : Part → Bool}

theorem bump_mask (hμ : μ .regs = true) (y0 : List (Fld × Nat)) (s : State) :
    (bump y0 s).mask μ = s.mask μ := by
  induction y0 generalizing s with
  | nil => rfl
  | cons p l ih =>
    unfold bump
    repeat' (first | (simp only [↓setF_mask, ↓mask_ite, ite_self, hμ, ih]; done) | split | dsimp only)

theorem windowNext_mask (hμ : μ .regs = true) (addr : Nat) (s : State) :
    (windowNext addr s).mask μ = s.mask μ := by
  unfold windowNext
  (repeat' split) <;> simp only [↓bump_mask, hμ]

theorem afterRead_mask (hμ : μ .regs = true ∧ μ .latch = true ∧ μ .freeCount = true) (addr : Nat) (s : State) :
    (afterRead addr s).mask μ = s.mask μ := by
  unfold afterRead
  (repeat' split) <;> simp only [↓takeFree_mask, ↓windowNext_mask, ↓mask_latch, hμ]

theorem hostRead_mask (hμ : μ .regs = true ∧ μ .latch = true ∧ μ .freeCount = true) (addr : Nat) (s : State) :
    (hostRead addr s).2.mask μ = s.mask μ := by
  simp only [hostRead, ↓afterRead_mask, and_self, hμ]

/-! ## Commands -/

theorem execLoWordRead_mask (hμ : μ .regs = true ∧ μ .latch = true ∧ μ .freeCount = true) (addr : Nat) (s : State) {t : State}
    (ht : execLoWordRead addr s = .next t) : t.mask μ = s.mask μ := by
  rw [execLoWordRead] at ht
  rw [← Host.Outcome.next.inj ht]
  simp only [↓afterRead_mask, ↓mask_ite, ite_self, and_self, hμ]

end Sys2Proof.Machine
end

