-- ==== Sys2Proof/Laws/HostWriteMask.lean ====
section
/-!
SUPPORT. What each function of Machine/HostWrite.lean touches at most.
-/
namespace Sys2Proof.Machine

variable {μ : Part → Bool}

theorem storeWord32_mask (hμ : μ .regs = true) (addr : Nat) (v : Nat) (fs : List FieldSpec) (s : State) :
    (storeWord32 addr v fs s).mask μ = s.mask μ := by
  simp only [storeWord32, ↓wr_mask, ↓setF_mask, ↓mask_ite, ite_self, hμ]

theorem store_mask (hμ : μ .regs = true) (addr : Nat) (v : Nat) (s : State) :
    (store addr v s).mask μ = s.mask μ := by
  simp only [store, ↓storeWord32_mask, hμ]

theorem lockedWrite_mask (hμ : μ .regs = true) (addr : Nat) (v : Nat) (s : State) :
    (lockedWrite addr v s).mask μ = s.mask μ := by
  simp only [lockedWrite, ↓setF_mask, ↓storeWord32_mask, ↓mask_ite, ite_self, hμ]

theorem restoreBlock_mask (hμ : μ .regs = true ∧ μ .pos = true ∧ μ .mot = true) (p : Nat) (s : State) :
    (restoreBlock p s).mask μ = s.mask μ := by
  simp only [restoreBlock, ↓setReader_mask, ↓setMot_mask, ↓mask_regs, ↓mask_ite, ite_self, hμ]

theorem servoChanged_mask (hμ : μ .regs = true) (p : Nat) (s : State) :
    (servoChanged p s).mask μ = s.mask μ := by
  simp only [servoChanged, ↓requalify_mask, ↓mask_ite, ite_self, hμ]

theorem pageEn_mask (hμ : μ .regs = true ∧ μ .pos = true ∧ μ .mot = true) (p : Nat) (en : Bool) (s : State) :
    (pageEn p en s).mask μ = s.mask μ := by
  unfold pageEn
  (repeat' split) <;> simp only [↓setF_mask, ↓restoreBlock_mask, ↓servoChanged_mask, and_self, hμ]

theorem resumeBlock_mask (hμ : μ .cmp = true) (p : Nat) (s : State) :
    (resumeBlock p s).mask μ = s.mask μ := by
  simp only [resumeBlock, ↓handOut_mask, ↓mask_ite, ite_self, hμ]

theorem pageQuiesce_mask (hμ : μ .regs = true ∧ μ .cmp = true) (p : Nat) (q : Bool) (s : State) :
    (pageQuiesce p q s).mask μ = s.mask μ := by
  unfold pageQuiesce
  (repeat' split) <;> simp only [↓setF_mask, ↓lockGate_mask, ↓resumeBlock_mask, implies_true, hμ]

theorem pageQuiesced_mask (hμ : μ .regs = true ∧ μ .cmp = true) (p : Nat) (s : State) :
    (pageQuiesced p s).mask μ = s.mask μ := by
  simp only [pageQuiesced, ↓setF_mask, ↓freeEngines_mask, ↓mask_ite, ite_self, hμ]

theorem pageLock_mask (hμ : μ .regs = true) (p : Nat) (s : State) :
    (pageLock p s).mask μ = s.mask μ := by
  simp only [pageLock, ↓setF_mask, ↓mask_ite, ite_self, hμ]

theorem forceEvent_mask (hμ : μ .regs = true ∧ μ .evt = true) (p : Nat) (bit : Nat) (s : State) :
    (forceEvent p bit s).mask μ = s.mask μ := by
  simp only [forceEvent, ↓markEvent_mask, ↓sendEvent_mask, ↓mask_ite, ite_self, and_self, hμ]

theorem forceEvents_mask (hμ : μ .regs = true ∧ μ .evt = true) (p : Nat) (v : Nat) (s : State) :
    (forceEvents p v s).mask μ = s.mask μ := by
  simp only [forceEvents, ↓forceEvent_mask, ↓mask_forEach, and_self, implies_true, hμ]

theorem firstClear_mask (hμ : μ .regs = true) (p : Nat) (s : State) :
    (firstClear p s).mask μ = s.mask μ := by
  simp only [firstClear, ↓setF_mask, ↓mask_ite, ite_self, hμ]

theorem headerWrite_mask (hμ : μ .regs = true ∧ μ .evt = true ∧ μ .pos = true ∧ μ .cmp = true ∧ μ .mot = true) (p : Nat) (off : Nat) (v : Nat) (s : State) :
    (headerWrite p off v s).mask μ = s.mask μ := by
  simp only [headerWrite, ↓setF_mask, ↓storeWord32_mask, ↓pageEn_mask, ↓pageQuiesce_mask, ↓pageLock_mask, ↓forceEvents_mask, ↓firstClear_mask, ↓mask_ite, ite_self, and_self, hμ]

theorem onBit_mask (v : Nat) (bit : Nat) (act : State → State) (s : State) (hact : ∀ s, (act s).mask μ = s.mask μ) :
    (onBit v bit act s).mask μ = s.mask μ := by
  simp only [onBit, ↓mask_ite, ite_self, hact]

theorem writeSec_mask (hμ : μ .regs = true ∧ μ .evt = true ∧ μ .sec = true ∧ μ .freeCount = true) (off : Nat) (v : Nat) (s : State) :
    (writeSec off v s).mask μ = s.mask μ := by
  simp only [writeSec, ↓takeFree_mask, ↓clearRegion_mask, ↓entropyTest_mask, ↓apertureWrite_mask, ↓bootGo_mask, ↓configSeal_mask, ↓store_mask, ↓onBit_mask, ↓mask_ite, ite_self, and_self, implies_true, hμ]

theorem whileUnarmed_mask (hμ : μ .regs = true ∧ μ .evt = true) (b : Nat) (buf : Nat) (act : State → State) (s : State) (hact : ∀ s, (act s).mask μ = s.mask μ) :
    (whileUnarmed b buf act s).mask μ = s.mask μ := by
  simp only [whileUnarmed, ↓notify_mask, ↓mask_ite, ite_self, and_self, hμ, hact]

theorem brdWinWrite_mask (hμ : μ .regs = true ∧ μ .evt = true ∧ μ .band = true) (b : Nat) (v : Nat) (s : State) :
    (brdWinWrite b v s).mask μ = s.mask μ := by
  simp only [brdWinWrite, ↓setBand_mask, ↓windowNext_mask, ↓whileUnarmed_mask, ↓mask_ite, ite_self, and_self, implies_true, hμ]

theorem extWinWrite_mask (hμ : μ .regs = true ∧ μ .evt = true ∧ μ .band = true) (b : Nat) (v : Nat) (s : State) :
    (extWinWrite b v s).mask μ = s.mask μ := by
  simp only [extWinWrite, ↓setBand_mask, ↓windowNext_mask, ↓whileUnarmed_mask, ↓mask_ite, ite_self, and_self, implies_true, hμ]

theorem writeBseq_mask (hμ : μ .regs = true ∧ μ .evt = true ∧ μ .que = true ∧ μ .mtr = true ∧ μ .ten = true ∧ μ .vol = true ∧ μ .fmt = true ∧ μ .band = true ∧ μ .cal = true ∧ μ .rch = true ∧ μ .mot = true) (b : Nat) (off : Nat) (v : Nat) (s : State) :
    (writeBseq b off v s).mask μ = s.mask μ := by
  simp only [writeBseq, ↓setF_mask, ↓setB_mask, ↓brdArm_mask, ↓brdStart_mask, ↓brdStop_mask, ↓brdDisarm_mask, ↓brdHostSet_mask, ↓store_mask, ↓onBit_mask, ↓whileUnarmed_mask, ↓brdWinWrite_mask, ↓extWinWrite_mask, ↓mask_ite, ite_self, and_self, implies_true, hμ]

theorem writeHfe_mask (hμ : μ .regs = true ∧ μ .evt = true ∧ μ .links = true ∧ μ .que = true ∧ μ .mtr = true ∧ μ .ten = true ∧ μ .vol = true ∧ μ .fmt = true ∧ μ .band = true ∧ μ .cal = true ∧ μ .rch = true ∧ μ .mot = true) (n : Nat) (off : Nat) (v : Nat) (s : State) :
    (writeHfe n off v s).mask μ = s.mask μ := by
  simp only [writeHfe, ↓forwardHfe_mask, ↓retrainHfe_mask, ↓clPermission_mask, ↓calValueWrite_mask, ↓store_mask, ↓onBit_mask, ↓mask_ite, ite_self, and_self, implies_true, hμ]

theorem writeRch_mask (hμ : μ .regs = true ∧ μ .evt = true ∧ μ .cal = true ∧ μ .rch = true) (b : Nat) (off : Nat) (v : Nat) (s : State) :
    (writeRch b off v s).mask μ = s.mask μ := by
  simp only [writeRch, ↓wr_mask, ↓trackWrite_mask, ↓store_mask, ↓mask_ite, ite_self, and_self, hμ]

theorem writeCal_mask (hμ : μ .regs = true ∧ μ .evt = true ∧ μ .links = true ∧ μ .cal = true) (off : Nat) (v : Nat) (s : State) :
    (writeCal off v s).mask μ = s.mask μ := by
  simp only [writeCal, ↓setF_mask, ↓setCal_mask, ↓calValueWrite_mask, ↓calWinWrite_mask, ↓store_mask, ↓mask_ite, ite_self, and_self, hμ]

theorem writeMem_mask (hμ : μ .regs = true ∧ μ .evt = true ∧ μ .mem = true ∧ μ .cells = true ∧ μ .pool = true) (off : Nat) (v : Nat) (s : State) :
    (writeMem off v s).mask μ = s.mask μ := by
  simp only [writeMem, ↓rlogTail_mask, ↓trainStart_mask, ↓retirePage_mask, ↓releasePage_mask, ↓splitWrite_mask, ↓splitRead_mask, ↓splitPcheck_mask, ↓store_mask, ↓onBit_mask, ↓mask_ite, ite_self, and_self, implies_true, hμ]

theorem softWrite_mask (hμ : μ .regs = true ∧ μ .mem = true) (v : Nat) (s : State) :
    (softWrite v s).mask μ = s.mask μ := by
  simp only [softWrite, ↓setF_mask, ↓setMem_maskRest, ↓windowNext_mask, ↓mask_ite, ite_self, hμ]

theorem writePool_mask (hμ : μ .regs = true ∧ μ .evt = true ∧ μ .mem = true ∧ μ .pool = true) (off : Nat) (v : Nat) (s : State) :
    (writePool off v s).mask μ = s.mask μ := by
  simp only [writePool, ↓setF_mask, ↓portGo_mask, ↓portCancel_mask, ↓buildStart_mask, ↓store_mask, ↓onBit_mask, ↓mask_ite, ite_self, and_self, implies_true, hμ]

theorem writeMot_mask (hμ : μ .regs = true ∧ μ .evt = true ∧ μ .que = true ∧ μ .mtr = true ∧ μ .ten = true ∧ μ .vol = true ∧ μ .fmt = true ∧ μ .band = true ∧ μ .cal = true ∧ μ .rch = true ∧ μ .mot = true) (x : Nat) (off : Nat) (v : Nat) (s : State) :
    (writeMot x off v s).mask μ = s.mask μ := by
  simp only [writeMot, ↓setF_mask, ↓driveOff_mask, ↓motEnable_mask, ↓radSeed_mask, ↓store_mask, ↓mask_ite, ite_self, and_self, hμ]

theorem writeLoop_mask (hμ : μ .regs = true ∧ μ .evt = true ∧ μ .mot = true) (off : Nat) (v : Nat) (s : State) :
    (writeLoop off v s).mask μ = s.mask μ := by
  simp only [writeLoop, ↓setF_mask, ↓setB_mask, ↓slotWinWrite_mask, ↓injGo_mask, ↓injEnd_mask, ↓loopCommit_mask, ↓spdSource_mask, ↓store_mask, ↓onBit_mask, ↓mask_ite, ite_self, and_self, implies_true, hμ]

theorem writeAct_mask (hμ : μ .regs = true ∧ μ .mot = true) (off : Nat) (v : Nat) (s : State) :
    (writeAct off v s).mask μ = s.mask μ := by
  simp only [writeAct, ↓actOff_mask, ↓store_mask, ↓mask_ite, ite_self, and_self, hμ]

theorem blockWrite_mask (hμ : μ .regs = true ∧ μ .evt = true ∧ μ .links = true ∧ μ .que = true ∧ μ .mtr = true ∧ μ .ten = true ∧ μ .vol = true ∧ μ .fmt = true ∧ μ .band = true ∧ μ .enc = true ∧ μ .cal = true ∧ μ .rch = true ∧ μ .cmp = true ∧ μ .ciph = true ∧ μ .mot = true ∧ μ .mem = true ∧ μ .cells = true ∧ μ .pool = true ∧ μ .lnk = true ∧ μ .sec = true ∧ μ .freeCount = true) (p : Nat) (off : Nat) (v : Nat) (s : State) :
    (blockWrite p off v s).mask μ = s.mask μ := by
  simp only [blockWrite, ↓setF_mask, ↓setB_mask, ↓handOut_mask, ↓dvInject_mask, ↓acctWinWrite_mask, ↓srepApply_mask, ↓calValueWrite_mask, ↓weakWrite_mask, ↓clearWeak_mask, ↓setLnk_mask, ↓queuesStart_mask, ↓pairCheck_mask, ↓pairInject_mask, ↓outCtrl_mask, ↓encInject_mask, ↓mtrAck_mask, ↓capArm_mask, ↓capAbort_mask, ↓repClear_mask, ↓binWrite_mask, ↓fltLogTail_mask, ↓store_mask, ↓servoChanged_mask, ↓onBit_mask, ↓writeSec_mask, ↓writeBseq_mask, ↓writeHfe_mask, ↓writeRch_mask, ↓writeCal_mask, ↓writeMem_mask, ↓softWrite_mask, ↓writePool_mask, ↓writeMot_mask, ↓writeLoop_mask, ↓writeAct_mask, ↓mask_ite, ite_self, and_self, implies_true, hμ]

theorem mailboxWrite_mask (hμ : μ .regs = true ∧ μ .evt = true ∧ μ .core = true) (p : Nat) (off : Nat) (v : Nat) (s : State) :
    (mailboxWrite p off v s).mask μ = s.mask μ := by
  simp only [mailboxWrite, ↓mbOverrun_mask, ↓mailboxRequest_mask, ↓store_mask, ↓lockedWrite_mask, ↓mask_ite, ite_self, and_self, hμ]

theorem hostWrite_mask (hμ : μ .regs = true ∧ μ .evt = true ∧ μ .core = true ∧ μ .pos = true ∧ μ .links = true ∧ μ .que = true ∧ μ .mtr = true ∧ μ .ten = true ∧ μ .vol = true ∧ μ .fmt = true ∧ μ .band = true ∧ μ .enc = true ∧ μ .cal = true ∧ μ .rch = true ∧ μ .cmp = true ∧ μ .ciph = true ∧ μ .mot = true ∧ μ .mem = true ∧ μ .cells = true ∧ μ .pool = true ∧ μ .lnk = true ∧ μ .sec = true ∧ μ .freeCount = true) (addr : Nat) (v : Nat) (s : State) :
    (hostWrite addr v s).mask μ = s.mask μ := by
  simp only [hostWrite, ↓lockedWrite_mask, ↓headerWrite_mask, ↓blockWrite_mask, ↓mailboxWrite_mask, ↓mask_ite, ite_self, and_self, hμ]

theorem imageWrite_mask (hμ : μ .regs = true ∧ μ .evt = true ∧ μ .core = true ∧ μ .pos = true ∧ μ .links = true ∧ μ .que = true ∧ μ .mtr = true ∧ μ .ten = true ∧ μ .vol = true ∧ μ .fmt = true ∧ μ .band = true ∧ μ .enc = true ∧ μ .cal = true ∧ μ .rch = true ∧ μ .cmp = true ∧ μ .ciph = true ∧ μ .mot = true ∧ μ .mem = true ∧ μ .cells = true ∧ μ .pool = true ∧ μ .lnk = true ∧ μ .sec = true ∧ μ .freeCount = true) (y0 : List (Nat × Nat)) (y1 : Nat) (s : State) :
    (imageWrite y0 y1 s).2.mask μ = s.mask μ := by
  induction y0 generalizing y1 s with
  | nil => rfl
  | cons p l ih =>
    unfold imageWrite
    repeat' (first | (simp only [↓hostWrite_mask, and_self, hμ, ih]; done) | split | dsimp only)

theorem regImage_mask (hμ : μ .regs = true ∧ μ .evt = true ∧ μ .core = true ∧ μ .pos = true ∧ μ .links = true ∧ μ .que = true ∧ μ .mtr = true ∧ μ .ten = true ∧ μ .vol = true ∧ μ .fmt = true ∧ μ .band = true ∧ μ .enc = true ∧ μ .cal = true ∧ μ .rch = true ∧ μ .cmp = true ∧ μ .ciph = true ∧ μ .mot = true ∧ μ .mem = true ∧ μ .cells = true ∧ μ .pool = true ∧ μ .lnk = true ∧ μ .sec = true ∧ μ .freeCount = true) (q : Nat) (x : ExecSt) (s : State) :
    (regImage q x s).mask μ = s.mask μ := by
  simp only [regImage, ↓finishSide_mask, ↓linkDue_mask, ↓imageWrite_mask, ↓mask_ite, ite_self, and_self, hμ]

/-! ## Commands -/

theorem execRegisterWrite_mask (hμ : μ .regs = true ∧ μ .evt = true ∧ μ .core = true ∧ μ .pos = true ∧ μ .links = true ∧ μ .que = true ∧ μ .mtr = true ∧ μ .ten = true ∧ μ .vol = true ∧ μ .fmt = true ∧ μ .band = true ∧ μ .enc = true ∧ μ .cal = true ∧ μ .rch = true ∧ μ .cmp = true ∧ μ .ciph = true ∧ μ .mot = true ∧ μ .mem = true ∧ μ .cells = true ∧ μ .pool = true ∧ μ .lnk = true ∧ μ .sec = true ∧ μ .freeCount = true) (addr : Nat) (value : Word) (s : State) {t : State}
    (ht : execRegisterWrite addr value s = .next t) : t.mask μ = s.mask μ := by
  rw [execRegisterWrite] at ht
  rw [← Host.Outcome.next.inj ht]
  simp only [↓linkDue_mask, ↓hostWrite_mask, and_self, hμ]

theorem execWindowDataAccess_mask (hμ : μ .regs = true ∧ μ .latch = true ∧ μ .evt = true ∧ μ .core = true ∧ μ .pos = true ∧ μ .links = true ∧ μ .que = true ∧ μ .mtr = true ∧ μ .ten = true ∧ μ .vol = true ∧ μ .fmt = true ∧ μ .band = true ∧ μ .enc = true ∧ μ .cal = true ∧ μ .rch = true ∧ μ .cmp = true ∧ μ .ciph = true ∧ μ .mot = true ∧ μ .mem = true ∧ μ .cells = true ∧ μ .pool = true ∧ μ .lnk = true ∧ μ .sec = true ∧ μ .freeCount = true) (addr : Nat) (value : Option Word) (s : State) {t : State}
    (ht : execWindowDataAccess addr value s = .next t) : t.mask μ = s.mask μ := by
  unfold execWindowDataAccess at ht
  rw [← Host.Outcome.next.inj ht]
  cases value <;> simp only [↓afterRead_mask, ↓hostWrite_mask, ↓mask_ite, ite_self, and_self, hμ]

theorem execPageEn_mask (hμ : μ .regs = true ∧ μ .pos = true ∧ μ .mot = true) (page : Nat) (en : Bool) (s : State) {t : State}
    (ht : execPageEn page en s = .next t) : t.mask μ = s.mask μ := by
  rw [execPageEn] at ht
  rw [← Host.Outcome.next.inj ht]
  simp only [↓pageEn_mask, and_self, hμ]

theorem execPageQuiesce_mask (hμ : μ .regs = true ∧ μ .cmp = true) (page : Nat) (on : Bool) (s : State) {t : State}
    (ht : execPageQuiesce page on s = .next t) : t.mask μ = s.mask μ := by
  rw [execPageQuiesce] at ht
  rw [← Host.Outcome.next.inj ht]
  simp only [↓pageQuiesce_mask, and_self, hμ]

theorem execPageQuiesced_mask (hμ : μ .regs = true ∧ μ .cmp = true) (page : Nat) (s : State) {t : State}
    (ht : execPageQuiesced page s = .next t) : t.mask μ = s.mask μ := by
  rw [execPageQuiesced] at ht
  rw [← Host.Outcome.next.inj ht]
  simp only [↓pageQuiesced_mask, and_self, hμ]

theorem execPageLock_mask (hμ : μ .regs = true) (page : Nat) (s : State) {t : State}
    (ht : execPageLock page s = .next t) : t.mask μ = s.mask μ := by
  rw [execPageLock] at ht
  rw [← Host.Outcome.next.inj ht]
  simp only [↓pageLock_mask, hμ]

theorem execEvtForce_mask (hμ : μ .regs = true ∧ μ .evt = true) (page : Nat) (bits : Nat) (s : State) {t : State}
    (ht : execEvtForce page bits s = .next t) : t.mask μ = s.mask μ := by
  rw [execEvtForce] at ht
  rw [← Host.Outcome.next.inj ht]
  simp only [↓forceEvents_mask, and_self, hμ]

theorem execEvtFirstClear_mask (hμ : μ .regs = true) (page : Nat) (s : State) {t : State}
    (ht : execEvtFirstClear page s = .next t) : t.mask μ = s.mask μ := by
  rw [execEvtFirstClear] at ht
  rw [← Host.Outcome.next.inj ht]
  simp only [↓firstClear_mask, hμ]

theorem execStgRegisterWrite_mask (hμ : μ .regs = true ∧ μ .evt = true ∧ μ .core = true ∧ μ .pos = true ∧ μ .links = true ∧ μ .que = true ∧ μ .mtr = true ∧ μ .ten = true ∧ μ .vol = true ∧ μ .fmt = true ∧ μ .band = true ∧ μ .enc = true ∧ μ .cal = true ∧ μ .rch = true ∧ μ .cmp = true ∧ μ .ciph = true ∧ μ .mot = true ∧ μ .mem = true ∧ μ .cells = true ∧ μ .pool = true ∧ μ .lnk = true ∧ μ .sec = true ∧ μ .freeCount = true) (addr : Nat) (value : Word) (s : State) {t : State}
    (ht : execStgRegisterWrite addr value s = .next t) : t.mask μ = s.mask μ := by
  rw [execStgRegisterWrite] at ht
  rw [← Host.Outcome.next.inj ht]
  simp only [↓hostWrite_mask, ↓mask_ite, ite_self, and_self, hμ]

theorem execRegImage_mask (hμ : μ .regs = true ∧ μ .evt = true ∧ μ .core = true ∧ μ .pos = true ∧ μ .links = true ∧ μ .que = true ∧ μ .mtr = true ∧ μ .ten = true ∧ μ .vol = true ∧ μ .fmt = true ∧ μ .band = true ∧ μ .enc = true ∧ μ .cal = true ∧ μ .rch = true ∧ μ .cmp = true ∧ μ .ciph = true ∧ μ .mot = true ∧ μ .mem = true ∧ μ .cells = true ∧ μ .pool = true ∧ μ .lnk = true ∧ μ .sec = true ∧ μ .freeCount = true) (queue : Nat) (s : State) {t : State}
    (ht : execRegImage queue s = .next t) : t.mask μ = s.mask μ := by
  rw [execRegImage] at ht
  rw [← Host.Outcome.next.inj ht]
  simp only [↓sideRow_mask, ↓regImage_mask, and_self, implies_true, hμ]

end Sys2Proof.Machine
end

