-- ==== Sys2Proof/Laws/Memory.lean ====
section
/-!
SUPPORT. The laws of the buffer's cells: a write keeps the canonical form, a read of the byte written gives it, and every other byte is as it was.
-/
namespace Sys2Proof.Machine.Memory

/-- Every listed address lies above `n`. -/
def above (n : Nat) (l : List Host.Cell) : Bool := l.all fun c => decide (n < c.1)

theorem wf_cons (c : Host.Cell) (l : List Host.Cell) : wf (c :: l) = (c.2 != 0 && above c.1 l && wf l) := by
  induction l generalizing c with
  | nil => simp [wf, above]
  | cons d r ih =>
    have ha : decide (c.1 < d.1) = true → above c.1 r = true ∨ above d.1 r = false := by
      intro hlt
      by_cases hd : above d.1 r = true
      · left
        simp only [above, List.all_eq_true, decide_eq_true_eq] at hd hlt ⊢
        exact fun x hx => Nat.lt_trans hlt (hd x hx)
      · right; simpa using hd
    have hab : above c.1 (d :: r) = (decide (c.1 < d.1) && above c.1 r) := by simp only [above, List.all_cons]
    rw [wf, hab, ih d]
    cases hlt : decide (c.1 < d.1)
    · simp
    · rcases ha hlt with h | h <;> simp [h]

theorem wf_cons_iff {c : Host.Cell} {l : List Host.Cell} : wf (c :: l) = true ↔ c.2 ≠ 0 ∧ above c.1 l = true ∧ wf l = true := by
  rw [wf_cons, Bool.and_eq_true, Bool.and_eq_true, bne_iff_ne, and_assoc]

theorem above_cons {n : Nat} {c : Host.Cell} {l : List Host.Cell} : above n (c :: l) = true ↔ n < c.1 ∧ above n l = true := by
  simp only [above, List.all_cons, Bool.and_eq_true, decide_eq_true_eq]

theorem above_mono {n k : Nat} (hk : n ≤ k) {l : List Host.Cell} (h : above k l = true) : above n l = true := by
  simp only [above, List.all_eq_true, decide_eq_true_eq] at h ⊢
  exact fun x hx => Nat.lt_of_le_of_lt hk (h x hx)

theorem above_put {n k : Nat} (hk : n < k) (b : Byte) {l : List Host.Cell} (h : above n l = true) : above n (put l k b) = true := by
  induction l with
  | nil =>
    simp only [put]
    split
    · rfl
    · exact above_cons.2 ⟨hk, rfl⟩
  | cons c r ih =>
    have h' := above_cons.1 h
    simp only [put]
    (repeat' split) <;> first
      | exact h
      | exact h'.2
      | exact above_cons.2 ⟨hk, h'.2⟩
      | exact above_cons.2 ⟨hk, h⟩
      | exact above_cons.2 ⟨h'.1, ih h'.2⟩

/-- A write keeps the canonical form. -/
theorem wf_put (k : Nat) (b : Byte) {l : List Host.Cell} (h : wf l = true) : wf (put l k b) = true := by
  induction l with
  | nil =>
    simp only [put]
    split
    · rfl
    · rename_i hb; exact wf_cons_iff.2 ⟨hb, rfl, rfl⟩
  | cons c r ih =>
    obtain ⟨hc, ha, hr⟩ := wf_cons_iff.1 h
    simp only [put]
    split
    · rename_i hk
      split
      · exact hr
      · rename_i hb; exact wf_cons_iff.2 ⟨hb, hk ▸ ha, hr⟩
    · split
      · rename_i hk hlt
        split
        · exact h
        · rename_i hb; exact wf_cons_iff.2 ⟨hb, above_cons.2 ⟨hlt, above_mono (Nat.le_of_lt hlt) ha⟩, h⟩
      · rename_i hk hlt
        exact wf_cons_iff.2 ⟨hc, above_put (by omega) b ha, ih hr⟩

theorem get_above {n : Nat} {l : List Host.Cell} (h : above n l = true) : get l n = 0 := by
  cases l with
  | nil => rfl
  | cons c r =>
    simp only [above, List.all_cons, Bool.and_eq_true, decide_eq_true_eq] at h
    have h1 : ¬c.1 = n := by omega
    simp [get, h1, h.1]

/-- The byte written is the byte read. -/
theorem get_put_same (k : Nat) (b : Byte) {l : List Host.Cell} (h : wf l = true) : get (put l k b) k = b := by
  induction l with
  | nil => simp only [put]; split <;> simp_all [get]
  | cons c r ih =>
    rw [wf_cons] at h
    simp only [Bool.and_eq_true] at h
    obtain ⟨⟨-, ha⟩, hr⟩ := h
    simp only [put]
    split
    · rename_i hk
      split
      · rename_i hb; rw [← hk, get_above ha, hb]
      · simp [get]
    · rename_i hk
      split
      · rename_i hlt
        split
        · rename_i hb; simp [get, hk, hlt, hb]
        · simp [get]
      · rename_i hlt
        simp [get, hk, hlt, ih hr]

/-- Every other byte is as it was. -/
theorem get_put_other {k j : Nat} (hj : j ≠ k) (b : Byte) {l : List Host.Cell} (h : wf l = true) : get (put l k b) j = get l j := by
  induction l with
  | nil =>
    simp only [put]
    split
    · rfl
    · simp [get, Ne.symm hj]
  | cons c r ih =>
    rw [wf_cons] at h
    simp only [Bool.and_eq_true] at h
    obtain ⟨⟨-, ha⟩, hr⟩ := h
    simp only [put]
    split
    · rename_i hk
      split
      · simp only [get]
        split
        · omega
        · split
          · rename_i h1 h2
            exact get_above (above_mono (Nat.le_of_lt h2) ha)
          · rfl
      · simp only [get, ← hk]; split <;> simp_all
    · rename_i hk
      split
      · rename_i hlt
        split
        · rfl
        · simp only [get]
          split
          · omega
          · split
            · split
              · omega
              · split
                · rfl
                · omega
            · rfl
      · simp only [get]
        split
        · rfl
        · split
          · rfl
          · exact ih hr

end Sys2Proof.Machine.Memory
end

