-- ==== Sys2Proof/Laws/PacketsMask.lean ====
section
/-!
SUPPORT. What each function of Machine/Packets.lean touches at most.
-/
namespace Sys2Proof.Machine

variable {μ : Part → Bool}

theorem protoErr_mask (hμ : μ .regs = true ∧ μ .evt = true) (code : Nat) (ptype : Nat) (queue : Nat) (s : State) :
    (protoErr code ptype queue s).mask μ = s.mask μ := by
  simp only [protoErr, ↓setF_mask, ↓incF_mask, ↓raiseB_mask, and_self, hμ]

theorem enqueue_mask (hμ : μ .regs = true ∧ μ .que = true ∧ μ .mtr = true) (q : Nat) (desc : List Byte) (s : State) :
    (enqueue q desc s).mask μ = s.mask μ := by
  simp only [enqueue, ↓incF_mask, ↓setQue_mask, ↓setSide_mask, ↓onBracket_mask, ↓mask_ite, ite_self, hμ]

theorem takeCmd_mask (hμ : μ .regs = true ∧ μ .que = true ∧ μ .mtr = true) (h : Word256) (body : List Word256) (s : State) :
    (takeCmd h body s).mask μ = s.mask μ := by
  simp only [takeCmd, ↓enqueue_mask, ↓mask_forEach, and_self, implies_true, hμ]

theorem takeMinute_mask (hμ : μ .que = true ∧ μ .mtr = true) (h : Word256) (s : State) :
    (takeMinute h s).mask μ = s.mask μ := by
  simp only [takeMinute, ↓setQue_mask, ↓setMtr_mask, hμ]

theorem takeData_mask (hμ : μ .que = true) (q : Nat) (bytes : List Byte) (s : State) :
    (takeData q bytes s).mask μ = s.mask μ := by
  simp only [takeData, ↓mask_ite]
  (repeat' split) <;> simp only [↓setQue_mask, ↓setSide_mask, hμ]

theorem takeGrants_mask (hμ : μ .lnk = true) (h : Word256) (s : State) :
    (takeGrants h s).mask μ = s.mask μ := by
  simp only [takeGrants, ↓setLnk_mask, ↓pumpAll_mask, ↓mask_ite, ite_self, ↓mask_forEach, implies_true, hμ]

theorem regReads_mask (hμ : μ .regs = true ∧ μ .latch = true ∧ μ .freeCount = true) (a : Nat) (y0 : Nat) (s : State) :
    (regReads a y0 s).2.mask μ = s.mask μ := by
  induction y0 generalizing a s with
  | zero => rfl
  | succ n ih => simp only [regReads, ih, ↓hostRead_mask, and_self, hμ]

theorem takeRead_mask (hμ : μ .regs = true ∧ μ .latch = true ∧ μ .evt = true ∧ μ .lnk = true ∧ μ .freeCount = true) (h : Word256) (s : State) :
    (takeRead h s).mask μ = s.mask μ := by
  unfold takeRead
  (repeat' split) <;> simp only [↓sendFree_mask, ↓giveBack_mask, ↓linkDue_mask, ↓regReads_mask, and_self, hμ]

theorem takeWrite_mask (hμ : μ .regs = true ∧ μ .evt = true ∧ μ .core = true ∧ μ .pos = true ∧ μ .links = true ∧ μ .que = true ∧ μ .mtr = true ∧ μ .ten = true ∧ μ .vol = true ∧ μ .fmt = true ∧ μ .band = true ∧ μ .enc = true ∧ μ .cal = true ∧ μ .rch = true ∧ μ .cmp = true ∧ μ .ciph = true ∧ μ .mot = true ∧ μ .mem = true ∧ μ .cells = true ∧ μ .pool = true ∧ μ .lnk = true ∧ μ .sec = true ∧ μ .freeCount = true) (h : Word256) (s : State) :
    (takeWrite h s).mask μ = s.mask μ := by
  simp only [takeWrite, ↓sendFree_mask, ↓giveBack_mask, ↓linkDue_mask, ↓hostWrite_mask, ↓mask_ite, ite_self, ↓mask_forEach, and_self, implies_true, hμ]

theorem takeDataOut_mask (hμ : μ .regs = true ∧ μ .evt = true ∧ μ .que = true ∧ μ .lnk = true) (h : Word256) (body : List Word256) (s : State) :
    (takeDataOut h body s).mask μ = s.mask μ := by
  simp only [takeDataOut]
  (repeat' split) <;> simp only [↓giveBack_mask, ↓protoErr_mask, ↓takeData_mask, and_self, hμ]

theorem takePacket_mask (hμ : μ .regs = true ∧ μ .latch = true ∧ μ .evt = true ∧ μ .core = true ∧ μ .pos = true ∧ μ .links = true ∧ μ .que = true ∧ μ .mtr = true ∧ μ .ten = true ∧ μ .vol = true ∧ μ .fmt = true ∧ μ .band = true ∧ μ .enc = true ∧ μ .cal = true ∧ μ .rch = true ∧ μ .cmp = true ∧ μ .ciph = true ∧ μ .mot = true ∧ μ .mem = true ∧ μ .cells = true ∧ μ .pool = true ∧ μ .lnk = true ∧ μ .sec = true ∧ μ .freeCount = true) (h : Word256) (body : List Word256) (s : State) :
    (takePacket h body s).mask μ = s.mask μ := by
  simp only [takePacket]
  (repeat' split) <;> simp only [↓takeCmd_mask, ↓takeMinute_mask, ↓takeGrants_mask, ↓takeRead_mask, ↓takeWrite_mask, ↓takeDataOut_mask, and_self, hμ]

theorem checkPacket_mask (hμ : μ .regs = true ∧ μ .evt = true ∧ μ .lnk = true) (take : State → State) (h : Word256) (body : List Word256) (s : State) (htake : ∀ s, (take s).mask μ = s.mask μ) :
    (checkPacket take h body s).mask μ = s.mask μ := by
  simp only [checkPacket, ↓giveBack_mask, ↓takeTokens_mask, ↓protoErr_mask, ↓mask_ite, ite_self, and_self, hμ, htake]

theorem packetIn_mask (hμ : μ .regs = true ∧ μ .latch = true ∧ μ .evt = true ∧ μ .core = true ∧ μ .pos = true ∧ μ .links = true ∧ μ .que = true ∧ μ .mtr = true ∧ μ .ten = true ∧ μ .vol = true ∧ μ .fmt = true ∧ μ .band = true ∧ μ .enc = true ∧ μ .cal = true ∧ μ .rch = true ∧ μ .cmp = true ∧ μ .ciph = true ∧ μ .mot = true ∧ μ .mem = true ∧ μ .cells = true ∧ μ .pool = true ∧ μ .lnk = true ∧ μ .sec = true ∧ μ .freeCount = true) (h : Word256) (body : List Word256) (s : State) :
    (packetIn h body s).mask μ = s.mask μ := by
  simp only [packetIn, ↓takePacket_mask, ↓checkPacket_mask, and_self, implies_true, hμ]

theorem packetOf_mask (hμ : μ .regs = true ∧ μ .evt = true ∧ μ .lnk = true) (t : Nat) (take : State → State) (h : Word256) (body : List Word256) (s : State) (htake : ∀ s, (take s).mask μ = s.mask μ) :
    (packetOf t take h body s).mask μ = s.mask μ := by
  simp only [packetOf, ↓checkPacket_mask, ↓mask_ite, ite_self, and_self, implies_true, hμ, htake]

theorem flitReceived_mask (hμ : μ .regs = true ∧ μ .latch = true ∧ μ .evt = true ∧ μ .core = true ∧ μ .pos = true ∧ μ .links = true ∧ μ .que = true ∧ μ .mtr = true ∧ μ .ten = true ∧ μ .vol = true ∧ μ .fmt = true ∧ μ .band = true ∧ μ .enc = true ∧ μ .cal = true ∧ μ .rch = true ∧ μ .cmp = true ∧ μ .ciph = true ∧ μ .mot = true ∧ μ .mem = true ∧ μ .cells = true ∧ μ .pool = true ∧ μ .lnk = true ∧ μ .sec = true ∧ μ .freeCount = true) (lanes : List (BitVec 288)) (s : State) :
    (flitReceived lanes s).mask μ = s.mask μ := by
  simp only [flitReceived]
  (repeat' split) <;> simp only [↓flitIn_mask, ↓protoErr_mask, ↓packetIn_mask, and_self, hμ]

theorem finishAll_mask (hμ : μ .regs = true ∧ μ .evt = true ∧ μ .que = true ∧ μ .mtr = true ∧ μ .ten = true) (s : State) :
    (finishAll s).mask μ = s.mask μ := by
  simp only [finishAll, ↓tryFinish_mask, ↓sideFinish_mask, ↓mask_ite, ite_self, ↓mask_forEach, and_self, implies_true, hμ]

theorem sendPacket_mask (hμ : μ .lnk = true) (cls : Nat) (words : List Word256) (s : State) :
    (sendPacket cls words s).mask μ = s.mask μ := by
  simp only [sendPacket, ↓transmit_mask, ↓spend_mask, hμ]

theorem dataInLost_mask (hμ : μ .regs = true ∧ μ .evt = true ∧ μ .que = true ∧ μ .mtr = true ∧ μ .ten = true ∧ μ .vol = true) (p : DinPkt) (s : State) :
    (dataInLost p s).mask μ = s.mask μ := by
  simp only [dataInLost, ↓mask_ite]
  (repeat' split) <;> simp only [↓setQue_mask, ↓setVol_mask, ↓endExec_mask, ↓finishSide_mask, ↓onExec_mask, and_self, hμ]

theorem dataInSend_mask (hμ : μ .regs = true ∧ μ .evt = true ∧ μ .que = true ∧ μ .mtr = true ∧ μ .ten = true ∧ μ .vol = true ∧ μ .fmt = true ∧ μ .band = true ∧ μ .cal = true ∧ μ .rch = true ∧ μ .mot = true ∧ μ .lnk = true) (poison : Option Nat) (s : State) :
    (dataInSend poison s).mask μ = s.mask μ := by
  unfold dataInSend
  (repeat' split) <;> simp only [↓setQue_mask, ↓raisePoison_mask, ↓systemLoss_mask, ↓onExec_mask, ↓finishAll_mask, ↓sendPacket_mask, ↓dataInLost_mask, and_self, hμ]

theorem outSend_mask (hμ : μ .regs = true ∧ μ .evt = true ∧ μ .que = true ∧ μ .mtr = true ∧ μ .ten = true ∧ μ .lnk = true) (retract : Bool) (s : State) :
    (outSend retract s).mask μ = s.mask μ := by
  unfold outSend
  (repeat' split) <;> simp only [↓incF_mask, ↓setQue_mask, ↓finishAll_mask, ↓sendPacket_mask, and_self, hμ]

theorem eventSend_mask (hμ : μ .evt = true ∧ μ .lnk = true) (s : State) :
    (eventSend s).mask μ = s.mask μ := by
  unfold eventSend
  (repeat' split) <;> simp only [↓sendPacket_mask, ↓mask_evt, hμ]

/-! ## Commands -/

theorem execFlitReceived_mask (hμ : μ .regs = true ∧ μ .latch = true ∧ μ .evt = true ∧ μ .core = true ∧ μ .pos = true ∧ μ .links = true ∧ μ .que = true ∧ μ .mtr = true ∧ μ .ten = true ∧ μ .vol = true ∧ μ .fmt = true ∧ μ .band = true ∧ μ .enc = true ∧ μ .cal = true ∧ μ .rch = true ∧ μ .cmp = true ∧ μ .ciph = true ∧ μ .mot = true ∧ μ .mem = true ∧ μ .cells = true ∧ μ .pool = true ∧ μ .lnk = true ∧ μ .sec = true ∧ μ .freeCount = true) (lanes : List (BitVec 288)) (s : State) {t : State}
    (ht : execFlitReceived lanes s = .next t) : t.mask μ = s.mask μ := by
  rw [execFlitReceived] at ht
  rw [← Host.Outcome.next.inj ht]
  simp only [↓flitReceived_mask, and_self, hμ]

theorem execCmd_mask (hμ : μ .regs = true ∧ μ .evt = true ∧ μ .que = true ∧ μ .mtr = true ∧ μ .lnk = true) (head : Word256) (body : List Word256) (s : State) {t : State}
    (ht : execCmd head body s = .next t) : t.mask μ = s.mask μ := by
  rw [execCmd] at ht
  rw [← Host.Outcome.next.inj ht]
  simp only [↓takeCmd_mask, ↓packetOf_mask, and_self, implies_true, hμ]

theorem execDataOut_mask (hμ : μ .regs = true ∧ μ .evt = true ∧ μ .que = true ∧ μ .lnk = true) (head : Word256) (body : List Word256) (s : State) {t : State}
    (ht : execDataOut head body s = .next t) : t.mask μ = s.mask μ := by
  rw [execDataOut] at ht
  rw [← Host.Outcome.next.inj ht]
  simp only [↓takeDataOut_mask, ↓packetOf_mask, and_self, implies_true, hμ]

theorem execMinute_mask (hμ : μ .regs = true ∧ μ .evt = true ∧ μ .que = true ∧ μ .mtr = true ∧ μ .lnk = true) (head : Word256) (body : List Word256) (s : State) {t : State}
    (ht : execMinute head body s = .next t) : t.mask μ = s.mask μ := by
  rw [execMinute] at ht
  rw [← Host.Outcome.next.inj ht]
  simp only [↓takeMinute_mask, ↓packetOf_mask, and_self, implies_true, hμ]

theorem execToken_mask (hμ : μ .regs = true ∧ μ .evt = true ∧ μ .lnk = true) (head : Word256) (body : List Word256) (s : State) {t : State}
    (ht : execToken head body s = .next t) : t.mask μ = s.mask μ := by
  rw [execToken] at ht
  rw [← Host.Outcome.next.inj ht]
  simp only [↓takeGrants_mask, ↓packetOf_mask, and_self, implies_true, hμ]

theorem execRegRd_mask (hμ : μ .regs = true ∧ μ .latch = true ∧ μ .evt = true ∧ μ .lnk = true ∧ μ .freeCount = true) (head : Word256) (body : List Word256) (s : State) {t : State}
    (ht : execRegRd head body s = .next t) : t.mask μ = s.mask μ := by
  rw [execRegRd] at ht
  rw [← Host.Outcome.next.inj ht]
  simp only [↓takeRead_mask, ↓packetOf_mask, and_self, implies_true, hμ]

theorem execRegWr_mask (hμ : μ .regs = true ∧ μ .evt = true ∧ μ .core = true ∧ μ .pos = true ∧ μ .links = true ∧ μ .que = true ∧ μ .mtr = true ∧ μ .ten = true ∧ μ .vol = true ∧ μ .fmt = true ∧ μ .band = true ∧ μ .enc = true ∧ μ .cal = true ∧ μ .rch = true ∧ μ .cmp = true ∧ μ .ciph = true ∧ μ .mot = true ∧ μ .mem = true ∧ μ .cells = true ∧ μ .pool = true ∧ μ .lnk = true ∧ μ .sec = true ∧ μ .freeCount = true) (head : Word256) (body : List Word256) (s : State) {t : State}
    (ht : execRegWr head body s = .next t) : t.mask μ = s.mask μ := by
  rw [execRegWr] at ht
  rw [← Host.Outcome.next.inj ht]
  simp only [↓takeWrite_mask, ↓packetOf_mask, and_self, implies_true, hμ]

theorem execDataInSend_mask (hμ : μ .regs = true ∧ μ .evt = true ∧ μ .que = true ∧ μ .mtr = true ∧ μ .ten = true ∧ μ .vol = true ∧ μ .fmt = true ∧ μ .band = true ∧ μ .cal = true ∧ μ .rch = true ∧ μ .mot = true ∧ μ .lnk = true) (poison : Option Nat) (s : State) {t : State}
    (ht : execDataInSend poison s = .next t) : t.mask μ = s.mask μ := by
  rw [execDataInSend] at ht
  rw [← Host.Outcome.next.inj ht]
  simp only [↓dataInSend_mask, and_self, hμ]

theorem execComplSend_mask (hμ : μ .regs = true ∧ μ .evt = true ∧ μ .que = true ∧ μ .mtr = true ∧ μ .ten = true ∧ μ .lnk = true) (s : State) {t : State}
    (ht : execComplSend s = .next t) : t.mask μ = s.mask μ := by
  rw [execComplSend] at ht
  rw [← Host.Outcome.next.inj ht]
  simp only [↓outSend_mask, and_self, hμ]

theorem execRetractSend_mask (hμ : μ .regs = true ∧ μ .evt = true ∧ μ .que = true ∧ μ .mtr = true ∧ μ .ten = true ∧ μ .lnk = true) (s : State) {t : State}
    (ht : execRetractSend s = .next t) : t.mask μ = s.mask μ := by
  rw [execRetractSend] at ht
  rw [← Host.Outcome.next.inj ht]
  simp only [↓outSend_mask, and_self, hμ]

theorem execEventSend_mask (hμ : μ .evt = true ∧ μ .lnk = true) (s : State) {t : State}
    (ht : execEventSend s = .next t) : t.mask μ = s.mask μ := by
  rw [execEventSend] at ht
  rw [← Host.Outcome.next.inj ht]
  simp only [↓eventSend_mask, and_self, hμ]

theorem execQueEn_mask (hμ : μ .regs = true ∧ μ .lnk = true) (s : State) {t : State}
    (ht : execQueEn s = .next t) : t.mask μ = s.mask μ := by
  rw [execQueEn] at ht
  rw [← Host.Outcome.next.inj ht]
  simp only [↓setF_mask, ↓lockGate_mask, ↓queuesStart_mask, implies_true, hμ]

end Sys2Proof.Machine
end

