-- ==== Sys2Proof/Laws/PowerMask.lean ====
section
/-!
SUPPORT. What each function of Machine/Power.lean touches at most.
-/
namespace Sys2Proof.Machine

variable {μ : Part → Bool}

theorem keepF_mask (hμ : μ .regs = true) (old : State) (f : Fld) (s : State) :
    (keepF old f s).mask μ = s.mask μ := by
  simp only [keepF, ↓setF_mask, hμ]

theorem resetPart_mask (hμ : μ .regs = true ∧ μ .latch = true ∧ μ .evt = true ∧ μ .core = true ∧ μ .pos = true ∧ μ .links = true ∧ μ .que = true ∧ μ .mtr = true ∧ μ .ten = true ∧ μ .vol = true ∧ μ .fmt = true ∧ μ .band = true ∧ μ .enc = true ∧ μ .cal = true ∧ μ .rch = true ∧ μ .cmp = true ∧ μ .keys = true ∧ μ .ciph = true ∧ μ .mot = true ∧ μ .mem = true ∧ μ .cells = true ∧ μ .pool = true ∧ μ .lnk = true ∧ μ .sec = true ∧ μ .pins = true) (s : State) :
    (resetPart s).mask μ = s.mask μ := by
  unfold resetPart
  dsimp only
  rw [mask_foldl _ (fun t f => keepF_mask (by simp only [hμ]) s f t)]
  simp only [State.mask, hμ, cond_true]

theorem setCause_mask (hμ : μ .regs = true) (pin : Bool) (rail : Option Nat) (s : State) :
    (setCause pin rail s).mask μ = s.mask μ := by
  simp only [setCause, ↓setF_mask, ↓setB_mask, hμ]

theorem islandLost_mask (hμ : μ .regs = true) (s : State) :
    (islandLost s).mask μ = s.mask μ := by
  simp only [islandLost, ↓setF_mask, hμ]

theorem setRails_mask (hμ : μ .pins = true) (rails : Nat) (s : State) :
    (setRails rails s).mask μ = s.mask μ := by
  simp only [setRails, ↓mask_pins, hμ]

theorem porstAssert_mask (hμ : μ .regs = true ∧ μ .latch = true ∧ μ .evt = true ∧ μ .core = true ∧ μ .pos = true ∧ μ .links = true ∧ μ .que = true ∧ μ .mtr = true ∧ μ .ten = true ∧ μ .vol = true ∧ μ .fmt = true ∧ μ .band = true ∧ μ .enc = true ∧ μ .cal = true ∧ μ .rch = true ∧ μ .cmp = true ∧ μ .keys = true ∧ μ .ciph = true ∧ μ .mot = true ∧ μ .mem = true ∧ μ .cells = true ∧ μ .pool = true ∧ μ .lnk = true ∧ μ .sec = true ∧ μ .pins = true) (s : State) :
    (porstAssert s).mask μ = s.mask μ := by
  simp only [porstAssert, ↓incF_mask, ↓resetPart_mask, ↓setCause_mask, ↓mask_ite, ite_self, and_self, hμ]

theorem brownout_mask (hμ : μ .regs = true ∧ μ .latch = true ∧ μ .evt = true ∧ μ .core = true ∧ μ .pos = true ∧ μ .links = true ∧ μ .que = true ∧ μ .mtr = true ∧ μ .ten = true ∧ μ .vol = true ∧ μ .fmt = true ∧ μ .band = true ∧ μ .enc = true ∧ μ .cal = true ∧ μ .rch = true ∧ μ .cmp = true ∧ μ .keys = true ∧ μ .ciph = true ∧ μ .mot = true ∧ μ .mem = true ∧ μ .cells = true ∧ μ .pool = true ∧ μ .lnk = true ∧ μ .sec = true ∧ μ .pins = true) (rail : Nat) (s : State) :
    (brownout rail s).mask μ = s.mask μ := by
  simp only [brownout, ↓incF_mask, ↓resetPart_mask, ↓setCause_mask, ↓islandLost_mask, ↓setRails_mask, ↓mask_ite, ite_self, and_self, hμ]

theorem railChange_mask (hμ : μ .regs = true ∧ μ .latch = true ∧ μ .evt = true ∧ μ .core = true ∧ μ .pos = true ∧ μ .links = true ∧ μ .que = true ∧ μ .mtr = true ∧ μ .ten = true ∧ μ .vol = true ∧ μ .fmt = true ∧ μ .band = true ∧ μ .enc = true ∧ μ .cal = true ∧ μ .rch = true ∧ μ .cmp = true ∧ μ .keys = true ∧ μ .ciph = true ∧ μ .mot = true ∧ μ .mem = true ∧ μ .cells = true ∧ μ .pool = true ∧ μ .lnk = true ∧ μ .sec = true ∧ μ .pins = true) (rail : Nat) (ok : Bool) (s : State) :
    (railChange rail ok s).mask μ = s.mask μ := by
  simp only [railChange, ↓setF_mask, ↓resetPart_mask, ↓islandLost_mask, ↓setRails_mask, ↓mask_ite, ite_self, and_self, hμ]

theorem porstRelease_mask (hμ : μ .regs = true ∧ μ .evt = true ∧ μ .core = true ∧ μ .sec = true ∧ μ .pins = true ∧ μ .freeCount = true) (testEn : Bool) (vbusOver : Bool) (raw : List Bool) (locks : Nat) (count : Nat) (s : State) :
    (porstRelease testEn vbusOver raw locks count s).mask μ = s.mask μ := by
  simp only [porstRelease, ↓setF_mask, ↓setB_mask, ↓readFuses_mask, ↓toBoot_mask, ↓bootHalt_mask, ↓entropyTest_mask, ↓mask_pins, ↓mask_ite, ite_self, and_self, hμ]

theorem cartFault_mask (hμ : μ .pins = true) (faulty : Bool) (s : State) :
    (cartFault faulty s).mask μ = s.mask μ := by
  simp only [cartFault, ↓mask_pins, hμ]

/-! ## Commands -/

theorem execPorstRelease_mask (hμ : μ .regs = true ∧ μ .evt = true ∧ μ .core = true ∧ μ .sec = true ∧ μ .pins = true ∧ μ .freeCount = true) (testEn : Bool) (vbusOver : Bool) (raw : List Bool) (locks : Nat) (count : Nat) (s : State) {t : State}
    (ht : execPorstRelease testEn vbusOver raw locks count s = .next t) : t.mask μ = s.mask μ := by
  rw [execPorstRelease] at ht
  rw [← Host.Outcome.next.inj ht]
  simp only [↓porstRelease_mask, and_self, hμ]

theorem execPorstAssert_mask (hμ : μ .regs = true ∧ μ .latch = true ∧ μ .evt = true ∧ μ .core = true ∧ μ .pos = true ∧ μ .links = true ∧ μ .que = true ∧ μ .mtr = true ∧ μ .ten = true ∧ μ .vol = true ∧ μ .fmt = true ∧ μ .band = true ∧ μ .enc = true ∧ μ .cal = true ∧ μ .rch = true ∧ μ .cmp = true ∧ μ .keys = true ∧ μ .ciph = true ∧ μ .mot = true ∧ μ .mem = true ∧ μ .cells = true ∧ μ .pool = true ∧ μ .lnk = true ∧ μ .sec = true ∧ μ .pins = true) (s : State) {t : State}
    (ht : execPorstAssert s = .next t) : t.mask μ = s.mask μ := by
  rw [execPorstAssert] at ht
  rw [← Host.Outcome.next.inj ht]
  simp only [↓porstAssert_mask, and_self, hμ]

theorem execRailChange_mask (hμ : μ .regs = true ∧ μ .latch = true ∧ μ .evt = true ∧ μ .core = true ∧ μ .pos = true ∧ μ .links = true ∧ μ .que = true ∧ μ .mtr = true ∧ μ .ten = true ∧ μ .vol = true ∧ μ .fmt = true ∧ μ .band = true ∧ μ .enc = true ∧ μ .cal = true ∧ μ .rch = true ∧ μ .cmp = true ∧ μ .keys = true ∧ μ .ciph = true ∧ μ .mot = true ∧ μ .mem = true ∧ μ .cells = true ∧ μ .pool = true ∧ μ .lnk = true ∧ μ .sec = true ∧ μ .pins = true) (rail : Nat) (inRange : Bool) (s : State) {t : State}
    (ht : execRailChange rail inRange s = .next t) : t.mask μ = s.mask μ := by
  rw [execRailChange] at ht
  rw [← Host.Outcome.next.inj ht]
  simp only [↓railChange_mask, and_self, hμ]

theorem execBrownout_mask (hμ : μ .regs = true ∧ μ .latch = true ∧ μ .evt = true ∧ μ .core = true ∧ μ .pos = true ∧ μ .links = true ∧ μ .que = true ∧ μ .mtr = true ∧ μ .ten = true ∧ μ .vol = true ∧ μ .fmt = true ∧ μ .band = true ∧ μ .enc = true ∧ μ .cal = true ∧ μ .rch = true ∧ μ .cmp = true ∧ μ .keys = true ∧ μ .ciph = true ∧ μ .mot = true ∧ μ .mem = true ∧ μ .cells = true ∧ μ .pool = true ∧ μ .lnk = true ∧ μ .sec = true ∧ μ .pins = true) (rail : Nat) (s : State) {t : State}
    (ht : execBrownout rail s = .next t) : t.mask μ = s.mask μ := by
  rw [execBrownout] at ht
  rw [← Host.Outcome.next.inj ht]
  simp only [↓brownout_mask, and_self, hμ]

theorem execCartPresFault_mask (hμ : μ .pins = true) (s : State) {t : State}
    (ht : execCartPresFault s = .next t) : t.mask μ = s.mask μ := by
  rw [execCartPresFault] at ht
  rw [← Host.Outcome.next.inj ht]
  simp only [↓cartFault_mask, hμ]

theorem execCartPresFaultClear_mask (hμ : μ .pins = true) (s : State) {t : State}
    (ht : execCartPresFaultClear s = .next t) : t.mask μ = s.mask μ := by
  rw [execCartPresFaultClear] at ht
  rw [← Host.Outcome.next.inj ht]
  simp only [↓cartFault_mask, hμ]

end Sys2Proof.Machine
end

