-- ==== Sys2Proof/Laws/MemoryOk.lean ====
section
/-!
SUPPORT. The buffer's memory keeps its canonical form: every function that may write cells keeps it, and so does every command.
-/
namespace Sys2Proof.Machine

/-- All parts but the cells. -/
def notCells (p : Part) : Bool := p != .cells

/-- A function that does not touch the cells keeps their form. -/
theorem memoryOk_of_mask {s t : State} (h : memoryOk s = true) (hm : t.mask notCells = s.mask notCells) : memoryOk t = true := by
  have hc : t.mem.cells = s.mem.cells := by
    simpa only [State.mask, notCells, show (Part.mem != Part.cells) = true from rfl, show (Part.cells != Part.cells) = false from rfl, cond_true, cond_false] using congrArg (fun z : State => z.mem.cells) hm
  rw [memoryOk, hc]; exact h

theorem memoryOk_foldl {α : Type} {f : State → α → State} {s : State} (h : memoryOk s = true) (hf : ∀ s a, memoryOk s = true → memoryOk (f s a) = true)
    (l : List α) : memoryOk (l.foldl f s) = true := by
  induction l generalizing s with
  | nil => exact h
  | cons a l ih => exact ih (hf s a h)

theorem memoryOk_ite {c : Prop} [Decidable c] {a b : State} (ha : memoryOk a = true) (hb : memoryOk b = true) :
    memoryOk (if c then a else b) = true := by
  split
  · exact ha
  · exact hb

theorem memoryOk_foldl_snd {α β : Type} {f : β × State → α → β × State} {x : β × State} (h : memoryOk x.2 = true)
    (hf : ∀ x a, memoryOk x.2 = true → memoryOk (f x a).2 = true) (l : List α) : memoryOk (l.foldl f x).2 = true := by
  induction l generalizing x with
  | nil => exact h
  | cons a l ih => exact ih (hf x a h)

theorem memoryOk_forEach {f : Nat → State → State} {s : State} (h : memoryOk s = true) (hf : ∀ i s, memoryOk s = true → memoryOk (f i s) = true)
    (l : List Nat) : memoryOk (forEach l f s) = true := memoryOk_foldl h (fun s i hs => hf i s hs) l

/-- A write of one cell keeps the form. -/
theorem memoryOk_put {s : State} (h : memoryOk s = true) (k : Nat) (b : Byte) :
    memoryOk (setMem { s.mem with cells := Memory.put s.mem.cells k b } s) = true := Memory.wf_put k b h

/-- A change of the buffer's other state keeps it. -/
theorem memoryOk_setMem {s : State} (h : memoryOk s = true) (x : MemSt) (hx : x.cells = s.mem.cells) : memoryOk (setMem x s) = true := by
  rw [memoryOk, setMem, hx]; exact h

theorem setF_memoryOk {s : State} (hok : memoryOk s = true) (f : Fld) (v : Nat) : memoryOk (setF f v s) = true :=
  memoryOk_of_mask hok (setF_mask (by decide) f v s)

theorem setB_memoryOk {s : State} (hok : memoryOk s = true) (f : Fld) (b : Bool) : memoryOk (setB f b s) = true :=
  memoryOk_of_mask hok (setB_mask (by decide) f b s)

theorem addF_memoryOk {s : State} (hok : memoryOk s = true) (f : Fld) (n : Nat) : memoryOk (addF f n s) = true :=
  memoryOk_of_mask hok (addF_mask (by decide) f n s)

theorem incF_memoryOk {s : State} (hok : memoryOk s = true) (f : Fld) : memoryOk (incF f s) = true :=
  memoryOk_of_mask hok (incF_mask (by decide) f s)

theorem add64_memoryOk {s : State} (hok : memoryOk s = true) (lo : Fld) (hi : Fld) (n : Nat) : memoryOk (add64 lo hi n s) = true :=
  memoryOk_of_mask hok (add64_mask (by decide) lo hi n s)

theorem raise_memoryOk {s : State} (hok : memoryOk s = true) (p : Nat) (bit : Nat) (code : Nat) (account : Nat) (data : Nat) : memoryOk (raise p bit code account data s) = true :=
  memoryOk_of_mask hok (raise_mask (by decide) p bit code account data s)

theorem raiseC_memoryOk {s : State} (hok : memoryOk s = true) (p : Nat) (sev : Nat) (cause : Nat) (account : Nat) (data : Nat) : memoryOk (raiseC p sev cause account data s) = true :=
  memoryOk_of_mask hok (raiseC_mask (by decide) p sev cause account data s)

theorem raiseB_memoryOk {s : State} (hok : memoryOk s = true) (p : Nat) (bit : Nat) (sev : Nat) (cause : Nat) (account : Nat) (data : Nat) : memoryOk (raiseB p bit sev cause account data s) = true :=
  memoryOk_of_mask hok (raiseB_mask (by decide) p bit sev cause account data s)

theorem setEnc_memoryOk {s : State} (hok : memoryOk s = true) (e : EncSt) : memoryOk (setEnc e s) = true :=
  memoryOk_of_mask hok (setEnc_mask (by decide) e s)

theorem finishSide_memoryOk {s : State} (hok : memoryOk s = true) (q : Nat) (status : Nat) (record : Nat) (count : Nat) (detail : Nat) : memoryOk (finishSide q status record count detail s) = true :=
  memoryOk_of_mask hok (finishSide_mask (by decide) q status record count detail s)

theorem enterS3_memoryOk {s : State} (hok : memoryOk s = true) (code : Nat) : memoryOk (enterS3 code s) = true :=
  memoryOk_of_mask hok (enterS3_mask (by decide) code s)

theorem onGran_memoryOk {s : State} (hok : memoryOk s = true) (gsn : Nat) (f : Gran → Gran) : memoryOk (onGran gsn f s) = true :=
  memoryOk_of_mask hok (onGran_mask (by decide) gsn f s)

theorem setCmp_memoryOk {s : State} (hok : memoryOk s = true) (c : CmpSt) : memoryOk (setCmp c s) = true :=
  memoryOk_of_mask hok (setCmp_mask (by decide) c s)

theorem handOut_memoryOk {s : State} (hok : memoryOk s = true)  : memoryOk (handOut s) = true :=
  memoryOk_of_mask hok (handOut_mask (by decide) s)

theorem shareTape_memoryOk {s : State} (hok : memoryOk s = true) (g : Gran) : memoryOk (shareTape g s) = true :=
  memoryOk_of_mask hok (shareTape_mask (by decide) g s)

theorem feedCipher_memoryOk {s : State} (hok : memoryOk s = true)  : memoryOk (feedCipher s) = true :=
  memoryOk_of_mask hok (feedCipher_mask (by decide) s)

theorem dvInject_memoryOk {s : State} (hok : memoryOk s = true)  : memoryOk (dvInject s) = true :=
  memoryOk_of_mask hok (dvInject_mask (by decide) s)

theorem setPage_memoryOk {s : State} (hok : memoryOk s = true) (p : Nat) (d : PageDesc) : memoryOk (setPage p d s) = true :=
  memoryOk_of_mask hok (setPage_mask (by decide) p d s)

theorem logMem_memoryOk {s : State} (hok : memoryOk s = true) (slot : Nat) (kind : Nat) (word : Nat) (chan : Nat) (flags : Nat) (syn : Nat) : memoryOk (logMem slot kind word chan flags syn s) = true :=
  memoryOk_of_mask hok (logMem_mask (by decide) slot kind word chan flags syn s)

theorem rlogTail_memoryOk {s : State} (hok : memoryOk s = true) (v : Nat) : memoryOk (rlogTail v s) = true :=
  memoryOk_of_mask hok (rlogTail_mask (by decide) v s)

theorem hotAdd_memoryOk {s : State} (hok : memoryOk s = true) (slot : Nat) : memoryOk (hotAdd slot s) = true :=
  memoryOk_of_mask hok (hotAdd_mask (by decide) slot s)

theorem noteCe_memoryOk {s : State} (hok : memoryOk s = true) (slot : Nat) (off : Nat) (cnt : Fld) : memoryOk (noteCe slot off cnt s) = true :=
  memoryOk_of_mask hok (noteCe_mask (by decide) slot off cnt s)

theorem noteUe_memoryOk {s : State} (hok : memoryOk s = true) (slot : Nat) (w : Nat) : memoryOk (noteUe slot w s) = true :=
  memoryOk_of_mask hok (noteUe_mask (by decide) slot w s)

theorem logRepair_memoryOk {r : Repair × State} (hok : memoryOk r.2 = true) (slot : Nat) (s0 : State) : memoryOk (logRepair slot s0 r).2 = true :=
  memoryOk_of_mask hok (logRepair_mask (by decide) slot s0 r)

theorem refuse_memoryOk {s : State} (hok : memoryOk s = true) (r : PoolReq) (st : Nat) : memoryOk (refuse r st s) = true :=
  memoryOk_of_mask hok (refuse_mask (by decide) r st s)

theorem acctWinWrite_memoryOk {s : State} (hok : memoryOk s = true) (v : Nat) : memoryOk (acctWinWrite v s) = true :=
  memoryOk_of_mask hok (acctWinWrite_mask (by decide) v s)

theorem raisePoison_memoryOk {s : State} (hok : memoryOk s = true) (account : Nat) (slot : Nat) : memoryOk (raisePoison account slot s) = true :=
  memoryOk_of_mask hok (raisePoison_mask (by decide) account slot s)

theorem poisonCost_memoryOk {s : State} (hok : memoryOk s = true) (slot : Nat) (w : Nat) : memoryOk (poisonCost slot w s) = true :=
  memoryOk_of_mask hok (poisonCost_mask (by decide) slot w s)

theorem poisonMet_memoryOk {s : State} (hok : memoryOk s = true) (slot : Nat) (w : Nat) : memoryOk (poisonMet slot w s) = true :=
  memoryOk_of_mask hok (poisonMet_mask (by decide) slot w s)

theorem trainStart_memoryOk {s : State} (hok : memoryOk s = true)  : memoryOk (trainStart s) = true :=
  memoryOk_of_mask hok (trainStart_mask (by decide) s)

theorem stuckByte_memoryOk {s : State} (hok : memoryOk s = true) (slot : Nat) (w : Nat) (x : Word256 × Chk) (v : WResult) : memoryOk (stuckByte slot w x v s) = true :=
  memoryOk_of_mask hok (stuckByte_mask (by decide) slot w x v s)

theorem retirePage_memoryOk {s : State} (hok : memoryOk s = true) (p : Nat) : memoryOk (retirePage p s) = true :=
  memoryOk_of_mask hok (retirePage_mask (by decide) p s)

theorem releasePage_memoryOk {s : State} (hok : memoryOk s = true) (p : Nat) : memoryOk (releasePage p s) = true :=
  memoryOk_of_mask hok (releasePage_mask (by decide) p s)

theorem srepApply_memoryOk {s : State} (hok : memoryOk s = true)  : memoryOk (srepApply s) = true :=
  memoryOk_of_mask hok (srepApply_mask (by decide) s)

theorem splitDone_memoryOk {s : State} (hok : memoryOk s = true) (internal : Bool) (syn : Nat) (verdict : Nat) : memoryOk (splitDone internal syn verdict s) = true :=
  memoryOk_of_mask hok (splitDone_mask (by decide) internal syn verdict s)

theorem splitRefused_memoryOk {s : State} (hok : memoryOk s = true) (internal : Bool) : memoryOk (splitRefused internal s) = true :=
  memoryOk_of_mask hok (splitRefused_mask (by decide) internal s)

theorem splitRead_memoryOk {s : State} (hok : memoryOk s = true) (internal : Bool) : memoryOk (splitRead internal s) = true :=
  memoryOk_of_mask hok (splitRead_mask (by decide) internal s)

theorem splitPcheck_memoryOk {s : State} (hok : memoryOk s = true) (internal : Bool) : memoryOk (splitPcheck internal s) = true :=
  memoryOk_of_mask hok (splitPcheck_mask (by decide) internal s)

theorem calValueWrite_memoryOk {s : State} (hok : memoryOk s = true) (addr : Nat) (value : Nat) : memoryOk (calValueWrite addr value s) = true :=
  memoryOk_of_mask hok (calValueWrite_mask (by decide) addr value s)

theorem weakWrite_memoryOk {s : State} (hok : memoryOk s = true) (v : Nat) : memoryOk (weakWrite v s) = true :=
  memoryOk_of_mask hok (weakWrite_mask (by decide) v s)

theorem clearWeak_memoryOk {s : State} (hok : memoryOk s = true)  : memoryOk (clearWeak s) = true :=
  memoryOk_of_mask hok (clearWeak_mask (by decide) s)

theorem setLnk_memoryOk {s : State} (hok : memoryOk s = true) (l : EpbxSt) : memoryOk (setLnk l s) = true :=
  memoryOk_of_mask hok (setLnk_mask (by decide) l s)

theorem sendFree_memoryOk {s : State} (hok : memoryOk s = true) (words : List Word256) : memoryOk (sendFree words s) = true :=
  memoryOk_of_mask hok (sendFree_mask (by decide) words s)

theorem giveBack_memoryOk {s : State} (hok : memoryOk s = true) (cls : Nat) (queue : Nat) (n : Nat) : memoryOk (giveBack cls queue n s) = true :=
  memoryOk_of_mask hok (giveBack_mask (by decide) cls queue n s)

theorem takeTokens_memoryOk {s : State} (hok : memoryOk s = true) (cls : Nat) (queue : Nat) (n : Nat) : memoryOk (takeTokens cls queue n s) = true :=
  memoryOk_of_mask hok (takeTokens_mask (by decide) cls queue n s)

theorem queuesStart_memoryOk {s : State} (hok : memoryOk s = true)  : memoryOk (queuesStart s) = true :=
  memoryOk_of_mask hok (queuesStart_mask (by decide) s)

theorem flitIn_memoryOk {s : State} (hok : memoryOk s = true) (lanes : List (BitVec 288)) : memoryOk (flitIn lanes s).2 = true :=
  memoryOk_of_mask hok (flitIn_mask (by decide) lanes s)

theorem linkDue_memoryOk {s : State} (hok : memoryOk s = true)  : memoryOk (linkDue s) = true :=
  memoryOk_of_mask hok (linkDue_mask (by decide) s)

theorem setCiph_memoryOk {s : State} (hok : memoryOk s = true) (c : CiphSt) : memoryOk (setCiph c s) = true :=
  memoryOk_of_mask hok (setCiph_mask (by decide) c s)

theorem pairCheck_memoryOk {s : State} (hok : memoryOk s = true) (before : Bool) : memoryOk (pairCheck before s) = true :=
  memoryOk_of_mask hok (pairCheck_mask (by decide) before s)

theorem pairMismatch_memoryOk {s : State} (hok : memoryOk s = true) (r : CipherRun) (injected : Bool) : memoryOk (pairMismatch r injected s) = true :=
  memoryOk_of_mask hok (pairMismatch_mask (by decide) r injected s)

theorem encDone_memoryOk {s : State} (hok : memoryOk s = true) (n : Nat) (key : List Byte) : memoryOk (encDone n key s) = true :=
  memoryOk_of_mask hok (encDone_mask (by decide) n key s)

theorem decDone_memoryOk {s : State} (hok : memoryOk s = true) (n : Nat) (upset : Bool) : memoryOk (decDone n upset s) = true :=
  memoryOk_of_mask hok (decDone_mask (by decide) n upset s)

theorem pairInject_memoryOk {s : State} (hok : memoryOk s = true)  : memoryOk (pairInject s) = true :=
  memoryOk_of_mask hok (pairInject_mask (by decide) s)

theorem beginSide_memoryOk {s : State} (hok : memoryOk s = true) (q : Nat) : memoryOk (beginSide q s) = true :=
  memoryOk_of_mask hok (beginSide_mask (by decide) q s)

theorem drainSide_memoryOk {s : State} (hok : memoryOk s = true) (q : Nat) (y0 : Nat) : memoryOk (drainSide q y0 s) = true :=
  memoryOk_of_mask hok (drainSide_mask (by decide) q y0 s)

theorem sideFinish_memoryOk {s : State} (hok : memoryOk s = true) (q : Nat) : memoryOk (sideFinish q s) = true :=
  memoryOk_of_mask hok (sideFinish_mask (by decide) q s)

theorem onSide_memoryOk {s : State} (hok : memoryOk s = true) (q : Nat) (f : ExecSt → ExecSt) : memoryOk (onSide q f s) = true :=
  memoryOk_of_mask hok (onSide_mask (by decide) q f s)

theorem outCtrl_memoryOk {s : State} (hok : memoryOk s = true) (c2 : Bool) (c3 : Bool) : memoryOk (outCtrl c2 c3 s) = true :=
  memoryOk_of_mask hok (outCtrl_mask (by decide) c2 c3 s)

theorem noteMismatch_memoryOk {s : State} (hok : memoryOk s = true) (r : RwRow) (injected : Bool) : memoryOk (noteMismatch r injected s) = true :=
  memoryOk_of_mask hok (noteMismatch_mask (by decide) r injected s)

theorem encInject_memoryOk {s : State} (hok : memoryOk s = true)  : memoryOk (encInject s) = true :=
  memoryOk_of_mask hok (encInject_mask (by decide) s)

theorem mtrAck_memoryOk {s : State} (hok : memoryOk s = true) (v : Nat) : memoryOk (mtrAck v s) = true :=
  memoryOk_of_mask hok (mtrAck_mask (by decide) v s)

theorem capArm_memoryOk {s : State} (hok : memoryOk s = true)  : memoryOk (capArm s) = true :=
  memoryOk_of_mask hok (capArm_mask (by decide) s)

theorem capAbort_memoryOk {s : State} (hok : memoryOk s = true)  : memoryOk (capAbort s) = true :=
  memoryOk_of_mask hok (capAbort_mask (by decide) s)

theorem repClear_memoryOk {s : State} (hok : memoryOk s = true) (a : Bool) (b : Bool) : memoryOk (repClear a b s) = true :=
  memoryOk_of_mask hok (repClear_mask (by decide) a b s)

theorem binWrite_memoryOk {s : State} (hok : memoryOk s = true) (value : Nat) : memoryOk (binWrite value s) = true :=
  memoryOk_of_mask hok (binWrite_mask (by decide) value s)

theorem fltLogTail_memoryOk {s : State} (hok : memoryOk s = true) (v : Nat) : memoryOk (fltLogTail v s) = true :=
  memoryOk_of_mask hok (fltLogTail_mask (by decide) v s)

theorem afterRead_memoryOk {s : State} (hok : memoryOk s = true) (addr : Nat) : memoryOk (afterRead addr s) = true :=
  memoryOk_of_mask hok (afterRead_mask (by decide) addr s)

theorem store_memoryOk {s : State} (hok : memoryOk s = true) (addr : Nat) (v : Nat) : memoryOk (store addr v s) = true :=
  memoryOk_of_mask hok (store_mask (by decide) addr v s)

theorem lockedWrite_memoryOk {s : State} (hok : memoryOk s = true) (addr : Nat) (v : Nat) : memoryOk (lockedWrite addr v s) = true :=
  memoryOk_of_mask hok (lockedWrite_mask (by decide) addr v s)

theorem servoChanged_memoryOk {s : State} (hok : memoryOk s = true) (p : Nat) : memoryOk (servoChanged p s) = true :=
  memoryOk_of_mask hok (servoChanged_mask (by decide) p s)

theorem headerWrite_memoryOk {s : State} (hok : memoryOk s = true) (p : Nat) (off : Nat) (v : Nat) : memoryOk (headerWrite p off v s) = true :=
  memoryOk_of_mask hok (headerWrite_mask (by decide) p off v s)

theorem writeSec_memoryOk {s : State} (hok : memoryOk s = true) (off : Nat) (v : Nat) : memoryOk (writeSec off v s) = true :=
  memoryOk_of_mask hok (writeSec_mask (by decide) off v s)

theorem writeBseq_memoryOk {s : State} (hok : memoryOk s = true) (b : Nat) (off : Nat) (v : Nat) : memoryOk (writeBseq b off v s) = true :=
  memoryOk_of_mask hok (writeBseq_mask (by decide) b off v s)

theorem writeHfe_memoryOk {s : State} (hok : memoryOk s = true) (n : Nat) (off : Nat) (v : Nat) : memoryOk (writeHfe n off v s) = true :=
  memoryOk_of_mask hok (writeHfe_mask (by decide) n off v s)

theorem writeRch_memoryOk {s : State} (hok : memoryOk s = true) (b : Nat) (off : Nat) (v : Nat) : memoryOk (writeRch b off v s) = true :=
  memoryOk_of_mask hok (writeRch_mask (by decide) b off v s)

theorem writeCal_memoryOk {s : State} (hok : memoryOk s = true) (off : Nat) (v : Nat) : memoryOk (writeCal off v s) = true :=
  memoryOk_of_mask hok (writeCal_mask (by decide) off v s)

theorem softWrite_memoryOk {s : State} (hok : memoryOk s = true) (v : Nat) : memoryOk (softWrite v s) = true :=
  memoryOk_of_mask hok (softWrite_mask (by decide) v s)

theorem writePool_memoryOk {s : State} (hok : memoryOk s = true) (off : Nat) (v : Nat) : memoryOk (writePool off v s) = true :=
  memoryOk_of_mask hok (writePool_mask (by decide) off v s)

theorem writeMot_memoryOk {s : State} (hok : memoryOk s = true) (x : Nat) (off : Nat) (v : Nat) : memoryOk (writeMot x off v s) = true :=
  memoryOk_of_mask hok (writeMot_mask (by decide) x off v s)

theorem writeLoop_memoryOk {s : State} (hok : memoryOk s = true) (off : Nat) (v : Nat) : memoryOk (writeLoop off v s) = true :=
  memoryOk_of_mask hok (writeLoop_mask (by decide) off v s)

theorem writeAct_memoryOk {s : State} (hok : memoryOk s = true) (off : Nat) (v : Nat) : memoryOk (writeAct off v s) = true :=
  memoryOk_of_mask hok (writeAct_mask (by decide) off v s)

theorem mailboxWrite_memoryOk {s : State} (hok : memoryOk s = true) (p : Nat) (off : Nat) (v : Nat) : memoryOk (mailboxWrite p off v s) = true :=
  memoryOk_of_mask hok (mailboxWrite_mask (by decide) p off v s)

theorem protoErr_memoryOk {s : State} (hok : memoryOk s = true) (code : Nat) (ptype : Nat) (queue : Nat) : memoryOk (protoErr code ptype queue s) = true :=
  memoryOk_of_mask hok (protoErr_mask (by decide) code ptype queue s)

theorem takeCmd_memoryOk {s : State} (hok : memoryOk s = true) (h : Word256) (body : List Word256) : memoryOk (takeCmd h body s) = true :=
  memoryOk_of_mask hok (takeCmd_mask (by decide) h body s)

theorem takeMinute_memoryOk {s : State} (hok : memoryOk s = true) (h : Word256) : memoryOk (takeMinute h s) = true :=
  memoryOk_of_mask hok (takeMinute_mask (by decide) h s)

theorem takeGrants_memoryOk {s : State} (hok : memoryOk s = true) (h : Word256) : memoryOk (takeGrants h s) = true :=
  memoryOk_of_mask hok (takeGrants_mask (by decide) h s)

theorem takeRead_memoryOk {s : State} (hok : memoryOk s = true) (h : Word256) : memoryOk (takeRead h s) = true :=
  memoryOk_of_mask hok (takeRead_mask (by decide) h s)

theorem takeDataOut_memoryOk {s : State} (hok : memoryOk s = true) (h : Word256) (body : List Word256) : memoryOk (takeDataOut h body s) = true :=
  memoryOk_of_mask hok (takeDataOut_mask (by decide) h body s)

theorem keepF_memoryOk {s : State} (hok : memoryOk s = true) (old : State) (f : Fld) : memoryOk (keepF old f s) = true :=
  memoryOk_of_mask hok (keepF_mask (by decide) old f s)

theorem setCause_memoryOk {s : State} (hok : memoryOk s = true) (pin : Bool) (rail : Option Nat) : memoryOk (setCause pin rail s) = true :=
  memoryOk_of_mask hok (setCause_mask (by decide) pin rail s)

theorem islandLost_memoryOk {s : State} (hok : memoryOk s = true)  : memoryOk (islandLost s) = true :=
  memoryOk_of_mask hok (islandLost_mask (by decide) s)

theorem setRails_memoryOk {s : State} (hok : memoryOk s = true) (rails : Nat) : memoryOk (setRails rails s) = true :=
  memoryOk_of_mask hok (setRails_mask (by decide) rails s)

theorem lockGate_memoryOk {s : State} (hok : memoryOk s = true) (p : Nat) (act : State → State) (hact : ∀ s, memoryOk s = true → memoryOk (act s) = true) : memoryOk (lockGate p act s) = true := by
  unfold lockGate
  repeat' (first | with_reducible assumption | apply hact | with_reducible apply setF_memoryOk | with_reducible refine memoryOk_ite ?_ ?_ | split | dsimp only)

theorem putBytes_memoryOk {s : State} (hok : memoryOk s = true) (slot : Nat) (y0 : Nat) (y1 : List Byte) : memoryOk (putBytes slot y0 y1 s) = true := by
  induction y1 generalizing y0 s with
  | nil => exact hok
  | cons b r ih => exact ih (memoryOk_put hok _ b) (y0 + 1)

theorem upsetCells_memoryOk {s : State} (hok : memoryOk s = true) (slot : Nat) (l : List (Nat × Byte)) : memoryOk (upsetCells slot l s) = true := by
  unfold upsetCells
  repeat' (first | with_reducible assumption | with_reducible apply putBytes_memoryOk | (with_reducible refine memoryOk_foldl ?_ (fun s a h => ?_) _) | with_reducible refine memoryOk_ite ?_ ?_ | split | dsimp only)

theorem putRaw_memoryOk {s : State} (hok : memoryOk s = true) (slot : Nat) (w : Nat) (x : Word256 × Chk) : memoryOk (putRaw slot w x s) = true := by
  unfold putRaw
  repeat' (first | with_reducible assumption | with_reducible apply putBytes_memoryOk | with_reducible refine memoryOk_ite ?_ ?_ | split | dsimp only)

theorem putP_memoryOk {s : State} (hok : memoryOk s = true) (slot : Nat) (ps : List Word256) : memoryOk (putP slot ps s) = true := by
  unfold putP
  repeat' (first | with_reducible assumption | with_reducible apply putBytes_memoryOk | (with_reducible refine memoryOk_forEach ?_ (fun i s h => ?_) _) | with_reducible refine memoryOk_ite ?_ ?_ | split | dsimp only)

theorem storeWord_memoryOk {s : State} (hok : memoryOk s = true) (slot : Nat) (w : Nat) (x : Word256 × Chk) : memoryOk (storeWord slot w x s) = true := by
  unfold storeWord
  repeat' (first | with_reducible assumption | with_reducible apply setPage_memoryOk | with_reducible apply putRaw_memoryOk | with_reducible apply putP_memoryOk | with_reducible refine memoryOk_ite ?_ ?_ | split | dsimp only)

theorem repairSlot_memoryOk {s : State} (hok : memoryOk s = true) (slot : Nat) : memoryOk (repairSlot slot s).2 = true := by
  unfold repairSlot
  repeat' (first | with_reducible assumption | with_reducible apply setPage_memoryOk | with_reducible apply putRaw_memoryOk | with_reducible apply putP_memoryOk | (with_reducible refine memoryOk_forEach ?_ (fun i s h => ?_) _) | with_reducible refine memoryOk_ite ?_ ?_ | split | dsimp only)

theorem repairAndLog_memoryOk {s : State} (hok : memoryOk s = true) (slot : Nat) : memoryOk (repairAndLog slot s).2 = true := by
  unfold repairAndLog
  repeat' (first | with_reducible assumption | with_reducible apply noteUe_memoryOk | with_reducible apply repairSlot_memoryOk | with_reducible apply logRepair_memoryOk | (with_reducible refine memoryOk_foldl ?_ (fun s a h => ?_) _) | split | dsimp only)

theorem repairWithCost_memoryOk {s : State} (hok : memoryOk s = true) (slot : Nat) : memoryOk (repairWithCost slot s) = true := by
  unfold repairWithCost
  repeat' (first | with_reducible assumption | with_reducible apply repairAndLog_memoryOk | with_reducible apply poisonCost_memoryOk | (with_reducible refine memoryOk_foldl ?_ (fun s a h => ?_) _) | split | dsimp only)

theorem demandRead_memoryOk {s : State} (hok : memoryOk s = true) (slot : Nat) (w : Nat) : memoryOk (demandRead slot w s).2 = true := by
  unfold demandRead
  repeat' (first | with_reducible assumption | with_reducible apply hotAdd_memoryOk | with_reducible apply noteCe_memoryOk | with_reducible apply poisonMet_memoryOk | with_reducible apply repairWithCost_memoryOk | with_reducible refine memoryOk_ite ?_ ?_ | split | dsimp only)

theorem demandWrite_memoryOk {s : State} (hok : memoryOk s = true) (slot : Nat) (w : Nat) (off : Nat) (bytes : List Byte) (account : Nat) : memoryOk (demandWrite slot w off bytes account s) = true := by
  unfold demandWrite
  repeat' (first | with_reducible assumption | with_reducible apply storeWord_memoryOk | with_reducible apply noteCe_memoryOk | with_reducible apply raisePoison_memoryOk | with_reducible apply repairWithCost_memoryOk | with_reducible refine memoryOk_ite ?_ ?_ | split | dsimp only)

theorem stuckAt_memoryOk {s : State} (hok : memoryOk s = true) (l : List (Nat × Byte)) (slot : Nat) (offs : List Nat) : memoryOk (stuckAt l slot offs s) = true := by
  unfold stuckAt
  repeat' (first | with_reducible assumption | with_reducible apply upsetCells_memoryOk | split | dsimp only)

theorem scrubWord_memoryOk {s : State} (hok : memoryOk s = true) (slot : Nat) (stuck : List (Nat × Byte)) (w : Nat) : memoryOk (scrubWord slot stuck w s) = true := by
  unfold scrubWord
  repeat' (first | with_reducible assumption | with_reducible apply incF_memoryOk | with_reducible apply raiseB_memoryOk | with_reducible apply putRaw_memoryOk | with_reducible apply logMem_memoryOk | with_reducible apply noteCe_memoryOk | with_reducible apply stuckAt_memoryOk | with_reducible refine memoryOk_ite ?_ ?_ | split | dsimp only)

theorem scrubUsed_memoryOk {s : State} (hok : memoryOk s = true) (slot : Nat) (stuck : List (Nat × Byte)) : memoryOk (scrubUsed slot stuck s) = true := by
  unfold scrubUsed
  repeat' (first | with_reducible assumption | with_reducible apply poisonMet_memoryOk | with_reducible apply repairWithCost_memoryOk | with_reducible apply scrubWord_memoryOk | (with_reducible refine memoryOk_forEach ?_ (fun i s h => ?_) _) | with_reducible refine memoryOk_ite ?_ ?_ | split | dsimp only)

theorem scrubFree_memoryOk {s : State} (hok : memoryOk s = true) (slot : Nat) (stuck : List (Nat × Byte)) : memoryOk (scrubFree slot stuck s) = true := by
  unfold scrubFree
  repeat' (first | with_reducible assumption | with_reducible apply raiseB_memoryOk | with_reducible apply upsetCells_memoryOk | with_reducible apply setPage_memoryOk | with_reducible apply putRaw_memoryOk | with_reducible apply putP_memoryOk | with_reducible apply logMem_memoryOk | with_reducible apply noteUe_memoryOk | with_reducible apply stuckByte_memoryOk | (with_reducible refine memoryOk_foldl ?_ (fun s a h => ?_) _) | (with_reducible refine memoryOk_forEach ?_ (fun i s h => ?_) _) | with_reducible refine memoryOk_ite ?_ ?_ | split | dsimp only)

theorem scrubVisit_memoryOk {s : State} (hok : memoryOk s = true) (upset : List (Nat × Byte)) (stuck : List (Nat × Byte)) : memoryOk (scrubVisit upset stuck s) = true := by
  unfold scrubVisit
  repeat' (first | with_reducible assumption | with_reducible apply setF_memoryOk | with_reducible apply incF_memoryOk | with_reducible apply upsetCells_memoryOk | with_reducible apply scrubUsed_memoryOk | with_reducible apply scrubFree_memoryOk | (with_reducible refine memoryOk_setMem ?_ _ rfl) | with_reducible refine memoryOk_ite ?_ ?_ | split | dsimp only)

theorem splitWrite_memoryOk {s : State} (hok : memoryOk s = true) (internal : Bool) : memoryOk (splitWrite internal s) = true := by
  unfold splitWrite
  repeat' (first | with_reducible assumption | with_reducible apply setPage_memoryOk | with_reducible apply putRaw_memoryOk | with_reducible apply storeWord_memoryOk | with_reducible apply splitDone_memoryOk | with_reducible apply splitRefused_memoryOk | with_reducible refine memoryOk_ite ?_ ?_ | split | dsimp only)

theorem readString_memoryOk {s : State} (hok : memoryOk s = true) (pages : List Nat) (ofs : Nat) (len : Nat) : memoryOk (readString pages ofs len s).2 = true := by
  unfold readString
  repeat' (first | with_reducible assumption | with_reducible apply demandRead_memoryOk | (with_reducible refine memoryOk_foldl ?_ (fun s a h => ?_) _) | (with_reducible refine memoryOk_foldl_snd ?_ (fun x a h => ?_) _) | split | dsimp only)

theorem writeString_memoryOk {s : State} (hok : memoryOk s = true) (pages : List Nat) (ofs : Nat) (bytes : List Byte) (account : Nat) : memoryOk (writeString pages ofs bytes account s) = true := by
  unfold writeString
  repeat' (first | with_reducible assumption | with_reducible apply demandWrite_memoryOk | (with_reducible refine memoryOk_foldl ?_ (fun s a h => ?_) _) | split | dsimp only)

theorem readList_memoryOk {s : State} (hok : memoryOk s = true) (list : Nat) (count : Nat) (account : Nat) : memoryOk (readList list count account s).2 = true := by
  unfold readList
  repeat' (first | with_reducible assumption | with_reducible apply readString_memoryOk | with_reducible refine memoryOk_ite ?_ ?_ | split | dsimp only)

theorem hostDone_memoryOk {s : State} (hok : memoryOk s = true) (q : Nat) (key : List Byte) (upset : Bool) : memoryOk (hostDone q key upset s) = true := by
  unfold hostDone
  repeat' (first | with_reducible assumption | with_reducible apply incF_memoryOk | with_reducible apply add64_memoryOk | with_reducible apply finishSide_memoryOk | with_reducible apply readString_memoryOk | with_reducible apply writeString_memoryOk | with_reducible refine memoryOk_ite ?_ ?_ | split | dsimp only)

theorem requestDone_memoryOk {s : State} (hok : memoryOk s = true) (lane : Nat) (upset : Bool) : memoryOk (requestDone lane upset s) = true := by
  unfold requestDone
  repeat' (first | with_reducible assumption | with_reducible apply setCiph_memoryOk | with_reducible apply pairMismatch_memoryOk | with_reducible apply encDone_memoryOk | with_reducible apply decDone_memoryOk | with_reducible apply hostDone_memoryOk | with_reducible refine memoryOk_ite ?_ ?_ | split | dsimp only)

theorem sideRow_memoryOk {s : State} (hok : memoryOk s = true) (op : Nat) (q : Nat) (work : ExecSt → State → State) (hwork : ∀ z0 s, memoryOk s = true → memoryOk (work z0 s) = true) : memoryOk (sideRow op q work s) = true := by
  unfold sideRow
  repeat' (first | with_reducible assumption | apply hwork | with_reducible apply beginSide_memoryOk | with_reducible apply drainSide_memoryOk | with_reducible apply sideFinish_memoryOk | with_reducible refine memoryOk_ite ?_ ?_ | split | dsimp only)

theorem fetchWord_memoryOk {s : State} (hok : memoryOk s = true) (p : Nat) (w : Nat) : memoryOk (fetchWord p w s).2 = true := by
  unfold fetchWord
  repeat' (first | with_reducible assumption | with_reducible apply demandRead_memoryOk | with_reducible refine memoryOk_ite ?_ ?_ | split | dsimp only)

theorem fetchCopy_memoryOk {s : State} (hok : memoryOk s = true) (pages : List Nat) : memoryOk (fetchCopy pages s).2 = true := by
  unfold fetchCopy
  repeat' (first | with_reducible assumption | with_reducible apply fetchWord_memoryOk | (with_reducible refine memoryOk_foldl ?_ (fun s a h => ?_) _) | (with_reducible refine memoryOk_foldl_snd ?_ (fun x a h => ?_) _) | split | dsimp only)

theorem compressed_memoryOk {s : State} (hok : memoryOk s = true) (n : Nat) (upset1 : Bool) (upset2 : Bool) : memoryOk (compressed n upset1 upset2 s) = true := by
  unfold compressed
  repeat' (first | with_reducible assumption | with_reducible apply setF_memoryOk | with_reducible apply addF_memoryOk | with_reducible apply incF_memoryOk | with_reducible apply add64_memoryOk | with_reducible apply raiseC_memoryOk | with_reducible apply enterS3_memoryOk | with_reducible apply onGran_memoryOk | with_reducible apply setCmp_memoryOk | with_reducible apply handOut_memoryOk | with_reducible apply shareTape_memoryOk | with_reducible apply feedCipher_memoryOk | with_reducible apply fetchCopy_memoryOk | with_reducible refine memoryOk_ite ?_ ?_ | split | dsimp only)

theorem rowFetch_memoryOk {s : State} (hok : memoryOk s = true) (n : Nat) (t : Nat) (p : Nat) (upset1 : Bool) (upset2 : Bool) : memoryOk (rowFetch n t p upset1 upset2 s) = true := by
  unfold rowFetch
  repeat' (first | with_reducible assumption | with_reducible apply setF_memoryOk | with_reducible apply raise_memoryOk | with_reducible apply raiseC_memoryOk | with_reducible apply setEnc_memoryOk | with_reducible apply enterS3_memoryOk | with_reducible apply fetchCopy_memoryOk | with_reducible apply noteMismatch_memoryOk | with_reducible refine memoryOk_ite ?_ ?_ | split | dsimp only)

theorem cipherRow_memoryOk {s : State} (hok : memoryOk s = true) (q : Nat) (x : ExecSt) : memoryOk (cipherRow q x s) = true := by
  unfold cipherRow
  repeat' (first | with_reducible assumption | with_reducible apply finishSide_memoryOk | with_reducible apply refuse_memoryOk | with_reducible apply setCiph_memoryOk | with_reducible apply readList_memoryOk | with_reducible apply onSide_memoryOk | with_reducible refine memoryOk_ite ?_ ?_ | split | dsimp only)

theorem onBit_memoryOk {s : State} (hok : memoryOk s = true) (v : Nat) (bit : Nat) (act : State → State) (hact : ∀ s, memoryOk s = true → memoryOk (act s) = true) : memoryOk (onBit v bit act s) = true := by
  unfold onBit
  repeat' (first | with_reducible assumption | apply hact | with_reducible refine memoryOk_ite ?_ ?_ | split | dsimp only)

theorem writeMem_memoryOk {s : State} (hok : memoryOk s = true) (off : Nat) (v : Nat) : memoryOk (writeMem off v s) = true := by
  unfold writeMem
  repeat' (first | with_reducible assumption | with_reducible apply rlogTail_memoryOk | with_reducible apply trainStart_memoryOk | with_reducible apply retirePage_memoryOk | with_reducible apply releasePage_memoryOk | with_reducible apply splitWrite_memoryOk | with_reducible apply splitRead_memoryOk | with_reducible apply splitPcheck_memoryOk | with_reducible apply store_memoryOk | with_reducible apply onBit_memoryOk | intro z s hs | intro s hs | with_reducible refine memoryOk_ite ?_ ?_ | split | dsimp only)

theorem blockWrite_memoryOk {s : State} (hok : memoryOk s = true) (p : Nat) (off : Nat) (v : Nat) : memoryOk (blockWrite p off v s) = true := by
  unfold blockWrite
  repeat' (first | with_reducible assumption | with_reducible apply setF_memoryOk | with_reducible apply setB_memoryOk | with_reducible apply handOut_memoryOk | with_reducible apply dvInject_memoryOk | with_reducible apply acctWinWrite_memoryOk | with_reducible apply srepApply_memoryOk | with_reducible apply calValueWrite_memoryOk | with_reducible apply weakWrite_memoryOk | with_reducible apply clearWeak_memoryOk | with_reducible apply setLnk_memoryOk | with_reducible apply queuesStart_memoryOk | with_reducible apply pairCheck_memoryOk | with_reducible apply pairInject_memoryOk | with_reducible apply outCtrl_memoryOk | with_reducible apply encInject_memoryOk | with_reducible apply mtrAck_memoryOk | with_reducible apply capArm_memoryOk | with_reducible apply capAbort_memoryOk | with_reducible apply repClear_memoryOk | with_reducible apply binWrite_memoryOk | with_reducible apply fltLogTail_memoryOk | with_reducible apply store_memoryOk | with_reducible apply servoChanged_memoryOk | with_reducible apply onBit_memoryOk | with_reducible apply writeSec_memoryOk | with_reducible apply writeBseq_memoryOk | with_reducible apply writeHfe_memoryOk | with_reducible apply writeRch_memoryOk | with_reducible apply writeCal_memoryOk | with_reducible apply writeMem_memoryOk | with_reducible apply softWrite_memoryOk | with_reducible apply writePool_memoryOk | with_reducible apply writeMot_memoryOk | with_reducible apply writeLoop_memoryOk | with_reducible apply writeAct_memoryOk | intro z s hs | intro s hs | with_reducible refine memoryOk_ite ?_ ?_ | split | dsimp only)

theorem hostWrite_memoryOk {s : State} (hok : memoryOk s = true) (addr : Nat) (v : Nat) : memoryOk (hostWrite addr v s) = true := by
  unfold hostWrite
  repeat' (first | with_reducible assumption | with_reducible apply lockedWrite_memoryOk | with_reducible apply headerWrite_memoryOk | with_reducible apply blockWrite_memoryOk | with_reducible apply mailboxWrite_memoryOk | with_reducible refine memoryOk_ite ?_ ?_ | split | dsimp only)

theorem imageWrite_memoryOk {s : State} (hok : memoryOk s = true) (y0 : List (Nat × Nat)) (y1 : Nat) : memoryOk (imageWrite y0 y1 s).2 = true := by
  induction y0 generalizing y1 s with
  | nil => exact hok
  | cons e t ih =>
    unfold imageWrite
    split
    · exact hok
    · exact ih (hostWrite_memoryOk hok e.1 e.2) (y1 + 1)

theorem regImage_memoryOk {s : State} (hok : memoryOk s = true) (q : Nat) (x : ExecSt) : memoryOk (regImage q x s) = true := by
  unfold regImage
  repeat' (first | with_reducible assumption | with_reducible apply finishSide_memoryOk | with_reducible apply linkDue_memoryOk | with_reducible apply imageWrite_memoryOk | with_reducible refine memoryOk_ite ?_ ?_ | split | dsimp only)

theorem takeWrite_memoryOk {s : State} (hok : memoryOk s = true) (h : Word256) : memoryOk (takeWrite h s) = true := by
  unfold takeWrite
  repeat' (first | with_reducible assumption | with_reducible apply sendFree_memoryOk | with_reducible apply giveBack_memoryOk | with_reducible apply linkDue_memoryOk | with_reducible apply hostWrite_memoryOk | (with_reducible refine memoryOk_forEach ?_ (fun i s h => ?_) _) | with_reducible refine memoryOk_ite ?_ ?_ | split | dsimp only)

theorem takePacket_memoryOk {s : State} (hok : memoryOk s = true) (h : Word256) (body : List Word256) : memoryOk (takePacket h body s) = true := by
  unfold takePacket
  repeat' (first | with_reducible assumption | with_reducible apply takeCmd_memoryOk | with_reducible apply takeMinute_memoryOk | with_reducible apply takeGrants_memoryOk | with_reducible apply takeRead_memoryOk | with_reducible apply takeWrite_memoryOk | with_reducible apply takeDataOut_memoryOk | split | dsimp only)

theorem checkPacket_memoryOk {s : State} (hok : memoryOk s = true) (take : State → State) (h : Word256) (body : List Word256) (htake : ∀ s, memoryOk s = true → memoryOk (take s) = true) : memoryOk (checkPacket take h body s) = true := by
  unfold checkPacket
  repeat' (first | with_reducible assumption | apply htake | with_reducible apply giveBack_memoryOk | with_reducible apply takeTokens_memoryOk | with_reducible apply protoErr_memoryOk | with_reducible refine memoryOk_ite ?_ ?_ | split | dsimp only)

theorem packetIn_memoryOk {s : State} (hok : memoryOk s = true) (h : Word256) (body : List Word256) : memoryOk (packetIn h body s) = true := by
  unfold packetIn
  repeat' (first | with_reducible assumption | with_reducible apply takePacket_memoryOk | with_reducible apply checkPacket_memoryOk | intro z s hs | intro s hs | split | dsimp only)

theorem packetOf_memoryOk {s : State} (hok : memoryOk s = true) (t : Nat) (take : State → State) (h : Word256) (body : List Word256) (htake : ∀ s, memoryOk s = true → memoryOk (take s) = true) : memoryOk (packetOf t take h body s) = true := by
  unfold packetOf
  repeat' (first | with_reducible assumption | apply htake | with_reducible apply checkPacket_memoryOk | intro z s hs | intro s hs | with_reducible refine memoryOk_ite ?_ ?_ | split | dsimp only)

theorem flitReceived_memoryOk {s : State} (hok : memoryOk s = true) (lanes : List (BitVec 288)) : memoryOk (flitReceived lanes s) = true := by
  unfold flitReceived
  repeat' (first | with_reducible assumption | with_reducible apply flitIn_memoryOk | with_reducible apply protoErr_memoryOk | with_reducible apply packetIn_memoryOk | split | dsimp only)

theorem resetPart_memoryOk {s : State} (hok : memoryOk s = true)  : memoryOk (resetPart s) = true := by
  unfold resetPart
  exact memoryOk_foldl rfl (fun t f ht => keepF_memoryOk ht s f) _

theorem porstAssert_memoryOk {s : State} (hok : memoryOk s = true)  : memoryOk (porstAssert s) = true := by
  unfold porstAssert
  repeat' (first | with_reducible assumption | with_reducible apply incF_memoryOk | with_reducible apply resetPart_memoryOk | with_reducible apply setCause_memoryOk | with_reducible refine memoryOk_ite ?_ ?_ | split | dsimp only)

theorem brownout_memoryOk {s : State} (hok : memoryOk s = true) (rail : Nat) : memoryOk (brownout rail s) = true := by
  unfold brownout
  repeat' (first | with_reducible assumption | with_reducible apply incF_memoryOk | with_reducible apply resetPart_memoryOk | with_reducible apply setCause_memoryOk | with_reducible apply islandLost_memoryOk | with_reducible apply setRails_memoryOk | with_reducible refine memoryOk_ite ?_ ?_ | split | dsimp only)

theorem railChange_memoryOk {s : State} (hok : memoryOk s = true) (rail : Nat) (ok : Bool) : memoryOk (railChange rail ok s) = true := by
  unfold railChange
  repeat' (first | with_reducible assumption | with_reducible apply setF_memoryOk | with_reducible apply resetPart_memoryOk | with_reducible apply islandLost_memoryOk | with_reducible apply setRails_memoryOk | with_reducible refine memoryOk_ite ?_ ?_ | split | dsimp only)

theorem execBufferRead_memoryOk {s t : State} (hok : memoryOk s = true) (slot : Nat) (word : Nat) (upset : List (Nat × Byte))
    (ht : execBufferRead slot word upset s = .next t) : memoryOk t = true := by
  unfold execBufferRead at ht
  rw [← Host.Outcome.next.inj ht]
  repeat' (first | with_reducible assumption | with_reducible apply upsetCells_memoryOk | with_reducible apply demandRead_memoryOk | with_reducible refine memoryOk_ite ?_ ?_ | split | dsimp only)

theorem execBufferWrite_memoryOk {s t : State} (hok : memoryOk s = true) (slot : Nat) (word : Nat) (offset : Nat) (bytes : List Byte) (account : Nat) (upset : List (Nat × Byte))
    (ht : execBufferWrite slot word offset bytes account upset s = .next t) : memoryOk t = true := by
  unfold execBufferWrite at ht
  rw [← Host.Outcome.next.inj ht]
  repeat' (first | with_reducible assumption | with_reducible apply upsetCells_memoryOk | with_reducible apply demandWrite_memoryOk | with_reducible refine memoryOk_ite ?_ ?_ | split | dsimp only)

theorem execScrubVisit_memoryOk {s t : State} (hok : memoryOk s = true) (upset : List (Nat × Byte)) (stuck : List (Nat × Byte))
    (ht : execScrubVisit upset stuck s = .next t) : memoryOk t = true := by
  unfold execScrubVisit at ht
  rw [← Host.Outcome.next.inj ht]
  repeat' (first | with_reducible assumption | with_reducible apply scrubVisit_memoryOk | split | dsimp only)

theorem execSplitWrite_memoryOk {s t : State} (hok : memoryOk s = true) (internal : Bool)
    (ht : execSplitWrite internal s = .next t) : memoryOk t = true := by
  unfold execSplitWrite at ht
  rw [← Host.Outcome.next.inj ht]
  repeat' (first | with_reducible assumption | with_reducible apply lockGate_memoryOk | with_reducible apply splitWrite_memoryOk | intro z s hs | intro s hs | with_reducible refine memoryOk_ite ?_ ?_ | split | dsimp only)

theorem execCipherRequestDone_memoryOk {s t : State} (hok : memoryOk s = true) (lane : Nat) (upset : Bool)
    (ht : execCipherRequestDone lane upset s = .next t) : memoryOk t = true := by
  unfold execCipherRequestDone at ht
  rw [← Host.Outcome.next.inj ht]
  repeat' (first | with_reducible assumption | with_reducible apply requestDone_memoryOk | split | dsimp only)

theorem execGranuleCompressed_memoryOk {s t : State} (hok : memoryOk s = true) (gsn : Nat) (upset1 : Bool) (upset2 : Bool)
    (ht : execGranuleCompressed gsn upset1 upset2 s = .next t) : memoryOk t = true := by
  unfold execGranuleCompressed at ht
  rw [← Host.Outcome.next.inj ht]
  repeat' (first | with_reducible assumption | with_reducible apply compressed_memoryOk | split | dsimp only)

theorem execRowFetch_memoryOk {s t : State} (hok : memoryOk s = true) (dsn : Nat) (track : Nat) (slot : Nat) (upset1 : Bool) (upset2 : Bool)
    (ht : execRowFetch dsn track slot upset1 upset2 s = .next t) : memoryOk t = true := by
  unfold execRowFetch at ht
  rw [← Host.Outcome.next.inj ht]
  repeat' (first | with_reducible assumption | with_reducible apply rowFetch_memoryOk | split | dsimp only)

theorem execCipher_memoryOk {s t : State} (hok : memoryOk s = true) (queue : Nat)
    (ht : execCipher queue s = .next t) : memoryOk t = true := by
  unfold execCipher at ht
  rw [← Host.Outcome.next.inj ht]
  repeat' (first | with_reducible assumption | with_reducible apply sideRow_memoryOk | with_reducible apply cipherRow_memoryOk | intro z s hs | intro s hs | split | dsimp only)

theorem execRegisterWrite_memoryOk {s t : State} (hok : memoryOk s = true) (addr : Nat) (value : Word)
    (ht : execRegisterWrite addr value s = .next t) : memoryOk t = true := by
  unfold execRegisterWrite at ht
  rw [← Host.Outcome.next.inj ht]
  repeat' (first | with_reducible assumption | with_reducible apply linkDue_memoryOk | with_reducible apply hostWrite_memoryOk | split | dsimp only)

theorem execWindowDataAccess_memoryOk {s t : State} (hok : memoryOk s = true) (addr : Nat) (value : Option Word)
    (ht : execWindowDataAccess addr value s = .next t) : memoryOk t = true := by
  unfold execWindowDataAccess at ht
  rw [← Host.Outcome.next.inj ht]
  repeat' (first | with_reducible assumption | with_reducible apply afterRead_memoryOk | with_reducible apply hostWrite_memoryOk | with_reducible refine memoryOk_ite ?_ ?_ | split | dsimp only)

theorem execStgRegisterWrite_memoryOk {s t : State} (hok : memoryOk s = true) (addr : Nat) (value : Word)
    (ht : execStgRegisterWrite addr value s = .next t) : memoryOk t = true := by
  unfold execStgRegisterWrite at ht
  rw [← Host.Outcome.next.inj ht]
  repeat' (first | with_reducible assumption | with_reducible apply hostWrite_memoryOk | with_reducible refine memoryOk_ite ?_ ?_ | split | dsimp only)

theorem execRegImage_memoryOk {s t : State} (hok : memoryOk s = true) (queue : Nat)
    (ht : execRegImage queue s = .next t) : memoryOk t = true := by
  unfold execRegImage at ht
  rw [← Host.Outcome.next.inj ht]
  repeat' (first | with_reducible assumption | with_reducible apply sideRow_memoryOk | with_reducible apply regImage_memoryOk | intro z s hs | intro s hs | split | dsimp only)

theorem execFlitReceived_memoryOk {s t : State} (hok : memoryOk s = true) (lanes : List (BitVec 288))
    (ht : execFlitReceived lanes s = .next t) : memoryOk t = true := by
  unfold execFlitReceived at ht
  rw [← Host.Outcome.next.inj ht]
  repeat' (first | with_reducible assumption | with_reducible apply flitReceived_memoryOk | split | dsimp only)

theorem execRegWr_memoryOk {s t : State} (hok : memoryOk s = true) (head : Word256) (body : List Word256)
    (ht : execRegWr head body s = .next t) : memoryOk t = true := by
  unfold execRegWr at ht
  rw [← Host.Outcome.next.inj ht]
  repeat' (first | with_reducible assumption | with_reducible apply takeWrite_memoryOk | with_reducible apply packetOf_memoryOk | intro z s hs | intro s hs | split | dsimp only)

theorem execPorstAssert_memoryOk {s t : State} (hok : memoryOk s = true) 
    (ht : execPorstAssert s = .next t) : memoryOk t = true := by
  unfold execPorstAssert at ht
  rw [← Host.Outcome.next.inj ht]
  repeat' (first | with_reducible assumption | with_reducible apply porstAssert_memoryOk | split | dsimp only)

theorem execRailChange_memoryOk {s t : State} (hok : memoryOk s = true) (rail : Nat) (inRange : Bool)
    (ht : execRailChange rail inRange s = .next t) : memoryOk t = true := by
  unfold execRailChange at ht
  rw [← Host.Outcome.next.inj ht]
  repeat' (first | with_reducible assumption | with_reducible apply railChange_memoryOk | split | dsimp only)

theorem execBrownout_memoryOk {s t : State} (hok : memoryOk s = true) (rail : Nat)
    (ht : execBrownout rail s = .next t) : memoryOk t = true := by
  unfold execBrownout at ht
  rw [← Host.Outcome.next.inj ht]
  repeat' (first | with_reducible assumption | with_reducible apply brownout_memoryOk | split | dsimp only)

end Sys2Proof.Machine
end

