-- ==== Sys2Proof/Tests/Slice0.lean ====
section
/-!
SUPPORT. Ill-formed commands that WellFormed refuses; the spec's worked examples; a few single steps; and, for each statement with hypotheses, a
witness: one state and operands for each clause that meet all its hypotheses together.
-/

namespace Sys2Proof.Tests

set_option linter.unusedVariables false
set_option Elab.async false

open Sys2Proof.Machine

/-! ## States for the tests -/

/-- Fields set in a state. -/
def st (l : List (Fld × Nat)) (s : State) : State := l.foldl (fun s e => setF e.1 e.2 s) s
/-- The part right after reset. -/
abbrev s0 : State := State.reset
/-- Sealed. -/
def sealedS : State := st [(Reg.SEC_STATUS_SEALED, 1)] s0
/-- Writing data set 5 with a command executing. -/
def busyS : State :=
  setFmt { s0.fmt with running := true, writing := some 5, sets := [{ dsn := 5, begun := true, ready := true, compiled := true, payload := [1,2,3] }, { dsn := 6, ready := true }], nextDsn := 7, grans := [{ gsn := 3, dsn := 5, stage := .packed }] }
  <| setQue { s0.que with exec := some { entry := { body := .cmd (4 :: zeros 63) }, phase := .work }, stream := [{ body := .cmd (5 :: zeros 63), seq := 3 }] }
  <| setVol { s0.vol with loaded := true, nextGsn := 4 }
  <| forEach [0,1,2,3,4,5,6,7] (fun b s => setBand b { (band s b) with running := true, gateOpen := true, a := { (band s b).a with armed := true, dsn := some 5 }, b := { (band s b).b with armed := true, dsn := some 6 }, windows := [{ slot := 3, dsn := 5, read := false, pred := 0, opened := 0, tracks := [0, 1, 2], dual := false }] } s)
  <| st [(Reg.POS_STATUS_LOCKED, 1), (Reg.SEC_STATUS_SEALED, 1), (Reg.CLU_RUN_SVC, 15), (Reg.CLU_RUN_CMD, 1), (Reg.INJ_CTRL_RUN, 1)] s0
/-- Both servo uplinks in RUN. -/
def servoS : State := st [(Reg.SL_STATE_LINK0, 4), (Reg.SL_STATE_LINK1, 4)] s0
/-- Three readers qualified while counting coarsely. -/
def readersS : State :=
  forEach [0, 1, 2] (fun b s => setReader b 0 { sinceId := 0, amp := 4000 } (setF (svRdEn b 0) 1 s))
    (st [(Reg.POS_READER_EN, 0x3FFFF), (Reg.POS_CTRL_EN, 1), (Reg.POS_STATUS_COARSE, 1), (Reg.POS_STATUS_STALE, 1)] servoS)
/-- A servo frame of band 3, stripe 36, frame 1204014. -/
def servoY : BitVec 64 :=
  BitVec.ofNat 64 (0xE4 * 2 ^ 56 + 0x36C * 2 ^ 44 + 1204014 * 2 ^ 12 + servoCrc (msbBits 44 (0x36C * 2 ^ 32 + 1204014)) * 2 ^ 4 + 5)
/-- A servo burst of 11 blocks whose CRC holds. -/
def goodBurst : List (BitVec 64) :=
  let body : List (BitVec 64) := [BitVec.ofNat 64 (16 * 2 ^ 32 + 0x1B4), 1, 2, 3, 4, 5, 6, 7, 8, 9]
  body ++ [BitVec.ofNat 64 (2 ^ 32 * burstCrc (body ++ [0x5A]) + 0x5A)]


/-- The same with no window open. -/
def calmS : State := forEach [0, 1, 2, 3, 4, 5, 6, 7] (fun b s => setBand b { (band s b) with windows := [] } s) busyS
/-- A READ executing. -/
def readX : ExecSt := { entry := { body := .cmd ([7, 0, 0x34, 0x12] ++ zeros 60) }, phase := .work }
def execS (x : ExecSt) (s : State) : State := setQue { s.que with exec := some x } s
/-- A gate of band 1 open with every condition met. -/
def openS : State :=
  let s := st ((Reg.POS_STATUS_LOCKED, 1) :: (Reg.SEC_STATUS_SEALED, 1) :: (Reg.POS_SPEED, 5000000) :: (List.range 4).map fun i => (Reg.CL_STATE_DL (4 + i), 4)) s0
  setBand 1 { (band s 1) with gateOpen := true, running := true, emissions := [{ frame := 200000, first := 0, len := 48, op := 4, slot := 0, dsn := 9, mask := 0, buf := 0, arg := 5 }] } (setF (Reg.WSTATE_EN 5 3) 1 { s with pos := { s.pos with frame := 200000 } })
/-- The four words of a square. -/
def sq (frame tick op mask arg0 arg1 arg2 : Nat) : List Word :=
  [BitVec.ofNat 32 (frame * 4096 + tick), BitVec.ofNat 32 (op + mask * 2 ^ 8 + arg0 * 2 ^ 16), BitVec.ofNat 32 arg1, BitVec.ofNat 32 arg2]
/-- A buffer of squares. -/
def squares (l : List (List Word)) : BufSt := { words := l.flatten.zipIdx.map fun e => (e.2, e.1) }
/-- The shortest board: WAIT_FRAME, END with NEXT = 1, END with NEXT = 0. -/
def shortBoard : BufSt := squares [sq 0 0 0xA 0 0 0 0, sq 60 0 0xC 0 1 0 0, sq 90 0 0xC 0 0 0 0]
/-- The shortest board in a buffer of a band whose sequencer is enabled. -/
def boardS (b i : Nat) : State :=
  setBand b ((band s0 b).setBuf i shortBoard)
    (st [(Reg.BRD_CTRL_EN b, 1), (if i = 0 then Reg.BRD_INFO_A_LEN b else Reg.BRD_INFO_B_LEN b, 3)] s0)
/-- A board of data set 5 waits for its origin. -/
def holdS : State := setBand 3 { (band (boardS 3 1) 3) with running := true, hold := true, cur := 1, b := { shortBoard with dsn := some 5 } } (st [(Reg.POS_STATUS_STILL, 0)] (boardS 3 1))
/-- Tape moving: squares fire. -/
def movingS : State := st [(Reg.POS_STATUS_STILL, 0)] s0
/-- A board of band 3 running at square `i`. -/
def atS (l : List (List Word)) (i : Nat) : State :=
  setBand 3 { (band movingS 3) with running := true, index := i, a := { squares l with armed := true } } movingS
/-- A board at its JUMP. -/
def loopS : State := atS [sq 0 0 0xA 0 0 0 0, sq 1 0 4 0 0 0 0, sq 0 0 0xB 0 1 4 2] 2
/-- A board at an END, the other buffer armed or not. -/
def endS (i : Nat) (armed : Bool) : State :=
  let s := atS [sq 0 0 0xA 0 0 0 0, sq 60 0 0xC 0 1 0 0, sq 90 0 0xC 0 0 0 0] i
  setBand 3 { (band s 3) with b := { shortBoard with armed := armed, armedAt := 5 } } s
/-- A board at an emission. -/
def emitS (op arg0 arg1 arg2 : Nat) : State := atS [sq 0 0 0xA 0 0 0 0, sq 0 0 op 0 arg0 arg1 arg2] 1
/-- The same board at a row whose rows are all released. -/
def rowS : State :=
  let s := emitS 3 7 0 500
  { s with enc := { rows := (List.range 64).map fun k => { dsn := 0, g := rowOfSlot (192 + k) 7, data := [], parity := [] } } }
/-- An uplink burst of 34 blocks, sequence number 9, of HFE 2, module 1, whose CRC holds. -/
def goodUp : List (BitVec 64) :=
  let body : List (BitVec 64) := BitVec.ofNat 64 (9 * 2 ^ 48 + 0x22A5) :: List.replicate 32 0
  body ++ [BitVec.ofNat 64 (2 ^ 32 * 510392033 + 0x5A)]
/-- A read row waiting to be decoded. -/
def ctxA : RowCtx :=
  { band := 3, k := 9, slot := 7, dsn := 55, read := true, pred := 0, found := some 0, cells := 6000, width := 1, hk := false, fill := false, module := 1, dual := false
    bits := [], anchors := [], level := false, trans := [], t0 := 64, t1 := 0, t2 := -64, p1 := 0, p2 := 0, pLlr := 16, comb := {}, muw := 12, muf := 14, items := []
    budget := 12, every := 4, scale := 12, inPool := true, closed := 100 }
/-- The same row read in peak mode. -/
def ctxP : RowCtx := { ctxA with peak := true }
def ctxS (c : RowCtx) : State := setRch { s0.rch with ctx := [c], sets := [{ dsn := 55 }] } s0
/-- A data set's board of band 0 at its DS_START mark. -/
def markS : State :=
  setBand 0 { (band movingS 0) with running := true, index := 1, a := { squares [sq 0 0 0xA 0 0 0 0, sq 0 0 9 0 1 55 0] with armed := true, dsn := some 55 } }
    (setFmt { s0.fmt with sets := [{ dsn := 55, ready := true, compiled := true }] } (st [(Reg.SPM_CTRL_EN, 0), (Reg.SPM_CTRL_STEP_FIX, 3), (Reg.SPM_STATUS_CEIL, 15)] movingS))
/-- A board at an APPLY_STAGED 1,000 ticks into its frame. -/
def emitS' (op arg0 arg1 arg2 : Nat) : State := atS [sq 0 0 0xA 0 0 0 0, sq 0 1000 op 0 arg0 arg1 arg2] 1
/-- The boards of data set 64 wait for repositioning. -/
def repoS : State :=
  setFmt { s0.fmt with repos := some 64, sets := [{ dsn := 64, ready := true, compiled := true, pass := 5 }] }
    (setBand 3 { (band (boardS 3 0) 3) with a := { shortBoard with armed := true, dsn := some 64 } } (boardS 3 0))
/-- Codes and the formatter on. -/
def codesS : State := st [(Reg.OUT_CTRL_C2_EN, 1), (Reg.OUT_CTRL_C3_EN, 1), (Reg.FMT_CTRL, 1)] s0
/-- A closed data set behind a ready one. -/
def readyS : State := setFmt { s0.fmt with sets := [{ dsn := 64, ready := true, compiled := true, pass := 5 }, { dsn := 65, closed := true, stream := [1, 2] }] } codesS
/-- Every sequencer enabled. -/
def seqS : State := st ((List.range 8).map fun b => (Reg.BRD_CTRL_EN b, 1)) codesS
/-- A ready data set and sequencers that take boards. -/
def compileS : State := setFmt { s0.fmt with sets := [{ dsn := 64, closed := true, ready := true, pass := 5 }] } seqS
/-- A READ executes and the sequencers take boards. -/
def readPlanS : State := execS readX seqS
/-- A compiled data set whose rows may be fetched. -/
def fetchS : State := setFmt { s0.fmt with sets := [{ dsn := 55, compiled := true, ready := true, payload := [9, 8, 7] }] } s0
/-- A cut granule in engine 2. -/
def cutS : State :=
  { setFmt { s0.fmt with grans := [{ gsn := 7, plain := [1, 2, 3], pieces := [3], records := 1, stage := .cut }] } s0 with cmp := { s0.cmp with busy := [(2, 7)], last := 2 } }
/-- A sealed granule to be packed. -/
def packS : State :=
  setFmt { s0.fmt with grans := [{ gsn := 7, plain := [1, 2, 3], body := [1, 2, 3], pieces := [3], records := 1, stage := .sealed, tenant := 2 }] } (st [(Reg.FMT_CTRL, 1)] s0)
/-- A pair waits for the granule of slot 5; pair 0 is off. -/
def ciphS : State :=
  setKeys { s0.keys with data := [(5, { state := 1, key := [7, 7] })] }
  (setCiph { s0.ciph with wr := [.enc 7] } (setFmt { s0.fmt with grans := [{ gsn := 7, plain := [1], enc := true, slot := 5, stage := .requested }] }
    (st [(Reg.CIPH_CTRL_EN, 1), (Reg.CIPH_LANE_EN, 0xFE)] s0)))
/-- A CIPHER of side queue 9 at work: GMAC verify on data key slot 5, no AAD. -/
def cipherX : ExecSt := { entry := { body := .cmd ([0x24, 0, 0x21, 0x43, 3, 0, 0, 0, 0, 0, 0, 0, 0, 0, 0, 0, 5, 0, 4] ++ zeros 45) }, phase := .work }
def verifyX : ExecSt := { cipherX with seen := [100] }
def hostS : State := setSide 9 { exec := some cipherX } (setCiph { s0.ciph with host := [.host 9, .host 3], skips := 4 } (st [(Reg.CIPH_CTRL_EN, 1), (Reg.CIPH_LANE_EN, 0xFE)] s0))
/-- A granule on lanes 2 and 3. -/
def runS : State :=
  setCiph { s0.ciph with runs := [{ lane := 2, pair := true, work := .enc 7, key := [] }] }
    (setFmt { s0.fmt with grans := [{ gsn := 7, plain := [1], body := [1], pieces := [1], enc := true, slot := 5, stage := .requested }] } s0)
/-- A KEY_IMPORT of tenant 4 into slot 33 at work. -/
def importX : ExecSt := { entry := { body := .cmd ([0x20, 0, 0x21, 0x43, 4, 0, 0, 0, 56, 0, 0, 0, 0, 0, 0, 0, 3, 0, 33] ++ zeros 45) }, phase := .work }
def importS : State :=
  setSide 9 { exec := some importX } (setTenant 4 { (tenant s0 4) with state := 1, tag := 99 }
    (setCiph { s0.ciph with runs := [{ lane := 4, pair := false, work := .unwrap 9 3 [1] [2], key := [1] }] } s0))
/-- A KEY_ERASE of slot 33, a KEK_ERASE of KEK slot 3, waiting. -/
def eraseX : ExecSt := { entry := { body := .cmd ([0x21, 0, 0x21, 0x43, 0, 0, 0, 0, 0, 0, 0, 0, 0, 0, 0, 0, 0, 0, 33] ++ zeros 45) }, phase := .work }
def kekX : ExecSt := { entry := { body := .cmd ([0x23, 0, 0x21, 0x43, 0, 0, 0, 0, 0, 0, 0, 0, 0, 0, 0, 0, 3] ++ zeros 47) }, phase := .work }
/-- The memory is READY. -/
def memS : State := st [(Reg.MEM_STATUS_READY, 1)] s0
/-- Word 5 of page 100, a host page, is poisoned. -/
def poisonS : State := putRaw 100 5 poisonWord (setPage 100 { (page memS 100) with alloc := true, owner := 3, written := 2 ^ 5, poisoned := true } memS)
/-- The split port armed for page 200 of S8. -/
def splitS : State :=
  setPage 200 { (page memS 200) with alloc := true, owner := 264 }
    (st [(Reg.SPLIT_CTRL_ARM, 1), (Reg.SPLIT_CTRL_ACCT, 264), (Reg.SPLIT_ADDR_PAGE, 200), (Reg.SPLIT_ADDR_WORD, 17), (Reg.SPLIT_DATA 0, 99), (Reg.SPLIT_CHK, 12345)] memS)
/-- The scrubber runs and stands at page 7. -/
def scrubS : State := st [(Reg.MEM_CTRL_SCRUB_EN, 1), (Reg.CLU_RUN_SVC, 1), (Reg.SCRUB_POS, 7)] memS
/-- The pool is built, two pages are free. -/
def allocS : State :=
  setPool { memS.pool with free := 2, cache := [(70, 3), (71, 0)], accts := [(260, { quota := 100, min := 5 }), (7, { quota := 4, used := 4 })] }
    (setPage 70 { (page memS 70) with gen := 3 } (st [(Reg.POOL_STATUS_BUILT, 1)] memS))
/-- Pages 80 and 82 are in use, 82 in reference-count mode. -/
def freeS : State :=
  let s := setPool { memS.pool with free := 2, cache := [(70, 0), (71, 0)], accts := [(260, { quota := 100, used := 5 }), (261, { quota := 100 })] } (st [(Reg.POOL_STATUS_BUILT, 1)] memS)
  setPage 80 { (page s 80) with alloc := true, owner := 260 } (setPage 82 { (page s 82) with alloc := true, owner := 7, refmode := true, refcnt := 3 } s)
/-- The host link is ACTIVE on lane 0. -/
def linkS : State := setLnk { s0.lnk with wasUp := true, rxSeq := 40, txSeq := 13, held0 := 2, heldM0 := 2, heldM1 := 2 } (st [(Reg.LNK_STATUS_STATE, 5), (Reg.LNK_STATUS_LANES, 1), (Reg.LNK_STATUS_WIDTH, 3)] s0)
/-- The bits of a flit as lane 0 alone carries it in slot 0. -/
def laneWord (f : Nat) : List (BitVec 288) := [BitVec.ofNat 288 ((laneBits 0 0 288).foldr (fun b a => 2 * a + b2n b) 0 ^^^ f)]
/-- Two packets held, of flits 10, 11 and 12. -/
def ackS : State := setLnk { linkS.lnk with held := [{ seq := 10, cls := 0, words := [1, 2] }, { seq := 12, cls := 0, words := [3] }], ackSeq := 10 } linkS
/-- A marker of a lane. -/
def markerFor (l : Nat) : BitVec 72 :=
  let h := 0x3D5AC3E196F0 * 2 ^ 16 + l * 2 ^ 13
  BitVec.ofNat 72 (h * 2 ^ 8 + crcBits 8 0x07 0 (msbBits 64 h))
/-- The link is active, the queues are open and the host has tokens of every class. -/
def tokenS : State :=
  setLnk { linkS.lnk with granted := [(0, 20), (9, 5), (64, 5), (128, 5)] } (st [(Reg.QUE_CTRL, 1)] linkS)
/-- HEAD flits: CMD of one descriptor, DATA_OUT of 3 bytes to a WRITE of TAG 0x22, MINUTE, TOKEN of 300 DATA grants, REG_WR of RLOG_TAIL, REG_RD,
MINUTE with a reserved byte. -/
def cmdHead (q : Nat) : Word256 := headOf 0x03 2 q 0 0 []
def dataHead : Word256 := headOf 0x04 1 0 0 0x22 (leBytes 4 0 ++ zeros 12 ++ [3])
def minuteHead : Word256 := headOf 0x09 0 0 0 0 (leBytes 8 12345)
def tokenHead : Word256 := headOf 0x08 0 0 0 0 (leBytes 4 (300 + 2 ^ 22))
def writeHead : Word256 := headOf 0x02 0 0 1 7 (leBytes 4 0x5C024 ++ leBytes 4 7)
def readHead : Word256 := headOf 0x01 0 0 1 7 (leBytes 4 0x00000)
def reservedHead : Word256 := headOf 0x09 0 0 0 0 (leBytes 8 1 ++ [1])
/-- A WRITE of one record of 3 bytes, TAG 0x22. -/
def writeX : ExecSt := { entry := { body := .cmd ([4, 0, 0x22, 0, 0, 0, 0, 0, 3, 0, 0, 0, 0, 0, 0, 0, 0, 0, 0, 0, 3, 0, 0, 0, 1] ++ zeros 39) }, phase := .data }
/-- An entry waits in the completion FIFO; a DATA_IN packet; an event. -/
def outS (p : OutPkt) : State := setQue { linkS.que with out := p :: (if isRetract p then [.compl 0 77 0x20 5 6 7 8] else []) } linkS
def dinS : State := setQue { linkS.que with din := [{ queue := 3, tag := 5, offset := 0, recOfs := 0, recno := 0, bytes := [1, 2], recEnd := true }] } linkS
def eventS : State := { linkS with evt := { linkS.evt with fifo := [{ page := 1, bit := 2, fault := 3, account := 4, stamp := { lo := 1, hi := 2 }, data := 5, eseq := 6 }] } }
/-- A descriptor: opcode, FLAGS, TAG, TENANT, ACCOUNT, DATA_LEN and the opcode's fields. -/
def desc (op fl tag ten acct len : Nat) (own : List Byte) : List Byte :=
  padTo 64 (leBytes 1 op ++ leBytes 1 fl ++ leBytes 2 tag ++ leBytes 2 ten ++ leBytes 2 acct ++ leBytes 4 len ++ zeros 4 ++ own)
def opX (d : List Byte) (ph : Phase) : ExecSt := { entry := { body := .cmd d }, phase := ph }
/-- The firmware's CMD role runs and the cartridge is loaded, sealed, with codes on. -/
def cmdS : State := setVol { s0.vol with loaded := true, nonce := some 5, records := 7, posRecord := 7 }
  (st [(Reg.CLU_RUN_CMD, 1), (Reg.SEC_STATUS_SEALED, 1), (Reg.OUT_CTRL_C2_EN, 1), (Reg.OUT_CTRL_C3_EN, 1), (Reg.CMP_ENG_EN, 0xFFFF)] s0)
def runX (x : ExecSt) (s : State) : State := setQue { s.que with exec := some x } s
/-- The mount has written and a group is open. -/
def wroteS : State := setFmt { cmdS.fmt with group := some 0, nextDsn := 1, sets := [{ dsn := 0 }] }
  (setTenant 2 { state := 1, tag := 99, session := 3 } (setVol { cmdS.vol with map := some { nextGsn := 4 }, wrote := true, eodDsn := 40 } cmdS))
def wrX : ExecSt := { opX (desc 4 0 0x22 2 0 3 (zeros 4 ++ leBytes 4 3 ++ leBytes 4 1)) .data with entry := { body := .cmd (desc 4 0 0x22 2 0 3 (zeros 4 ++ leBytes 4 3 ++ leBytes 4 1)), data := [9, 8, 7] } }
def wrG : Gran := { tenant := 2, session := 3, tenantTag := 99, nonce := 5, records := 1, first := 6, pieces := [2], plain := [1, 2], shares := [(0, 2)] }
def fmX (n : Nat) : ExecSt := opX (desc 5 0 0x22 2 0 0 (leBytes 2 n)) .data
def flX (ph : Phase) : ExecSt := opX (desc 6 0 0x22 0 0 0 []) ph
/-- A READ of one record by tenant 2. -/
def rdX : ExecSt := { opX (desc 7 0 0x22 2 0 100 (leBytes 4 1)) .work with cursor := some (0, 0x200) }
def rdG (fm : Bool) : Gran := { gsn := 3, filemark := fm, tenantTag := 99, records := if fm then 0 else 1, first := 7, pieces := if fm then [] else [3], plain := if fm then [] else [9, 8, 7], body := if fm then [] else [0, 0, 0, 2, 0, 0, 0, 3, 9, 8, 7] }
/-- Data set 0 has been read: one granule. -/
def rdS (g : Gran) : State :=
  let c := granBytes g ++ (if g.filemark then [] else zeros 5)
  { wroteS with rch := { wroteS.rch with sets := [{ dsn := 0, done := true, payload := dsit { dsn := 0, granCount := 1, firstGran := 0x200, firstGsn := 3, recBefore := 7 } 5 [] c ++ zeros 8 ++ c }] } }
def rdHead (g : Gran) : List Byte := granHeader g g.body.length
def volM : VolMap := { copy := 1, gen := 6, uaEnd := 200000, eodDsn := 40, eodFrame := 123456, mounts := [{ nonce := 4, firstDsn := 0, endDsn := 40, firstGsn := 0, endGsn := 9 }] }
def noCal : LoadCal := { ok := true, snr := [], phi := [], items := [], taps := [], gains := [], tilt := none, cso := [] }
def openX : ExecSt := opX (desc 0xD 0 0x22 0 0 0 (leBytes 8 77 ++ leBytes 4 10 ++ leBytes 4 2)) .data
def poolS : State := setPool { cmdS.pool with free := 100 } (st [(Reg.MEM_STATUS_READY, 1)] (setMem { cmdS.mem with pages := [] } cmdS))
def closeX (step : Nat) : ExecSt := { opX (desc 0xE 0 0x22 2 0 400 []) .work with step := step }
def closingS : State := setPool { poolS.pool with accts := [(2, { quota := 9, min := 1 })] } (setTenant 2 { state := 2, tag := 99, session := 3 } poolS)
def sdX (d : List Byte) (ph : Phase) : ExecSt := opX d ph
def sdS (x : ExecSt) (s : State) : State := setSide 9 { exec := some x } s
def minS : State := setQue { cmdS.que with stream := [{ body := .minute 8 }] } cmdS
def brS : State := setMtr { cmdS.mtr with brackets := [{ idx := 0, name := 8, closed := true, use := [(3, { commands := 2 })], noTenant := 1 }, { idx := 1, name := 9 }], sessions := [{ id := 3, ctx := 2, tag := 99 }] } cmdS
def mrX : ExecSt := sdX (desc 0x25 1 0x22 0 0 640 (leBytes 4 0 ++ leBytes 4 5)) .data
def mrS : State := setMtr { cmdS.mtr with log := [(0, [1, 2])] } (st [(Reg.MTR_HEAD, 1)] cmdS)
def kiX : ExecSt := { sdX (desc 0x20 0 0x22 4 0 56 [3, 0, 33]) .data with entry := { body := .cmd (desc 0x20 0 0x22 4 0 56 [3, 0, 33]), data := zeros 56 } }
def kiS : State := setKeys { cmdS.keys with kek := [(3, [1, 2])] } (setTenant 4 { state := 1, tag := 99 } cmdS)
def keX : ExecSt := sdX (desc 0x21 0 0x22 0 0 0 [0, 0, 33]) .data
def kkX : ExecSt := sdX (desc 0x23 0 0x22 0 0 0 [3]) .data
def agX : ExecSt := { sdX (desc 0x22 0 0x22 0 0 32 [3]) .data with entry := { body := .cmd (desc 0x22 0 0x22 0 0 32 [3]), data := zeros 32 } }
def idS : State := st [(Reg.SEC_STATUS_LC, 1), (Reg.SEC_STATUS_ID_OK, 1), (Reg.SEC_STATUS_ENTROPY_OK, 1)] cmdS
def ciX : ExecSt := sdX (desc 0x24 0 0x22 4 4 0 ([33, 0, 4] ++ zeros 1 ++ leBytes 4 16 ++ zeros 12 ++ zeros 4 ++ leBytes 4 70 ++ zeros 4)) .data
def ciS : State := setKeys { memS.keys with data := [(33, { state := 1, tenant := 4, key := [7] })] }
  (setPage 70 { (page memS 70) with alloc := true, owner := 4 } (setPage 0 { (page memS 0) with alloc := true, owner := 4 } (setTenant 4 { state := 1, tag := 99 } (st [(Reg.MEM_STATUS_READY, 1), (Reg.CLU_RUN_CMD, 1), (Reg.SEC_STATUS_SEALED, 1)] memS))))
def sqX (a q m : Nat) : ExecSt := sdX (desc 0x26 0 0x22 0 a 0 (leBytes 4 q ++ leBytes 4 m)) .data
def atX (f : Nat) : ExecSt := sdX (desc 0x27 f 0x22 0 0 448 (zeros 32)) .data
def scX (m : Nat) : ExecSt := sdX (desc 0x28 0 0x22 0 0 0 [BitVec.ofNat 8 m]) .data
def s2S : State := st [(Reg.SAFE_STATUS_S2, 1), (Reg.SAFE_STATUS_BUS_CLAMP, 1), (Reg.POS_STATUS_STILL, 1), (Reg.SAFE_STATUS_STO_REELS, 1), (Reg.SAFE_STATUS_STO_ACT, 1)] cmdS
def imX (l : List (Nat × Nat)) : ExecSt :=
  let b := l.flatMap fun e => leBytes 4 e.1 ++ leBytes 4 e.2
  { sdX (desc 0x29 0 0x22 0 0 b.length []) .data with entry := { body := .cmd (desc 0x29 0 0x22 0 0 b.length []), data := b } }
/-- Reel drive A set up: Halls fitted and good, the bus in range. -/
def motS : State := st [(hdrEN 0x78, 1), (hdrEN 0x79, 1), (hdrEN 0x7A, 1), (hdrEN 0x7C, 1), (hdrEN 0x7D, 1), (hdrEN 0x7E, 1), (Reg.MOTOR_POLE_PAIRS 0, 4), (Reg.MOTOR_RL_RS 0, 100), (Reg.MOTOR_RL_LS 0, 100),
  (Reg.MOTOR_PSI 0, 100), (Reg.CUR_LIMIT_IMAX 0, 3000), (Reg.CUR_KP 0, 5), (Reg.MOT_CTRL_HALL_FIT 0, 1), (Reg.MOT_STATUS_HALL_OK 0, 1), (Reg.VBUS 0, 48000), (Reg.VBUS_UV 0, 20000),
  (Reg.VBUS_CHOP_ON 0, 60000), (Reg.SAFE_STATUS_STO_REELS, 0), (Reg.SAFE_STATUS_STO_ACT, 0), (Reg.ADC_CTRL_EN, 1), (Reg.HALL_STATUS_SECTOR 0, 0), (Reg.HALL_STATUS_CODE 0, 1), (Reg.MOTOR_NMAX 0, 3000)] cmdS
def pwm0 (late : Bool) : PwmIn := { first := 2100, second := 2000, zero := 2050, late }
/-- It runs. -/
def runMotS : State := setReel 0 { reel motS 0 with cmp := [300, 600, 900] } (st [(Reg.MOT_CTRL_EN 0, 1), (Reg.MOT_STATUS_RUNNING 0, 1), (Reg.MOT_CTRL_SRC_FORCE 0, 1), (Reg.MOT_STATUS_SRC 0, 1), (Reg.PWM_CFG_MIN_WIN 0, 100), (Reg.PWM_CFG_SETTLE 0, 20)] motS)
def noHallS : State := st [(Reg.MOT_CTRL_HALL_FIT 0, 0), (Reg.MOT_CTRL_PULSE_START 0, 1), (Reg.MOT_CTRL_EN 0, 1), (Reg.PULSE_CFG_SAL_MIN_PCT 0, 5)] motS
def startS (k : Nat) : State := setReel 0 { reel noHallS 0 with start := k } noHallS
def lockS : State := st [(Reg.POS_STATUS_LOCKED, 1), (Reg.POS_SPEED, 2000000), (Reg.RADIUS 0, 200000), (Reg.RADIUS 1, 300000), (Reg.RAD_K 0, 900)] { motS with pos := { motS.pos with frame := 5000 } }
/-- The loop engine runs. -/
def loopRS : State := setMot { motS.mot with staged := [], active := [] } (st [(Reg.LOOP_CTRL_EN, 1), (Reg.CLU_RUN_MOT, 15)] motS)
def motSOn : State := { motS with pins := { motS.pins with inReset := false } }
/-- SVC runs and the block is sealed; a fault is being handled and one waits. -/
def svcS : State := st [(Reg.CLU_RUN_SVC, 15), (Reg.TURN_CTRL, 1)] cmdS
def fltR (c : Nat) : FaultRec := { code := c, account := 3, stamp := {}, data := 7, page := 0x50, bit := 2 }
def fltS : State := { svcS with evt := { svcS.evt with handling := [fltR 0x3801], faultFifo := [fltR 0x1901] } }
/-- All rails in range, in reset. -/
def railS : State := { s0 with pins := { s0.pins with rails := 0x1FF, inReset := true } }
def runPinS (s : State) : State := { s with pins := { s.pins with rails := 0x1FF, inReset := false } }
/-- Raw bits that no health test refuses. -/
def alternating (n : Nat) : List Bool := (List.range n).map fun i => i % 2 == 0
/-- The boot ROM waits for an image; the fuses read well. -/
def waitS : State := st [(Reg.SEC_STATUS_BOOT_STATE, 2)] s0
def verS : State := st [(Reg.SEC_STATUS_BOOT_STATE, 3), (Reg.IMG_RCVD, 8)] s0
def rolesS : State := st [(Reg.SEC_STATUS_BOOT_STATE, 4)] s0
/-- SECU runs with a request of `args` words. -/
def secuS (op args lc : Nat) (arg : List Word) : State :=
  setCore { s0.core with mailbox := [(mbKey 0x82 0, { opcode := op, args := args, tag := 9, arg := arg })] }
    (st [(Reg.SEC_STATUS_BOOT_STATE, 5), (Reg.SEC_STATUS_LC, lc), (mbBUSY 0x82 0, 1)] s0)
def sealS : State := st [(Reg.SEC_STATUS_SEALED, 0), (Reg.SEC_STATUS_BOOT_STATE, 5), (Reg.MEM_STATUS_READY, 1), (Reg.SEC_STATUS_RKEY_OK, 1)]
  (setPool { cmdS.pool with accts := (List.range 8).map fun i => (256 + i, { quota := 40000, min := 31000 }) } cmdS)
/-- A position. -/
def latchS : State := { s0 with pos := { s0.pos with frame := 123456, tick := 77 } }
/-- The position latched. -/
def latchT : State := if (hiOf Reg.POS_NOW_LO.addr).isSome then afterRead Reg.POS_NOW_LO.addr latchS else latchS
/-- The tape has moved, with the latch of `t`. -/
def movedS (t : State) : State := { latchS with latch := t.latch, pos := { latchS.pos with frame := 9, tick := 3 } }
/-- Both reels have stood still for `n` PWM periods with a zero-vector sample in each. -/
def zerosS (n : Nat) : State :=
  setMot { s0.mot with reels := [(0, { zeros := List.replicate n (some 2050) }), (1, { zeros := List.replicate n (some 2047) })] }
    (st [(Reg.POS_STATUS_STILL, 1), (Reg.CAL_CTRL_EN, 1), (Reg.CAL_CTRL_CSO_EN, 1)] s0)

/-! ## Ill-formed commands: each check of WellFormed refuses one -/

theorem test_wf_page : ([.pageEn 256 true, .pageLock 300, .evtForce 256 1, .internalWordHop 256 0 0 0] : List Instr).all (fun i => !i.wellFormed) = true := by decide
theorem test_wf_address : ([.registerWrite 2 0, .loWordRead 0x100000, .calValueWrite 3 0] : List Instr).all (fun i => !i.wellFormed) = true := by decide
theorem test_wf_word : ([.weakWinWrite (2 ^ 32), .evtForce 0 (2 ^ 32), .radSeed (2 ^ 32)] : List Instr).all (fun i => !i.wellFormed) = true := by decide
theorem test_wf_mailbox : ([.mailboxRequest 0x80 0 0, .mailboxRequest 0x89 0 0, .mailboxComplete 0x84 8 []] : List Instr).all (fun i => !i.wellFormed) = true := by decide
theorem test_wf_side_queue : ([.cipher 0, .attest 64, .keyImport 99] : List Instr).all (fun i => !i.wellFormed) = true := by decide
theorem test_wf_account : ([.alloc (.port true) 512, .internalWordHop 0 512 0 0] : List Instr).all (fun i => !i.wellFormed) = true := by decide
theorem test_wf_slot : ([.retire (2 ^ 23), .bufferRead 0 128 [], .bufferWrite 0 0 30 [1, 2, 3] 0 []] : List Instr).all (fun i => !i.wellFormed) = true := by decide
theorem test_wf_band : ([.brdArm 8 0, .brdArm 0 2, .jump 8, .downlinkBurstLaunch 32 0 0 0, .clLinkDown 98] : List Instr).all (fun i => !i.wellFormed) = true := by decide
theorem test_wf_small : ([.lockstepMismatch 6, .motEn 2, .brownout 9, .ddrZqLatch 4 0, .keyEraseComplete 1024, .fifoEntryRemoved 0 16 0 0 (0, 0), .fifoEntryRemoved 0 1 288 0 (0, 0)] : List Instr).all (fun i => !i.wellFormed) = true := by decide
theorem test_wf_packet : Instr.wellFormed (.cmd 0 (List.replicate 65 0)) = false := by decide
theorem test_wf_adc : Instr.wellFormed (.vbusSample 4096 false) = false := by decide
theorem test_wf_bad_op : Instr.wellFormed (.poolBadOp 3) = false := by decide
theorem test_wf_good : ([.registerWrite 0x5C024 7, .brdArm 7 1, .cipher 63, .poolBadOp 7] : List Instr).all Instr.wellFormed = true := by decide

/-! ## The spec's own examples -/

/-- R133: the CRC-16 of "123456789" is 0x29B1. -/
theorem test_crc16 : crcBits 16 0x1021 0xFFFF (byteBits ((List.range 9).map fun i => BitVec.ofNat 8 (0x31 + i))) = 0x29B1 := by decide +kernel
/-- Example of R37: band 3, stripe 36 has the lateral field 0x36C. -/
theorem test_gray : grayDecode 0x36 = 36 ∧ servoIdentity 3 servoY = some (36, 1204014) := by decide +kernel
/-- R128: the C2 generator's coefficients of x^23 and x^0. -/
theorem test_c2_generator : (rsGen 24).getD 23 0 = 0x7A ∧ (rsGen 24).getD 0 0 = 0x75 := by decide +kernel
/-- Example of R130: 0x01 in the last two payload data sets gives C3 parity 0x04, 0x04. -/
theorem test_c3_parity : c3Parity (List.replicate 28 0 ++ [1, 1]) = [4, 4] := by decide +kernel
/-- Example of R121: the scrambler of track 413, slot 4. -/
theorem test_scrambler : natOfMsb ((scrambleSeq (rowSeed 0 413 4) 24)) = 0x99D20D := by decide +kernel
/-- Example of R344: byte 31 = 0x01 has CHK 0x070E08; with byte 5 = 0x10 too, SYN is 0xDE2710, and poisoned it is 0x6CD0FF. -/
theorem test_wcode : wChk (BitVec.ofNat 256 (2 ^ 248)) = 0x070E08 ∧ wSyn (BitVec.ofNat 256 (2 ^ 248 + 0x10 * 2 ^ 40)) 0x070E08 = 0xDE2710 ∧
    wSyn (BitVec.ofNat 256 (2 ^ 248)) (0x070E08 ^^^ poisonMask) = 0x6CD0FF := by decide +kernel
/-- Example of R343: word 77 of page 1,000,003 lies on channel 1 at 1,152,004,032 + 32; its CHK is slot byte 4,327, on channel 2. -/
theorem test_memory_map : slotKey 1000003 (32 * 77) = 1 * 2 ^ 33 + 1152004032 + 32 ∧ slotKey 1000003 4327 = 2 * 2 ^ 33 + 1152004480 + 39 := by decide +kernel
/-- Example of R401: an IDLE flit's damaged control byte makes it bad. -/
theorem test_flit : (match classify (flitWord 0x9C 0 ^^^ 2 ^ 280) with | .bad => true | .good _ _ _ => false) = true := by decide +kernel

/-! ## Single steps -/

/-- R605: a write of CHIP's scratch word. -/
theorem test_step_write : (match step { State.reset with pending := [.registerWrite 0x00050 0xDEADBEEF, .safeStop] } with
    | .next t => t.pending == [.safeStop]
    | _ => false) = true := by decide +kernel
/-- R383: in reset the pool is not built, and a host ALLOC waits for nothing. -/
theorem test_step_idle : step State.reset = .next State.reset := rfl
/-- R546: S1 not at standstill in time brings S2. -/
theorem test_s1_timeout : (match exec .s1Timeout (st [(Reg.SAFE_STATUS_S1, 1), (Reg.POS_STATUS_STILL, 0)] s0) with
    | .next t => s2InForce t && torqueOff t
    | _ => false) = true := by decide +kernel
/-- R595: PORST_N asserted puts the part in reset and keeps the fuses. -/
theorem test_porst : (match exec .porstAssert { s0 with pins := { s0.pins with inReset := false }, sec := { s0.sec with fuses := { s0.sec.fuses with lc0 := 3 } } } with
    | .next t => t.pins.inReset && t.sec.fuses.lc0 == 3
    | _ => false) = true := by decide +kernel

/-! ## A burst whose CRC holds, and a latched position -/

/-- CRC-32 carried on over bytes. -/
def crcOn (c : Nat) (l : List Byte) : Nat :=
  l.foldl (fun c b => (List.range 8).foldl (fun x _ => if x % 2 = 1 then (x / 2) ^^^ 0xEDB88320 else x / 2) (c ^^^ b.toNat)) c
theorem crcOn_head : crcOn 0xFFFFFFFF (leBytes 8 (9 * 2 ^ 48 + 0x22A5) ++ zeros 64) = 3212334563 := by decide +kernel
theorem crcOn_next : crcOn 3212334563 (zeros 64) = 760873406 := by decide +kernel
theorem crcOn_third : crcOn 760873406 (zeros 64) = 3188831617 := by decide +kernel
theorem crcOn_tail : crcOn 3188831617 ((zeros 64 ++ [0x5A, 0, 0, 0])) = 3784575262 := by decide +kernel
theorem crcOn_append (c : Nat) (l m : List Byte) : crcOn c (l ++ m) = crcOn (crcOn c l) m := List.foldl_append ..
theorem crc32_crcOn (l : List Byte) : crc32 l = crcOn 0xFFFFFFFF l ^^^ 0xFFFFFFFF := rfl
theorem goodUp_bytes : ((goodUp.take 33).flatMap fun b => leBytes 8 b.toNat) ++ leBytes 4 ((goodUp.getD 33 0).toNat % 2 ^ 32) =
    (leBytes 8 (9 * 2 ^ 48 + 0x22A5) ++ zeros 64) ++ zeros 64 ++ zeros 64 ++ (zeros 64 ++ [0x5A, 0, 0, 0]) := by decide +kernel
theorem goodUp_crc : uplinkCrcOk goodUp = true := by
  have h : crc32 (((goodUp.take 33).flatMap fun b => leBytes 8 b.toNat) ++ leBytes 4 ((goodUp.getD 33 0).toNat % 2 ^ 32)) = 510392033 := by
    rw [goodUp_bytes, crc32_crcOn, crcOn_append _ _ (zeros 64 ++ [0x5A, 0, 0, 0]), crcOn_append _ _ (zeros 64), crcOn_append _ _ (zeros 64), crcOn_head, crcOn_next, crcOn_third, crcOn_tail]
    decide
  have e : (goodUp.getD 33 0).toNat / 2 ^ 32 = 510392033 := by decide +kernel
  simp only [uplinkCrcOk, h, e, beq_self_eq_true]
theorem latch_next : exec (.loWordRead Reg.POS_NOW_LO.addr) latchS = .next latchT := by unfold exec execLoWordRead latchT; exact Eq.refl _
theorem latch_moved (t : State) : (movedS t).latch = t.latch := rfl
theorem sumI_replicate (n : Nat) (v : Int) : sumI (List.replicate n v) = n * v := by
  have h : ∀ (n : Nat) (a : Int), (List.replicate n v).foldl (· + ·) a = a + n * v := by
    intro n
    induction n with
    | zero => intro a; simp
    | succ n ih =>
      intro a
      rw [List.replicate_succ, List.foldl_cons, ih, Int.natCast_add, Int.add_mul]
      omega
  exact (h n 0).trans (Int.zero_add _)
theorem zerosS_a (n : Nat) : (reel (zerosS n) 0).zeros = List.replicate n (some 2050) := rfl
theorem zerosS_b (n : Nat) : (reel (zerosS n) 1).zeros = List.replicate n (some 2047) := rfl
theorem zerosS_getS (n : Nat) (f : Fld) : getS (zerosS n) f = getS (zerosS 0) f := rfl
theorem zerosS_getB (n : Nat) (f : Fld) : getB (zerosS n) f = getB (zerosS 0) f := rfl
theorem zerosS_ref (n k : Nat) : Tbl.get 0 (zerosS n).cal.refCso k = Tbl.get 0 (zerosS 0).cal.refCso k := rfl
theorem zeros_on : getB (zerosS 0) Reg.POS_STATUS_STILL = true ∧ getB (zerosS 0) Reg.CAL_CTRL_EN = true ∧ getB (zerosS 0) Reg.CAL_CTRL_CSO_EN = true ∧
    getB (zerosS 0) (hdrQUIESCE 0x4B) = false := by decide +kernel
theorem zeros_offsets : getS (zerosS 0) Reg.CAL_CSO_REEL_A = 0 ∧ getS (zerosS 0) Reg.CAL_CSO_REEL_B = 0 ∧
    Tbl.get 0 (zerosS 0).cal.refCso 0 = 0 ∧ Tbl.get 0 (zerosS 0).cal.refCso 1 = 0 := by decide +kernel
theorem offsets_replicate (n v : Nat) : (List.replicate n (some v)).filterMap (fun z => z.map fun v => ((v % 4096 : Nat) : Int) - 2048) =
    List.replicate n (((v % 4096 : Nat) : Int) - 2048) := by
  induction n with
  | zero => rfl
  | succ n ih => rw [List.replicate_succ, List.filterMap_cons, ih, List.replicate_succ]; rfl
theorem replicate_ne (n : Nat) (v : Int) (h : 0 < n) : List.replicate n v ≠ [] := by
  cases n with
  | zero => omega
  | succ n => rw [List.replicate_succ]; exact List.cons_ne_nil _ _
/-- The witness of the standstill clause, for any number of periods (R242). -/
theorem zeros_ok (n : Nat) (h : 4096 ≤ n) :
    (getB (zerosS n) Reg.POS_STATUS_STILL = true ∧ getB (zerosS n) Reg.CAL_CTRL_EN = true ∧ getB (zerosS n) Reg.CAL_CTRL_CSO_EN = true) ∧
    (getB (zerosS n) (hdrQUIESCE 0x4B) = false) ∧
    (4096 ≤ (reel (zerosS n) 0).zeros.length ∧ 4096 ≤ (reel (zerosS n) 1).zeros.length) ∧
    (List.replicate n (2 : Int) = (reel (zerosS n) 0).zeros.filterMap (fun z => z.map fun v => ((v % 4096 : Nat) : Int) - 2048) ∧ List.replicate n (2 : Int) ≠ []) ∧
    (List.replicate n (-1 : Int) = (reel (zerosS n) 1).zeros.filterMap (fun z => z.map fun v => ((v % 4096 : Nat) : Int) - 2048) ∧ List.replicate n (-1 : Int) ≠ []) ∧
    ((sumI (List.replicate n (2 : Int)) - (List.replicate n (2 : Int)).length * getS (zerosS n) Reg.CAL_CSO_REEL_A).natAbs ≤ 64 * (List.replicate n (2 : Int)).length ∧
      (sumI (List.replicate n (-1 : Int)) - (List.replicate n (-1 : Int)).length * getS (zerosS n) Reg.CAL_CSO_REEL_B).natAbs ≤ 64 * (List.replicate n (-1 : Int)).length) ∧
    ((Tbl.get 0 (zerosS n).cal.refCso 0 - getS (zerosS n) Reg.CAL_CSO_REEL_A).natAbs ≤ 62 ∧ (Tbl.get 0 (zerosS n).cal.refCso 1 - getS (zerosS n) Reg.CAL_CSO_REEL_B).natAbs ≤ 62) ∧
    (-2000 ≤ getS (zerosS n) Reg.CAL_CSO_REEL_A ∧ getS (zerosS n) Reg.CAL_CSO_REEL_A ≤ 2000 ∧ -2000 ≤ getS (zerosS n) Reg.CAL_CSO_REEL_B ∧ getS (zerosS n) Reg.CAL_CSO_REEL_B ≤ 2000) := by
  obtain ⟨h1, h2, h3, h4⟩ := zeros_on
  obtain ⟨o1, o2, o3, o4⟩ := zeros_offsets
  rw [zerosS_getB n Reg.POS_STATUS_STILL, zerosS_getB n Reg.CAL_CTRL_EN, zerosS_getB n Reg.CAL_CTRL_CSO_EN, zerosS_getB n (hdrQUIESCE 0x4B),
    zerosS_getS n Reg.CAL_CSO_REEL_A, zerosS_getS n Reg.CAL_CSO_REEL_B, zerosS_ref n 0, zerosS_ref n 1, h1, h2, h3, h4, o1, o2, o3, o4, zerosS_a, zerosS_b, offsets_replicate, offsets_replicate, sumI_replicate, sumI_replicate]
  simp only [List.length_replicate]
  refine ⟨⟨trivial, trivial, trivial⟩, trivial, ⟨h, h⟩, ⟨rfl, replicate_ne n _ (by omega)⟩, ⟨rfl, replicate_ne n _ (by omega)⟩, ?_, ?_, ?_⟩ <;> omega

/-! ## Witnesses -/

theorem witBusyMailboxWrites :
    (∃ (p : Nat) (k : Nat) (v : Word) (s : State), (k < mailboxSlots p) ∧ (getB s (mbBUSY p k) = true)) ∧
    (∃ (p : Nat) (k : Nat) (i : Nat) (v : Word) (s : State), (linkQuiet s = true) ∧ (k < mailboxSlots p) ∧ (i < 16) ∧ (getB s (mbBUSY p k) = true) ∧ (getB s (hdrLOCK p) = false)) :=
  ⟨⟨0x84, 3, 0x5A020103#32, st [(mbBUSY 0x84 3, 1)] s0, by decide +kernel⟩,
   ⟨0x84, 3, 15, 0x5A020103#32, st [(mbBUSY 0x84 3, 1)] s0, by decide +kernel⟩⟩

theorem witFullFifoWrite :
    ∃ (p : Nat) (account : Nat) (i : Nat) (n : Nat) (w : Word256) (c : Chk) (s : State), ((pageInfo p).isSome) ∧ ((fifo s i n).full = true) :=
  ⟨0x50, 3, 5, 3, 77#256, 5#24, setFifo 5 3 { fifoInit 3 with wr := 8, tokens := 0 } s0, by decide +kernel⟩

theorem witPositionLatch :
    ∃ (s : State) (t : State) (u : State), (exec (.loWordRead Reg.POS_NOW_LO.addr) s = .next t) ∧ (u.latch = t.latch) :=
  ⟨latchS, latchT, movedS latchT, by exact ⟨latch_next, latch_moved _⟩⟩

theorem witRegisterAccess :
    (∃ (addr : Nat) (v : Word) (s : State), (linkQuiet s = true) ∧ (pageInfo (wordAddr addr / 0x1000) = none)) ∧
    (∃ (i : Nat) (v : Word) (s : State), (linkQuiet s = true) ∧ (i < 4) ∧ (getB s (hdrLOCK 0) = false)) ∧
    (∃ (p : Nat) (v : Word) (s : State), (linkQuiet s = true) ∧ (p < 0x100) ∧ ((pageInfo p).isSome)) ∧
    (∃ (v : Word) (s : State), (linkQuiet s = true) ∧ (getB s (hdrLOCK 2) = false) ∧ (rwsLocked s = false)) ∧
    (∃ (v : Word) (s : State), (linkQuiet s = true) ∧ (getB s (hdrLOCK 2) = false) ∧ (rwsLocked s = true) ∧ (slice v.toNat 16 16 ≠ getF s Reg.SAFE_CFG_S1_TMAX)) ∧
    (∃ (p : Nat) (s : State), ((pageInfo p).isSome)) ∧
    (∃ (addr : Nat) (s : State), (hiOf addr = none)) ∧
    (∃ (s : State), (getB s Reg.FLT_LOG_WIN_ADDR_AUTOINC = true) ∧ (getF s Reg.FLT_LOG_WIN_ADDR_WORD < 7)) ∧
    (∃ (s : State), (getB s Reg.FLT_LOG_WIN_ADDR_AUTOINC = true) ∧ (getF s Reg.FLT_LOG_WIN_ADDR_WORD = 7)) ∧
    (∃ (s : State), (getB s Reg.FLT_LOG_WIN_ADDR_AUTOINC = false)) :=
  ⟨⟨0x13004, 5#32, s0, by decide +kernel⟩,
   ⟨2, 0xDEADBEEF#32, s0, by decide +kernel⟩,
   ⟨0x68, 0xDEADBEEF#32, s0, by decide +kernel⟩,
   ⟨0x01F40503#32, s0, by decide +kernel⟩,
   ⟨0x01F40503#32, sealedS, by decide +kernel⟩,
   ⟨0x20, st [(hdrERR_POS_HI 0x20, 0x1234)] s0, by decide +kernel⟩,
   ⟨0x40, s0, by decide +kernel⟩,
   ⟨st [(Reg.FLT_LOG_WIN_ADDR_WORD, 3), (Reg.FLT_LOG_WIN_ADDR_ENTRY, 9), (Reg.FLT_LOG_WIN_ADDR_AUTOINC, 1)] s0, by decide +kernel⟩,
   ⟨st [(Reg.FLT_LOG_WIN_ADDR_WORD, 7), (Reg.FLT_LOG_WIN_ADDR_ENTRY, 1023), (Reg.FLT_LOG_WIN_ADDR_AUTOINC, 1)] s0, by decide +kernel⟩,
   ⟨st [(Reg.FLT_LOG_WIN_ADDR_WORD, 7)] s0, by decide +kernel⟩⟩

theorem witPageControl :
    (∃ (s : State), (rwsLocked s = false) ∧ (pageRuns s 0x7E = false)) ∧
    (∃ (p : Nat) (s : State), (p = 0x7D ∨ p = 0x7E) ∧ (rwsLocked s = false) ∧ (pageRuns s p = true)) ∧
    (∃ (p : Nat) (en : Bool) (s : State), (∃ i ∈ pageInfo p, i.enCtl = true) ∧ (rwsLocked s = true) ∧ (pageRuns s p = !en)) ∧
    (∃ (p : Nat) (s : State), (∃ i ∈ pageInfo p, i.quiesce = true) ∧ (getB s (hdrLOCK p) = false)) ∧
    (∃ (p : Nat) (s : State), (∃ i ∈ pageInfo p, i.quiesce = true) ∧ (p ≠ 0x50) ∧ (getB s (hdrLOCK p) = false)) ∧
    (∃ (p : Nat) (on : Bool) (s : State), (∃ i ∈ pageInfo p, i.quiesce = true) ∧ (getB s (hdrLOCK p) = true)) ∧
    (∃ (b : Nat) (s : State), (b < 8) ∧ (getB s (hdrQUIESCE (bseqPage b)) = true) ∧ ((band s b).running = false)) ∧
    (∃ (b : Nat) (s : State), (b < 8) ∧ ((band s b).running = true)) ∧
    (∃ (p : Nat) (s : State), ((pageInfo p).isSome) ∧ (isSealed s = true)) ∧
    (∃ (p : Nat) (s : State), (isSealed s = false)) :=
  ⟨⟨st [(hdrEN 0x7E, 0), (Reg.BIN_WIN_ADDR_BIN, 5)] s0, by decide +kernel⟩,
   ⟨0x7D, s0, by decide +kernel⟩,
   ⟨0x0A, false, sealedS, by decide +kernel⟩,
   ⟨0x4B, s0, by decide +kernel⟩,
   ⟨0x14, st [(hdrQUIESCE 0x14, 1), (hdrQUIESCED 0x14, 1)] s0, by decide +kernel⟩,
   ⟨0x51, true, st [(hdrLOCK 0x51, 1)] s0, by decide +kernel⟩,
   ⟨3, st [(hdrQUIESCE 0x17, 1)] s0, by decide +kernel⟩,
   ⟨3, setBand 3 { (band s0 3) with running := true } (st [(hdrQUIESCE 0x17, 1)] s0), by decide +kernel⟩,
   ⟨0x20, sealedS, by decide +kernel⟩,
   ⟨0x20, s0, by decide +kernel⟩⟩

theorem witEventForceAndClear :
    (∃ (p : Nat) (s : State), ((pageInfo p).isSome)) ∧
    (∃ (p : Nat) (s : State), ((pageInfo p).isNone)) ∧
    (∃ (b : Nat) (v : Word) (s : State), (b < 8) ∧ (getB s (hdrLOCK (rchPage b)) = false)) ∧
    (∃ (b : Nat) (v : Word) (s : State), (b < 8) ∧ (getB s (hdrLOCK (rchPage b)) = false)) ∧
    (∃ (b : Nat) (v : Word) (s : State), (b < 9) ∧ (pageRuns s (servoPage b) = true) ∧ (getB s (hdrLOCK (servoPage b)) = false)) ∧
    (∃ (b : Nat) (v : Word) (s : State), (b < 9) ∧ (pageRuns s (servoPage b) = true) ∧ (getB s (hdrLOCK (servoPage b)) = false)) ∧
    (∃ (v : Word) (s : State), (getB s (hdrLOCK 0x4B) = false)) ∧
    (∃ (v : Word) (s : State), (getB s (hdrLOCK 0x7C) = false)) ∧
    (∃ (v : Word) (s : State), (getB s (hdrLOCK 0x7C) = false)) ∧
    (∃ (a : Nat) (v : Word) (s : State), (isStg a = false)) :=
  ⟨⟨0x01, markEvent 0x01 2 0x4001 false s0, by decide +kernel⟩,
   ⟨0x07, s0, by decide +kernel⟩,
   ⟨3, 0x1234567#32, s0, by decide +kernel⟩,
   ⟨3, 0x1234567#32, s0, by decide +kernel⟩,
   ⟨3, 0x01800A00#32, st [(hdrEN 0x0C, 1)] s0, by decide +kernel⟩,
   ⟨3, 0x01800A00#32, st [(hdrEN 0x0C, 1)] s0, by decide +kernel⟩,
   ⟨0x00051234#32, s0, by decide +kernel⟩,
   ⟨0x1234#32, s0, by decide +kernel⟩,
   ⟨0x1234#32, s0, by decide +kernel⟩,
   ⟨0x7C080, 0x1234#32, s0, by decide +kernel⟩⟩

theorem witMailboxesAndFifos :
    (∃ (p : Nat) (k : Nat) (v : Word) (s : State), (k < mailboxSlots p) ∧ (getB s (mbBUSY p k) = false) ∧ (getB s (hdrLOCK p) = false)) ∧
    (∃ (p : Nat) (k : Nat) (res : List Word) (s : State), (k < mailboxSlots p) ∧ (mailboxCoreRuns p k s = true) ∧ (getB s (mbBUSY p k) = true) ∧ (mailboxDefined p (Tbl.get { opcode := 0, args := 0, tag := 0, arg := [] } s.core.mailbox (mbKey p k)).opcode = false)) ∧
    (∃ (p : Nat) (k : Nat) (res : List Word) (s : State), (getB s (mbBUSY p k) = false ∨ mailboxCoreRuns p k s = false ∨ mailboxSlots p ≤ k ∨ mailboxDefined p (Tbl.get { opcode := 0, args := 0, tag := 0, arg := [] } s.core.mailbox (mbKey p k)).opcode = true)) ∧
    (∃ (p : Nat) (account : Nat) (i : Nat) (n : Nat) (w : Word256) (c : Chk) (s : State), ((fifo s i n).tokens ≠ 0) ∧ ((fifo s i n).full = false)) ∧
    (∃ (p : Nat) (account : Nat) (i : Nat) (n : Nat) (w : Word256) (c : Chk) (s : State), ((fifo s i n).tokens = 0)) ∧
    (∃ (i : Nat) (n : Nat) (unit : Nat) (row : Nat) (upset : Word256 × Chk) (s : State), ((fifo s i n).empty = false) ∧ (wDecode (((fifo s i n).entries.headD (0, 0)).1 ^^^ upset.1) (((fifo s i n).entries.headD (0, 0)).2 ^^^ upset.2) = .clean)) ∧
    (∃ (i : Nat) (n : Nat) (unit : Nat) (row : Nat) (upset : Word256 × Chk) (s : State), ((fifo s i n).empty = false) ∧ (unit < 288) ∧ (row < 8192) ∧ (wDecode (((fifo s i n).entries.headD (0, 0)).1 ^^^ upset.1) (((fifo s i n).entries.headD (0, 0)).2 ^^^ upset.2) = .uncorrectable)) ∧
    (∃ (i : Nat) (n : Nat) (unit : Nat) (row : Nat) (upset : Word256 × Chk) (s : State), ((fifo s i n).empty = true)) :=
  ⟨⟨0x84, 3, 0x5A020103#32, s0, by decide +kernel⟩,
   ⟨0x83, 2, [7#32, 9#32], st [(mbBUSY 0x83 2, 1), (Reg.CLU_RUN_MOT, 15)] s0, by decide +kernel⟩,
   ⟨0x82, 0, [7#32], setCore { s0.core with mailbox := [(mbKey 0x82 0, { opcode := 0x0102, args := 0, tag := 9, arg := [] })] } (st [(mbBUSY 0x82 0, 1), (Reg.CLU_RUN_SECU, 1)] s0), by decide +kernel⟩,
   ⟨0x50, 3, 5, 3, 77#256, 5#24, s0, by decide +kernel⟩,
   ⟨0x50, 3, 5, 3, 77#256, 5#24, setFifo 5 3 { fifoInit 3 with tokens := 0 } s0, by decide +kernel⟩,
   ⟨5, 3, 7, 100, (0, 0), setFifo 5 3 ((fifoInit 3).push true (77#256, wChk 77#256)) s0, by decide +kernel⟩,
   ⟨5, 3, 7, 100, (0x010203#256, 0), setFifo 5 3 ((fifoInit 3).push true (77#256, wChk 77#256)) s0, by decide +kernel⟩,
   ⟨5, 3, 7, 100, (0, 0), s0, by decide +kernel⟩⟩

theorem witCoreAndHopFaults :
    (∃ (i : Nat) (s : State), (i < 4)) ∧
    (∃ (p : Nat) (account : Nat) (w : Word256) (s : State), (wDecode w (wChk w) = .clean)) ∧
    (∃ (p : Nat) (account : Nat) (w : Word256) (c : Chk) (s : State), (wDecode w c = .poisoned)) ∧
    (∃ (p : Nat) (account : Nat) (w : Word256) (w' : Word256) (c : Chk) (c' : Chk) (s : State), ((pageInfo p).isSome) ∧ (wDecode w c = .single w' c')) ∧
    (∃ (p : Nat) (account : Nat) (w : Word256) (c : Chk) (s : State), ((pageInfo p).isSome) ∧ (wDecode w c = .uncorrectable)) :=
  ⟨⟨2, st [(Reg.CLU_RUN_MOT, 15)] s0, by decide +kernel⟩,
   ⟨0x50, 3, 0x1234567#256, s0, by decide +kernel⟩,
   ⟨0x50, 3, 0, poisonMask, s0, by decide +kernel⟩,
   ⟨0x50, 3, 1, 0, 0, 0, s0, by decide +kernel⟩,
   ⟨0x50, 3, 0x010203#256, 0, s0, by decide +kernel⟩⟩

theorem witServoReaders :
    (∃ (b : Nat) (r : Nat) (y : BitVec 64) (tone : Nat) (pa : Nat) (pb : Nat) (pc : Nat) (pd : Nat) (stripe : Nat) (frame : Nat) (v : Int) (s : State), (b < 9) ∧ (r < 2) ∧ (pageRuns s (servoPage b) = true) ∧ (getF s (slState r) = 4) ∧ (servoIdentity b (recordedSymbols s y) = some (stripe, frame)) ∧ (lateral stripe pa pb pc pd (getF s (svKab b r)) (getF s (svKcd b r)) = some v) ∧ ((reader s b r).hasLat = false ∨ (v - getS s (svLat b r)).natAbs ≤ 768)) ∧
    (∃ (b : Nat) (r : Nat) (y : BitVec 64) (tone : Nat) (pa : Nat) (pb : Nat) (pc : Nat) (pd : Nat) (stripe : Nat) (frame : Nat) (v : Int) (s : State), (b < 9) ∧ (r < 2) ∧ (pageRuns s (servoPage b) = true) ∧ (getF s (slState r) = 4) ∧ (servoIdentity b (recordedSymbols s y) = some (stripe, frame)) ∧ (lateral stripe pa pb pc pd (getF s (svKab b r)) (getF s (svKcd b r)) = some v) ∧ ((reader s b r).hasLat = true) ∧ ((reader s b r).held = false) ∧ (768 < (v - getS s (svLat b r)).natAbs)) ∧
    (∃ (b : Nat) (r : Nat) (y : BitVec 64) (tone : Nat) (pa : Nat) (pb : Nat) (pc : Nat) (pd : Nat) (s : State), (b < 9) ∧ (r < 2) ∧ (pageRuns s (servoPage b) = true) ∧ (getF s (slState r) = 4) ∧ (servoIdentity b (recordedSymbols s y) = none) ∧ ((reader s b r).hasStripe = false)) ∧
    (∃ (l : Nat) (blocks : List (BitVec 64)) (s : State), (l < 2) ∧ (getF s (slState l) = 4) ∧ (servoBurstOk l blocks = true) ∧ (s.pos.expect.all fun e => e.1 != l || e.2 == (blocks.headD 0).toNat / 2 ^ 32)) ∧
    (∃ (blocks : List (BitVec 64)) (s : State), (getF s (slState 0) = 4) ∧ (pageRuns s 0x08 = true) ∧ (getB s Reg.POS_CTRL_EN = true) ∧ (getB s Reg.POS_STATUS_COARSE = false) ∧ (pllReaders s = [])) ∧
    (∃ (l : Nat) (blocks : List (BitVec 64)) (s : State), (l < 2) ∧ (getF s (slState l) = 4) ∧ (servoBurstOk l blocks = false)) :=
  ⟨⟨3, 0, servoY, 800, 600, 400, 1, 1, 36, 1204014, 36941, servoS, by decide +kernel⟩,
   ⟨3, 0, servoY, 800, 600, 400, 1, 1, 36, 1204014, 36941, setReader 3 0 { hasLat := true } servoS, by decide +kernel⟩,
   ⟨2, 1, 0, 800, 600, 400, 1, 1, servoS, by decide +kernel⟩,
   ⟨1, goodBurst, servoS, by decide +kernel⟩,
   ⟨[1, 2, 3], st [(Reg.POS_CTRL_EN, 1), (Reg.POS_SPEED, 5000000)] { servoS with pos := { servoS.pos with tick := 9 } }, by decide +kernel⟩,
   ⟨0, [1, 2, 3], servoS, by decide +kernel⟩⟩

theorem witPositionLoss :
    (∃ (s : State), (getB s Reg.POS_STATUS_LOCKED = true) ∧ (4 ≤ s.pos.bad ∨ 2 ≤ s.pos.short)) ∧
    (∃ (w : Nat) (s : State), (getB s Reg.POS_STATUS_LOCKED = true) ∧ (4 ≤ s.pos.bad ∨ 2 ≤ s.pos.short) ∧ (setEmits s = true) ∧ (s.fmt.writing = some w) ∧ ((dataSet s w).isSome) ∧ ((List.range 8).all fun b => (band s b).windows.isEmpty)) ∧
    (∃ (s : State), (getB s Reg.POS_STATUS_LOCKED = false ∨ (s.pos.bad < 4 ∧ s.pos.short < 2))) ∧
    (∃ (m : Nat) (s : State), (3 ≤ s.pos.disagree) ∧ (s.pos.majority = some m) ∧ (getB s Reg.POS_STATUS_COARSE = false ∨ 8 < ((m : Int) - s.pos.frame).natAbs)) ∧
    (∃ (m : Nat) (s : State), (3 ≤ s.pos.disagree) ∧ (s.pos.majority = some m) ∧ (getB s Reg.POS_STATUS_COARSE = true) ∧ (((m : Int) - s.pos.frame).natAbs ≤ 8)) ∧
    (∃ (s : State), (s.pos.disagree < 3 ∨ s.pos.majority = none)) ∧
    (∃ (s : State), (64 ≤ s.pos.noId)) ∧
    (∃ (s : State), (s.pos.noId < 64)) :=
  ⟨⟨{ busyS with pos := { busyS.pos with bad := 4 } }, by decide +kernel⟩,
   ⟨5, { calmS with pos := { calmS.pos with short := 2 } }, by decide +kernel⟩,
   ⟨busyS, by decide +kernel⟩,
   ⟨700, { busyS with pos := { busyS.pos with disagree := 3, majority := some 700, frame := 9 } }, by decide +kernel⟩,
   ⟨700, st [(Reg.POS_STATUS_COARSE, 1)] { busyS with pos := { busyS.pos with disagree := 3, majority := some 700, frame := 703 } }, by decide +kernel⟩,
   ⟨s0, by decide +kernel⟩,
   ⟨{ busyS with pos := { busyS.pos with noId := 64 } }, by decide +kernel⟩,
   ⟨s0, by decide +kernel⟩⟩

theorem witCoarseCountingAndStandstill :
    (∃ (v : Int) (s : State), (getB s Reg.POS_CTRL_EN = true) ∧ (getB s Reg.POS_STATUS_COARSE = false) ∧ (v.natAbs < 200000)) ∧
    (∃ (v : Int) (s : State), (getB s Reg.POS_CTRL_EN = false ∨ getB s Reg.POS_STATUS_COARSE = true ∨ 200000 ≤ v.natAbs)) ∧
    (∃ (v : Int) (m : Nat) (s : State), (getB s Reg.POS_STATUS_COARSE = true) ∧ (300000 < v.natAbs) ∧ (v.natAbs < 2 ^ 31) ∧ (lockOk s = true) ∧ (s.pos.majority = some m) ∧ (((m : Int) - s.pos.frame).natAbs ≤ 8)) ∧
    (∃ (v : Int) (s : State), (getB s Reg.POS_STATUS_COARSE = false ∨ v.natAbs ≤ 300000 ∨ lockOk s = false ∨ s.pos.majority = none)) ∧
    (∃ (s : State), (getB s Reg.POS_STATUS_COARSE = true) ∧ (getB s Reg.POS_STATUS_LOCKED = false) ∧ (getF s Reg.POS_RELOCK_FRM ≤ s.pos.coarseRun) ∧ (s.pos.retried = false)) ∧
    (∃ (x : ExecSt) (s : State), (getB s Reg.POS_STATUS_COARSE = true) ∧ (getB s Reg.POS_STATUS_LOCKED = false) ∧ (getF s Reg.POS_RELOCK_FRM ≤ s.pos.coarseRun) ∧ (s.pos.retried = true) ∧ (s.fmt.running = false ∧ s.fmt.writing = none ∧ s.fmt.repos = none) ∧ (mayFinish x s = true) ∧ (touchesMedium (dOpcode x.entry.desc) = true)) ∧
    (∃ (s : State), (getB s Reg.POS_STATUS_COARSE = false ∨ getB s Reg.POS_STATUS_LOCKED = true ∨ s.pos.coarseRun < getF s Reg.POS_RELOCK_FRM)) ∧
    (∃ (rev : Bool) (v : Int) (s : State), (getB s Reg.POS_STATUS_STILL = true) ∧ (v.natAbs < 2 ^ 31)) ∧
    (∃ (rev : Bool) (v : Int) (s : State), (getB s Reg.POS_STATUS_STILL = false)) ∧
    (∃ (v : Int) (s : State), (pageRuns s 0x08 = true) ∧ (getB s Reg.POS_CTRL_EN = true) ∧ (getB s Reg.POS_STATUS_STILL = false) ∧ (getB s Reg.POS_STATUS_STALE = false) ∧ (getB s Reg.POS_STATUS_COARSE = false) ∧ (v ≠ 0) ∧ (v.natAbs < 2 ^ 31)) ∧
    (∃ (v : Int) (late : List Nat) (s : State), (getB s Reg.POS_CTRL_EN = false ∨ getB s Reg.POS_STATUS_STILL = true)) :=
  ⟨⟨-150000, st [(Reg.POS_CTRL_EN, 1), (Reg.POS_STATUS_LOCKED, 1)] s0, by decide +kernel⟩,
   ⟨250000, st [(Reg.POS_CTRL_EN, 1)] s0, by decide +kernel⟩,
   ⟨400000, 103, { readersS with pos := { readersS.pos with frame := 100, majority := some 103, sqHist := List.replicate 16 (9, 64) } }, by decide +kernel⟩,
   ⟨400000, readersS, by decide +kernel⟩,
   ⟨st [(Reg.POS_STATUS_COARSE, 1)] { s0 with pos := { s0.pos with frame := 5000, coarseRun := 70000 } }, by decide +kernel⟩,
   ⟨readX, st [(Reg.POS_STATUS_COARSE, 1)] { (execS readX s0) with pos := { s0.pos with retried := true, coarseRun := 70000 } }, by decide +kernel⟩,
   ⟨s0, by decide +kernel⟩,
   ⟨true, -20000, st [(Reg.POS_STATUS_STILL, 1)] s0, by decide +kernel⟩,
   ⟨true, -20000, st [(Reg.POS_STATUS_STILL, 0)] s0, by decide +kernel⟩,
   ⟨-5000000, st [(Reg.POS_CTRL_EN, 1), (Reg.LAT_OFS_STG, 0x1234), (Reg.POS_STATUS_STILL, 0), (Reg.POS_STATUS_STALE, 0)] { s0 with pos := { s0.pos with frame := 41, votes := [41, 7, 41] } }, by decide +kernel⟩,
   ⟨5000000, [], s0, by decide +kernel⟩⟩

theorem witLinkTraining :
    (∃ (l : Nat) (d : Nat) (x : BitVec 64) (s : State), (l < 98) ∧ (getF s (linkState l) = 0) ∧ (getB s (linkEnable l) = true) ∧ (linkWanted s l = true)) ∧
    (∃ (l : Nat) (d : Nat) (x : BitVec 64) (s : State), (getF s (linkState l) = 0) ∧ (getB s (linkEnable l) = false)) ∧
    (∃ (l : Nat) (d : Nat) (x : BitVec 64) (s : State), (l < 98) ∧ (getF s (linkState l) = 1)) ∧
    (∃ (l : Nat) (d : Nat) (x : BitVec 64) (s : State), (l < 96) ∧ (getF s (linkState l) = 2)) ∧
    (∃ (n : Nat) (d : Nat) (x : BitVec 64) (s : State), (n < 32) ∧ (getF s (linkState (3 * n)) = 3) ∧ (x.toNat % 256 = 0xE1)) ∧
    (∃ (n : Nat) (m : Nat) (d : Nat) (x : BitVec 64) (s : State), (n < 32) ∧ (m < 2) ∧ (getF s (linkState (3 * n + 1 + m)) = 3) ∧ (getB s (linkEnable (3 * n + 1 + m)) = true) ∧ (s.fmt.running = false) ∧ (x.toNat % 256 = 0xE1)) ∧
    (∃ (r : Nat) (d : Nat) (x : BitVec 64) (s : State), (r < 2) ∧ (getF s (slState r) = 2) ∧ (x.toNat % 256 = 0xB4)) ∧
    (∃ (l : Nat) (d : Nat) (x : BitVec 64) (s : State), (l < 98) ∧ (4 ≤ getF s (linkState l) ∨ (getF s (linkState l) = 3 ∧ x.toNat % 256 ≠ 0xE1))) ∧
    (∃ (l : Nat) (s : State), (l < 96) ∧ (getF s (linkState l) = 1 ∨ getF s (linkState l) = 2 ∨ getF s (linkState l) = 3) ∧ (linkAttempts s l < 3)) ∧
    (∃ (l : Nat) (s : State), (l < 96) ∧ (getF s (linkState l) = 1 ∨ getF s (linkState l) = 2 ∨ getF s (linkState l) = 3) ∧ (3 ≤ linkAttempts s l) ∧ (s.fmt.running = false ∧ s.fmt.repos = none)) ∧
    (∃ (l : Nat) (s : State), (l < 96) ∧ (l % 3 ≠ 0 ∨ setEmits s = false) ∧ (getF s (linkState l) = 4)) ∧
    (∃ (n : Nat) (s : State), (n < 32) ∧ (setEmits s = true) ∧ (getF s (linkState (3 * n)) = 4)) ∧
    (∃ (r : Nat) (s : State), (r < 2) ∧ (getF s (slState r) = 4)) ∧
    (∃ (l : Nat) (s : State), (getF s (linkState l) ≠ 4)) :=
  ⟨⟨3, 0, 0, st [(linkEnable 3, 1)] s0, by decide +kernel⟩,
   ⟨3, 0, 0, s0, by decide +kernel⟩,
   ⟨5, 0, 0, st [(linkState 5, 1)] s0, by decide +kernel⟩,
   ⟨5, 0, 0, st [(linkState 5, 2)] s0, by decide +kernel⟩,
   ⟨4, 77, 0x12E1, st [(linkState 12, 3)] s0, by decide +kernel⟩,
   ⟨4, 1, 77, 0x12E1, st [(linkState 14, 3), (linkEnable 14, 1)] s0, by decide +kernel⟩,
   ⟨1, 0, 0x1B4, st [(slState 1, 2)] s0, by decide +kernel⟩,
   ⟨5, 0, 0x1E, st [(linkState 5, 3)] s0, by decide +kernel⟩,
   ⟨6, st [(linkState 6, 3)] s0, by decide +kernel⟩,
   ⟨6, setAttempts 6 3 (st [(linkState 6, 3)] s0), by decide +kernel⟩,
   ⟨7, st [(linkState 7, 4)] s0, by decide +kernel⟩,
   ⟨2, st [(linkState 6, 4)] busyS, by decide +kernel⟩,
   ⟨0, servoS, by decide +kernel⟩,
   ⟨5, s0, by decide +kernel⟩⟩

theorem witLinkPermissionAndManagement :
    (∃ (n : Nat) (dl : Bool) (u0 : Bool) (u1 : Bool) (s : State), (n < 32) ∧ (getB s (hdrLOCK (hfePage n)) = false) ∧ (dl = true ∨ getF s (Reg.CL_STATE_DL n) ≠ 4 ∨ setEmits s = false)) ∧
    (∃ (n : Nat) (u0 : Bool) (u1 : Bool) (s : State), (n < 32) ∧ (getB s (hdrLOCK (hfePage n)) = false) ∧ (getF s (Reg.CL_STATE_DL n) = 4) ∧ (setEmits s = true)) ∧
    (∃ (n : Nat) (dl : Bool) (u0 : Bool) (u1 : Bool) (s : State), (n < 32) ∧ (getB s (hdrLOCK (hfePage n)) = true)) ∧
    (∃ (n : Nat) (s : State), (n < 32) ∧ (getB s (hdrLOCK (hfePage n)) = false) ∧ (getF s (Reg.CL_STATE_DL n) ≠ 4 ∨ setEmits s = false) ∧ (s.fmt.running = false)) ∧
    (∃ (n : Nat) (b : BitVec 64) (r : MgmtReq) (s : State), (n < 32) ∧ (b.toNat % 256 = 0x69) ∧ (crc8Ok b = true) ∧ ((hfeSt s n).out.find? (fun r => r.tag == slice b.toNat 9 7 && r.addr % 256 == slice b.toNat 16 8) = some r) ∧ (r.write = true ∨ b.toNat.testBit 8 = true) ∧ ((hfeSt s n).wait = [])) ∧
    (∃ (n : Nat) (w : Nat) (b : BitVec 64) (r : MgmtReq) (s : State), (n < 32) ∧ (w < 16) ∧ (b.toNat % 256 = 0x69) ∧ (crc8Ok b = true) ∧ (b.toNat.testBit 8 = false) ∧ ((hfeSt s n).out.find? (fun r => r.tag == slice b.toNat 9 7 && r.addr % 256 == slice b.toNat 16 8) = some r) ∧ (r.write = false) ∧ (4 * r.addr = 0x108 + 0x10 * w)) ∧
    (∃ (n : Nat) (j : Nat) (b : BitVec 64) (r : MgmtReq) (s : State), (n < 32) ∧ (j < 32) ∧ (b.toNat % 256 = 0x69) ∧ (crc8Ok b = true) ∧ (b.toNat.testBit 8 = false) ∧ ((hfeSt s n).out.find? (fun r => r.tag == slice b.toNat 9 7 && r.addr % 256 == slice b.toNat 16 8) = some r) ∧ (r.write = false) ∧ (4 * r.addr = 0x204 + 8 * j)) ∧
    (∃ (n : Nat) (b : BitVec 64) (s : State), (32 ≤ n ∨ b.toNat % 256 ≠ 0x69 ∨ crc8Ok b = false ∨ (hfeSt s n).out.find? (fun r => r.tag == slice b.toNat 9 7 && r.addr % 256 == slice b.toNat 16 8) = none)) ∧
    (∃ (n : Nat) (tag : Nat) (r : MgmtReq) (s : State), (n < 32) ∧ ((hfeSt s n).out.find? (fun r => r.tag == tag) = some r) ∧ (r.tries < 2)) ∧
    (∃ (n : Nat) (tag : Nat) (r : MgmtReq) (s : State), (n < 32) ∧ ((hfeSt s n).out.find? (fun r => r.tag == tag) = some r) ∧ (2 ≤ r.tries) ∧ (setEmits s = false)) ∧
    (∃ (n : Nat) (tag : Nat) (s : State), ((hfeSt s n).out.find? (fun r => r.tag == tag) = none)) :=
  ⟨⟨9, true, false, true, st [(linkState 27, 4), (linkState 28, 4)] s0, by decide +kernel⟩,
   ⟨9, false, true, st [(linkState 27, 4)] busyS, by decide +kernel⟩,
   ⟨9, true, false, true, st [(hdrLOCK 0x29, 1)] s0, by decide +kernel⟩,
   ⟨4, st [(Reg.CL_CTRL_DL_EN 4, 1), (Reg.CL_CTRL_UL0_EN 4, 1), (Reg.CL_STATE_UL0 4, 4)] s0, by decide +kernel⟩,
   ⟨8, withCrc8 (0x69 + 5 * 2 ^ 9 + 3 * 2 ^ 16), { tag := 5, write := true, addr := 3, data := 9, tries := 1 }, setHfe 8 { out := [{ tag := 5, write := true, addr := 3, data := 9, tries := 1 }] } s0, by decide +kernel⟩,
   ⟨8, 3, withCrc8 (0x69 + 5 * 2 ^ 9 + 0x4E * 2 ^ 16 + 5 * 2 ^ 24), { tag := 5, write := false, addr := 0x4E, data := 0, tries := 0 }, setHfe 8 { out := [{ tag := 5, write := false, addr := 0x4E, data := 0, tries := 0 }] } s0, by decide +kernel⟩,
   ⟨8, 3, withCrc8 (0x69 + 5 * 2 ^ 9 + 0x87 * 2 ^ 16 + 1 * 2 ^ 24), { tag := 5, write := false, addr := 0x87, data := 0, tries := 0 }, setHfe 8 { out := [{ tag := 5, write := false, addr := 0x87, data := 0, tries := 0 }] } s0, by decide +kernel⟩,
   ⟨8, withCrc8 (0x69 + 5 * 2 ^ 9 + 3 * 2 ^ 16), s0, by decide +kernel⟩,
   ⟨8, 5, { tag := 5, write := true, addr := 3, data := 9, tries := 1 }, setHfe 8 { out := [{ tag := 5, write := true, addr := 3, data := 9, tries := 1 }] } s0, by decide +kernel⟩,
   ⟨8, 5, { tag := 5, write := true, addr := 3, data := 9, tries := 2 }, setHfe 8 { out := [{ tag := 5, write := true, addr := 3, data := 9, tries := 2 }] } s0, by decide +kernel⟩,
   ⟨8, 5, s0, by decide +kernel⟩⟩

theorem witDownlinkBursts :
    (∃ (n : Nat) (frame : Nat) (bit : Nat) (corr : Int) (s : State), (n < 32) ∧ (getF s (Reg.CL_STATE_DL n) = 4) ∧ ((band s (n / 4)).gateOpen = false) ∧ (inMain s (n / 4) = false ∨ wgClosedBy s (n / 4) &&& 0x56 = 0)) ∧
    (∃ (n : Nat) (frame : Nat) (bit : Nat) (corr : Int) (s : State), (n < 32) ∧ (getF s (Reg.CL_STATE_DL n) = 4) ∧ (wgClosedBy s (n / 4) = 0) ∧ ((band s (n / 4)).emissions = [])) ∧
    (∃ (n : Nat) (w : Nat) (frame : Nat) (bit : Nat) (corr : Int) (s : State), (w < 16) ∧ ((writerMask s n).testBit w = true) ∧ (bit < frameBits s (n / 4) (brdBits s (n / 4) (band s (n / 4)).cur) frame) ∧ ((streamBit s (n / 4) (16 * (n % 4) + w) frame bit).isSome = true) ∧ (n < 32) ∧ (getF s (Reg.CL_STATE_DL n) = 4) ∧ ((band s (n / 4)).gateOpen = true) ∧ (wgClosedBy s (n / 4) = 0)) ∧
    (∃ (n : Nat) (frame : Nat) (bit : Nat) (corr : Int) (s : State), (n < 32) ∧ (getF s (Reg.CL_STATE_DL n) ≠ 4) ∧ ((band s (n / 4)).gateOpen = false) ∧ (inMain s (n / 4) = false ∨ wgClosedBy s (n / 4) &&& 0x56 = 0)) ∧
    (∃ (n : Nat) (frame : Nat) (bit : Nat) (corr : Int) (s : State), (n < 32) ∧ ((band s (n / 4)).gateOpen = true) ∧ (wgClosedBy s (n / 4) ≠ 0)) :=
  ⟨⟨5, 1000, 32, 0, setHfe 5 { blocks := [7] } (st [(linkState 15, 4)] s0), by decide +kernel⟩,
   ⟨5, 1000, 32, 0, setBand 1 { (band openS 1) with emissions := [] } openS, by decide +kernel⟩,
   ⟨5, 3, 200000, 32, 0, openS, by decide +kernel⟩,
   ⟨5, 1000, 32, 0, s0, by decide +kernel⟩,
   ⟨5, 1000, 32, 0, st [(linkState 15, 4)] busyS, by decide +kernel⟩⟩

theorem witBoardArmStartStop :
    (∃ (b : Nat) (i : Nat) (s : State), (b < 8) ∧ (i < 2) ∧ (getB s (hdrLOCK (bseqPage b)) = false) ∧ (getB s (Reg.BRD_CTRL_EN b) = true) ∧ (((band s b).buf i).armed = false) ∧ ((band s b).running = false ∨ (band s b).cur ≠ i) ∧ (boardCheck s b i = none)) ∧
    (∃ (b : Nat) (i : Nat) (code : Nat) (index : Nat) (s : State), (b < 8) ∧ (i < 2) ∧ (getB s (hdrLOCK (bseqPage b)) = false) ∧ (getB s (Reg.BRD_CTRL_EN b) = true) ∧ (((band s b).buf i).armed = false) ∧ ((band s b).running = false ∨ (band s b).cur ≠ i) ∧ (boardCheck s b i = some (code, index)) ∧ (((band s b).buf i).dsn = none)) ∧
    (∃ (b : Nat) (s : State), (b < 8) ∧ (getB s (hdrLOCK (bseqPage b)) = false) ∧ (getB s (Reg.BRD_CTRL_EN b) = true) ∧ (getB s (hdrQUIESCE (bseqPage b)) = false) ∧ ((band s b).running = false) ∧ ((band s b).a.armed = true ∨ (band s b).b.armed = true)) ∧
    (∃ (b : Nat) (s : State), (b < 8) ∧ (getB s (hdrLOCK (bseqPage b)) = false)) ∧
    (∃ (b : Nat) (i : Nat) (s : State), (b < 8) ∧ (i < 2) ∧ (getB s (hdrLOCK (bseqPage b)) = false) ∧ (((band s b).buf i).armed = true) ∧ ((band s b).running = false ∨ (band s b).cur ≠ i) ∧ (s.fmt.sets.all (fun d => !d.compiled) = true)) ∧
    (∃ (b : Nat) (i : Nat) (s : State), (b < 8) ∧ (i < 2) ∧ (getB s (hdrLOCK (bseqPage b)) = false) ∧ (((band s b).buf i).armed = true) ∧ ((band s b).running = false ∨ (band s b).cur ≠ i)) ∧
    (∃ (b : Nat) (s : State), (b < 8) ∧ (getB s (hdrLOCK (bseqPage b)) = false) ∧ ((List.range 8).all (fun i => !(band s i).running) = true) ∧ (mediumQueued s = false)) ∧
    (∃ (b : Nat) (s : State), (getB s (hdrLOCK (bseqPage b)) = false) ∧ (mediumQueued s = true)) :=
  ⟨⟨3, 1, boardS 3 1, by decide +kernel⟩,
   ⟨3, 1, 9, 0, st [(Reg.BRD_CTRL_EN 3, 1)] s0, by decide +kernel⟩,
   ⟨3, setBand 3 { (band (boardS 3 1) 3) with b := { (band (boardS 3 1) 3).b with armed := true } } (boardS 3 1), by decide +kernel⟩,
   ⟨3, calmS, by decide +kernel⟩,
   ⟨3, 1, setFmt { busyS.fmt with sets := [] } busyS, by decide +kernel⟩,
   ⟨3, 1, busyS, by decide +kernel⟩,
   ⟨6, s0, by decide +kernel⟩,
   ⟨6, busyS, by decide +kernel⟩⟩

theorem witBoardCourse :
    (∃ (b : Nat) (s : State), (b < 8) ∧ ((band s b).running = true) ∧ ((band s b).hold = true) ∧ (getB s Reg.POS_STATUS_STILL = false) ∧ (waitOk s b (band s b).cur = true) ∧ (brdRead s b (band s b).cur = false)) ∧
    (∃ (b : Nat) (s : State), (b < 8) ∧ ((band s b).running = true) ∧ ((band s b).hold = true) ∧ (getB s Reg.POS_STATUS_STILL = false) ∧ (waitOk s b (band s b).cur = false) ∧ (((band s b).buf (band s b).cur).dsn = none)) ∧
    (∃ (b : Nat) (n : Nat) (s : State), (b < 8) ∧ ((band s b).running = true) ∧ ((band s b).hold = true) ∧ (getB s Reg.POS_STATUS_STILL = false) ∧ (waitOk s b (band s b).cur = false) ∧ (((band s b).buf (band s b).cur).dsn = some n) ∧ ((band s b).second = false)) ∧
    (∃ (b : Nat) (q : Square) (s : State), (squareNow s b 0x0B = some q) ∧ ((band s b).loops = [])) ∧
    (∃ (b : Nat) (q : Square) (l : LoopSt) (s : State), (squareNow s b 0x0B = some q) ∧ ((band s b).loops = [l]) ∧ (l.at_ = (band s b).index) ∧ (l.left ≠ 0)) ∧
    (∃ (b : Nat) (q : Square) (l : LoopSt) (s : State), (squareNow s b 0x0B = some q) ∧ ((band s b).loops = [l]) ∧ (l.at_ = (band s b).index) ∧ (l.left = 0)) ∧
    (∃ (b : Nat) (q : Square) (s : State), (squareNow s b 0x0C = some q) ∧ (q.arg0 = 1) ∧ ((band s b).cur = 0) ∧ ((band s b).a.dsn = none ∧ (band s b).b.dsn = none) ∧ ((band s b).b.armed = true) ∧ (8192 ≤ (squarePos s b - (band s b).b.armedAt).natAbs) ∧ (waitOk s b 1 = true) ∧ (brdRead s b 1 = false) ∧ (getB s (hdrQUIESCE (bseqPage b)) = false)) ∧
    (∃ (b : Nat) (n : Nat) (q : Square) (d : DataSet) (s : State), (squareNow s b 0x0C = some q) ∧ (q.arg0 = 1) ∧ (((band s b).buf (band s b).cur).dsn = some n) ∧ (brdRead s b (band s b).cur = false) ∧ (dataSet s n = some d) ∧ (d.compiled = true ∧ d.dsn = n) ∧ ((b :: d.ended).eraseDups.length = 8)) ∧
    (∃ (b : Nat) (q : Square) (s : State), (squareNow s b 0x0C = some q) ∧ (q.arg0 = 1) ∧ (((band s b).buf (band s b).cur).dsn = none) ∧ (((band s b).buf (1 - (band s b).cur)).armed = false)) ∧
    (∃ (b : Nat) (q : Square) (s : State), (squareNow s b 0x0C = some q) ∧ (q.arg0 ≠ 1) ∧ ((band s b).windows = []) ∧ (s.fmt.running = false) ∧ ((band s b).cur < 2)) :=
  ⟨⟨3, holdS, by decide +kernel⟩,
   ⟨3, setBand 3 { (band holdS 3) with b := { (band holdS 3).b with dsn := none, words := [(0, 0), (1, 0x0001000A#32)] } } holdS, by decide +kernel⟩,
   ⟨3, 5, setBand 3 { (band holdS 3) with b := { (band holdS 3).b with armed := true, words := [(0, 0), (1, 0x0001000A#32)] } } holdS, by decide +kernel⟩,
   ⟨3, { frame := 0, tick := 0, op := 0xB, mask := 0, resv := 0, arg0 := 1, arg1 := 4, arg2 := 2 }, loopS, by decide +kernel⟩,
   ⟨3, { frame := 0, tick := 0, op := 0xB, mask := 0, resv := 0, arg0 := 1, arg1 := 4, arg2 := 2 }, { at_ := 2, left := 1, j := 3 }, setBand 3 { (band loopS 3) with loops := [{ at_ := 2, left := 1, j := 3 }] } loopS, by decide +kernel⟩,
   ⟨3, { frame := 0, tick := 0, op := 0xB, mask := 0, resv := 0, arg0 := 1, arg1 := 4, arg2 := 2 }, { at_ := 2, left := 0, j := 4 }, setBand 3 { (band loopS 3) with loops := [{ at_ := 2, left := 0, j := 4 }] } loopS, by decide +kernel⟩,
   ⟨3, { frame := 60, tick := 0, op := 0xC, mask := 0, resv := 0, arg0 := 1, arg1 := 0, arg2 := 0 }, endS 1 true, by decide +kernel⟩,
   ⟨3, 5, { frame := 60, tick := 0, op := 0xC, mask := 0, resv := 0, arg0 := 1, arg1 := 0, arg2 := 0 }, { dsn := 5, compiled := true, k := 2, ended := [0, 1, 2, 4, 5, 6, 7] }, setBand 3 { (band (endS 1 false) 3) with a := { (band (endS 1 false) 3).a with dsn := some 5 } } (setFmt { s0.fmt with sets := [{ dsn := 5, compiled := true, k := 2, ended := [0, 1, 2, 4, 5, 6, 7] }] } (endS 1 false)), by decide +kernel⟩,
   ⟨3, { frame := 60, tick := 0, op := 0xC, mask := 0, resv := 0, arg0 := 1, arg1 := 0, arg2 := 0 }, endS 1 false, by decide +kernel⟩,
   ⟨3, { frame := 90, tick := 0, op := 0xC, mask := 0, resv := 0, arg0 := 0, arg1 := 0, arg2 := 0 }, endS 2 false, by decide +kernel⟩⟩

theorem witBoardEmissions :
    (∃ (b : Nat) (q : Square) (s : State), (squareNow s b 0x04 = some q)) ∧
    (∃ (b : Nat) (q : Square) (s : State), (squareNow s b 0x01 = some q)) ∧
    (∃ (b : Nat) (q : Square) (s : State), (squareNow s b 0x02 = some q)) ∧
    (∃ (b : Nat) (q : Square) (s : State), (squareNow s b 0x05 = some q)) ∧
    (∃ (b : Nat) (q : Square) (s : State), (squareNow s b 0x03 = some q) ∧ (q.arg1 ≠ 0 ∨ ((maskTracks s b q.mask).all fun k => ((slotRow s b k { frame := 0, first := 0, len := 0, op := 3, mask := q.mask, slot := q.slot, arg := 0, dsn := emitDsn (band s b) q, buf := (band s b).cur }).map fun x => (encRow s x.1 x.2.1).isSome).getD true) = true)) ∧
    (∃ (b : Nat) (q : Square) (s : State), (squareNow s b 0x03 = some q) ∧ (q.arg1 = 0) ∧ (((maskTracks s b q.mask).any fun k => ((slotRow s b k { frame := 0, first := 0, len := 0, op := 3, mask := q.mask, slot := q.slot, arg := 0, dsn := emitDsn (band s b) q, buf := (band s b).cur }).map fun x => (encRow s x.1 x.2.1).isNone).getD false) = true)) :=
  ⟨⟨3, { frame := 0, tick := 0, op := 4, mask := 0, resv := 0, arg0 := 0x4120, arg1 := 0, arg2 := 0 }, emitS 4 0x4120 0 0, by decide +kernel⟩,
   ⟨3, { frame := 0, tick := 0, op := 1, mask := 0, resv := 0, arg0 := 7, arg1 := 0, arg2 := 0 }, emitS 1 7 0 0, by decide +kernel⟩,
   ⟨3, { frame := 0, tick := 0, op := 2, mask := 0, resv := 0, arg0 := 7, arg1 := 1234, arg2 := 0 }, emitS 2 7 1234 0, by decide +kernel⟩,
   ⟨3, { frame := 0, tick := 0, op := 5, mask := 0, resv := 0, arg0 := 0, arg1 := 100, arg2 := 0 }, emitS 5 0 100 0, by decide +kernel⟩,
   ⟨3, { frame := 0, tick := 0, op := 3, mask := 0, resv := 0, arg0 := 7, arg1 := 0, arg2 := 500 }, rowS, by decide +kernel⟩,
   ⟨3, { frame := 0, tick := 0, op := 3, mask := 0, resv := 0, arg0 := 7, arg1 := 0, arg2 := 500 }, emitS 3 7 0 500, by decide +kernel⟩⟩

theorem witHeadBursts :
    (∃ (n : Nat) (m : Nat) (blocks : List (BitVec 64)) (lost : Bool) (s : State), (n < 32) ∧ (m < 2) ∧ (getF s (linkState (3 * n + 1 + m)) = 4) ∧ (blocks.length = 34) ∧ (uplinkOwn n m blocks = true) ∧ (uplinkCrcOk blocks = true) ∧ ((blocks.getD 33 0).toNat.testBit 8 = false ∧ (blocks.getD 33 0).toNat.testBit 10 = false)) ∧
    (∃ (n : Nat) (m : Nat) (blocks : List (BitVec 64)) (lost : Bool) (s : State), (n < 32) ∧ (m < 2) ∧ (getF s (linkState (3 * n + 1 + m)) = 4) ∧ (blocks.length = 34) ∧ (uplinkOwn n m blocks = true) ∧ (uplinkCrcOk blocks = true)) ∧
    (∃ (n : Nat) (m : Nat) (blocks : List (BitVec 64)) (lost : Bool) (s : State), (n < 32) ∧ (m < 2) ∧ (getF s (linkState (3 * n + 1 + m)) = 4) ∧ (blocks.length ≠ 34 ∨ uplinkCrcOk blocks = false)) ∧
    (∃ (n : Nat) (m : Nat) (blocks : List (BitVec 64)) (lost : Bool) (s : State), (getF s (linkState (3 * n + 1 + m)) ≠ 4)) ∧
    (∃ (n : Nat) (m : Nat) (blocks : List (BitVec 64)) (lost : Bool) (s : State), (blocks.length = 34) ∧ (uplinkCrcOk blocks = true) ∧ (uplinkOwn n m blocks = false)) ∧
    (∃ (b : Nat) (k : Nat) (m : Nat) (s : State), (b < 8) ∧ (k < 64) ∧ (m < 2) ∧ (4096 ≤ (chainSt s (64 * b + k) m).clamped)) ∧
    (∃ (n : Nat) (s : State), (n < 32) ∧ ((hfeSt s n).wait = [])) ∧
    (∃ (n : Nat) (r : MgmtReq) (s : State), (HItem.req r ∈ (hfeSt s n).wait) ∧ (r.write = false)) :=
  ⟨⟨2, 1, goodUp, false, st [(linkState 8, 4)] s0, by exact ⟨by decide, by decide, by decide +kernel, by decide +kernel, by decide +kernel, goodUp_crc, by decide +kernel⟩⟩,
   ⟨2, 1, goodUp, false, st [(linkState 8, 4)] s0, by exact ⟨by decide, by decide, by decide +kernel, by decide +kernel, by decide +kernel, goodUp_crc⟩⟩,
   ⟨2, 1, [1, 2], false, setHfe 2 { last1 := some { seq := 255, frame := 9, bit := 100 } } (st [(linkState 8, 4)] s0), by decide +kernel⟩,
   ⟨2, 1, [1, 2], false, s0, by decide +kernel⟩,
   ⟨3, 1, goodUp, false, s0, by exact ⟨by decide +kernel, goodUp_crc, by decide +kernel⟩⟩,
   ⟨3, 9, 1, setChain 201 1 { chainSt s0 201 1 with clamped := 4096, gain := 77, seeds := [(2, 5)] } s0, by decide +kernel⟩,
   ⟨5, s0, by decide +kernel⟩,
   ⟨5, { tag := 3, write := false, addr := 66, data := 0, tries := 0 }, setHfe 5 { wait := [.req { tag := 3, write := false, addr := 66, data := 0, tries := 0 }] } s0, by decide +kernel⟩⟩

theorem witVerifyWindows :
    (∃ (b : Nat) (q : Square) (s : State), (squareNow s b 0x06 = some q) ∧ ((maskTracks s b q.mask).any (fun k => decide ((windowsOn s b k).length < 2)) = true) ∧ (q.arg0.testBit 15 = false ∨ skewOver s b = false)) ∧
    (∃ (b : Nat) (q : Square) (s : State), (squareNow s b 0x06 = some q) ∧ ((maskTracks s b q.mask).all (fun k => decide (2 ≤ (windowsOn s b k).length)) = true) ∧ (q.arg0.testBit 15 = false)) ∧
    (∃ (b : Nat) (q : Square) (s : State), (squareNow s b 0x06 = some q) ∧ (q.arg0.testBit 15 = true) ∧ (getB s (Reg.RCH_CTRL_MRD_EN b) = true) ∧ (getB s Reg.RCV_STATUS_ACTIVE = false) ∧ (skewOver s b = true)) ∧
    (∃ (b : Nat) (q : Square) (w : Window) (s : State), (squareNow s b 0x07 = some q) ∧ (q.arg0.testBit 15 = true) ∧ ((band s b).windows = [w]) ∧ (w.slot = q.slot ∧ w.dsn = q.arg1 ∧ w.read = true) ∧ (maskTracks s b q.mask = w.tracks) ∧ (getB s Reg.RCV_STATUS_ACTIVE = false) ∧ (s.fmt.sets = []) ∧ (s.fmt.group = none ∧ s.fmt.rewrite = [])) ∧
    (∃ (b : Nat) (s : State), (b < 8) ∧ (1024 ≤ (Tbl.get {} s.rch.gains b).low)) ∧
    (∃ (b : Nat) (v : Nat) (s : State), (b < 8) ∧ (getB s (hdrLOCK (rchPage b)) = false) ∧ (getB s (Reg.TRK_WIN_ADDR_AUTOINC b) = false) ∧ (getF s (Reg.TRK_WIN_ADDR_ITEM b) < 16 ∧ getF s (Reg.TRK_WIN_ADDR_ITEM b) ≠ 7) ∧ (readerBusy s b (getF s (Reg.TRK_WIN_ADDR_TRACK b)) (getF s (Reg.TRK_WIN_ADDR_MODULE b)) = false)) ∧
    (∃ (b : Nat) (v : Nat) (s : State), (b < 8) ∧ (getB s (hdrLOCK (rchPage b)) = false) ∧ (getB s (Reg.TRK_WIN_ADDR_AUTOINC b) = false) ∧ (21 ≤ getF s (Reg.TRK_WIN_ADDR_ITEM b) ∧ getF s (Reg.TRK_WIN_ADDR_ITEM b) ≤ 32) ∧ (readerBusy s b (getF s (Reg.TRK_WIN_ADDR_TRACK b)) (getF s (Reg.TRK_WIN_ADDR_MODULE b)) = false)) ∧
    (∃ (b : Nat) (v : Nat) (s : State), (b < 8) ∧ (getB s (hdrLOCK (rchPage b)) = false) ∧ (getB s (Reg.TRK_WIN_ADDR_AUTOINC b) = false) ∧ (readerBusy s b (getF s (Reg.TRK_WIN_ADDR_TRACK b)) (getF s (Reg.TRK_WIN_ADDR_MODULE b)) = true)) ∧
    (∃ (b : Nat) (v : Nat) (s : State), (b < 8) ∧ (getB s (hdrLOCK (rchPage b)) = false) ∧ (getB s (Reg.TRK_WIN_ADDR_AUTOINC b) = false) ∧ (getF s (Reg.TRK_WIN_ADDR_ITEM b) = 7)) :=
  ⟨⟨3, { frame := 0, tick := 0, op := 6, mask := 0, resv := 0, arg0 := 7, arg1 := 55, arg2 := 900 }, emitS 6 7 55 900, by decide +kernel⟩,
   ⟨3, { frame := 0, tick := 0, op := 6, mask := 0, resv := 0, arg0 := 7, arg1 := 55, arg2 := 900 }, setBand 3 { (band (emitS 6 7 55 900) 3) with windows := [{ slot := 1, dsn := 9, read := true, pred := 0, opened := 0, tracks := List.range 64, dual := false }, { slot := 2, dsn := 9, read := true, pred := 0, opened := 0, tracks := List.range 64, dual := false }] } (emitS 6 7 55 900), by decide +kernel⟩,
   ⟨3, { frame := 0, tick := 0, op := 6, mask := 0, resv := 0, arg0 := 0x8007, arg1 := 55, arg2 := 900 }, st [(Reg.RCH_CTRL_MRD_EN 3, 1), (Reg.MRD_SEP 3, 130000)] (emitS 6 0x8007 55 900), by decide +kernel⟩,
   ⟨3, { frame := 0, tick := 0, op := 7, mask := 1, resv := 0, arg0 := 0x8007, arg1 := 55, arg2 := 0 }, { slot := 7, dsn := 55, read := true, pred := 0, opened := 0, tracks := [5], dual := false }, setBand 3 { (band (emitS' 7 0x8007 55 0) 3) with a := squares [sq 0 0 0xA 0 0 0 0, sq 0 0 7 1 0x8007 55 0], windows := [{ slot := 7, dsn := 55, read := true, pred := 0, opened := 0, tracks := [5], dual := false }] } (st [(Reg.TMASK_LO 3 0, 32), (Reg.TMASK_HI 3 0, 0)] movingS), by decide +kernel⟩,
   ⟨6, setRch { s0.rch with gains := [(6, { low := 1024 })] } s0, by decide +kernel⟩,
   ⟨2, 0xFFFFFFF0, st [(Reg.TRK_WIN_ADDR_TRACK 2, 5), (Reg.TRK_WIN_ADDR_MODULE 2, 1), (Reg.TRK_WIN_ADDR_ITEM 2, 3)] s0, by decide +kernel⟩,
   ⟨2, 0xFFFFFFF0, st [(Reg.TRK_WIN_ADDR_TRACK 2, 5), (Reg.TRK_WIN_ADDR_MODULE 2, 1), (Reg.TRK_WIN_ADDR_ITEM 2, 32)] s0, by decide +kernel⟩,
   ⟨2, 9, setBand 2 { (band s0 2) with windows := [{ slot := 7, dsn := 55, read := true, pred := 0, opened := 0, tracks := [0], dual := false }] } (st [(Reg.TRK_WIN_ADDR_MODULE 2, 1)] s0), by decide +kernel⟩,
   ⟨2, 9, st [(Reg.TRK_WIN_ADDR_ITEM 2, 7)] s0, by decide +kernel⟩⟩

theorem witRowDecoding :
    (∃ (b : Nat) (k : Nat) (slot : Nat) (dsn : Nat) (d : Int) (c : RowCtx) (s : State), (ctxOf s b k slot dsn = some c) ∧ (c.inPool = true) ∧ (c.peak = false) ∧ (d.natAbs ≤ 4)) ∧
    (∃ (b : Nat) (k : Nat) (slot : Nat) (dsn : Nat) (d : Int) (s : State), (ctxOf s b k slot dsn = none)) ∧
    (∃ (b : Nat) (k : Nat) (slot : Nat) (dsn : Nat) (c : RowCtx) (sr : Search) (s : State), (ctxOf s b k slot dsn = some c) ∧ (c.inPool = true) ∧ (c.read = true) ∧ (sr = searchRounds c (match c.found with | some f => f - c.pred | none => 0) 5 0 0)) ∧
    (∃ (b : Nat) (k : Nat) (slot : Nat) (dsn : Nat) (c : RowCtx) (r : RwRow) (sr : Search) (s : State), (ctxOf s b k slot dsn = some c) ∧ (c.inPool = true) ∧ (c.read = false) ∧ (rowAt s dsn (64 * b + k) slot = some r) ∧ (sr = searchRounds c (match c.found with | some f => f - c.pred | none => 0) 5 0 0) ∧ (s.fmt.ending = none)) ∧
    (∃ (b : Nat) (k : Nat) (slot : Nat) (dsn : Nat) (c : RowCtx) (s : State), (ctxOf s b k slot dsn = some c) ∧ (c.ladder = false) ∧ (c.read = true) ∧ (6 ≤ ((s.pos.frame : Int) - c.closed).natAbs)) ∧
    (∃ (b : Nat) (k : Nat) (slot : Nat) (dsn : Nat) (c : RowCtx) (s : State), (ctxOf s b k slot dsn = some c) ∧ (c.ladder = true ∨ ((s.pos.frame : Int) - c.closed).natAbs < 6)) :=
  ⟨⟨3, 9, 7, 55, 1, ctxA, ctxS ctxA, by decide +kernel⟩,
   ⟨3, 9, 7, 55, 0, s0, by decide +kernel⟩,
   ⟨3, 9, 7, 55, ctxP, searchRounds ctxP (match ctxP.found with | some f => f - ctxP.pred | none => 0) 5 0 0, ctxS ctxP, by exact ⟨by decide +kernel, by decide, by decide, rfl⟩⟩,
   ⟨3, 9, 7, 55, { ctxP with read := false }, { m := 55, g := rowOfSlot 201 7, tFail := 201, rewr := 0 }, searchRounds { ctxP with read := false } (match ctxP.found with | some f => f - ctxP.pred | none => 0) 5 0 0, setFmt { s0.fmt with sets := [{ dsn := 55, compiled := true, ready := true, payload := [9, 8, 7] }] } (ctxS { ctxP with read := false }), by exact ⟨by decide +kernel, by decide, by decide, by decide +kernel, rfl, by decide⟩⟩,
   ⟨3, 9, 7, 55, ctxA, { (ctxS ctxA) with pos := { s0.pos with frame := 106 } }, by decide +kernel⟩,
   ⟨3, 9, 7, 55, ctxA, { (ctxS ctxA) with pos := { s0.pos with frame := 105 } }, by decide +kernel⟩⟩

theorem witMarksAndStagedSettings :
    (∃ (b : Nat) (q : Square) (s : State), (squareNow s b 0x09 = some q) ∧ (((band s b).buf (band s b).cur).dsn = none ∨ q.arg0 ≠ 1)) ∧
    (∃ (n : Nat) (d : DataSet) (q : Square) (s : State), (squareNow s 0 0x09 = some q) ∧ (((band s 0).buf (band s 0).cur).dsn = some n) ∧ (q.arg0 = 1) ∧ (hostMode s = false) ∧ (dataSet s n = some d) ∧ (d.compiled = true ∧ d.marked = false) ∧ (getB s Reg.SPM_CTRL_EN = false)) ∧
    (∃ (n : Nat) (d : DataSet) (q : Square) (s : State), (squareNow s 0 0x09 = some q) ∧ (((band s 0).buf (band s 0).cur).dsn = some n) ∧ (dataSet s n = some d) ∧ (d.marked = true)) ∧
    (∃ (b : Nat) (q : Square) (s : State), (squareNow s b 0x08 = some q) ∧ (((band s b).buf (band s b).cur).dsn = none) ∧ (q.arg0 % 8 = 4)) ∧
    (∃ (b : Nat) (q : Square) (s : State), (squareNow s b 0x08 = some q) ∧ (((band s b).buf (band s b).cur).dsn = none) ∧ (q.arg0 % 8 = 1) ∧ (∀ i < 4, (hfeSt s (4 * b + i)).wait = [])) ∧
    (∃ (b : Nat) (s : State), (squareNow s b 0x09 = none) ∧ (squareNow s b 0x08 = none)) :=
  ⟨⟨3, squareAt (squares [sq 0 0 0xA 0 0 0 0, sq 0 0 9 0 0x155 77 0]) 1, emitS 9 0x155 77 0, by decide +kernel⟩,
   ⟨55, { dsn := 55, ready := true, compiled := true }, squareAt (squares [sq 0 0 0xA 0 0 0 0, sq 0 0 9 0 1 55 0]) 1, markS, by decide +kernel⟩,
   ⟨55, { dsn := 55, ready := true, compiled := true, begun := true, marked := true }, squareAt (squares [sq 0 0 0xA 0 0 0 0, sq 0 0 9 0 1 55 0]) 1, setFmt { markS.fmt with sets := [{ dsn := 55, ready := true, compiled := true, begun := true, marked := true }] } markS, by decide +kernel⟩,
   ⟨3, squareAt (squares [sq 0 0 0xA 0 0 0 0, sq 0 0 8 0 4 0 0]) 1, emitS 8 4 0 0, by decide +kernel⟩,
   ⟨3, squareAt (squares [sq 0 0 0xA 0 0 0 0, sq 0 1000 8 0 1 0x1234 0]) 1, emitS' 8 1 0x1234 0, by decide +kernel⟩,
   ⟨3, emitS 3 0 0 0, by decide +kernel⟩⟩

theorem witRecoveryOfDataSets :
    (∃ (n : Nat) (d : ReadSet) (s : State), (readSet s n = some d) ∧ (d.done = false ∧ d.lost = false) ∧ (readThrough s n = true) ∧ (getB s Reg.OUT_CTRL_C2_EN = true) ∧ (getB s Reg.RCV_STATUS_ACTIVE = false)) ∧
    (∃ (n : Nat) (s : State), (readSet s n = none ∨ readThrough s n = false ∨ getB s Reg.OUT_CTRL_C2_EN = false ∨ getB s Reg.RCV_STATUS_ACTIVE = true)) ∧
    (∃ (s : State), (getB s Reg.RCV_STATUS_ACTIVE = true) ∧ (rungRead s = true) ∧ (s.rch.ctx = []) ∧ ((readSet s (getF s Reg.RCV_DSN)).isSome = true)) ∧
    (∃ (s : State), (getB s Reg.RCV_STATUS_ACTIVE = false ∨ rungRead s = false ∨ (s.rch.ctx.any fun c => c.read) = true)) ∧
    (∃ (v : Nat) (s : State), (getB s (hdrLOCK 0x4C) = false)) ∧
    (∃ (s : State), (getB s (hdrLOCK 0x4C) = false)) :=
  ⟨⟨55, { dsn := 55, read := true }, st [(Reg.OUT_CTRL_C2_EN, 1), (Reg.RCV_CTRL_EN, 1), (Reg.RCV_CTRL_MAX_LEVEL, 5)] (setRch { s0.rch with sets := [{ dsn := 55, read := true }] } s0), by decide +kernel⟩,
   ⟨55, ctxS ctxA, by decide +kernel⟩,
   ⟨st [(Reg.RCV_STATUS_ACTIVE, 1), (Reg.RCV_DSN, 55), (Reg.RCV_STATUS_LEVEL, 2), (Reg.RCV_CTRL_MAX_LEVEL, 5)] (setRch { s0.rch with sets := [{ dsn := 55 }], rung := { need := 2, passes := [(55, 2)] } } s0), by decide +kernel⟩,
   ⟨st [(Reg.RCV_STATUS_ACTIVE, 1), (Reg.RCV_DSN, 55), (Reg.RCV_STATUS_LEVEL, 2)] (setRch { s0.rch with sets := [{ dsn := 55 }], rung := { need := 2, passes := [(55, 1)] } } s0), by decide +kernel⟩,
   ⟨77, st [(Reg.WEAK_WIN_ADDR_ENTRY, 1)] (setRch { s0.rch with weak := [5, 6] } s0), by decide +kernel⟩,
   ⟨setRch { s0.rch with weak := [5, 6] } s0, by decide +kernel⟩⟩

theorem witCalibration :
    (∃ (c : Nat) (s : State), (getB s Reg.CAL_CTRL_EN = true) ∧ (getB s (hdrQUIESCE 0x4B) = false) ∧ (s.cal.applyAt = none) ∧ (pairDecoded s c = true) ∧ (gapReached s (4 * c + 3) = false)) ∧
    (∃ (c : Nat) (w : Nat) (s : State), (getB s Reg.CAL_CTRL_EN = true ∧ getB s Reg.CAL_CTRL_WCUR_EN = true) ∧ (getB s Reg.CAL_CTRL_CSO_EN = false ∧ getB s Reg.CAL_CTRL_SERVO_EN = false ∧ getB s Reg.CAL_CTRL_TILT_EN = false) ∧ (getB s (hdrQUIESCE 0x4B) = false) ∧ (s.cal.applyAt = none) ∧ (pairDecoded s c = true) ∧ (gapReached s (4 * c + 3) = false) ∧ (w < 512) ∧ (measuredTracks s c = [w]) ∧ (enoughRows w (verifyAccs s (4 * c) w) = true ∧ enoughRows w (verifyAccs s (4 * c + 1) w) = true) ∧ (getB s (Reg.WSTATE_INHIBIT (w / 16) (w % 16)) = false ∧ getB s (Reg.WCAL_FREEZE (w / 16) (w % 16)) = false ∧ s.cal.out = []) ∧ (c % 3 = 0) ∧ ((calWriter s w).changed = none ∧ (calWriter s w).hold ≤ c) ∧ (s.cal.servo.changed = none ∧ s.cal.tilt.changed = none ∧ s.cal.readers = [] ∧ s.cal.bands = [] ∧ s.cal.applied = []) ∧ (slopeHi s * (2 * dither s) ≤ accSnr (verifyAccs s (4 * c) w) - accSnr (verifyAccs s (4 * c + 1) w)) ∧ ((calWriter s w).refCur - 16 ≤ (calWriter s w).base + 1 ∧ (calWriter s w).base + 1 ≤ (calWriter s w).refCur + 16) ∧ (0 ≤ (getF s (Reg.WCUR_LEVEL (w / 16) (w % 16)) : Int) + (calWriter s w).base + 1 ∧ (getF s (Reg.WCUR_LEVEL (w / 16) (w % 16)) : Int) + (calWriter s w).base + 1 ≤ 255)) ∧
    (∃ (c : Nat) (s : State), (getB s Reg.CAL_CTRL_EN = false ∨ getB s (hdrQUIESCE 0x4B) = true ∨ s.cal.applyAt.isSome = true ∨ pairDecoded s c = false)) ∧
    (∃ (c : Nat) (s : State), (getB s Reg.CAL_CTRL_EN = true) ∧ (getB s (hdrQUIESCE 0x4B) = false) ∧ (s.cal.applyAt = none) ∧ (pairDecoded s c = true) ∧ (gapReached s (4 * c + 3) = true)) ∧
    (∃ (n : Nat) (s : State), (s.cal.applyAt = some n) ∧ (gapReached s n = true) ∧ (s.cal.phase = 0)) ∧
    (∃ (s : State), (s.cal.applyAt.all (fun n => !gapReached s n || s.cal.phase != 0) = true)) ∧
    (∃ (a : List Int) (b : List Int) (s : State), (getB s Reg.POS_STATUS_STILL = true ∧ getB s Reg.CAL_CTRL_EN = true ∧ getB s Reg.CAL_CTRL_CSO_EN = true) ∧ (getB s (hdrQUIESCE 0x4B) = false) ∧ (4096 ≤ (reel s 0).zeros.length ∧ 4096 ≤ (reel s 1).zeros.length) ∧ (a = (reel s 0).zeros.filterMap (fun z => z.map fun v => ((v % 4096 : Nat) : Int) - 2048) ∧ a ≠ []) ∧ (b = (reel s 1).zeros.filterMap (fun z => z.map fun v => ((v % 4096 : Nat) : Int) - 2048) ∧ b ≠ []) ∧ ((sumI a - a.length * getS s Reg.CAL_CSO_REEL_A).natAbs ≤ 64 * a.length ∧ (sumI b - b.length * getS s Reg.CAL_CSO_REEL_B).natAbs ≤ 64 * b.length) ∧ ((Tbl.get 0 s.cal.refCso 0 - getS s Reg.CAL_CSO_REEL_A).natAbs ≤ 62 ∧ (Tbl.get 0 s.cal.refCso 1 - getS s Reg.CAL_CSO_REEL_B).natAbs ≤ 62) ∧ (-2000 ≤ getS s Reg.CAL_CSO_REEL_A ∧ getS s Reg.CAL_CSO_REEL_A ≤ 2000 ∧ -2000 ≤ getS s Reg.CAL_CSO_REEL_B ∧ getS s Reg.CAL_CSO_REEL_B ≤ 2000)) ∧
    (∃ (s : State), (getB s Reg.POS_STATUS_STILL = false ∨ getB s Reg.CAL_CTRL_EN = false ∨ getB s Reg.CAL_CTRL_CSO_EN = false)) ∧
    (∃ (v : Nat) (s : State), (getB s (hdrLOCK 0x4B) = false) ∧ (getB s Reg.CAL_WIN_ADDR_AUTOINC = false) ∧ (getF s Reg.CAL_WIN_ADDR_ELEMENT < 512) ∧ (getF s Reg.CAL_WIN_ADDR_KIND = 0) ∧ (getF s Reg.CAL_WIN_ADDR_ITEM = 0)) ∧
    (∃ (v : Nat) (s : State), (getB s (hdrLOCK 0x4B) = false)) ∧
    (∃ (a : Nat) (v : Nat) (s : State), (getB s (hdrLOCK (a / 0x1000)) = true)) ∧
    (∃ (v : Nat) (s : State), (getB s (hdrLOCK 0x4B) = false) ∧ (getB s Reg.CAL_WIN_ADDR_AUTOINC = false) ∧ (getF s Reg.CAL_WIN_ADDR_ELEMENT < 512) ∧ (getF s Reg.CAL_WIN_ADDR_KIND = 1 ∨ getF s Reg.CAL_WIN_ADDR_KIND = 2) ∧ (getF s Reg.CAL_WIN_ADDR_ITEM = 0)) ∧
    (∃ (v : Nat) (s : State), (getB s (hdrLOCK 0x4B) = false) ∧ (getB s Reg.CAL_WIN_ADDR_AUTOINC = false) ∧ (getF s Reg.CAL_WIN_ADDR_ITEM = 1 ∨ getF s Reg.CAL_WIN_ADDR_ITEM = 2 ∨ getF s Reg.CAL_WIN_ADDR_KIND = 3 ∨ 512 ≤ getF s Reg.CAL_WIN_ADDR_ELEMENT)) :=
  ⟨⟨9, setCal { s0.cal with frames := [{ dsn := 37 }] } (st [(Reg.CAL_CTRL_EN, 1), (Reg.CAL_CTRL_CSO_EN, 1)] s0), by decide +kernel⟩,
   ⟨9, 33, setCal { s0.cal with acc := [{ dsn := 36, track := 33, module := 1, main := 240, rows := 240, sums := [10, 1, 0, 1, 0, 0, 0] }, { dsn := 37, track := 33, module := 1, main := 240, rows := 240, sums := [1, 1, 0, 1, 0, 0, 0] }] } (st [(Reg.CAL_CTRL_EN, 1), (Reg.CAL_CTRL_WCUR_EN, 1), (Reg.CAL_CTRL_CSO_EN, 0), (Reg.CAL_CTRL_SERVO_EN, 0), (Reg.CAL_CTRL_TILT_EN, 0), (Reg.WSTATE_INHIBIT 2 1, 0)] s0), by decide +kernel⟩,
   ⟨9, st [(Reg.CAL_CTRL_EN, 0)] s0, by decide +kernel⟩,
   ⟨9, setFmt { s0.fmt with sets := [{ dsn := 39, compiled := true }] } (setCal { s0.cal with frames := [{ dsn := 37 }] } (st [(Reg.CAL_CTRL_EN, 1)] s0)), by decide +kernel⟩,
   ⟨39, setFmt { s0.fmt with sets := [{ dsn := 39, compiled := true }] } (setCal { s0.cal with applyAt := some 39, staged := [.cur 33 1] } s0), by decide +kernel⟩,
   ⟨setCal { s0.cal with applyAt := some 39, staged := [.cur 33 1] } s0, by decide +kernel⟩,
   ⟨List.replicate 4096 (2 : Int), List.replicate 4096 (-1 : Int), zerosS 4096, by exact zeros_ok 4096 (by decide)⟩,
   ⟨movingS, by decide +kernel⟩,
   ⟨0xF8, st [(Reg.CAL_WIN_ADDR_ELEMENT, 77)] s0, by decide +kernel⟩,
   ⟨0xFFF00020, setCal { s0.cal with staged := [.cso 1 4, .cur 3 1] } s0, by decide +kernel⟩,
   ⟨0x4B05C, 5, st [(hdrLOCK 0x4B, 1)] s0, by decide +kernel⟩,
   ⟨0xFFFFFFF0, st [(Reg.CAL_WIN_ADDR_ELEMENT, 77), (Reg.CAL_WIN_ADDR_KIND, 2)] s0, by decide +kernel⟩,
   ⟨7, st [(Reg.CAL_WIN_ADDR_ELEMENT, 77), (Reg.CAL_WIN_ADDR_ITEM, 1)] s0, by decide +kernel⟩⟩

theorem witPassesAndWriteEnables :
    (∃ (d : DataSet) (s : State), (s.fmt.sets.find? (fun x => !x.ready) = some d) ∧ (d.dsn % 32 = 0) ∧ ((s.fmt.sets.filter fun x => decide (x.dsn < d.dsn)).all (fun x => x.compiled && x.begun) = true) ∧ (s.fmt.running = false) ∧ (passFull s d = true) ∧ (s.fmt.nextPass < 47)) ∧
    (∃ (d : DataSet) (s : State), (s.fmt.sets.find? (fun x => !x.ready) = some d) ∧ (dataSet s d.dsn = some d) ∧ (d.dsn % 32 = 0) ∧ ((s.fmt.sets.filter fun x => decide (x.dsn < d.dsn)).all (fun x => x.compiled && x.begun) = true) ∧ (s.fmt.running = false) ∧ (passFull s d = true) ∧ (s.fmt.nextPass = 47)) ∧
    (∃ (d : DataSet) (s : State), (s.fmt.sets.find? (fun x => !x.ready) = some d) ∧ (d.dsn % 32 ≠ 0 ∨ passFull s d = false ∨ s.fmt.running = true)) ∧
    (∃ (n : Nat) (d : DataSet) (s : State), (s.fmt.repos = some n) ∧ (s.pos.retryFrame = none) ∧ (safeInForce s = false) ∧ ((List.range 8).any (fun b => (band s b).running) = false) ∧ (dataSet s n = some d) ∧ (d.compiled = true) ∧ (d.pass < 48)) ∧
    (∃ (f : Nat) (s : State), (s.pos.retryFrame = some f) ∧ (safeInForce s = false)) ∧
    (∃ (s : State), (safeInForce s = true)) ∧
    (∃ (c2 : Bool) (c3 : Bool) (s : State), (getB s (hdrLOCK 0x49) = false) ∧ (writeQueued s = false ∨ (c2 = true ∧ c3 = true))) ∧
    (∃ (c3 : Bool) (x : ExecSt) (s : State), (getB s (hdrLOCK 0x49) = false) ∧ (getB s Reg.OUT_CTRL_C2_EN = true) ∧ (writeQueued s = true) ∧ (mayFinish x s = true) ∧ (s.que.loss = none) ∧ (∀ b < 8, (band s b).windows = [])) :=
  ⟨⟨{ dsn := 64, closed := true }, setFmt { s0.fmt with sets := [{ dsn := 64, closed := true }], nextPass := 3, nextFrame := 100010 } s0, by decide +kernel⟩,
   ⟨{ dsn := 64, closed := true, firstGsn := 7, recBefore := 9 }, setFmt { s0.fmt with sets := [{ dsn := 64, closed := true, firstGsn := 7, recBefore := 9 }], nextPass := 47, nextFrame := 100010 } s0, by decide +kernel⟩,
   ⟨{ dsn := 65, closed := true }, setFmt { s0.fmt with sets := [{ dsn := 65, closed := true }] } s0, by decide +kernel⟩,
   ⟨64, { dsn := 64, ready := true, compiled := true, pass := 5 }, repoS, by decide +kernel⟩,
   ⟨900, { repoS with pos := { repoS.pos with retryFrame := some 900 } }, by decide +kernel⟩,
   ⟨st [(Reg.SAFE_STATUS_S1, 1)] repoS, by decide +kernel⟩,
   ⟨true, false, s0, by decide +kernel⟩,
   ⟨false, { entry := { body := .cmd (4 :: zeros 63) }, phase := .work }, setBand 0 (band calmS 0) (st [(Reg.OUT_CTRL_C2_EN, 1)] calmS), by decide +kernel⟩⟩

theorem witDataSetsBecomeBoards :
    (∃ (d : DataSet) (e : DataSet) (s : State), (s.fmt.sets.find? (fun x => !x.ready) = some d) ∧ (d.kind = .payload) ∧ (d.closed = true) ∧ (codesOn s = true ∧ getB s Reg.FMT_CTRL = true) ∧ (d.dsn % 32 ≠ 0) ∧ ((s.fmt.sets.filter fun x => decide (x.dsn < d.dsn)).getLast? = some e)) ∧
    (∃ (d : DataSet) (s : State), (s.fmt.sets.find? (fun x => !x.ready) = some d) ∧ (d.closed = false ∨ codesOn s = false ∨ getB s Reg.FMT_CTRL = false)) ∧
    (∃ (plan : Option ReadPlan) (d : DataSet) (s : State), (canCompile s = true) ∧ (getB s Reg.FMT_CTRL = true ∧ codesOn s = true) ∧ (s.fmt.repos = none) ∧ (s.fmt.sets.find? (fun x => !x.compiled) = some d) ∧ (dataSet s d.dsn = some d) ∧ (d.ready = true ∧ d.ended = [] ∧ d.passed = [] ∧ d.abandoned = []) ∧ (outcomesFinal s d.dsn = true) ∧ (s.fmt.rewrite.all (fun r => decide (d.dsn < r.m + 4)) = true)) ∧
    (∃ (p : ReadPlan) (s : State), (canCompile s = true) ∧ (getB s Reg.FMT_CTRL = true ∧ getB s Reg.OUT_CTRL_C2_EN = true) ∧ (s.fmt.repos = none) ∧ (s.fmt.sets = []) ∧ (planOk s p = true) ∧ (s.rch.sets.any (fun d => d.dsn == p.dsn) = false)) :=
  ⟨⟨{ dsn := 65, closed := true, stream := [1, 2] }, { dsn := 64, ready := true, compiled := true, pass := 5 }, readyS, by decide +kernel⟩,
   ⟨{ dsn := 65, stream := [1, 2] }, setFmt { s0.fmt with sets := [{ dsn := 65, stream := [1, 2] }] } s0, by decide +kernel⟩,
   ⟨none, { dsn := 64, closed := true, ready := true, pass := 5 }, compileS, by decide +kernel⟩,
   ⟨{ dsn := 0, origin := 100000, pass := 0, k := 0 }, readPlanS, by decide +kernel⟩⟩

theorem witEncodersAndEngines :
    (∃ (n : Nat) (k : Nat) (p : Nat) (r : RwRow) (l : List Byte) (s : State), (k < 512) ∧ (rowAt s n k p = some r ∨ (rowAt s n k p = none ∧ hostRow s n k p = some r)) ∧ (rowBytes s r = some l) ∧ (fetchCopy (rowPages s r) s = (true, s)) ∧ (s.enc.inject = false)) ∧
    (∃ (n : Nat) (k : Nat) (p : Nat) (r : RwRow) (l : List Byte) (s : State), (k < 512) ∧ (rowAt s n k p = some r ∨ (rowAt s n k p = none ∧ hostRow s n k p = some r)) ∧ (rowBytes s r = some l) ∧ (fetchCopy (rowPages s r) s = (true, s))) ∧
    (∃ (n : Nat) (k : Nat) (p : Nat) (u : Bool) (v : Bool) (s : State), ((rowAt s n k p = none ∧ hostRow s n k p = none) ∨ 512 ≤ k)) ∧
    (∃ (s : State), (getB s (hdrLOCK 0x12) = false ∧ getB s (hdrLOCK 0x50) = false)) ∧
    (∃ (n : Nat) (g : Gran) (s : State), (s.fmt.grans.find? (fun x => x.gsn == n && x.stage == .cut) = some g) ∧ (s.cmp.busy.any (fun b => b.2 == n) = true) ∧ (fetchCopy (granPages s n) s = (true, s)) ∧ (s.cmp.inject = false) ∧ (g.enc = false) ∧ (s.fmt.grans = [g]) ∧ (g.gsn = n)) ∧
    (∃ (n : Nat) (g : Gran) (s : State), (s.fmt.grans.find? (fun x => x.gsn == n && x.stage == .cut) = some g) ∧ (s.cmp.busy.any (fun b => b.2 == n) = true) ∧ (fetchCopy (granPages s n) s = (true, s))) ∧
    (∃ (g : Gran) (s : State), (s.fmt.grans.find? (fun x => x.stage != .packed) = some g) ∧ (g.stage = .sealed) ∧ (getB s Reg.FMT_CTRL = true) ∧ (s.fmt.closeReq = false)) ∧
    (∃ (g : Gran) (s : State), (s.fmt.grans.find? (fun x => x.stage != .packed) = some g) ∧ (g.stage ≠ .sealed)) :=
  ⟨⟨55, 3, 2, { m := 55, g := rowOfSlot 3 2, tFail := 3, rewr := 0 }, rowData [9, 8, 7] (rowOfSlot 3 2), fetchS, by decide +kernel⟩,
   ⟨55, 3, 2, { m := 55, g := rowOfSlot 3 2, tFail := 3, rewr := 0 }, rowData [9, 8, 7] (rowOfSlot 3 2), fetchS, by decide +kernel⟩,
   ⟨56, 3, 2, true, true, fetchS, by decide +kernel⟩,
   ⟨s0, by decide +kernel⟩,
   ⟨7, { gsn := 7, plain := [1, 2, 3], pieces := [3], records := 1, stage := .cut }, cutS, by decide +kernel⟩,
   ⟨7, { gsn := 7, plain := [1, 2, 3], pieces := [3], records := 1, stage := .cut }, cutS, by decide +kernel⟩,
   ⟨{ gsn := 7, plain := [1, 2, 3], body := [1, 2, 3], pieces := [3], records := 1, stage := .sealed, tenant := 2 }, packS, by decide +kernel⟩,
   ⟨{ gsn := 7, plain := [1, 2, 3], pieces := [3], records := 1, stage := .cut }, cutS, by decide +kernel⟩⟩

theorem witCipherRequests :
    (∃ (n : Nat) (p : Nat) (g : Gran) (s : State), (s.fmt.grans = [g]) ∧ (g.gsn = n) ∧ (g.stage = .requested) ∧ (s.ciph.fw = [] ∧ s.ciph.rd = [] ∧ s.ciph.host = [] ∧ s.ciph.retry = []) ∧ (s.ciph.wr = [.enc n]) ∧ (freePair s none = some p) ∧ (getB s Reg.CIPH_CTRL_EN = true ∧ getB s (hdrQUIESCE 0x51) = false) ∧ (s3InForce s = false)) ∧
    (∃ (q : Nat) (l : Nat) (w : List CipherWork) (s : State), (s.fmt.grans = []) ∧ (s.ciph.fw = [] ∧ s.ciph.rd = [] ∧ s.ciph.retry = [] ∧ s.ciph.wr = []) ∧ (s.ciph.host = .host q :: w) ∧ (freeLane s = some l) ∧ (getB s Reg.CIPH_CTRL_EN = true ∧ getB s (hdrQUIESCE 0x51) = false) ∧ (s3InForce s = false)) ∧
    (∃ (q : Nat) (x : ExecSt) (s : State), (s.ciph.host = [.host q] ∧ s.ciph.fw = []) ∧ (s.fmt.grans = []) ∧ (s3InForce s = true) ∧ (mayFinishSide q x s = true)) ∧
    (∃ (l : Nat) (n : Nat) (r : CipherRun) (g : Gran) (s : State), (s.ciph.runs.find? (fun r => r.lane == l) = some r) ∧ (r.work = .enc n) ∧ (r.inj = false) ∧ (s.fmt.grans.find? (fun g => g.gsn == n && g.stage == .requested) = some g) ∧ (g.gsn = n)) ∧
    (∃ (l : Nat) (n : Nat) (r : CipherRun) (s : State), (s.ciph.runs.find? (fun r => r.lane == l) = some r) ∧ (r.work = .enc n) ∧ (r.again = false)) ∧
    (∃ (l : Nat) (n : Nat) (r : CipherRun) (s : State), (s.ciph.runs.find? (fun r => r.lane == l) = some r) ∧ (r.work = .enc n) ∧ (r.again = true)) ∧
    (∃ (l : Nat) (q : Nat) (r : CipherRun) (x : ExecSt) (s : State), (s.ciph.runs.find? (fun r => r.lane == l) = some r) ∧ (r.work = .host q) ∧ (mayFinishSide q x s = true) ∧ (cMODE x.entry.desc = 4) ∧ ((stringWords (x.seen.take (cPages (cSRC_OFS x.entry.desc) (cSrcLen x.entry.desc))) (cSRC_OFS x.entry.desc) (cSrcLen x.entry.desc)).all (fun e => wordState s e.1 e.2 == .clean) = true)) ∧
    (∃ (s : State), (getB s (hdrLOCK 0x51) = false)) :=
  ⟨⟨7, 1, { gsn := 7, plain := [1], enc := true, slot := 5, stage := .requested }, ciphS, by decide +kernel⟩,
   ⟨9, 1, [.host 3], hostS, by decide +kernel⟩,
   ⟨9, cipherX, st [(Reg.SAFE_STATUS_S3, 1), (Reg.SAFE_CAUSE_CODE, 0x4802)] (setCiph { ciphS.ciph with host := [.host 9], wr := [], fw := [] } hostS), by decide +kernel⟩,
   ⟨2, 7, { lane := 2, pair := true, work := .enc 7, key := [] }, { gsn := 7, plain := [1], body := [1], pieces := [1], enc := true, slot := 5, stage := .requested }, runS, by decide +kernel⟩,
   ⟨2, 7, { lane := 2, pair := true, work := .enc 7, key := [] }, runS, by decide +kernel⟩,
   ⟨2, 7, { lane := 2, pair := true, work := .enc 7, key := [], again := true }, setCiph { runS.ciph with runs := [{ lane := 2, pair := true, work := .enc 7, key := [], again := true }] } runS, by decide +kernel⟩,
   ⟨3, 9, { lane := 3, pair := false, work := .host 9, key := [] }, verifyX, setCiph { hostS.ciph with runs := [{ lane := 3, pair := false, work := .host 9, key := [] }] } (setSide 9 { exec := some verifyX } hostS), by decide +kernel⟩,
   ⟨s0, by decide +kernel⟩⟩

theorem witKeysImportedAndErased :
    (∃ (q : Nat) (kek : Nat) (r : CipherRun) (key : List Byte) (blob : List Byte) (x : ExecSt) (s : State), (s.ciph.runs.find? (fun r => match r.work with | .unwrap k _ _ _ => k == q | _ => false) = some r) ∧ (r.work = .unwrap q kek key blob) ∧ (mayFinishSide q x s = true) ∧ (importCheck s (dTenant x.entry.desc) true (dField x.entry.desc 0x12 2) = stOK)) ∧
    (∃ (q : Nat) (upset : Bool) (s : State), (s.ciph.runs.find? (fun r => match r.work with | .unwrap k _ _ _ => k == q | _ => false) = none)) ∧
    (∃ (n : Nat) (q : Nat) (x : ExecSt) (s : State), ((keySlot s n).state = 2) ∧ (slotInUse s n = false) ∧ (1 ≤ q ∧ q < 64) ∧ (x.phase = .work ∧ dOpcode x.entry.desc = opKEY_ERASE ∧ dField x.entry.desc 0x12 2 = n) ∧ (mayFinishSide q x s = true) ∧ ((List.range 64).all (fun k => k == q || (side s k).exec == none) = true)) ∧
    (∃ (n : Nat) (s : State), ((keySlot s n).state = 2) ∧ (slotInUse s n = false)) ∧
    (∃ (n : Nat) (s : State), ((keySlot s n).state ≠ 2 ∨ slotInUse s n = true)) ∧
    (∃ (n : Nat) (q : Nat) (x : ExecSt) (s : State), (s.ciph.fw = [] ∧ s.ciph.runs = []) ∧ (1 ≤ q ∧ q < 64) ∧ (x.phase = .work ∧ dOpcode x.entry.desc = opKEK_ERASE ∧ dField x.entry.desc 0x10 1 = n) ∧ (mayFinishSide q x s = true) ∧ ((List.range 64).all (fun k => k == q || (side s k).exec == none) = true)) ∧
    (∃ (n : Nat) (q : Nat) (x : ExecSt) (s : State), (q < 64) ∧ ((side s q).exec = some x) ∧ (x.phase = .work ∧ dOpcode x.entry.desc = opKEK_ERASE ∧ dField x.entry.desc 0x10 1 = n) ∧ ((s.ciph.fw.any (fun w => match w with | .unwrap _ k _ _ => k == n | _ => false)) = false) ∧ ((s.ciph.runs.any (fun r => match r.work with | .unwrap _ k _ _ => k == n | _ => false)) = false)) ∧
    (∃ (n : Nat) (s : State), (s.ciph.fw.any (fun w => match w with | .unwrap _ k _ _ => k == n | _ => false) = true)) :=
  ⟨⟨9, 3, { lane := 4, pair := false, work := .unwrap 9 3 [1] [2], key := [1] }, [1], [2], importX, importS, by decide +kernel⟩,
   ⟨9, true, s0, by decide +kernel⟩,
   ⟨33, 9, eraseX, setKeys { s0.keys with data := [(33, { state := 2, tenant := 4, key := [1, 2] })] } (setSide 9 { exec := some eraseX } s0), by decide +kernel⟩,
   ⟨33, setKeys { s0.keys with data := [(33, { state := 2, tenant := 4, key := [1, 2] })] } s0, by decide +kernel⟩,
   ⟨33, s0, by decide +kernel⟩,
   ⟨3, 9, kekX, setKeys { s0.keys with kek := [(3, [1, 2])] } (setSide 9 { exec := some kekX } s0), by decide +kernel⟩,
   ⟨3, 9, kekX, setKeys { s0.keys with kek := [(3, [1, 2])] } (setSide 9 { exec := some kekX } s0), by decide +kernel⟩,
   ⟨3, setCiph { s0.ciph with fw := [.unwrap 9 3 [1] [2]] } s0, by decide +kernel⟩⟩

theorem witMemoryTraining :
    (∃ (s : State), (getB s (hdrLOCK 0x5C) = false) ∧ (getB s Reg.MEM_CTRL_EN = true) ∧ (getB s Reg.MEM_STATUS_TRAIN_BUSY = false) ∧ ((List.range 4).any (fun n => getF s (Reg.DDR_STATUS_STATE n) != 3) = true)) ∧
    (∃ (n : Nat) (s : State), (n < 4) ∧ (getF s (Reg.DDR_STATUS_STATE n) = 1 ∨ getF s (Reg.DDR_STATUS_STATE n) = 2) ∧ ((ddr s n).step < 7)) ∧
    (∃ (n : Nat) (s : State), (n < 4) ∧ (getF s (Reg.DDR_STATUS_STATE n) = 1 ∨ getF s (Reg.DDR_STATUS_STATE n) = 2) ∧ ((ddr s n).step = 7) ∧ (∀ m < 4, m ≠ n → getF s (Reg.DDR_STATUS_STATE m) = 3)) ∧
    (∃ (n : Nat) (lane : Nat) (s : State), (n < 4) ∧ (lane < 4) ∧ (getF s (Reg.DDR_STATUS_STATE n) = 1 ∨ getF s (Reg.DDR_STATUS_STATE n) = 2) ∧ ((ddr s n).attempts = 2 ∧ (ddr s n).step < 8)) ∧
    (∃ (n : Nat) (lane : Nat) (s : State), (n < 4) ∧ (getF s (Reg.DDR_STATUS_STATE n) = 1 ∨ getF s (Reg.DDR_STATUS_STATE n) = 2) ∧ ((ddr s n).attempts < 2)) ∧
    (∃ (n : Nat) (rate : Nat) (s : State), (n < 4) ∧ (getF s (Reg.DDR_STATUS_STATE n) = 3)) ∧
    (∃ (n : Nat) (v : Nat) (s : State), (n < 4) ∧ (getF s (Reg.DDR_STATUS_STATE n) = 3) ∧ ((ddr s n).refi % 32768 = 0)) ∧
    (∃ (n : Nat) (v : Nat) (s : State), (n < 4) ∧ ((ddr s n).refi % 256 ≠ 0)) :=
  ⟨⟨st [(Reg.MEM_CTRL_EN, 1), (Reg.DDR_STATUS_STATE 2, 3)] s0, by decide +kernel⟩,
   ⟨2, setDdr 2 { (ddr s0 2) with step := 4, attempts := 1 } (st [(Reg.DDR_STATUS_STATE 2, 2), (Reg.DDR_STATUS_TRAINED 2, 15)] s0), by decide +kernel⟩,
   ⟨2, setDdr 2 { (ddr s0 2) with step := 7 } (st [(Reg.DDR_STATUS_STATE 0, 3), (Reg.DDR_STATUS_STATE 1, 3), (Reg.DDR_STATUS_STATE 2, 2), (Reg.DDR_STATUS_STATE 3, 3)] s0), by decide +kernel⟩,
   ⟨2, 1, setDdr 2 { (ddr s0 2) with step := 4, attempts := 2 } (st [(Reg.DDR_STATUS_STATE 2, 2)] s0), by decide +kernel⟩,
   ⟨2, 1, setDdr 2 { (ddr s0 2) with step := 4, attempts := 1 } (st [(Reg.DDR_STATUS_STATE 2, 2)] s0), by decide +kernel⟩,
   ⟨2, 5, st [(Reg.DDR_STATUS_STATE 2, 3)] s0, by decide +kernel⟩,
   ⟨2, 77, setDdr 2 { (ddr s0 2) with refi := 32768 } (st [(Reg.DDR_STATUS_STATE 2, 3)] s0), by decide +kernel⟩,
   ⟨2, 77, setDdr 2 { (ddr s0 2) with refi := 255 } (st [(Reg.DDR_STATUS_STATE 2, 3)] s0), by decide +kernel⟩⟩

theorem witBufferWords :
    (∃ (z : Nat) (w : Nat) (a : Nat) (l : List Byte) (s : State), (accessible s z w = true) ∧ (l.length = 32) ∧ (isPage s z = true) ∧ ((page s z).poisoned = false)) ∧
    (∃ (z : Nat) (w : Nat) (o : Nat) (a : Nat) (l : List Byte) (s : State), (accessible s z w = true) ∧ (l ≠ []) ∧ (o + l.length ≤ 32) ∧ (isPage s z = true) ∧ (isWritten s z w = false)) ∧
    (∃ (z : Nat) (w : Nat) (s : State), (accessible s z w = true) ∧ (wordState s z w = .clean)) ∧
    (∃ (z : Nat) (w : Nat) (y : Word256) (k : Chk) (s : State), (accessible s z w = true) ∧ (wordState s z w = .single y k) ∧ (s.mem.hot.length < 64) ∧ (s.mem.hot.contains z = false) ∧ (s.mem.ceDone.contains z = false)) ∧
    (∃ (z : Nat) (w : Nat) (s : State), (accessible s z w = true) ∧ (isPage s z = true) ∧ (wordState s z w = .poisoned) ∧ ((page s z).alloc = true ∧ (page s z).use = .host)) ∧
    (∃ (z : Nat) (w : Nat) (s : State), (accessible s z w = true) ∧ (isPage s z = false) ∧ (wordState s z w = .poisoned)) ∧
    (∃ (z : Nat) (w : Nat) (o : Nat) (a : Nat) (l : List Byte) (e : List (Nat × Byte)) (s : State), (accessible s z w = false)) :=
  ⟨⟨100, 5, 3, List.replicate 32 9, memS, by decide +kernel⟩,
   ⟨100, 5, 30, 3, [8, 7], memS, by decide +kernel⟩,
   ⟨100, 5, memS, by decide +kernel⟩,
   ⟨100, 5, 0, 0, upsetCells 100 [(161, 4)] (setPage 100 { (page memS 100) with alloc := true, written := 2 ^ 5 } memS), by decide +kernel⟩,
   ⟨100, 5, poisonS, by decide +kernel⟩,
   ⟨poolPages memS + 3, 5, putRaw (poolPages memS + 3) 5 poisonWord memS, by decide +kernel⟩,
   ⟨100, 128, 0, 3, [1], [], memS, by decide +kernel⟩⟩

theorem witSplitWordsAndScrubbing :
    (∃ (s : State), (getB s (hdrLOCK 0x5C) = false) ∧ (splitOk false s = true)) ∧
    (∃ (s : State), (getB s (hdrLOCK 0x5C) = false) ∧ (splitOk false s = true) ∧ (isWritten s (getF s Reg.SPLIT_ADDR_PAGE) (getF s Reg.SPLIT_ADDR_WORD) = false)) ∧
    (∃ (s : State), (getB s (hdrLOCK 0x5C) = false) ∧ (splitOk false s = true) ∧ ((page s (getF s Reg.SPLIT_ADDR_PAGE)).written = 0)) ∧
    (∃ (s : State), (getB s (hdrLOCK 0x5C) = false) ∧ (splitOk false s = false)) ∧
    (∃ (s : State), (getB s Reg.MEM_STATUS_READY = true ∧ getB s Reg.MEM_CTRL_SCRUB_EN = true ∧ (getF s Reg.CLU_RUN_SVC).testBit 0 = true) ∧ (s.mem.hot = []) ∧ (getF s Reg.SCRUB_POS + 1 < allSlots s) ∧ (isPage s (getF s Reg.SCRUB_POS) = true) ∧ (scrubSkips s (getF s Reg.SCRUB_POS) = true ∨ ((page s (getF s Reg.SCRUB_POS)).alloc = true ∧ (page s (getF s Reg.SCRUB_POS)).written = 0))) ∧
    (∃ (s : State), (getB s Reg.MEM_STATUS_READY = true ∧ getB s Reg.MEM_CTRL_SCRUB_EN = true ∧ (getF s Reg.CLU_RUN_SVC).testBit 0 = true) ∧ (s.mem.hot = []) ∧ (getF s Reg.SCRUB_POS + 1 < allSlots s) ∧ (isPage s (getF s Reg.SCRUB_POS) = true) ∧ (scrubSkips s (getF s Reg.SCRUB_POS) = false) ∧ ((page s (getF s Reg.SCRUB_POS)).alloc = false)) ∧
    (∃ (u : List (Nat × Byte)) (v : List (Nat × Byte)) (s : State), (getB s Reg.MEM_STATUS_READY = false ∨ getB s Reg.MEM_CTRL_SCRUB_EN = false ∨ (getF s Reg.CLU_RUN_SVC).testBit 0 = false)) :=
  ⟨⟨splitS, by decide +kernel⟩,
   ⟨splitS, by decide +kernel⟩,
   ⟨splitS, by decide +kernel⟩,
   ⟨memS, by decide +kernel⟩,
   ⟨setPage 7 { (page scrubS 7) with alloc := true } scrubS, by decide +kernel⟩,
   ⟨scrubS, by decide +kernel⟩,
   ⟨[(1, 2)], [], memS, by decide +kernel⟩⟩

theorem witRetirementAndSram :
    (∃ (p : Nat) (s : State), (getB s (hdrLOCK 0x5C) = false) ∧ (p < poolPages s) ∧ ((page s p).retired = false ∧ (page s p).pending = false ∧ (page s p).alloc = true) ∧ (retiredCount s + pendingCount s < 32768)) ∧
    (∃ (p : Nat) (s : State), (getB s (hdrLOCK 0x5C) = false) ∧ (p < poolPages s) ∧ ((page s p).retired = false ∧ (page s p).pending = false ∧ (page s p).alloc = false) ∧ (retiredCount s + pendingCount s < 32768)) ∧
    (∃ (p : Nat) (s : State), (getB s (hdrLOCK 0x5C) = false) ∧ (poolPages s ≤ p)) ∧
    (∃ (p : Nat) (s : State), (getB s (hdrLOCK 0x5C) = false) ∧ (p < poolPages s) ∧ ((page s p).quar = true ∧ (page s p).poisoned = false) ∧ (getB s Reg.POOL_STATUS_BUILT = true) ∧ (s.pool.waiters = [])) ∧
    (∃ (v : Nat) (s : State), (getB s (hdrLOCK 0x5C) = false)) ∧
    (∃ (u : Nat) (r : Nat) (w : Word256) (y : Word256) (k : Chk) (c : Chk) (s : State), (u < 288) ∧ (r < 8192) ∧ (wDecode w k = .single y c)) ∧
    (∃ (u : Nat) (r : Nat) (w : Word256) (k : Chk) (s : State), (u < 288) ∧ (r < 8192) ∧ (wDecode w k = .uncorrectable)) ∧
    (∃ (i : Nat) (e : Nat) (s : State), (getB s (hdrLOCK 0x5D) = false) ∧ (isSealed s = false ∧ rd s Reg.CLU_RUN_CMD.addr = 0 ∧ rd s Reg.CLU_CH_RUN.addr = 0) ∧ (s.mem.soft = [(i, e)]) ∧ (e.testBit 31 = true) ∧ (repCheck s.fuseMap.entries [] e = 0) ∧ (s.mem.inForce = [])) ∧
    (∃ (s : State), (getB s (hdrLOCK 0x5D) = false) ∧ (isSealed s = true ∨ rd s Reg.CLU_RUN_CMD.addr ≠ 0 ∨ rd s Reg.CLU_CH_RUN.addr ≠ 0)) :=
  ⟨⟨100, setPage 100 { (page memS 100) with alloc := true } memS, by decide +kernel⟩,
   ⟨100, memS, by decide +kernel⟩,
   ⟨8000000, memS, by decide +kernel⟩,
   ⟨100, setPage 100 { (page memS 100) with quar := true, gen := 4 } (st [(Reg.POOL_STATUS_BUILT, 1)] memS), by decide +kernel⟩,
   ⟨77, s0, by decide +kernel⟩,
   ⟨3, 500, 5, 0, 0, 0, { s0 with mem := { s0.mem with ceRows := [3 * 8192 + 500] } }, by decide +kernel⟩,
   ⟨3, 500, 0x0102, 0, calmS, by decide +kernel⟩,
   ⟨2, 0x80000000 + 1024 * 33 + 5, { s0 with mem := { s0.mem with soft := [(2, 0x80000000 + 1024 * 33 + 5)] } }, by decide +kernel⟩,
   ⟨sealedS, by decide +kernel⟩⟩

theorem witPoolRequests :
    (∃ (u : PageUse) (a : Nat) (p : Nat) (g : Nat) (rest : List (Nat × Nat)) (s : State), (getB s Reg.POOL_STATUS_BUILT = true) ∧ (a < 272) ∧ (admitAlloc s a = psOK) ∧ (s.pool.cache = (p, g) :: rest) ∧ ((page s p).gen = g)) ∧
    (∃ (a : Nat) (s : State), (getB s (hdrLOCK 0x60) = false) ∧ (getB s Reg.POOL_RESP_BUSY = false) ∧ (getB s Reg.POOL_STATUS_BUILT = true) ∧ (a < 256) ∧ ((acct s a).quota ≤ (acct s a).used)) ∧
    (∃ (u : PageUse) (p : Nat) (a : Nat) (s : State), (getB s Reg.POOL_STATUS_BUILT = true) ∧ (a < 272) ∧ (badPage s p = false) ∧ ((page s p).alloc = true ∧ (page s p).refmode = false ∧ (page s p).owner = a) ∧ ((page s p).pending = false ∧ (page s p).poisoned = false) ∧ (keptInS3 s a = false) ∧ (s.pool.waiters = []) ∧ (s.pool.cache.length < 3072)) ∧
    (∃ (u : PageUse) (p : Nat) (a : Nat) (s : State), (getB s Reg.POOL_STATUS_BUILT = true) ∧ (a < 272) ∧ (badPage s p = false) ∧ ((page s p).alloc = true ∧ (page s p).refmode = false ∧ (page s p).owner = a) ∧ (keptInS3 s a = true)) ∧
    (∃ (u : PageUse) (p : Nat) (a : Nat) (s : State), (getB s Reg.POOL_STATUS_BUILT = true) ∧ (a < 272) ∧ (badPage s p = false) ∧ ((page s p).alloc = false)) ∧
    (∃ (u : PageUse) (p : Nat) (a : Nat) (b : Nat) (s : State), (getB s Reg.POOL_STATUS_BUILT = true) ∧ (handoffCheck { host := false, op := 3, acct := a, target := b, page := p, wait := true, use := u } s = psOK) ∧ (admitHandoff s a b = psOK) ∧ (a ≠ b) ∧ (s.pool.waiters = [])) ∧
    (∃ (u : PageUse) (p : Nat) (s : State), (getB s Reg.POOL_STATUS_BUILT = true) ∧ (badPage s p = false) ∧ ((page s p).alloc = true ∧ (page s p).refmode = true) ∧ (1 < (page s p).refcnt ∧ (page s p).refcnt < 255) ∧ (s.pool.waiters = [])) ∧
    (∃ (u : PageUse) (p : Nat) (s : State), (getB s Reg.POOL_STATUS_BUILT = true) ∧ (badPage s p = false) ∧ ((page s p).alloc = true ∧ (page s p).refmode = true ∧ (page s p).refcnt ≤ 1) ∧ ((page s p).pending = false ∧ (page s p).poisoned = false) ∧ (s.pool.waiters = [])) ∧
    (∃ (w : Bool) (p : Nat) (s : State), (getB s (hdrLOCK 0x60) = false) ∧ (getB s Reg.POOL_RESP_BUSY = false) ∧ (getB s Reg.POOL_STATUS_BUILT = true) ∧ (badPage s p = false) ∧ (p < 2 ^ 23)) ∧
    (∃ (o : Nat) (s : State), (getB s (hdrLOCK 0x60) = false) ∧ (getB s Reg.POOL_RESP_BUSY = false) ∧ (o = 0 ∨ o = 7)) :=
  ⟨⟨.staging, 260, 70, 3, [(71, 0)], allocS, by decide +kernel⟩,
   ⟨7, allocS, by decide +kernel⟩,
   ⟨.host, 80, 260, freeS, by decide +kernel⟩,
   ⟨.host, 80, 258, st [(Reg.SAFE_STATUS_S3, 1)] (setPage 80 { (page freeS 80) with owner := 258 } freeS), by decide +kernel⟩,
   ⟨.host, 81, 260, freeS, by decide +kernel⟩,
   ⟨.staging, 80, 260, 261, freeS, by decide +kernel⟩,
   ⟨.host, 82, freeS, by decide +kernel⟩,
   ⟨.host, 82, setPage 82 { (page freeS 82) with refcnt := 1 } freeS, by decide +kernel⟩,
   ⟨true, 80, freeS, by decide +kernel⟩,
   ⟨7, freeS, by decide +kernel⟩⟩

theorem witPoolStore :
    (∃ (s : State), (getB s (hdrLOCK 0x60) = false) ∧ (getB s Reg.MEM_STATUS_READY = true) ∧ (getB s Reg.POOL_CTRL = false)) ∧
    (∃ (s : State), (getB s (hdrLOCK 0x60) = false) ∧ (getB s Reg.MEM_STATUS_READY = false)) ∧
    (∃ (s : State), (s.pool.building = true) ∧ (s.pool.early = [])) ∧
    (∃ (s : State), (s.pool.cache.length < 1024) ∧ (s.pool.ring ≠ []) ∧ (s.pool.stalled = [])) ∧
    (∃ (r : PoolReq) (s : State), (getB s (hdrLOCK 0x60) = false) ∧ (s.pool.waiters.find? (fun r => r.host) = some r) ∧ (s.pool.held = [])) ∧
    (∃ (v : Nat) (s : State), (getB s (hdrLOCK 0x61) = false) ∧ (getB s Reg.ACCT_WIN_ADDR_AUTOINC = false) ∧ (getF s Reg.ACCT_WIN_ADDR_ACCOUNT < 272) ∧ (getF s Reg.ACCT_WIN_ADDR_ITEM = 0) ∧ (s.pool.waiters = [])) :=
  ⟨⟨memS, by decide +kernel⟩,
   ⟨s0, by decide +kernel⟩,
   ⟨setPool { memS.pool with building := true } (setPage 9 { (page memS 9) with retired := true } memS), by decide +kernel⟩,
   ⟨setPool { memS.pool with cache := [(5, 0)], ring := [{ page := 10, gen := 0, len := 3000 }] } memS, by decide +kernel⟩,
   ⟨{ host := true, op := 1, acct := 7, wait := true }, setPool { memS.pool with waiters := [{ host := true, op := 1, acct := 7, wait := true }] } (st [(Reg.POOL_RESP_BUSY, 1)] memS), by decide +kernel⟩,
   ⟨500, st [(Reg.ACCT_WIN_ADDR_ACCOUNT, 7), (Reg.ACCT_WIN_ADDR_ITEM, 0)] allocS, by decide +kernel⟩⟩

theorem witFlitsAndReplay :
    (∃ (l : Nat) (w : List (BitVec 288)) (s : State), (lnkActive s = true) ∧ ((List.range 8).find? (fun l => (getF s Reg.LNK_STATUS_LANES).testBit l) = some l) ∧ (classify (flitOf (getF s Reg.LNK_STATUS_WIDTH) (l / widthOf (getF s Reg.LNK_STATUS_WIDTH)) s.lnk.slot w) = .bad) ∧ (s.lnk.nak = false)) ∧
    (∃ (l : Nat) (c : Nat) (b : Word256) (w : List (BitVec 288)) (s : State), (lnkActive s = true) ∧ ((List.range 8).find? (fun l => (getF s Reg.LNK_STATUS_LANES).testBit l) = some l) ∧ (classify (flitOf (getF s Reg.LNK_STATUS_WIDTH) (l / widthOf (getF s Reg.LNK_STATUS_WIDTH)) s.lnk.slot w) = .good c b false) ∧ (c % 4 = 1) ∧ (c / 8 = s.lnk.rxSeq % 32) ∧ (s.lnk.rxPkt = []) ∧ (1 ≤ pktLEN b ∧ pktLEN b ≤ 64)) ∧
    (∃ (l : Nat) (c : Nat) (b : Word256) (w : List (BitVec 288)) (s : State), (lnkActive s = true) ∧ ((List.range 8).find? (fun l => (getF s Reg.LNK_STATUS_LANES).testBit l) = some l) ∧ (classify (flitOf (getF s Reg.LNK_STATUS_WIDTH) (l / widthOf (getF s Reg.LNK_STATUS_WIDTH)) s.lnk.slot w) = .good c b false) ∧ (c % 4 = 1 ∨ c % 4 = 2) ∧ (c / 8 ≠ s.lnk.rxSeq % 32) ∧ (s.lnk.nak = false)) ∧
    (∃ (w : List (BitVec 288)) (s : State), (lnkActive s = false)) ∧
    (∃ (b : Word256) (recent : Bool) (p : HeldPkt) (rest : List HeldPkt) (s : State), (ctlKIND b = 0 ∧ ctlNAK b = false) ∧ (lnkActive s = true) ∧ (s.lnk.held = p :: rest) ∧ (s.lnk.resend = [] ∧ s.lnk.outbox = []) ∧ (ctlACK b = (p.seq + p.words.length) % 4096) ∧ (0 < p.words.length ∧ heldFlits s < 4096) ∧ (∀ i < rest.length, 0 < (rest.getD i p).words.length ∧ (rest.getD i p).seq = (p.seq + p.words.length + ((rest.take i).map (fun x => x.words.length)).foldl (· + ·) 0) % 4096) ∧ (p.seq < 4096)) ∧
    (∃ (b : Word256) (recent : Bool) (s : State), (ctlKIND b = 2) ∧ (lnkActive s = true)) ∧
    (∃ (b : Word256) (recent : Bool) (s : State), (ctlKIND b = 3) ∧ (lnkActive s = true ∨ lnkState s = 6) ∧ (s.lnk.wasUp = true)) ∧
    (∃ (s : State), (lnkActive s = true) ∧ (0 < heldFlits s) ∧ (s.lnk.replays < 15)) ∧
    (∃ (s : State), (lnkActive s = true) ∧ (0 < heldFlits s) ∧ (15 ≤ s.lnk.replays)) :=
  ⟨⟨0, [5], linkS, by decide +kernel⟩,
   ⟨0, 1 + 8 * 9, BitVec.ofNat 256 0x0203, laneWord (flitWord (1 + 8 * 9) (BitVec.ofNat 256 0x0203)), setLnk { linkS.lnk with rxSeq := 41, nak := true } linkS, by decide +kernel⟩,
   ⟨0, 1 + 8 * 9, BitVec.ofNat 256 0x0203, laneWord (flitWord (1 + 8 * 9) (BitVec.ofNat 256 0x0203)), setLnk { linkS.lnk with rxSeq := 42 } linkS, by decide +kernel⟩,
   ⟨[5], s0, by decide +kernel⟩,
   ⟨BitVec.ofNat 256 12, true, { seq := 10, cls := 0, words := [1, 2] }, [{ seq := 12, cls := 0, words := [3] }], ackS, by decide +kernel⟩,
   ⟨BitVec.ofNat 256 (2 * 2 ^ 32), false, linkS, by decide +kernel⟩,
   ⟨BitVec.ofNat 256 (3 * 2 ^ 32), false, linkS, by decide +kernel⟩,
   ⟨ackS, by decide +kernel⟩,
   ⟨setLnk { ackS.lnk with replays := 15 } ackS, by decide +kernel⟩⟩

theorem witLinkTrainingStates :
    (∃ (l : Nat) (m : Nat) (b : BitVec 72) (k : Nat) (s : State), (l < 8) ∧ (lnkState s = 2) ∧ (markerOk b = true) ∧ (slice b.toNat 21 3 = l) ∧ (laneDis s l = false) ∧ ((lane s l).valid = 7) ∧ (m < 8 ∧ m ≠ l ∧ laneDis s m = false ∧ (lane s m).locked = false)) ∧
    (∃ (l : Nat) (k : Nat) (s : State), (l < 8) ∧ (lnkActive s = true) ∧ ((getF s Reg.LNK_STATUS_LANES).testBit l = true) ∧ (1 ≤ (lane s l).missed)) ∧
    (∃ (l : Nat) (k : Nat) (s : State), (l < 8) ∧ (lnkActive s = true) ∧ ((getF s Reg.LNK_STATUS_LANES).testBit l = true) ∧ ((lane s l).missed = 0)) ∧
    (∃ (s : State), (lnkState s = 0)) ∧
    (∃ (s : State), (lnkState s = 2 ∨ lnkState s = 3 ∨ lnkState s = 4)) ∧
    (∃ (s : State), (lnkState s = 2) ∧ ((List.range 8).any (fun l => (lane s l).locked) = true)) ∧
    (∃ (s : State), ((List.range 8).any (fun l => (lane s l).locked) = false)) ∧
    (∃ (s : State), (getB s (hdrLOCK 0x68) = false) ∧ (lnkActive s = true)) ∧
    (∃ (s : State), (getB s (hdrLOCK 0x68) = false) ∧ (lnkActive s = true ∨ lnkState s = 6)) :=
  ⟨⟨3, 4, markerFor 3, 0, setLane 3 { valid := 7 } (st [(Reg.LNK_STATUS_STATE, 2)] s0), by decide +kernel⟩,
   ⟨0, 0, setLane 0 { missed := 1 } linkS, by decide +kernel⟩,
   ⟨0, 0, linkS, by decide +kernel⟩,
   ⟨st [(Reg.LNK_STATUS_STATE, 0)] s0, by decide +kernel⟩,
   ⟨st [(Reg.LNK_STATUS_STATE, 3)] s0, by decide +kernel⟩,
   ⟨setLane 3 { locked := true } (st [(Reg.LNK_STATUS_STATE, 2)] s0), by decide +kernel⟩,
   ⟨st [(Reg.LNK_STATUS_STATE, 2)] s0, by decide +kernel⟩,
   ⟨linkS, by decide +kernel⟩,
   ⟨linkS, by decide +kernel⟩⟩

theorem witPacketsFromTheHost :
    (∃ (h : Word256) (body : List Word256) (s : State), (packetGood 0x03 h body s = true) ∧ (pktQUEUE h = 0)) ∧
    (∃ (h : Word256) (body : List Word256) (s : State), (packetGood 0x03 h body s = true) ∧ (pktQUEUE h ≠ 0)) ∧
    (∃ (h : Word256) (body : List Word256) (x : ExecSt) (s : State), (packetGood 0x04 h body s = true) ∧ (pktQUEUE h = 0) ∧ (s.que.exec = some x) ∧ (doTarget s 0 = some x.entry) ∧ (x.entry.data.length < dataOutLen 0 x.entry) ∧ (dataOutOk 0 h x.entry = true)) ∧
    (∃ (h : Word256) (body : List Word256) (s : State), (packetGood 0x04 h body s = true) ∧ (doTarget s (pktQUEUE h) = none)) ∧
    (∃ (h : Word256) (b : Bracket) (rest : List Bracket) (s : State), (packetGood 0x09 h [] s = true) ∧ (s.mtr.brackets = rest ++ [b])) ∧
    (∃ (h : Word256) (n : Nat) (s : State), (packetGood 0x08 h [] s = true) ∧ (grantEntry h 0 = (n, 0, 1, 0)) ∧ (∀ i < 6, i ≠ 0 → (grantEntry h i).1 = 0) ∧ (s.lnk.resend = [] ∧ s.lnk.outbox = []) ∧ (s.lnk.held0 ≤ 65535 ∧ s.lnk.heldM0 ≤ 65535 ∧ s.lnk.heldM1 ≤ 65535)) ∧
    (∃ (h : Word256) (s : State), (packetGood 0x02 h [] s = true) ∧ (pktCOUNT h = 1 ∧ pktADDR h % 4 = 0) ∧ (pktACKREQ h = false)) ∧
    (∃ (h : Word256) (s : State), (packetGood 0x01 h [] s = true) ∧ (pktCOUNT h = 1 ∧ pktADDR h % 4 = 0) ∧ (linkQuiet s = true) ∧ (s.lnk.resend = [] ∧ s.lnk.outbox = []) ∧ (lnkActive s = true) ∧ (heldFlits s < 4095)) ∧
    (∃ (h : Word256) (s : State), (pktPTYPE h = 0x09) ∧ (pktLEN h = 0) ∧ (reservedBad h = true)) :=
  ⟨⟨cmdHead 0, [BitVec.ofNat 256 0x2204, 0], tokenS, by decide +kernel⟩,
   ⟨cmdHead 9, [BitVec.ofNat 256 0x2224, 0], tokenS, by decide +kernel⟩,
   ⟨dataHead, [7], writeX, execS writeX tokenS, by decide +kernel⟩,
   ⟨dataHead, [7], tokenS, by decide +kernel⟩,
   ⟨minuteHead, { idx := 4, name := 9 }, [], setMtr { tokenS.mtr with brackets := [{ idx := 4, name := 9 }], nextIdx := 5 } tokenS, by decide +kernel⟩,
   ⟨tokenHead, 300, tokenS, by decide +kernel⟩,
   ⟨writeHead, tokenS, by decide +kernel⟩,
   ⟨readHead, tokenS, by decide +kernel⟩,
   ⟨reservedHead, tokenS, by decide +kernel⟩⟩

theorem witPacketsToTheHost :
    (∃ (q : Nat) (tag : Nat) (st_ : Nat) (r : Nat) (n : Nat) (b : Nat) (d : Nat) (rest : List OutPkt) (s : State), (s.que.out = .compl q tag st_ r n b d :: rest) ∧ (mayStart s 2 (complPacket q tag st_ r n b d) = true) ∧ (nothingRuns s = true)) ∧
    (∃ (q : Nat) (tag : Nat) (f : Nat) (l : Nat) (r : Nat) (rest : List OutPkt) (s : State), (s.que.out = .retract q tag f l r :: rest) ∧ (mayStart s 2 (retractPacket q tag f l r) = true) ∧ (nothingRuns s = true)) ∧
    (∃ (p : OutPkt) (rest : List OutPkt) (s : State), (s.que.out = p :: rest)) ∧
    (∃ (p : DinPkt) (rest : List DinPkt) (s : State), (s.que.din = p :: rest) ∧ (mayStart s 1 (dinPacket p) = true) ∧ (p.poison = false) ∧ (nothingRuns s = true)) ∧
    (∃ (e : EventPkt) (rest : List EventPkt) (s : State), (s.evt.fifo = e :: rest) ∧ (mayStart s 3 (eventPacket e) = true)) ∧
    (∃ (s : State), (s.lnk.heldM0 = 0 ∧ s.lnk.heldM1 = 0 ∧ s.lnk.held0 = 0)) ∧
    (∃ (k : Nat) (n : Nat) (s : State), (s.lnk.toReturn = [(k, n)]) ∧ (0 < n ∧ n < 2 ^ 16) ∧ (lnkActive s = true) ∧ (s.lnk.resend = [] ∧ s.lnk.outbox = []) ∧ (heldFlits s < 4095)) ∧
    (∃ (s : State), (getB s (hdrLOCK 0x69) = false) ∧ (cmdRuns s = true) ∧ (s.lnk.queGrant = false) ∧ (lnkActive s = true)) :=
  ⟨⟨0, 77, 1, 5, 6, 7, 8, [], outS (.compl 0 77 1 5 6 7 8), by decide +kernel⟩,
   ⟨0, 77, 1, 5, 0x20, [.compl 0 77 0x20 5 6 7 8], outS (.retract 0 77 1 5 0x20), by decide +kernel⟩,
   ⟨.retract 0 77 1 5 0x20, [.compl 0 77 0x20 5 6 7 8], outS (.retract 0 77 1 5 0x20), by decide +kernel⟩,
   ⟨{ queue := 3, tag := 5, offset := 0, recOfs := 0, recno := 0, bytes := [1, 2], recEnd := true }, [], dinS, by decide +kernel⟩,
   ⟨{ page := 1, bit := 2, fault := 3, account := 4, stamp := { lo := 1, hi := 2 }, data := 5, eseq := 6 }, [], eventS, by decide +kernel⟩,
   ⟨setLnk { linkS.lnk with heldM0 := 0, heldM1 := 0, held0 := 0 } linkS, by decide +kernel⟩,
   ⟨64, 5, setLnk { linkS.lnk with toReturn := [(64, 5)] } linkS, by decide +kernel⟩,
   ⟨st [(Reg.CLU_RUN_CMD, 1)] linkS, by decide +kernel⟩⟩

theorem witCommandChecks :
    (∃ (c : Instr) (op : Nat) (d : List Byte) (e : QEntry) (rest : List QEntry) (s : State), (streamOp c = some op) ∧ (streamFree s = true) ∧ (s.que.stream = e :: rest) ∧ (e.body = .cmd d ∧ dOpcode d = op) ∧ ((streamCheck e s).1 ≠ stOK) ∧ (s.que.out.length < 1024 ∧ dinWaiting 0 (dTag d) s = false ∧ s.que.loss = none) ∧ (op = opCLOSE_TENANT → (tenant s (dTenant d)).state ≠ 2)) ∧
    (∃ (e : QEntry) (s : State), (staticCheck 0 e ≠ stOK)) ∧
    (∃ (e : QEntry) (s : State), (staticCheck 0 e = stOK) ∧ (needsCartridge (dOpcode e.desc) = true → s.vol.loaded = true) ∧ (isSealed s = false)) ∧
    (∃ (e : QEntry) (s : State), (staticCheck 0 e = stOK) ∧ (needsCartridge (dOpcode e.desc) = true → s.vol.loaded = true) ∧ (isSealed s = true) ∧ (touchesMedium (dOpcode e.desc) = true ∧ safeInForce s = true)) ∧
    (∃ (e : QEntry) (h : Nat) (s : State), (staticCheck 0 e = stOK) ∧ (needsCartridge (dOpcode e.desc) = true → s.vol.loaded = true) ∧ (isSealed s = true) ∧ (touchesMedium (dOpcode e.desc) = true ∧ safeInForce s = false) ∧ (s.que.halt = some h ∧ (dFlags e.desc).testBit 7 = false)) ∧
    (∃ (e : QEntry) (s : State), (staticCheck 0 e = stOK) ∧ (needsCartridge (dOpcode e.desc) = true → s.vol.loaded = true) ∧ (isSealed s = true ∧ safeInForce s = false ∧ s.que.halt = none) ∧ (usesTenant (dOpcode e.desc) = true ∧ (tenant s (dTenant e.desc)).state ≠ 1)) ∧
    (∃ (e : QEntry) (s : State), (staticCheck 0 e = stOK) ∧ (needsCartridge (dOpcode e.desc) = true → s.vol.loaded = true) ∧ (isSealed s = true ∧ safeInForce s = false ∧ s.que.halt = none) ∧ (usesTenant (dOpcode e.desc) = false ∧ getF s Reg.SPD_CTRL_SRC = 0) ∧ (s.vol.blank = true ∧ touchesMedium (dOpcode e.desc) = true ∧ [opLOAD, opUNLOAD, opFORMAT].contains (dOpcode e.desc) = false)) ∧
    (∃ (c : Instr) (op : Nat) (q : Nat) (d : List Byte) (e : QEntry) (rest : List QEntry) (s : State), (sideOp c = some (op, q)) ∧ (1 ≤ q ∧ q < 64) ∧ (cmdRuns s = true ∧ (side s q).exec = none) ∧ ((side s q).queue = e :: rest) ∧ (e.body = .cmd d ∧ dOpcode d = op) ∧ (sideCheck q e s ≠ stOK) ∧ (s.que.out.length < 1024 ∧ dinWaiting q (dTag d) s = false)) ∧
    (∃ (q : Nat) (e : QEntry) (s : State), (staticCheck q e = stOK) ∧ ([opREG_IMAGE, opATTEST, opSAFE_CLEAR].contains (dOpcode e.desc) = false) ∧ (isSealed s = false)) :=
  ⟨⟨.flush, 6, desc 6 0 0x22 0 0 0 [], { body := .cmd (desc 6 0 0x22 0 0 0 []) }, [{ body := .minute 5 }], setQue { cmdS.que with stream := [{ body := .cmd (desc 6 0 0x22 0 0 0 []) }, { body := .minute 5 }] } (st [(Reg.SAFE_STATUS_S1, 1), (Reg.SAFE_CAUSE_CODE, 0x4104)] cmdS), by decide +kernel⟩,
   ⟨{ body := .cmd (desc 4 0 0x22 0 0 9 []) }, cmdS, by decide +kernel⟩,
   ⟨{ body := .cmd (desc 6 0 0x22 0 0 0 []) }, st [(Reg.SEC_STATUS_SEALED, 0)] cmdS, by decide +kernel⟩,
   ⟨{ body := .cmd (desc 6 0 0x22 0 0 0 []) }, st [(Reg.SAFE_STATUS_S1, 1), (Reg.SAFE_CAUSE_CODE, 0x4104)] cmdS, by decide +kernel⟩,
   ⟨{ body := .cmd (desc 6 0 0x22 0 0 0 []) }, 0x30, setQue { cmdS.que with halt := some 0x30, haltDet := 0x3708 } cmdS, by decide +kernel⟩,
   ⟨{ body := .cmd (desc 7 0 0x22 3 0 0 (leBytes 4 0)) }, cmdS, by decide +kernel⟩,
   ⟨{ body := .cmd (desc 6 0 0x22 0 0 0 []) }, setVol { cmdS.vol with blank := true } cmdS, by decide +kernel⟩,
   ⟨.keyErase 9, 0x21, 9, desc 0x21 0 0x22 0 0 0 [0, 0, 33], { body := .cmd (desc 0x21 0 0x22 0 0 0 [0, 0, 33]) }, [], setSide 9 { queue := [{ body := .cmd (desc 0x21 0 0x22 0 0 0 [0, 0, 33]) }] } (st [(Reg.SEC_STATUS_SEALED, 0)] cmdS), by decide +kernel⟩,
   ⟨9, { body := .cmd (desc 0x21 0 0x22 0 0 0 [0, 0, 33]) }, st [(Reg.SEC_STATUS_SEALED, 0)] cmdS, by decide +kernel⟩⟩

theorem witStreamWriting :
    (∃ (x : ExecSt) (s : State), (runsOp opWRITE x s = true ∧ mayFinish x s = true ∧ s.que.loss = none ∧ x.recovered = false) ∧ (wREC_COUNT x.entry.desc = 1 ∧ wREC_LEN x.entry.desc < granMax) ∧ (dDataLen x.entry.desc ≤ x.entry.data.length) ∧ (writeRefusal s = none) ∧ (s.vol.atEod = true ∧ s.vol.wrote = true ∧ s.vol.dirtyDue = false ∧ s.fmt.group.isSome = true) ∧ (readSet s s.vol.eodDsn = none) ∧ (s.fmt.openGran = none)) ∧
    (∃ (x : ExecSt) (g : Gran) (s : State), (runsOp opWRITE x s = true ∧ mayFinish x s = true ∧ s.que.loss = none ∧ x.recovered = false) ∧ (wREC_COUNT x.entry.desc = 1 ∧ 0 < wREC_LEN x.entry.desc) ∧ (dDataLen x.entry.desc ≤ x.entry.data.length ∧ dDataLen x.entry.desc = wREC_LEN x.entry.desc) ∧ (writeRefusal s = none) ∧ (s.vol.atEod = true ∧ s.vol.wrote = true ∧ s.vol.dirtyDue = false ∧ s.fmt.group.isSome = true) ∧ (readSet s s.vol.eodDsn = none) ∧ (s.fmt.openGran = some g) ∧ ((wrCtx s x.entry).fits g = true) ∧ (g.plain.length + wREC_LEN x.entry.desc < granMax ∧ g.records < 65534 ∧ g.plain ≠ [])) ∧
    (∃ (x : ExecSt) (s : State), (runsOp opWRITE x s = true ∧ mayFinish x s = true ∧ s.que.loss = none ∧ x.recovered = false) ∧ (wREC_COUNT x.entry.desc = 0) ∧ (writeRefusal s = none)) ∧
    (∃ (c : Instr) (op : Nat) (st : Nat) (x : ExecSt) (s : State), ((c = .write ∧ op = opWRITE) ∨ (c = .filemark ∧ op = opFILEMARK)) ∧ (runsOp op x s = true ∧ mayFinish x s = true ∧ s.que.loss = none) ∧ (x.phase = .data ∧ x.step = 0) ∧ (writeRefusal s = some st)) ∧
    (∃ (x : ExecSt) (s : State), (runsOp opFILEMARK x s = true ∧ mayFinish x s = true ∧ s.que.loss = none ∧ x.recovered = false) ∧ (dField x.entry.desc 0x10 2 = 1) ∧ (writeRefusal s = none) ∧ (s.vol.atEod = true ∧ s.vol.wrote = true ∧ s.vol.dirtyDue = false ∧ s.fmt.group.isSome = true) ∧ (readSet s s.vol.eodDsn = none)) ∧
    (∃ (x : ExecSt) (s : State), (runsOp opFLUSH x s = true ∧ mayFinish x s = true ∧ s.que.loss = none ∧ x.recovered = false) ∧ (x.phase = .settling) ∧ (settledAll s = true)) ∧
    (∃ (x : ExecSt) (s : State), (runsOp opFLUSH x s = true) ∧ (x.phase = .settling) ∧ (settledAll s = false)) :=
  ⟨⟨wrX, runX wrX wroteS, by decide +kernel⟩,
   ⟨wrX, wrG, runX wrX (setFmt { wroteS.fmt with openGran := some wrG } wroteS), by decide +kernel⟩,
   ⟨opX (desc 4 0 0x22 2 0 0 []) .data, runX (opX (desc 4 0 0x22 2 0 0 []) .data) wroteS, by decide +kernel⟩,
   ⟨.write, 4, 0x32, wrX, runX wrX (setVol { wroteS.vol with conflict := true } wroteS), by decide +kernel⟩,
   ⟨fmX 1, runX (fmX 1) wroteS, by decide +kernel⟩,
   ⟨flX .settling, runX (flX .settling) cmdS, by decide +kernel⟩,
   ⟨flX .settling, runX (flX .settling) wroteS, by decide +kernel⟩⟩

theorem witStreamReading :
    (∃ (tags : List Nat) (x : ExecSt) (s : State), (runsOp opREAD x s = true ∧ mayFinish x s = true ∧ s.que.loss = none) ∧ (x.phase = .work ∧ x.rd = none ∧ x.cursor = none ∧ x.count = 0) ∧ (readFull x 0 = false) ∧ (s.vol.atEod = true ∧ s.vol.eodKnown = true)) ∧
    (∃ (tags : List Nat) (n : Nat) (off : Nat) (len : Nat) (m : Nat) (o : Nat) (head : List Byte) (b : List Byte) (plain : List Byte) (dsns : List Nat) (x : ExecSt) (s : State), (runsOp opREAD x s = true) ∧ (x.phase = .work ∧ x.rd = none ∧ x.cursor = some (n, off) ∧ x.count = 0 ∧ x.sent = 0 ∧ x.part = [] ∧ x.lostGrans = [] ∧ x.retract = none ∧ x.bytes = 0) ∧ (dField x.entry.desc 0x10 4 = 1 ∧ (dFlags x.entry.desc).testBit 0 = false ∧ len ≤ dDataLen x.entry.desc) ∧ (headerAt s (walkFuel s) n off = .at_ n off head) ∧ (headerOk head = true) ∧ (getBytes s (walkFuel s) n off (granSpan (granHdr head)) = .bytes b m o dsns) ∧ ((granHdr head).tenantTag = (tenant s (dTenant x.entry.desc)).tag) ∧ ((granHdr head).enc = false ∧ (granHdr head).filemark = false ∧ (granHdr head).startsMid = false ∧ (granHdr head).endsMid = false) ∧ (fieldsOk (granHdr head) (bytesAt b 64 (granHdr head).rmapLen) = true) ∧ (rmapPieces (bytesAt b 64 (granHdr head).rmapLen) = [len]) ∧ (Pgc.decompress (granHdr head).plainLen (bytesAt b (64 + (granHdr head).rmapLen) (granHdr head).bodyLen) = (0, plain)) ∧ (plain.length = len ∧ 0 < len) ∧ (s.vol.posRecord = (granHdr head).first)) ∧
    (∃ (tags : List Nat) (n : Nat) (off : Nat) (m : Nat) (o : Nat) (head : List Byte) (b : List Byte) (dsns : List Nat) (x : ExecSt) (s : State), (runsOp opREAD x s = true ∧ mayFinish x s = true ∧ s.que.loss = none) ∧ (x.phase = .work ∧ x.rd = none ∧ x.cursor = some (n, off) ∧ x.count = 0 ∧ readFull x 0 = false) ∧ (headerAt s (walkFuel s) n off = .at_ n off head) ∧ (headerOk head = true) ∧ (getBytes s (walkFuel s) n off (granSpan (granHdr head)) = .bytes b m o dsns) ∧ ((granHdr head).tenantTag = (tenant s (dTenant x.entry.desc)).tag) ∧ ((granHdr head).filemark = true) ∧ (fieldsOk (granHdr head) (bytesAt b 64 (granHdr head).rmapLen) = true)) ∧
    (∃ (tags : List Nat) (n : Nat) (off : Nat) (head : List Byte) (x : ExecSt) (s : State), (runsOp opREAD x s = true ∧ mayFinish x s = true ∧ s.que.loss = none) ∧ (x.phase = .work ∧ x.rd = none ∧ x.cursor = some (n, off) ∧ x.count = 0 ∧ readFull x 0 = false) ∧ (headerAt s (walkFuel s) n off = .at_ n off head) ∧ (headerOk head = true) ∧ ((granHdr head).tenantTag ≠ (tenant s (dTenant x.entry.desc)).tag)) ∧
    (∃ (tags : List Nat) (r : Nat) (x : ExecSt) (s : State), (runsOp opLOCATE x s = true ∧ mayFinish x s = true ∧ s.que.loss = none ∧ x.recovered = false) ∧ (x.phase = .work) ∧ (dField x.entry.desc 0x10 8 = r ∧ (dFlags x.entry.desc).testBit 0 = false) ∧ (s.vol.eodKnown = true ∧ s.vol.map.isSome = true ∧ s.vol.records ≤ r)) ∧
    (∃ (tags : List Nat) (r : Nat) (n : Nat) (off : Nat) (fm : Nat) (hdr : Nat) (h : GranHdr) (x : ExecSt) (s : State), (runsOp opLOCATE x s = true ∧ mayFinish x s = true ∧ s.que.loss = none ∧ x.recovered = false) ∧ (x.phase = .work) ∧ (dField x.entry.desc 0x10 8 = r ∧ (dFlags x.entry.desc).testBit 0 = false) ∧ (s.vol.eodKnown = true ∧ r < s.vol.records) ∧ (seek s r none = .here n off h fm hdr)) :=
  ⟨⟨[7], opX (desc 7 0 0x22 2 0 100 (leBytes 4 1)) .work, runX (opX (desc 7 0 0x22 2 0 100 (leBytes 4 1)) .work) wroteS, by decide +kernel⟩,
   ⟨[7], 0, 0x200, 3, 0, 0x258, rdHead (rdG false), granBytes (rdG false) ++ zeros 5, [9, 8, 7], [0], rdX, runX rdX (rdS (rdG false)), by decide +kernel⟩,
   ⟨[7], 0, 0x200, 0, 0x240, rdHead (rdG true), granBytes (rdG true), [0], rdX, runX rdX (rdS (rdG true)), by decide +kernel⟩,
   ⟨[7], 0, 0x200, rdHead { rdG false with tenantTag := 98 }, rdX, runX rdX (rdS { rdG false with tenantTag := 98 }), by decide +kernel⟩,
   ⟨[7], 9, opX (desc 8 0 0x22 0 0 0 (leBytes 8 9)) .work, runX (opX (desc 8 0 0x22 0 0 0 (leBytes 8 9)) .work) wroteS, by decide +kernel⟩,
   ⟨[7], 7, 0, 0x200, 0, 3, granHdr (rdHead (rdG false)), opX (desc 8 0 0x22 0 0 0 (leBytes 8 7)) .work, runX (opX (desc 8 0 0x22 0 0 0 (leBytes 8 7)) .work) (setVol { wroteS.vol with records := 8 } (rdS (rdG false))), by decide +kernel⟩⟩

theorem witStreamVolume :
    (∃ (present : Bool) (hkTags : List Nat) (tags : List Nat) (rows : List HkRow) (cal : LoadCal) (x : ExecSt) (s : State), (runsOp opLOAD x s = true ∧ mayFinish x s = true ∧ s.que.loss = none ∧ x.recovered = false) ∧ (x.phase = .data) ∧ (s.vol.loaded = true ∧ s.vol.wrote = false) ∧ (nonceUsed s (dField x.entry.desc 0x10 4) = false)) ∧
    (∃ (present : Bool) (hkTags : List Nat) (tags : List Nat) (rows : List HkRow) (cal : LoadCal) (x : ExecSt) (s : State), (runsOp opLOAD x s = true ∧ mayFinish x s = true ∧ s.que.loss = none) ∧ (x.phase = .data) ∧ (s.vol.loaded = true) ∧ (s.vol.wrote = true ∨ nonceUsed s (dField x.entry.desc 0x10 4) = true)) ∧
    (∃ (hkTags : List Nat) (tags : List Nat) (rows : List HkRow) (cal : LoadCal) (x : ExecSt) (s : State), (runsOp opLOAD x s = true ∧ mayFinish x s = true ∧ s.que.loss = none) ∧ (x.phase = .data ∧ dField x.entry.desc 0x10 4 ≠ 0xFFFFFFFF) ∧ (s.vol.loaded = false)) ∧
    (∃ (hkTags : List Nat) (tags : List Nat) (rows : List HkRow) (cal : LoadCal) (x : ExecSt) (s : State), (runsOp opLOAD x s = true) ∧ (x.phase = .data ∧ dField x.entry.desc 0x10 4 ≠ 0xFFFFFFFF) ∧ (s.vol.loaded = false ∧ s.pins.cartFaulty = false)) ∧
    (∃ (x : ExecSt) (s : State), (s.que.exec = some x ∧ dOpcode x.entry.desc = opLOAD) ∧ (x.phase = .settling ∧ x.step = 0)) ∧
    (∃ (cal : LoadCal) (x : ExecSt) (s : State), (runsOp opLOAD x s = true ∧ mayFinish x s = true ∧ s.que.loss = none) ∧ (x.phase = .settling ∧ x.step = 1 ∧ dField x.entry.desc 0x10 4 ≠ 0xFFFFFFFF) ∧ (getB s Reg.CAL_CTRL_LOAD_EN = false)) ∧
    (∃ (x : ExecSt) (s : State), (s.que.exec = some x ∧ dOpcode x.entry.desc = opUNLOAD) ∧ (x.phase = .work ∧ x.step = 1 ∧ x.recovered = false) ∧ (mayFinish x s = true ∧ s.que.loss = none) ∧ (s.vol.loaded = true ∧ s.vol.blank = false)) ∧
    (∃ (x : ExecSt) (s : State), (runsOp opUNLOAD x s = true ∧ mayFinish x s = true ∧ s.que.loss = none ∧ x.recovered = false) ∧ (x.phase = .work) ∧ (s.vol.loaded = false)) ∧
    (∃ (x : ExecSt) (s : State), (runsOp opUNLOAD x s = true) ∧ (x.phase = .work ∧ x.step = 0) ∧ (s.vol.loaded = true ∧ s.vol.wrote = false)) ∧
    (∃ (x : ExecSt) (s : State), (runsOp opFORMAT x s = true ∧ mayFinish x s = true ∧ s.que.loss = none) ∧ (x.phase = .data ∧ s.vol.blank = false ∧ (dFlags x.entry.desc).testBit 0 = false)) ∧
    (∃ (x : ExecSt) (s : State), (runsOp opFORMAT x s = true) ∧ (x.phase = .settling) ∧ (settledAll s = true ∧ s.rch.sets = [])) ∧
    (∃ (m : VolMap) (x : ExecSt) (s : State), (runsOp opFORMAT x s = true ∧ mayFinish x s = true ∧ s.que.loss = none ∧ x.recovered = false) ∧ (x.phase = .work) ∧ (s.fmt.sets = []) ∧ (s.vol.map = some m)) ∧
    (∃ (tags : List Nat) (m : VolMap) (x : ExecSt) (s : State), (runsOp opSELECT_MAP x s = true ∧ mayFinish x s = true ∧ s.que.loss = none ∧ x.recovered = false) ∧ (x.phase = .work ∧ x.step = 0) ∧ (dField x.entry.desc 0x10 1 < 3) ∧ (s.vol.copies.find? (fun m => m.copy == dField x.entry.desc 0x10 1) = some m) ∧ (m.dirty = false ∧ s.rch.sets = [])) ∧
    (∃ (tags : List Nat) (x : ExecSt) (s : State), (runsOp opSELECT_MAP x s = true ∧ mayFinish x s = true ∧ s.que.loss = none) ∧ (x.phase = .work ∧ x.step = 0) ∧ (dField x.entry.desc 0x10 1 < 3) ∧ (s.vol.copies.find? (fun m => m.copy == dField x.entry.desc 0x10 1) = none) ∧ (s.rch.sets = [])) ∧
    (∃ (x : ExecSt) (s : State), (runsOp opREFRESH x s = true ∧ mayFinish x s = true ∧ s.que.loss = none ∧ x.recovered = false) ∧ (x.phase = .work ∧ x.step = 0 ∧ x.status = 0 ∧ x.pairs = []) ∧ (s.rch.weak = [] ∧ s.fmt.sets = [] ∧ s.fmt.group.isSome = true ∧ readSet s s.vol.eodDsn = none)) :=
  ⟨⟨true, [84000], [7], [], noCal, opX (desc 1 0 0x22 0 0 0 (leBytes 4 77)) .data, runX (opX (desc 1 0 0x22 0 0 0 (leBytes 4 77)) .data) cmdS, by decide +kernel⟩,
   ⟨true, [84000], [7], [], noCal, opX (desc 1 0 0x22 0 0 0 (leBytes 4 0xFFFFFFFF)) .data, runX (opX (desc 1 0 0x22 0 0 0 (leBytes 4 0xFFFFFFFF)) .data) cmdS, by decide +kernel⟩,
   ⟨[84000], [7], [], noCal, opX (desc 1 0 0x22 0 0 0 (leBytes 4 77)) .data, runX (opX (desc 1 0 0x22 0 0 0 (leBytes 4 77)) .data) (setVol {} cmdS), by decide +kernel⟩,
   ⟨[84000], [7], [], noCal, opX (desc 1 0 0x22 0 0 0 (leBytes 4 77)) .data, runX (opX (desc 1 0 0x22 0 0 0 (leBytes 4 77)) .data) (setVol {} cmdS), by decide +kernel⟩,
   ⟨opX (desc 1 0 0x22 0 0 0 (leBytes 4 77)) .settling, runX (opX (desc 1 0 0x22 0 0 0 (leBytes 4 77)) .settling) (setVol {} cmdS), by decide +kernel⟩,
   ⟨noCal, { opX (desc 1 0 0x22 0 0 0 (leBytes 4 77)) .settling with step := 1 }, runX { opX (desc 1 0 0x22 0 0 0 (leBytes 4 77)) .settling with step := 1 } (st [(Reg.CAL_CTRL_LOAD_EN, 0)] (setVol {} cmdS)), by decide +kernel⟩,
   ⟨{ opX (desc 2 0 0x22 0 0 0 []) .work with step := 1 }, runX { opX (desc 2 0 0x22 0 0 0 []) .work with step := 1 } cmdS, by decide +kernel⟩,
   ⟨opX (desc 2 0 0x22 0 0 0 []) .work, runX (opX (desc 2 0 0x22 0 0 0 []) .work) (setVol {} cmdS), by decide +kernel⟩,
   ⟨opX (desc 2 0 0x22 0 0 0 []) .work, runX (opX (desc 2 0 0x22 0 0 0 []) .work) cmdS, by decide +kernel⟩,
   ⟨opX (desc 3 0 0x22 0 0 0 (leBytes 8 5)) .data, runX (opX (desc 3 0 0x22 0 0 0 (leBytes 8 5)) .data) cmdS, by decide +kernel⟩,
   ⟨opX (desc 3 0 0x22 0 0 0 (leBytes 8 5)) .settling, runX (opX (desc 3 0 0x22 0 0 0 (leBytes 8 5)) .settling) (st [(Reg.FMT_UA_END, 200000)] (setVol { cmdS.vol with blank := true } cmdS)), by decide +kernel⟩,
   ⟨{ uaEnd := 200000, eodFrame := 100000 }, opX (desc 3 0 0x22 0 0 0 (leBytes 8 5)) .work, runX (opX (desc 3 0 0x22 0 0 0 (leBytes 8 5)) .work) (setVol { cmdS.vol with map := some { uaEnd := 200000, eodFrame := 100000 }, highGen := 8 } cmdS), by decide +kernel⟩,
   ⟨[7], volM, opX (desc 0xB 0 0x22 0 0 0 [1]) .work, runX (opX (desc 0xB 0 0x22 0 0 0 [1]) .work) (setVol { cmdS.vol with conflict := true, copies := [volM] } cmdS), by decide +kernel⟩,
   ⟨[7], opX (desc 0xB 0 0x22 0 0 0 [2]) .work, runX (opX (desc 0xB 0 0x22 0 0 0 [2]) .work) (setVol { cmdS.vol with copies := [volM] } cmdS), by decide +kernel⟩,
   ⟨opX (desc 0xA 0 0x22 0 0 0 []) .work, runX (opX (desc 0xA 0 0x22 0 0 0 []) .work) (setFmt { wroteS.fmt with sets := [] } wroteS), by decide +kernel⟩⟩

theorem witTenantsAndBrackets :
    (∃ (n : Nat) (x : ExecSt) (s : State), (runsOp opOPEN_TENANT x s = true ∧ mayFinish x s = true ∧ s.que.loss = none ∧ x.recovered = false) ∧ ((List.range 256).find? (fun n => (tenant s n).state == 0) = some n) ∧ (dField x.entry.desc 0x10 8 ≠ 0) ∧ (s.ten.any (fun e => e.2.state != 0 && e.2.tag == dField x.entry.desc 0x10 8) = false) ∧ (setBounds n (dField x.entry.desc 0x18 4) (dField x.entry.desc 0x1C 4) s = 0) ∧ (s.pool.waiters = [] ∧ s.pool.held = [])) ∧
    (∃ (x : ExecSt) (s : State), (runsOp opOPEN_TENANT x s = true ∧ mayFinish x s = true ∧ s.que.loss = none) ∧ (∀ n < 256, (tenant s n).state ≠ 0)) ∧
    (∃ (x : ExecSt) (s : State), (runsOp opRECEIPT x s = true) ∧ (x.phase = .work ∧ x.retract = none)) ∧
    (∃ (x : ExecSt) (s : State), (runsOp opCLOSE_TENANT x s = true) ∧ (x.phase = .work ∧ x.step = 0) ∧ (ownedSlots s (dTenant x.entry.desc) ≠ [])) ∧
    (∃ (x : ExecSt) (s : State), (runsOp opCLOSE_TENANT x s = true ∧ mayFinish x s = true ∧ s.que.loss = none ∧ x.recovered = false) ∧ (x.phase = .work ∧ x.step = 1) ∧ (ownedSlots s (dTenant x.entry.desc) = []) ∧ (s.pool.waiters = [] ∧ s.pool.held = [] ∧ minSum s ≤ capacity s)) ∧
    (∃ (n : Nat) (e : QEntry) (rest : List QEntry) (s : State), (s.que.stream = e :: rest ∧ e.body = .minute n) ∧ (streamFree s = true) ∧ (257 ≤ mtrFree s)) ∧
    (∃ (n : Nat) (e : QEntry) (rest : List QEntry) (s : State), (s.que.stream = e :: rest ∧ e.body = .minute n) ∧ (streamFree s = true) ∧ (mtrFree s < 257 ∧ getB s Reg.MTR_STATUS_HELD = false)) ∧
    (∃ (b : Bracket) (rest : List Bracket) (s : State), (s.mtr.brackets = b :: rest) ∧ (bracketFinal s b = true) ∧ ((bracketSessions s b).length + 1 ≤ mtrFree s)) ∧
    (∃ (b : Bracket) (rest : List Bracket) (s : State), (s.mtr.brackets = b :: rest) ∧ (bracketFinal s b = false)) ∧
    (∃ (v : Nat) (s : State), (getB s (hdrLOCK 0x71) = false) ∧ (v < 2 ^ 32 ∧ (v + 2 ^ 32 - getF s Reg.MTR_TAIL) % 2 ^ 32 ≤ mtrHeld s)) ∧
    (∃ (v : Nat) (s : State), (getB s (hdrLOCK 0x71) = false) ∧ (v < 2 ^ 32 ∧ mtrHeld s < (v + 2 ^ 32 - getF s Reg.MTR_TAIL) % 2 ^ 32)) ∧
    (∃ (q : Nat) (n : Nat) (x : ExecSt) (bytes : List Byte) (s : State), (runsSide opMETER_READ q x s = true) ∧ ((getF s Reg.MTR_HEAD + 2 ^ 32 - dField x.entry.desc 0x10 4) % 2 ^ 32 ≤ mtrHeld s) ∧ (n = min ((getF s Reg.MTR_HEAD + 2 ^ 32 - dField x.entry.desc 0x10 4) % 2 ^ 32) (min (dField x.entry.desc 0x14 4) (dDataLen x.entry.desc / 64))) ∧ ((List.range n).flatMap (fun i => Tbl.get [] s.mtr.log ((dField x.entry.desc 0x10 4 + i) % 2 ^ 32 % mtrDepth)) = bytes) ∧ (bytes ≠ [])) ∧
    (∃ (q : Nat) (x : ExecSt) (s : State), (runsSide opMETER_READ q x s = true ∧ mayFinishSide q x s = true) ∧ (mtrHeld s < (getF s Reg.MTR_HEAD + 2 ^ 32 - dField x.entry.desc 0x10 4) % 2 ^ 32)) :=
  ⟨⟨0, openX, runX openX poolS, by decide +kernel⟩,
   ⟨openX, runX openX { poolS with ten := (List.range 256).map fun n => (n, { state := 1, tag := 5 }) }, by decide +kernel⟩,
   ⟨opX (desc 0xC 0 0x22 2 0 400 []) .work, runX (opX (desc 0xC 0 0x22 2 0 400 []) .work) wroteS, by decide +kernel⟩,
   ⟨closeX 0, runX (closeX 0) (setKeys { closingS.keys with data := [(5, { state := 1, tenant := 2 }), (6, { state := 1, tenant := 3 })] } closingS), by decide +kernel⟩,
   ⟨closeX 1, runX (closeX 1) closingS, by decide +kernel⟩,
   ⟨8, { body := .minute 8 }, [], minS, by decide +kernel⟩,
   ⟨8, { body := .minute 8 }, [], st [(Reg.MTR_HEAD, 32768)] minS, by decide +kernel⟩,
   ⟨{ idx := 0, name := 8, closed := true, use := [(3, { commands := 2 })], noTenant := 1 }, [{ idx := 1, name := 9 }], brS, by decide +kernel⟩,
   ⟨{ idx := 0, name := 8, live := 1, closed := true }, [], setMtr { cmdS.mtr with brackets := [{ idx := 0, name := 8, live := 1, closed := true }] } cmdS, by decide +kernel⟩,
   ⟨1, st [(Reg.MTR_HEAD, 3)] cmdS, by decide +kernel⟩,
   ⟨9, st [(Reg.MTR_HEAD, 3)] cmdS, by decide +kernel⟩,
   ⟨9, 1, mrX, [1, 2], sdS mrX mrS, by decide +kernel⟩,
   ⟨9, sdX (desc 0x25 0 0x22 0 0 640 (leBytes 4 2 ++ leBytes 4 5)) .data, sdS (sdX (desc 0x25 0 0x22 0 0 640 (leBytes 4 2 ++ leBytes 4 5)) .data) mrS, by decide +kernel⟩⟩

theorem witSideKeys :
    (∃ (q : Nat) (x : ExecSt) (k : Nat × List Byte) (s : State), (runsSide opKEY_IMPORT q x s = true) ∧ (x.phase = .data ∧ dDataLen x.entry.desc ≤ x.entry.data.length) ∧ (s.keys.kek.find? (fun e => e.1 == dField x.entry.desc 0x10 1) = some k) ∧ (importCheck s (dTenant x.entry.desc) true (dField x.entry.desc 0x12 2) = stOK) ∧ (s.ciph.fw.length < 16)) ∧
    (∃ (q : Nat) (x : ExecSt) (s : State), (runsSide opKEY_IMPORT q x s = true ∧ mayFinishSide q x s = true) ∧ (x.phase = .data ∧ dDataLen x.entry.desc ≤ x.entry.data.length) ∧ (importCheck s (dTenant x.entry.desc) ((s.keys.kek.find? fun e => e.1 == dField x.entry.desc 0x10 1).isSome) (dField x.entry.desc 0x12 2) ≠ stOK)) ∧
    (∃ (q : Nat) (x : ExecSt) (s : State), (runsSide opKEY_ERASE q x s = true ∧ mayFinishSide q x s = true) ∧ (x.phase = .data ∧ (keySlot s (dField x.entry.desc 0x12 2)).state = 0)) ∧
    (∃ (q : Nat) (x : ExecSt) (s : State), (runsSide opKEY_ERASE q x s = true) ∧ (x.phase = .data ∧ (keySlot s (dField x.entry.desc 0x12 2)).state = 1)) ∧
    (∃ (q : Nat) (x : ExecSt) (s : State), (runsSide opKEK_ERASE q x s = true ∧ mayFinishSide q x s = true) ∧ (x.phase = .data ∧ s.keys.kek.any (fun e => e.1 == dField x.entry.desc 0x10 1) = false)) ∧
    (∃ (q : Nat) (x : ExecSt) (s : State), (runsSide opKEK_ERASE q x s = true) ∧ (x.phase = .data ∧ s.keys.kek.any (fun e => e.1 == dField x.entry.desc 0x10 1) = true)) ∧
    (∃ (q : Nat) (x : ExecSt) (s : State), (runsSide opKEK_AGREE q x s = true ∧ mayFinishSide q x s = true) ∧ (dDataLen x.entry.desc ≤ x.entry.data.length) ∧ (lcPermits s = true ∧ getB s Reg.SEC_STATUS_ID_OK = true ∧ getB s Reg.SEC_STATUS_ENTROPY_OK = true)) ∧
    (∃ (q : Nat) (x : ExecSt) (s : State), (runsSide opKEK_AGREE q x s = true ∧ mayFinishSide q x s = true) ∧ (dDataLen x.entry.desc ≤ x.entry.data.length) ∧ (lcPermits s = false ∨ getB s Reg.SEC_STATUS_ID_OK = false ∨ getB s Reg.SEC_STATUS_ENTROPY_OK = false)) ∧
    (∃ (q : Nat) (es : List Nat) (x : ExecSt) (s : State), (runsSide opCIPHER q x s = true) ∧ (x.phase = .data ∧ (tenant s (dTenant x.entry.desc)).state = 1) ∧ (cData x.entry.desc = true ∧ (keySlot s (cSLOT x.entry.desc)).state = 1 ∧ (keySlot s (cSLOT x.entry.desc)).tenant = dTenant x.entry.desc) ∧ (dAccount x.entry.desc = dTenant x.entry.desc ∧ s.ciph.host.length < 64) ∧ (cDstLen x.entry.desc = none) ∧ (readList (cSRC_LIST x.entry.desc) (cPages (cSRC_OFS x.entry.desc) (cSrcLen x.entry.desc)) (dAccount x.entry.desc) s = ((es, false, false), s))) ∧
    (∃ (q : Nat) (x : ExecSt) (s : State), (runsSide opCIPHER q x s = true ∧ mayFinishSide q x s = true) ∧ (x.phase = .data ∧ (tenant s (dTenant x.entry.desc)).state = 1) ∧ (cData x.entry.desc = true) ∧ ((keySlot s (cSLOT x.entry.desc)).state ≠ 1 ∨ (keySlot s (cSLOT x.entry.desc)).tenant ≠ dTenant x.entry.desc)) :=
  ⟨⟨9, kiX, (3, [1, 2]), sdS kiX kiS, by decide +kernel⟩,
   ⟨9, kiX, sdS kiX (setKeys {} kiS), by decide +kernel⟩,
   ⟨9, keX, sdS keX cmdS, by decide +kernel⟩,
   ⟨9, keX, sdS keX (setKeys { cmdS.keys with data := [(33, { state := 1, tenant := 4 })] } cmdS), by decide +kernel⟩,
   ⟨9, kkX, sdS kkX cmdS, by decide +kernel⟩,
   ⟨9, kkX, sdS kkX kiS, by decide +kernel⟩,
   ⟨9, agX, sdS agX idS, by decide +kernel⟩,
   ⟨9, agX, sdS agX cmdS, by decide +kernel⟩,
   ⟨9, [0], ciX, sdS ciX ciS, by decide +kernel⟩,
   ⟨9, ciX, sdS ciX (setKeys {} ciS), by decide +kernel⟩⟩

theorem witSideAccountsAndClearing :
    (∃ (q : Nat) (x : ExecSt) (s : State), (runsSide opSET_QUOTA q x s = true ∧ mayFinishSide q x s = true) ∧ (264 ≤ dAccount x.entry.desc ∨ (tenant s (dAccount x.entry.desc)).state ≠ 0 ∧ dAccount x.entry.desc < 256) ∧ (setBounds (dAccount x.entry.desc) (dField x.entry.desc 0x10 4) (dField x.entry.desc 0x14 4) s = 0) ∧ (s.pool.waiters = [] ∧ s.pool.held = [])) ∧
    (∃ (q : Nat) (x : ExecSt) (s : State), (runsSide opSET_QUOTA q x s = true ∧ mayFinishSide q x s = true) ∧ (264 ≤ dAccount x.entry.desc) ∧ (setBounds (dAccount x.entry.desc) (dField x.entry.desc 0x10 4) (dField x.entry.desc 0x14 4) s ≠ 0)) ∧
    (∃ (q : Nat) (x : ExecSt) (s : State), (runsSide opSET_QUOTA q x s = true ∧ mayFinishSide q x s = true) ∧ (256 ≤ dAccount x.entry.desc ∧ dAccount x.entry.desc ≤ 263)) ∧
    (∃ (q : Nat) (x : ExecSt) (s : State), (runsSide opSET_QUOTA q x s = true ∧ mayFinishSide q x s = true) ∧ (dAccount x.entry.desc < 256 ∧ (tenant s (dAccount x.entry.desc)).state = 0)) ∧
    (∃ (q : Nat) (x : ExecSt) (s : State), (runsSide opATTEST q x s = true) ∧ (getB s Reg.SEC_STATUS_SEAL_BUSY = false ∧ lcPermits s = true ∧ getB s Reg.SEC_STATUS_ID_OK = true ∧ (dFlags x.entry.desc).testBit 0 = false)) ∧
    (∃ (q : Nat) (x : ExecSt) (s : State), (runsSide opATTEST q x s = true) ∧ (getB s Reg.SEC_STATUS_SEAL_BUSY = true)) ∧
    (∃ (q : Nat) (x : ExecSt) (s : State), (runsSide opATTEST q x s = true ∧ mayFinishSide q x s = true) ∧ (getB s Reg.SEC_STATUS_SEAL_BUSY = false) ∧ (lcPermits s = false ∨ getB s Reg.SEC_STATUS_ID_OK = false)) ∧
    (∃ (q : Nat) (persist : Option Nat) (bad : Option Nat) (rows : List Nat) (x : ExecSt) (s : State), (runsSide opSAFE_CLEAR q x s = true ∧ mayFinishSide q x s = true) ∧ (dField x.entry.desc 0x10 1 = 2) ∧ (s2InForce s = true ∧ getB s Reg.POS_STATUS_STILL = true) ∧ (persist = none ∧ s.evt.latched = []) ∧ (isSealed s = true ∧ cfgOk s = true ∧ getB s Reg.SAFE_STATUS_SSN_LATCHED = false)) ∧
    (∃ (q : Nat) (persist : Option Nat) (rows : List Nat) (x : ExecSt) (s : State), (runsSide opSAFE_CLEAR q x s = true ∧ mayFinishSide q x s = true) ∧ (dField x.entry.desc 0x10 1 = 4) ∧ (s3InForce s = true) ∧ (persist = none ∧ s.evt.latched = [])) ∧
    (∃ (q : Nat) (c : Nat) (vbus : Bool) (ten : Bool) (persist : Option Nat) (bad : Option Nat) (rows : List Nat) (x : ExecSt) (s : State), (runsSide opSAFE_CLEAR q x s = true ∧ mayFinishSide q x s = true) ∧ (dField x.entry.desc 0x10 1 = 2 ∧ s2InForce s = true) ∧ (clearBlocked 2 true vbus ten persist s = some c)) ∧
    (∃ (q : Nat) (a : Nat) (v : Nat) (x : ExecSt) (s : State), (runsSide opREG_IMAGE q x s = true) ∧ (dDataLen x.entry.desc ≤ x.entry.data.length) ∧ (imageEntries (x.entry.data.take (dDataLen x.entry.desc)) = [(a, v)]) ∧ (a % 4 = 0 ∧ a < 0x100000) ∧ (mayFinishSide q x (hostWrite a v s) = true) ∧ (linkQuiet (hostWrite a v s) = true)) ∧
    (∃ (q : Nat) (a : Nat) (v : Nat) (l : List (Nat × Nat)) (x : ExecSt) (s : State), (runsSide opREG_IMAGE q x s = true ∧ mayFinishSide q x s = true) ∧ (dDataLen x.entry.desc ≤ x.entry.data.length) ∧ (imageEntries (x.entry.data.take (dDataLen x.entry.desc)) = (a, v) :: l) ∧ (a % 4 ≠ 0 ∨ 0x100000 ≤ a) ∧ (linkQuiet s = true)) :=
  ⟨⟨9, sqX 300 10 2, sdS (sqX 300 10 2) poolS, by decide +kernel⟩,
   ⟨9, sqX 300 2 10, sdS (sqX 300 2 10) poolS, by decide +kernel⟩,
   ⟨9, sqX 256 10 2, sdS (sqX 256 10 2) poolS, by decide +kernel⟩,
   ⟨9, sqX 5 10 2, sdS (sqX 5 10 2) poolS, by decide +kernel⟩,
   ⟨9, atX 0, sdS (atX 0) idS, by decide +kernel⟩,
   ⟨9, atX 0, sdS (atX 0) (st [(Reg.SEC_STATUS_SEAL_BUSY, 1)] idS), by decide +kernel⟩,
   ⟨9, atX 0, sdS (atX 0) cmdS, by decide +kernel⟩,
   ⟨9, none, none, [], scX 2, sdS (scX 2) s2S, by decide +kernel⟩,
   ⟨9, none, [], scX 4, sdS (scX 4) (st [(Reg.SAFE_STATUS_S3, 1)] cmdS), by decide +kernel⟩,
   ⟨9, 0x4E0B, true, false, none, none, [], scX 2, sdS (scX 2) s2S, by decide +kernel⟩,
   ⟨9, 0x5C024, 7, imX [(0x5C024, 7)], sdS (imX [(0x5C024, 7)]) cmdS, by decide +kernel⟩,
   ⟨9, 0x100000, 7, [], imX [(0x100000, 7)], sdS (imX [(0x100000, 7)]) cmdS, by decide +kernel⟩⟩

theorem witReelDrives :
    (∃ (x : Nat) (p : PwmIn) (s : State), (x < 2) ∧ (pageRuns s (motPage x) = true) ∧ (getB s (Reg.MOT_CTRL_EN x) = false ∨ reelSto s = true)) ∧
    (∃ (x : Nat) (p : PwmIn) (s : State), (x < 2) ∧ (pageRuns s (motPage x) = true) ∧ (getB s (Reg.MOT_CTRL_EN x) = true ∧ reelSto s = false ∧ getB s (Reg.MOT_STATUS_RUNNING x) = true) ∧ (getF s (Reg.MOT_CTRL_SRC_FORCE x) = 1 ∧ srcValid s x 1 = true ∧ (reel s x).start = 0) ∧ (p.late = false ∧ (reel s x).cmp = [300, 600, 900] ∧ minWin s x ≤ 300 ∧ getB s Reg.ADC_CTRL_EN = true)) ∧
    (∃ (x : Nat) (p : PwmIn) (s : State), (x < 2) ∧ (pageRuns s (motPage x) = true) ∧ (getB s (Reg.MOT_CTRL_EN x) = true ∧ reelSto s = false ∧ getB s (Reg.MOT_STATUS_RUNNING x) = true) ∧ (getF s (Reg.MOT_CTRL_SRC_FORCE x) = 1 ∧ srcValid s x 1 = true ∧ (reel s x).start = 0) ∧ (p.late = true)) ∧
    (∃ (x : Nat) (code : Nat) (k : Nat) (n : Nat) (iv : Nat) (s : State), (x < 2 ∧ code < 8) ∧ (hallSector code = some n) ∧ (getF s (Reg.HALL_STATUS_SECTOR x) = k ∧ k < 6 ∧ n = (k + 1) % 6) ∧ (5000000000 ≤ iv * polePairs s x * getF s (Reg.MOTOR_NMAX x))) ∧
    (∃ (x : Nat) (code : Nat) (iv : Nat) (s : State), (x < 2 ∧ code < 8) ∧ (hallSector code = none) ∧ (getB s (Reg.MOT_CTRL_HALL_FIT x) = true ∧ getB s (Reg.MOT_STATUS_HALL_OK x) = true ∧ getB s (Reg.MOT_STATUS_RUNNING x) = false) ∧ (getF s Reg.CAP_CTRL_TRIG ≠ 2)) ∧
    (∃ (x : Nat) (s : State), (x < 2) ∧ (getB s (Reg.MOT_STATUS_OBS_VALID x) = true ∧ getF s (Reg.MOT_STATUS_SRC x) = 2 ∧ 2 ^ 32 ≤ (reel s x).obsBad) ∧ (getF s (Reg.MOT_CTRL_SRC_FORCE x) = 0 ∧ srcValid s x 1 = true)) ∧
    (∃ (x : Nat) (s : State), (x < 2) ∧ (getB s (Reg.MOT_STATUS_OBS_VALID x) = true ∧ getF s (Reg.MOT_STATUS_SRC x) ≠ 2 ∧ 2 ^ 32 ≤ (reel s x).obsBad) ∧ (getF s Reg.CAP_CTRL_TRIG ≠ 2)) ∧
    (∃ (x : Nat) (s : State), (getB s (Reg.MOT_STATUS_OBS_VALID x) = false ∨ (reel s x).obsBad < 2 ^ 32)) ∧
    (∃ (x : Nat) (s : State), (x < 2) ∧ (getB s (hdrLOCK (motPage x)) = false) ∧ (getB s (Reg.MOT_CTRL_EN x) = false ∧ getB s (Reg.MOT_STATUS_RUNNING x) = false ∧ reelSto s = false ∧ (reel s x).start = 0) ∧ (motReady s x = true ∧ busInRange s = true) ∧ (srcValid s x 1 = true ∧ getF s (Reg.MOT_CTRL_SRC_FORCE x) = 0 ∧ safeInForce s = false)) ∧
    (∃ (x : Nat) (s : State), (x < 2) ∧ (getB s (hdrLOCK (motPage x)) = false) ∧ (getB s (Reg.MOT_CTRL_EN x) = false ∧ reelSto s = true ∧ motReady s x = true ∧ busInRange s = true)) ∧
    (∃ (x : Nat) (s : State), (x < 2) ∧ (getB s (hdrLOCK (motPage x)) = false) ∧ (getB s (Reg.MOT_CTRL_EN x) = false) ∧ (motReady s x = false ∨ busInRange s = false)) ∧
    (∃ (x : Nat) (peaks : List Nat) (s : State), (x < 2) ∧ ((reel s x).start = 1) ∧ (getF s (Reg.PULSE_CFG_SAL_MIN_PCT x) * peaks.foldl max 0 ≤ (peaks.foldl max 0 - peaks.foldl min (peaks.foldl max 0)) * 100) ∧ (srcValid s x 1 = false ∧ srcValid s x 2 = false ∧ srcValid s x 3 = false)) ∧
    (∃ (x : Nat) (peaks : List Nat) (s : State), (x < 2) ∧ ((reel s x).start = 1) ∧ ((peaks.foldl max 0 - peaks.foldl min (peaks.foldl max 0)) * 100 < getF s (Reg.PULSE_CFG_SAL_MIN_PCT x) * peaks.foldl max 0) ∧ (getF s Reg.CAP_CTRL_TRIG ≠ 2)) ∧
    (∃ (x : Nat) (y : ExecSt) (s : State), (x < 2) ∧ ((reel s x).start = 2 ∧ 40 * getF s (Reg.PULSE_CFG_START_MAX x) ≤ (reel s x).startAge) ∧ (getF s Reg.CAP_CTRL_TRIG ≠ 2) ∧ (touchesMedium (dOpcode y.entry.desc) = true) ∧ (mayFinish y s = true ∧ s.que.loss = none) ∧ (dOpcode y.entry.desc = opCLOSE_TENANT → (tenant s (dTenant y.entry.desc)).state ≠ 2)) :=
  ⟨⟨0, pwm0 false, st [(Reg.MOT_STATUS_RUNNING 0, 1)] motS, by decide +kernel⟩,
   ⟨0, pwm0 false, runMotS, by decide +kernel⟩,
   ⟨0, pwm0 true, runMotS, by decide +kernel⟩,
   ⟨0, 3, 0, 1, 1000000, motS, by decide +kernel⟩,
   ⟨0, 7, 1000, motS, by decide +kernel⟩,
   ⟨0, setReel 0 { obsBad := 2 ^ 32 } (st [(Reg.MOT_STATUS_OBS_VALID 0, 1), (Reg.MOT_STATUS_SRC 0, 2)] motS), by decide +kernel⟩,
   ⟨0, setReel 0 { obsBad := 2 ^ 32 + 5 } (st [(Reg.MOT_STATUS_OBS_VALID 0, 1), (Reg.MOT_STATUS_SRC 0, 1)] motS), by decide +kernel⟩,
   ⟨0, motS, by decide +kernel⟩,
   ⟨0, motS, by decide +kernel⟩,
   ⟨0, st [(Reg.SAFE_STATUS_STO_REELS, 1)] motS, by decide +kernel⟩,
   ⟨0, st [(Reg.VBUS 0, 61000)] motS, by decide +kernel⟩,
   ⟨0, [100, 90, 80, 100, 90, 80], startS 1, by decide +kernel⟩,
   ⟨0, [100, 99, 98, 100, 99, 98], startS 1, by decide +kernel⟩,
   ⟨0, readX, runX readX (setReel 0 { start := 2, startAge := 40 * 65535 } noHallS), by decide +kernel⟩⟩

theorem witReelRadiusAndBus :
    (∃ (x : Nat) (tick : Nat) (other : Nat) (at_ : Int) (s : State), (x < 2) ∧ (getB s Reg.POS_STATUS_LOCKED = true ∧ 500000 ≤ (getS s Reg.POS_SPEED).natAbs) ∧ ((reel s x).revAt = some at_) ∧ (x = 1 ∨ (reel s 1).measured = false)) ∧
    (∃ (x : Nat) (tick : Nat) (other : Nat) (s : State), (x < 2) ∧ (getB s Reg.POS_STATUS_LOCKED = true ∧ 500000 ≤ (getS s Reg.POS_SPEED).natAbs) ∧ ((reel s x).revAt = none)) ∧
    (∃ (tick : Nat) (other : Nat) (s : State), (getB s Reg.POS_STATUS_LOCKED = false) ∧ (getF s (Reg.RAD_K 0) ≠ 0 ∧ other ≠ 0)) ∧
    (∃ (v : Nat) (s : State), (getB s (hdrLOCK 0x78) = false)) ∧
    (∃ (code : Nat) (s : State), (getB s Reg.ADC_CTRL_EN = true ∧ pageRuns s 0x78 = true ∧ code < 4096) ∧ (getB s (Reg.CHOP_STATUS_ON 0) = false ∧ getB s (Reg.CHOP_STATUS_OVERLOAD 0) = false) ∧ (getF s Reg.CAP_CTRL_TRIG ≠ 2)) ∧
    (∃ (code : Nat) (late : Bool) (s : State), (getB s Reg.ADC_CTRL_EN = false ∨ pageRuns s 0x78 = false)) ∧
    (∃ (x : Nat) (s : State), (x < 2) ∧ (shown (reel s x).bad 40 = true)) ∧
    (∃ (x : Nat) (s : State), (shown (reel s x).bad 40 = false)) ∧
    (∃ (x : Nat) (s : State), (x < 2) ∧ (shown (reel s x).speeding 40 = true)) ∧
    (∃ (x : Nat) (s : State), (shown (reel s x).speeding 40 = false)) ∧
    (∃ (c : Instr) (code : Nat) (y : ExecSt) (s : State), ((c = .curPlaus 0 ∧ code = 0x4E05 ∧ shown (reel s 0).bad 40 = true) ∨ (c = .reelOverspeed 0 ∧ code = 0x4E06 ∧ shown (reel s 0).speeding 40 = true) ∨ (c = .busUv ∧ code = 0x3E08 ∧ shown s.mot.lowBus 80 = true)) ∧ (touchesMedium (dOpcode y.entry.desc) = true) ∧ (mayFinish y s = true ∧ s.que.loss = none ∧ s.fmt.writing = none)) ∧
    (∃ (s : State), (s.pins.inReset = false)) ∧
    (∃ (s : State), (s.pins.inReset = true)) ∧
    (∃ (s : State), (shown s.mot.lowBus 80 = true)) ∧
    (∃ (s : State), (chopWaited s = true)) :=
  ⟨⟨1, 100, 0, 4096 * 4000, setReel 1 { reel lockS 1 with revAt := some (4096 * 4000), revs := 1 } lockS, by decide +kernel⟩,
   ⟨1, 100, 0, lockS, by decide +kernel⟩,
   ⟨100, 70000, st [(Reg.POS_STATUS_LOCKED, 0)] lockS, by decide +kernel⟩,
   ⟨777, motS, by decide +kernel⟩,
   ⟨3000, st [(Reg.VBUS_SCALE 0, 21000)] motS, by decide +kernel⟩,
   ⟨3000, false, st [(Reg.ADC_CTRL_EN, 0)] motS, by decide +kernel⟩,
   ⟨0, motS, by decide +kernel⟩,
   ⟨1, setReel 1 { bad := some 39 } motS, by decide +kernel⟩,
   ⟨1, motS, by decide +kernel⟩,
   ⟨1, setReel 1 { speeding := some 0 } motS, by decide +kernel⟩,
   ⟨.curPlaus 0, 0x4E05, readX, runX readX motS, by decide +kernel⟩,
   ⟨motSOn, by decide +kernel⟩,
   ⟨s0, by decide +kernel⟩,
   ⟨motS, by decide +kernel⟩,
   ⟨motS, by decide +kernel⟩⟩

theorem witLoopSampling :
    (∃ (aux : List Nat) (late : List Nat) (s : State), (loopOn s = false) ∧ (s.mot.edges = [])) ∧
    (∃ (aux : List Nat) (s : State), (loopOn s = true) ∧ (s.mot.edges = [] ∧ getB s Reg.INJ_CTRL_RUN = false ∧ getF s Reg.SPD_CTRL_SRC = 0) ∧ (s1InForce s = false ∧ s3InForce s = false ∧ getB s (Reg.MOT_STATUS_VLIMIT 0) = false ∧ getB s (Reg.MOT_STATUS_VLIMIT 1) = false ∧ decelHalf s = false) ∧ (s.mot.cmdTarget = sat32 (tdiv s.mot.cmdTarget 1000) * 1000)) ∧
    (∃ (aux : List Nat) (x : Nat) (s : State), (loopOn s = true) ∧ (x < 2)) ∧
    (∃ (aux : List Nat) (s : State), (loopOn s = true ∧ getF s Reg.OVR_CNT < 2 ^ 32 - 1) ∧ ((slot s 2).ovr = 0 ∧ motCoreRuns s 2 = true)) ∧
    (∃ (aux : List Nat) (s : State), (loopOn s = true) ∧ ((slot s 2).ovr ≠ 0 ∧ motCoreRuns s 2 = true)) ∧
    (∃ (a : Nat) (cur : Nat) (pos : Nat) (late : Bool) (overrun : Bool) (s : State), (a < 2 ∧ pageRuns s 0x7A = true) ∧ (getB s Reg.ADC_CTRL_EN = true) ∧ (getB s (actEn a) = false ∨ actSto s = true)) ∧
    (∃ (a : Nat) (cur : Nat) (pos : Nat) (late : Bool) (s : State), (a < 2 ∧ pageRuns s 0x7A = true) ∧ (getB s (actEn a) = true ∧ actSto s = false)) ∧
    (∃ (a : Nat) (s : State), (a < 2) ∧ (shown (Tbl.get none s.mot.actBad a) 80 = true)) :=
  ⟨⟨[1, 2, 3, 4], [2], motS, by decide +kernel⟩,
   ⟨[1, 2, 3, 4], setMot { loopRS.mot with cmdTarget := 4000000 } loopRS, by decide +kernel⟩,
   ⟨[1, 2, 3, 4], 0, setMot { loopRS.mot with cmdTarget := 4000000 } loopRS, by decide +kernel⟩,
   ⟨[], loopRS, by decide +kernel⟩,
   ⟨[], setLoopSlot 2 { ovr := 1 } loopRS, by decide +kernel⟩,
   ⟨1, 2100, 300, false, false, motS, by decide +kernel⟩,
   ⟨1, 2100, 300, false, st [(Reg.ACT_CTRL_TILT_EN, 1)] loopRS, by decide +kernel⟩,
   ⟨1, motS, by decide +kernel⟩⟩

theorem witLoopSettings :
    (∃ (mask : Nat) (s : State), (getB s (hdrLOCK 0x7C) = false)) ∧
    (∃ (v : Nat) (n : Nat) (i : Nat) (s : State), (getB s (hdrLOCK 0x7C) = false) ∧ (getF s Reg.LOOP_SLOT_WIN_ADDR_SLOT = n ∧ getF s Reg.LOOP_SLOT_WIN_ADDR_ITEM = i) ∧ (i ≤ 91 ∧ (i ≠ 0 ∨ 9 ≤ n))) ∧
    (∃ (v : Nat) (s : State), (getB s (hdrLOCK 0x7C) = false) ∧ (91 < getF s Reg.LOOP_SLOT_WIN_ADDR_ITEM ∨ getF s Reg.LOOP_SLOT_WIN_ADDR_ITEM = 0 ∧ getF s Reg.LOOP_SLOT_WIN_ADDR_SLOT ≤ 8)) ∧
    (∃ (src : Nat) (s : State), (getB s (hdrLOCK 0x7C) = false) ∧ (src < 3 ∧ boardRuns s = false ∧ mediumQueued s = false)) ∧
    (∃ (src : Nat) (s : State), (getB s (hdrLOCK 0x7C) = false) ∧ (3 ≤ src ∨ boardRuns s = true ∨ mediumQueued s = true)) ∧
    (∃ (k : Nat) (s : State), (k < 10000)) ∧
    (∃ (s : State), (shown (s.mot.edgeAt.map fun t => s.mot.periods * 10000 - t) (getF s Reg.SPDREF_CFG_TMO * 100000) = true) ∧ (getF s Reg.CAP_CTRL_TRIG ≠ 2)) ∧
    (∃ (a : Bool) (b : Bool) (s : State), (getB s (hdrLOCK 0x7E) = false)) ∧
    (∃ (v : Nat) (x : Nat) (k : Nat) (s : State), (getB s (hdrLOCK 0x7E) = false) ∧ (getF s Reg.BIN_WIN_ADDR_REEL = x ∧ getF s Reg.BIN_WIN_ADDR_BIN = k) ∧ (getB s (repEn x) = false)) ∧
    (∃ (c : Instr) (p : Nat) (v : Nat) (a : Bool) (b : Bool) (s : State), (c ∈ [.loopCommit v, .slotWinWrite v, .spdSrcWrite v] ∧ p = 0x7C ∨ c ∈ [.repClr a b, .binWinWrite v] ∧ p = 0x7E) ∧ (getB s (hdrLOCK p) = true)) :=
  ⟨⟨0x8005, loopRS, by decide +kernel⟩,
   ⟨0x12345, 9, 3, st [(Reg.LOOP_SLOT_WIN_ADDR_SLOT, 9), (Reg.LOOP_SLOT_WIN_ADDR_ITEM, 3)] loopRS, by decide +kernel⟩,
   ⟨7, st [(Reg.LOOP_SLOT_WIN_ADDR_SLOT, 9), (Reg.LOOP_SLOT_WIN_ADDR_ITEM, 92)] loopRS, by decide +kernel⟩,
   ⟨2, loopRS, by decide +kernel⟩,
   ⟨3, loopRS, by decide +kernel⟩,
   ⟨3000, st [(Reg.SPDREF_STATUS_LOST, 1)] loopRS, by decide +kernel⟩,
   ⟨setMot { loopRS.mot with edges := [5], edgeAt := some 5, periods := 1000000 } loopRS, by decide +kernel⟩,
   ⟨true, false, setMot { loopRS.mot with bins := [(3, 7), (300, 8)] } loopRS, by decide +kernel⟩,
   ⟨0xFFFF, 1, 255, st [(Reg.BIN_WIN_ADDR_REEL, 1), (Reg.BIN_WIN_ADDR_BIN, 255), (Reg.BIN_WIN_ADDR_AUTOINC, 1)] loopRS, by decide +kernel⟩,
   ⟨.loopCommit 5, 0x7C, 5, true, true, st [(hdrLOCK 0x7C, 1)] loopRS, by decide +kernel⟩⟩

theorem witInjectionCaptureAndTension :
    (∃ (s : State), (getB s (hdrLOCK 0x7C) = false) ∧ (boardRuns s = false ∧ mediumQueued s = false ∧ safeInForce s = false)) ∧
    (∃ (s : State), (getB s (hdrLOCK 0x7C) = false) ∧ (boardRuns s = true ∨ mediumQueued s = true ∨ safeInForce s = true)) ∧
    (∃ (s : State), (getB s (hdrLOCK 0x7C) = false) ∧ (getB s Reg.INJ_CTRL_RUN = true)) ∧
    (∃ (s : State), (getF s Reg.INJ_COUNT ≠ 0 ∧ s.mot.inj.left = 0) ∧ (getB s Reg.INJ_CTRL_RUN = true)) ∧
    (∃ (s : State), (getF s Reg.INJ_COUNT = 0 ∨ s.mot.inj.left ≠ 0)) ∧
    (∃ (s : State), (getB s (hdrLOCK 0x7D) = false ∧ pageRuns s 0x7D = true) ∧ (getF s Reg.CAP_CTRL_TRIG ≠ 0)) ∧
    (∃ (s : State), (getB s (hdrLOCK 0x7D) = false)) ∧
    (∃ (s : State), (getB s Reg.CAP_STATUS_ARMED = true ∧ getB s Reg.CAP_STATUS_TRIGGERED = true ∧ capFull s = true)) ∧
    (∃ (s : State), (getB s Reg.CAP_STATUS_ARMED = false ∨ getB s Reg.CAP_STATUS_TRIGGERED = false ∨ capFull s = false)) ∧
    (∃ (n : Nat) (s : State), (n ≤ 1 ∧ item s n 9 ≠ 0) ∧ ((slot s n).signals = [] ∨ item s n 10 ≤ (slot s n).fe)) ∧
    (∃ (n : Nat) (s : State), (n = 2 ∨ 5 ≤ n ∧ n ≤ 8) ∧ (item s n 9 ≠ 0) ∧ ((slot s n).signals = [] ∨ item s n 10 ≤ (slot s n).fe)) ∧
    (∃ (s : State), (getF s Reg.TEN_LIMITS_TEN_MAX ≠ 0 ∧ shown s.mot.tenHigh 2 = true)) ∧
    (∃ (s : State), (getB s Reg.SAFE_CFG_TEN_CMP_EN = true)) ∧
    (∃ (s : State), (getF s Reg.TEN_LIMITS_TEN_MIN ≠ 0 ∧ shown s.mot.tenLow 20 = true)) ∧
    (∃ (c : Instr) (s : State), (c = .overtension ∧ (getF s Reg.TEN_LIMITS_TEN_MAX = 0 ∨ shown s.mot.tenHigh 2 = false) ∨ c = .slackTape ∧ (getF s Reg.TEN_LIMITS_TEN_MIN = 0 ∨ shown s.mot.tenLow 20 = false) ∨ c = .overtensionHw ∧ getB s Reg.SAFE_CFG_TEN_CMP_EN = false)) :=
  ⟨⟨loopRS, by decide +kernel⟩,
   ⟨busyS, by decide +kernel⟩,
   ⟨st [(Reg.INJ_CTRL_RUN, 1)] loopRS, by decide +kernel⟩,
   ⟨st [(Reg.INJ_CTRL_RUN, 1), (Reg.INJ_COUNT, 7)] loopRS, by decide +kernel⟩,
   ⟨setMot { loopRS.mot with inj := { left := 3 } } (st [(Reg.INJ_CTRL_RUN, 1), (Reg.INJ_COUNT, 7)] loopRS), by decide +kernel⟩,
   ⟨setMot { loopRS.mot with cap := { taken := 9 } } (st [(Reg.CAP_CTRL_TRIG, 3)] loopRS), by decide +kernel⟩,
   ⟨st [(Reg.CAP_STATUS_ARMED, 1)] loopRS, by decide +kernel⟩,
   ⟨setMot { loopRS.mot with cap := { trig := some 4, taken := 9000, stamp := { lo := 77, hi := 5 } } } (st [(Reg.CAP_STATUS_ARMED, 1), (Reg.CAP_STATUS_TRIGGERED, 1)] loopRS), by decide +kernel⟩,
   ⟨loopRS, by decide +kernel⟩,
   ⟨1, setMot { loopRS.mot with active := [(loopKey 1 9, 50)] } loopRS, by decide +kernel⟩,
   ⟨2, setMot { loopRS.mot with active := [(loopKey 2 9, 50)] } loopRS, by decide +kernel⟩,
   ⟨setMot { loopRS.mot with tenHigh := some 2 } (st [(Reg.TEN_LIMITS_TEN_MAX, 900)] loopRS), by decide +kernel⟩,
   ⟨st [(Reg.SAFE_CFG_TEN_CMP_EN, 1)] loopRS, by decide +kernel⟩,
   ⟨st [(Reg.TEN_LIMITS_TEN_MIN, 90)] loopRS, by decide +kernel⟩,
   ⟨.overtension, loopRS, by decide +kernel⟩⟩

theorem witStopsOfTheIsland :
    (∃ (s : State), (s1InForce s = true ∧ getB s Reg.POS_STATUS_STILL = false)) ∧
    (∃ (s : State), (s1InForce s = false ∨ getB s Reg.POS_STATUS_STILL = true)) ∧
    (∃ (s : State), (getB s Reg.SAFE_STATUS_SSN_LATCHED = false ∧ getB s Reg.SAFE_CFG_SSN_MODE = false)) ∧
    (∃ (s : State), (getB s Reg.SAFE_STATUS_SSN_LATCHED = false ∧ getB s Reg.SAFE_CFG_SSN_MODE = true)) ∧
    (∃ (s : State), (getB s Reg.SAFE_STATUS_SSN_LATCHED = true)) ∧
    (∃ (n : Nat) (v : Word) (s : State), (isSealed s = true ∧ n < 4) ∧ (rd s (pairAddr n).1 ≠ v)) ∧
    (∃ (n : Nat) (v : Word) (s : State), (isSealed s = false ∨ 4 ≤ n ∨ rd s (pairAddr n).1 = v)) :=
  ⟨⟨st [(Reg.SAFE_STATUS_S1, 1), (Reg.POS_STATUS_STILL, 0)] busyS, by decide +kernel⟩,
   ⟨st [(Reg.SAFE_STATUS_S1, 1), (Reg.POS_STATUS_STILL, 1)] s0, by decide +kernel⟩,
   ⟨st [(Reg.POS_STATUS_STILL, 0)] busyS, by decide +kernel⟩,
   ⟨st [(Reg.SAFE_CFG_SSN_MODE, 1)] busyS, by decide +kernel⟩,
   ⟨st [(Reg.SAFE_STATUS_SSN_LATCHED, 1)] s0, by decide +kernel⟩,
   ⟨2, 0x5000000, cmdS, by decide +kernel⟩,
   ⟨2, 0x5000000, s0, by decide +kernel⟩⟩

theorem witFaultLogAndTurns :
    (∃ (r : FaultRec) (f : FaultRec) (rest : List FaultRec) (s : State), (svc3Runs s = true) ∧ (s.evt.safetyBuf = [] ∧ s.evt.handling = [r] ∧ s.evt.faultFifo = f :: rest) ∧ ((getF s Reg.FLT_LOG_HEAD - getF s Reg.FLT_LOG_TAIL) < 1024 ∧ getF s Reg.FLT_LOG_HEAD < 2 ^ 32 - 1) ∧ (s.evt.fifo.length < 256)) ∧
    (∃ (r : FaultRec) (rest : List FaultRec) (s : State), (svc3Runs s = true) ∧ (s.evt.safetyBuf = r :: rest) ∧ ((getF s Reg.FLT_LOG_HEAD - getF s Reg.FLT_LOG_TAIL) < 1024) ∧ (s.evt.fifo.length < 256 ∧ s.evt.handling ≠ [])) ∧
    (∃ (s : State), (svc3Runs s = false ∨ s.evt.safetyBuf = [] ∧ s.evt.handling = [])) ∧
    (∃ (v : Nat) (s : State), (getB s (hdrLOCK 0x01) = false)) ∧
    (∃ (rows : List Nat) (n : Nat) (s : State), (turnsRun s = true ∧ turnWaits n s = false ∧ getB s Reg.TURN_STATUS_FORCING = false) ∧ (getF s Reg.TURN_STATUS_DONE = n ∧ n + 1 < turnsInCycle) ∧ (n ≠ 110 ∧ (n < 119 ∨ 123 ≤ n) ∧ (n < 125 ∨ 141 ≤ n))) ∧
    (∃ (rows : List Nat) (n : Nat) (f : Fld) (s : State), (turnsRun s = true ∧ turnWaits n s = false ∧ getB s Reg.TURN_STATUS_FORCING = false) ∧ (getF s Reg.TURN_STATUS_DONE = n) ∧ (119 ≤ n ∧ n < 123 ∧ f = Reg.PAIR_MISMATCH_CNT ∨ 125 ≤ n ∧ n < 141 ∧ f = Reg.DV_MISMATCH_CNT)) ∧
    (∃ (rows : List Nat) (s : State), (turnsRun s = true ∧ getB s Reg.TURN_STATUS_FORCING = false) ∧ (getF s Reg.TURN_STATUS_DONE = 1317)) ∧
    (∃ (rows : List Nat) (n : Nat) (s : State), (turnsRun s = true ∧ getF s Reg.TURN_STATUS_DONE = n ∧ n < 100)) ∧
    (∃ (bad : Bool) (rows : List Nat) (s : State), (turnsRun s = false ∨ turnWaits (getF s Reg.TURN_STATUS_DONE) s = true)) ∧
    (∃ (s : State), (turnsRun s = true)) ∧
    (∃ (s : State), (isSealed s = true)) :=
  ⟨⟨fltR 0x3801, fltR 0x1901, [], fltS, by decide +kernel⟩,
   ⟨fltR 0x4801, [], { fltS with evt := { fltS.evt with safetyBuf := [fltR 0x4801] } }, by decide +kernel⟩,
   ⟨st [(Reg.CLU_RUN_SVC, 0)] fltS, by decide +kernel⟩,
   ⟨5, fltS, by decide +kernel⟩,
   ⟨[], 7, st [(Reg.TURN_STATUS_DONE, 7)] svcS, by decide +kernel⟩,
   ⟨[], 119, Reg.PAIR_MISMATCH_CNT, st [(Reg.TURN_STATUS_DONE, 119)] svcS, by decide +kernel⟩,
   ⟨[], st [(Reg.TURN_STATUS_DONE, 1317), (Reg.TURN_AGE, 50000)] svcS, by decide +kernel⟩,
   ⟨[], 7, st [(Reg.TURN_STATUS_DONE, 7)] svcS, by decide +kernel⟩,
   ⟨true, [], st [(Reg.SEC_STATUS_SEALED, 0)] svcS, by decide +kernel⟩,
   ⟨svcS, by decide +kernel⟩,
   ⟨svcS, by decide +kernel⟩⟩

theorem witPowerAndResets :
    (∃ (s : State), (s.pins.inReset = false)) ∧
    (∃ (c : Instr) (s : State), (s.pins.inReset = true) ∧ (c = .porstAssert ∨ ∃ r, r < 9 ∧ c = .brownout r)) ∧
    (∃ (r : Nat) (s : State), (r < 9 ∧ r ≠ vsafeRail) ∧ (s.pins.inReset = false)) ∧
    (∃ (s : State), (s.pins.inReset = false)) ∧
    (∃ (r : Nat) (s : State), (r < 9 ∧ s.pins.rails.testBit r = false)) ∧
    (∃ (r : Nat) (s : State), (r < 9 ∧ r ≠ vsafeRail ∧ s.pins.rails.testBit r = true)) ∧
    (∃ (vbus : Bool) (raw : List Bool) (locks : Nat) (count : Nat) (s : State), (s.pins.inReset = true ∧ s.pins.rails = allRails) ∧ (fuseErr s = false ∧ idProgrammed s = false ∧ s.sec.bootDrawn = true ∧ s.sec.lcDrawn = true) ∧ (startupFails raw = (false, false))) ∧
    (∃ (vbus : Bool) (raw : List Bool) (locks : Nat) (count : Nat) (s : State), (s.pins.inReset = true ∧ s.pins.rails = allRails) ∧ (fuseErr s = false ∧ idProgrammed s = false) ∧ ((startupFails raw).1 = true ∨ (startupFails raw).2 = true)) ∧
    (∃ (vbus : Bool) (raw : List Bool) (locks : Nat) (count : Nat) (s : State), (s.pins.inReset = true ∧ s.pins.rails = allRails) ∧ (fuseErr s = true ∧ idProgrammed s = false)) ∧
    (∃ (vbus : Bool) (raw : List Bool) (locks : Nat) (count : Nat) (s : State), (s.pins.inReset = true ∧ s.pins.rails = allRails)) ∧
    (∃ (testEn : Bool) (vbus : Bool) (raw : List Bool) (locks : Nat) (count : Nat) (s : State), (s.pins.inReset = false ∨ s.pins.rails ≠ allRails)) :=
  ⟨⟨runPinS busyS, by decide +kernel⟩,
   ⟨.porstAssert, s0, by decide +kernel⟩,
   ⟨3, runPinS busyS, by decide +kernel⟩,
   ⟨runPinS busyS, by decide +kernel⟩,
   ⟨7, { s0 with pins := { s0.pins with rails := 0 } }, by decide +kernel⟩,
   ⟨2, railS, by decide +kernel⟩,
   ⟨false, alternating 60, 15, 400, { railS with sec := { railS.sec with bootDrawn := true, lcDrawn := true } }, by decide +kernel⟩,
   ⟨false, List.replicate 41 true, 15, 400, railS, by decide +kernel⟩,
   ⟨false, [], 15, 400, { railS with sec := { railS.sec with fuses := { railS.sec.fuses with vendor0 := { crc := 1 }, vendor1 := { crc := 2 } } } }, by decide +kernel⟩,
   ⟨false, [], 15, 400, railS, by decide +kernel⟩,
   ⟨false, false, [], 15, 400, { railS with pins := { railS.pins with rails := 0x1FE } }, by decide +kernel⟩⟩

theorem witBootAndImage :
    (∃ (k : Nat) (v : Nat) (off : Nat) (s : State), (getB s (hdrLOCK 0x03) = false) ∧ (k < 32 ∧ bootState s = 2) ∧ (off = getF s Reg.IMG_WIN_ADDR / 4 * 4 + 4 * k ∧ off < 12582912 ∧ getF s Reg.IMG_RCVD ≤ 12582912)) ∧
    (∃ (k : Nat) (v : Nat) (s : State), (getB s (hdrLOCK 0x03) = false) ∧ (k < 32 ∧ bootState s ≠ 2)) ∧
    (∃ (s : State), (getB s (hdrLOCK 0x03) = false) ∧ (bootState s = 2)) ∧
    (∃ (s : State), (getB s (hdrLOCK 0x03) = false) ∧ (bootState s ≠ 2)) ∧
    (∃ (s : State), (getB s (hdrLOCK 0x03) = false)) ∧
    (∃ (r : Nat) (s : State), (bootState s = 3) ∧ (imageReason s = r ∧ r ≠ 0)) ∧
    (∃ (s : State), (bootState s = 3)) ∧
    (∃ (s : State), (bootState s = 4) ∧ (getB s Reg.SEC_STATUS_ENTROPY_OK = false ∧ s.evt.secHeld = [] ∧ getB s Reg.QUE_CTRL = false) ∧ (pairHalted s = false ∧ heldOvervolt s = none)) ∧
    (∃ (s : State), (bootState s = 4)) ∧
    (∃ (s : State), (bootState s = 4) ∧ (pairHalted s = true)) ∧
    (∃ (before : List Bool) (window : List Bool) (rct : Bool) (apt : Bool) (s : State), (getB s Reg.SEC_STATUS_ENTROPY_OK = true) ∧ (rct = decide (41 ≤ (repetitions (before ++ window)).1) ∧ apt = proportion window) ∧ (rct = true ∨ apt = true)) ∧
    (∃ (before : List Bool) (window : List Bool) (s : State), (getB s Reg.SEC_STATUS_ENTROPY_OK = false ∨ (repetitions (before ++ window)).1 < 41 ∧ proportion window = false)) ∧
    (∃ (raw : List Bool) (rct : Bool) (apt : Bool) (s : State), (getB s (hdrLOCK 0x03) = false) ∧ (startupFails raw = (rct, apt)) ∧ (rct = true ∨ apt = true)) ∧
    (∃ (raw : List Bool) (s : State), (getB s (hdrLOCK 0x03) = false) ∧ (s.sec.bootDrawn = true ∧ s.sec.lcDrawn = true ∧ bootState s ≠ 5) ∧ (startupFails raw = (false, false))) :=
  ⟨⟨5, 77, 276, st [(Reg.IMG_WIN_ADDR, 256), (Reg.IMG_RCVD, 4)] waitS, by decide +kernel⟩,
   ⟨5, 77, rolesS, by decide +kernel⟩,
   ⟨waitS, by decide +kernel⟩,
   ⟨rolesS, by decide +kernel⟩,
   ⟨{ verS with sec := { verS.sec with region := [(3, 5)] } }, by decide +kernel⟩,
   ⟨1, verS, by decide +kernel⟩,
   ⟨verS, by decide +kernel⟩,
   ⟨st [(Reg.SEC_STATUS_ENTROPY_OK, 0)] rolesS, by decide +kernel⟩,
   ⟨rolesS, by decide +kernel⟩,
   ⟨st [(Reg.CLU_LS_MISMATCH_CMD, 1)] rolesS, by decide +kernel⟩,
   ⟨List.replicate 40 true, [true], true, false, st [(Reg.SEC_STATUS_ENTROPY_OK, 1)] cmdS, by decide +kernel⟩,
   ⟨List.replicate 39 true, [true], st [(Reg.SEC_STATUS_ENTROPY_OK, 1)] cmdS, by decide +kernel⟩,
   ⟨List.replicate 41 true, true, false, cmdS, by decide +kernel⟩,
   ⟨alternating 60, { cmdS with sec := { cmdS.sec with bootDrawn := true, lcDrawn := true } }, by decide +kernel⟩⟩

theorem witLifecycleAndSeal :
    (∃ (r : MbReq) (s : State), (s.core.mailbox = [(mbKey 0x82 0, r)] ∧ r.opcode = 0x0101 ∧ r.args = 16 ∧ getB s (mbBUSY 0x82 0) = true ∧ getB s Reg.CLU_LS_MISMATCH_SECU = false) ∧ (lcState s = 0) ∧ (lcOpen s = true ∧ (getB s Reg.SEC_STATUS_ENTROPY_OK = false ∨ s.sec.bootDrawn = true ∧ (s.sec.rkey.isSome = true ∨ bootState s ≠ 5)))) ∧
    (∃ (r : MbReq) (s : State), (s.core.mailbox = [(mbKey 0x82 0, r)] ∧ r.opcode = 0x0103 ∧ r.args = 16 ∧ getB s (mbBUSY 0x82 0) = true ∧ getB s Reg.CLU_LS_MISMATCH_SECU = false) ∧ (lcState s = 1 ∨ lcState s = 2) ∧ (lcOpen s = true ∧ (getB s Reg.SEC_STATUS_ENTROPY_OK = false ∨ s.sec.bootDrawn = true ∧ (s.sec.rkey.isSome = true ∨ bootState s ≠ 5)))) ∧
    (∃ (c : Instr) (op : Nat) (n : Nat) (r : MbReq) (s : State), (s.core.mailbox = [(mbKey 0x82 0, r)] ∧ r.opcode = op ∧ r.args = n ∧ getB s (mbBUSY 0x82 0) = true ∧ getB s Reg.CLU_LS_MISMATCH_SECU = false) ∧ (c = .lcAdvanceOemOpen ∧ op = 0x0101 ∧ n = 16 ∧ lcState s ≠ 0 ∨ c = .lcAdvanceDeployed ∧ op = 0x0102 ∧ n = 0 ∧ lcState s ≠ 1 ∨ c = .lcAdvanceRma ∧ op = 0x0103 ∧ n = 16 ∧ lcState s ≠ 1 ∧ lcState s ≠ 2 ∨ c = .oemHashProgram ∧ op = 0x0110 ∧ n = 8 ∧ lcState s ≠ 1) ∧ (getB s Reg.SEC_STATUS_ENTROPY_OK = false ∨ s.sec.bootDrawn = true ∧ (s.sec.rkey.isSome = true ∨ bootState s ≠ 5))) ∧
    (∃ (r : MbReq) (s : State), (s.core.mailbox = [(mbKey 0x82 0, r)] ∧ r.opcode = 0x0102 ∧ r.args = 0 ∧ getB s (mbBUSY 0x82 0) = true ∧ getB s Reg.CLU_LS_MISMATCH_SECU = false) ∧ (lcOpen s = true ∧ lcState s = 1)) ∧
    (∃ (r : MbReq) (s : State), (s.core.mailbox = [(mbKey 0x82 0, r)] ∧ r.opcode = 0x0110 ∧ r.args = 8 ∧ getB s (mbBUSY 0x82 0) = true ∧ getB s Reg.CLU_LS_MISMATCH_SECU = false) ∧ (lcOpen s = true ∧ lcState s = 1 ∧ fuseOem s = zeros 32)) ∧
    (∃ (s : State), (getB s (hdrLOCK 0x03) = false) ∧ (rwsLocked s = false ∧ bootState s = 5 ∧ getB s Reg.MEM_STATUS_READY = true ∧ floorLow s = false ∧ cfgOk s = true ∧ getB s Reg.SEC_STATUS_RKEY_OK = true)) ∧
    (∃ (r : Nat) (s : State), (getB s (hdrLOCK 0x03) = false) ∧ (sealReason (floorLow s) s = r ∧ r ≠ 0)) ∧
    (∃ (s : State), (getB s Reg.SEC_STATUS_SEAL_BUSY = true) ∧ (lcPermits s = false) ∧ (safeInForce s = false ∧ cfgOk s = true)) ∧
    (∃ (s : State), (getB s Reg.SEC_STATUS_SEAL_BUSY = true) ∧ (lcPermits s = false) ∧ (safeInForce s = true)) ∧
    (∃ (s : State), (getB s Reg.SEC_STATUS_SEAL_BUSY = false)) :=
  ⟨⟨{ opcode := 0x0101, args := 16, tag := 9, arg := [5] }, st [(Reg.SEC_STATUS_ENTROPY_OK, 0)] (secuS 0x0101 16 0 [5]), by decide +kernel⟩,
   ⟨{ opcode := 0x0103, args := 16, tag := 9, arg := [5] }, st [(Reg.SEC_STATUS_ENTROPY_OK, 0)] (secuS 0x0103 16 2 [5]), by decide +kernel⟩,
   ⟨.lcAdvanceOemOpen, 0x0101, 16, { opcode := 0x0101, args := 16, tag := 9, arg := [5] }, st [(Reg.SEC_STATUS_ENTROPY_OK, 0)] (secuS 0x0101 16 1 [5]), by decide +kernel⟩,
   ⟨{ opcode := 0x0102, args := 0, tag := 9, arg := [] }, secuS 0x0102 0 1 [], by decide +kernel⟩,
   ⟨{ opcode := 0x0110, args := 8, tag := 9, arg := [1, 2, 3, 4, 5, 6, 7, 8] }, secuS 0x0110 8 1 [1, 2, 3, 4, 5, 6, 7, 8], by decide +kernel⟩,
   ⟨sealS, by decide +kernel⟩,
   ⟨1, cmdS, by decide +kernel⟩,
   ⟨st [(Reg.SEC_STATUS_SEAL_BUSY, 1), (Reg.SEC_STATUS_LC, 0)] sealS, by decide +kernel⟩,
   ⟨st [(Reg.SEC_STATUS_SEAL_BUSY, 1), (Reg.SEC_STATUS_LC, 0), (Reg.SAFE_STATUS_S2, 1)] sealS, by decide +kernel⟩,
   ⟨sealS, by decide +kernel⟩⟩

end Sys2Proof.Tests
end

section
/-!
SUPPORT. How a stream command goes on with its work and completes (R425, R440, R447): the state that a completion leaves, said once, and what it
touches.
-/
namespace Sys2Proof.Machine.StreamCommand

/-! ## A stream command goes on with its work -/

theorem drainStream_of_busy {x : ExecSt} {s : State} (hx : s.que.exec = some x) (n : Nat) : drainStream n s = s := by
  cases n with
  | zero => rfl
  | succ n => simp [drainStream, streamFree, hx]

theorem tryFinish_of_not_sending {x : ExecSt} {s : State} (hx : s.que.exec = some x) (hp : x.phase ≠ .sending) : tryFinish s = s := by
  simp [tryFinish, hx, hp]

theorem runsOp_iff {op : Nat} {x : ExecSt} {s : State} :
    runsOp op x s = true ↔ s.que.exec = some x ∧ dOpcode x.entry.desc = op ∧ x.phase ≠ .sending ∧ cmdRuns s = true ∧ s.fmt.ending = none := by
  simp [runsOp, and_assoc]

theorem que_exec_of_runsOp {op : Nat} {x : ExecSt} {s : State} (h : runsOp op x s = true) : s.que.exec = some x := (runsOp_iff.1 h).1

theorem opcode_of_runsOp {op : Nat} {x : ExecSt} {s : State} (h : runsOp op x s = true) : dOpcode x.entry.desc = op := (runsOp_iff.1 h).2.1

/-- A command that executes goes on by its row's work, and nothing else of the row acts (R440). -/
theorem streamRow_of_runsOp {op : Nat} {x : ExecSt} {s : State} (work : ExecSt → State → State) (h : runsOp op x s = true) :
    streamRow op work s = work x s := by
  obtain ⟨hx, hop, hp, hrun, hend⟩ := runsOp_iff.1 h
  have hidle : tryFinish (drainStray s) = s := by rw [drainStray, drainStream_of_busy hx, tryFinish_of_not_sending hx hp]
  simp [streamRow, hidle, streamFree, hx, hop, hp, hrun, hend]

/-! ## A stream command completes (R425, R440, R447) -/

/-- The state in which a stream command has completed: its completion is the newest of the FIFO, and its bracket has one command less to wait for. -/
def completed (e : QEntry) (status record count detail : Nat) (s : State) : State :=
  onBracket e.bracket (fun b => { b with live := b.live - 1 })
    (setQue { s.que with exec := none, loss := none, out := s.que.out ++ [.compl 0 (dTag e.desc) status record count 0 detail] } s)

section
variable {e : QEntry} {status record count detail : Nat} {s : State}

@[simp] theorem completed_regs : (completed e status record count detail s).regs = s.regs := rfl
@[simp] theorem completed_vol : (completed e status record count detail s).vol = s.vol := rfl
@[simp] theorem completed_fmt : (completed e status record count detail s).fmt = s.fmt := rfl
@[simp] theorem completed_rch : (completed e status record count detail s).rch = s.rch := rfl
@[simp] theorem completed_exec : (completed e status record count detail s).que.exec = none := rfl

theorem completed_completes : Completes 0 (dTag e.desc) status detail (completed e status record count detail s) := by
  simp [Completes, completed, onBracket, OutPkt.says]

theorem completed_mask {μ : Part → Bool} (hμ : μ .que = true ∧ μ .mtr = true) : (completed e status record count detail s).mask μ = s.mask μ := by
  simp only [completed, ↓onBracket_mask, ↓setQue_mask, hμ]

end

/-- A status that is no refusal counts and raises nothing (R469). -/
theorem noteReject_of_not_refusal {st : Nat} (hb : st ≠ stBAD_DESCRIPTOR) (hi : st ≠ stILLEGAL_COMMAND) (s : State) : noteReject st s = s := by
  simp [noteReject, hb, hi]

/-- All parts but the queues. -/
def notQue (p : Part) : Bool := p != .que

/-- What a refusal counts and raises leaves the queues as they are. -/
@[simp] theorem noteReject_que (st : Nat) (s : State) : (noteReject st s).que = s.que := by
  simpa only [State.mask, notQue, show (Part.que != Part.que) = false from rfl, cond_false] using
    congrArg State.que (noteReject_mask (μ := notQue) ⟨rfl, rfl⟩ st s)

theorem mayFinish_iff {x : ExecSt} {s : State} :
    mayFinish x s = true ↔
      s.que.exec = some x ∧ s.que.out.length < 1024 ∧ dinWaiting 0 (dTag x.entry.desc) s = false ∧ x.retract = none := by
  simp [mayFinish, and_assoc]

/-- A command that may finish still may when only its phase, or how far its work has come, has changed in the queues. -/
theorem mayFinish_of_que {x y : ExecSt} {s t : State} (h : mayFinish x s = true) (hq : t.que = { s.que with exec := some y })
    (he : y.entry = x.entry) (hr : y.retract = x.retract) : mayFinish y t = true := by
  obtain ⟨-, hout, hdin, hret⟩ := mayFinish_iff.1 h
  refine mayFinish_iff.2 ⟨by rw [hq], by rw [hq]; exact hout, ?_, by rw [hr, hret]⟩
  rw [dinWaiting, he, hq]; exact hdin

theorem setQue_setQue (q r : QueSt) (s : State) : setQue q (setQue r s) = setQue q s := rfl

/-- A command that may finish completes as it ends, with the status it ends with: no loss is held against the stream, and none of what it read
needed the recovery ladder (R443, R274). -/
theorem endExec_of_mayFinish {x : ExecSt} {s : State} (hf : mayFinish x s = true) (hl : s.que.loss = none)
    (hop : dOpcode x.entry.desc ≠ opREAD ∧ dOpcode x.entry.desc ≠ opCLOSE_TENANT) {status : Nat}
    (hst : status ≠ stOK ∨ x.recovered = false) (record count detail : Nat) :
    endExec status record count 0 detail s = noteReject status (completed x.entry status record count detail s) := by
  obtain ⟨hx, hout, hdin, hret⟩ := mayFinish_iff.1 hf
  have hroom : outFull s = false := by simp [outFull, hout]
  have hown : (if status = stOK ∧ x.recovered then stOK_RECOVERED else status) = status := by
    rcases hst with h | h <;> simp [h]
  simp only [dinWaiting, outFull] at hdin hroom
  simp [endExec, tryFinish, hx, hret, hl, hop, hown, completed, outFull, dinWaiting, hdin, hroom, setQue_setQue]

/-- States whose registers are alike read alike. -/
theorem wordsKept_of_regs {s t : State} (h : t.regs = s.regs) (w : Nat → Prop) : WordsKept w s t := fun a _ => by rw [rd, rd, h]

/-- A command that may finish and whose work ends it with OK completes so, whatever that work has changed outside the queues. -/
theorem endExec_stOK {x y : ExecSt} {s u : State} (hf : mayFinish x s = true) (hl : s.que.loss = none) (hrec : x.recovered = false)
    (hop : dOpcode x.entry.desc ≠ opREAD ∧ dOpcode x.entry.desc ≠ opCLOSE_TENANT) (hq : u.que = { s.que with exec := some y })
    (hy : y.entry = x.entry ∧ y.retract = x.retract ∧ y.recovered = x.recovered) (record count : Nat) :
    endExec stOK record count 0 0 u = completed x.entry stOK record count 0 u := by
  obtain ⟨hentry, hretract, hrecovered⟩ := hy
  rw [← hentry] at hop ⊢
  rw [endExec_of_mayFinish (mayFinish_of_que hf hq hentry hretract) (by rw [hq]; exact hl) hop (Or.inr (hrecovered.trans hrec)),
    noteReject_of_not_refusal (by decide) (by decide)]

theorem statusDetail_ok (s : State) : statusDetail s stOK = 0 := rfl

theorem endWith_stOK (s : State) : endWith stOK s = endExec stOK 0 0 0 0 s := rfl

/-- A command that is refused completes at once with the refusal. -/
theorem refused_runs {c : Instr} {x : ExecSt} {s : State} {st : Nat} (hexec : exec c s = .next (endWith st s))
    (hfin : mayFinish x s = true) (hloss : s.que.loss = none)
    (hop : dOpcode x.entry.desc ≠ opREAD ∧ dOpcode x.entry.desc ≠ opCLOSE_TENANT) (hst : st ≠ stOK) :
    Runs c s fun t => t.que.exec = none ∧ Completes 0 (dTag x.entry.desc) st (statusDetail s st) t ∧ OnlyTouches [.regs, .evt, .que, .mtr] s t := by
  refine ⟨_, hexec, ?_⟩
  rw [endWith, endExec_of_mayFinish hfin hloss hop (Or.inl hst)]
  refine ⟨by rw [noteReject_que, completed_exec], ?_, onlyTouches_of_mask ?_⟩
  · rw [Completes, noteReject_que]; exact completed_completes
  · rw [noteReject_mask (by decide), completed_mask (by decide)]

/-- A command that completes with no work to do. -/
theorem completes_runs {c : Instr} {x y : ExecSt} {s u : State} {record : Nat} (hexec : exec c s = .next (endExec stOK record 0 0 0 u))
    (hf : mayFinish x s = true) (hl : s.que.loss = none) (hrec : x.recovered = false)
    (hop : dOpcode x.entry.desc ≠ opREAD ∧ dOpcode x.entry.desc ≠ opCLOSE_TENANT) (hu : u = setQue { s.que with exec := some y } s)
    (hy : y.entry = x.entry ∧ y.retract = x.retract ∧ y.recovered = x.recovered) :
    Runs c s fun t => t.que.exec = none ∧ Completes 0 (dTag x.entry.desc) stOK 0 t ∧ WordsKept (fun _ => False) s t ∧ OnlyTouches [.que, .mtr] s t := by
  subst hu
  refine ⟨_, hexec, ?_⟩
  rw [endExec_stOK hf hl hrec hop rfl hy]
  refine ⟨completed_exec, completed_completes, wordsKept_of_regs completed_regs _, onlyTouches_of_mask ?_⟩
  rw [completed_mask (by decide), setQue_mask (by decide)]

end Sys2Proof.Machine.StreamCommand
end

section
/-!
SUPPORT. WRITE, FILEMARK and FLUSH (R286–R289, R441, R450): the granule that takes a record, a write accepted at end of data, and O45.
-/
namespace Sys2Proof.Machine.StreamWriting
open StreamCommand

/-! ## What the three commands do while they execute -/

theorem exec_write_of_runsOp {x : ExecSt} {s : State} (hruns : runsOp opWRITE x s = true) : exec .write s = .next (writeWork x s) :=
  congrArg _ (streamRow_of_runsOp writeWork hruns)

theorem exec_filemark_of_runsOp {x : ExecSt} {s : State} (hruns : runsOp opFILEMARK x s = true) :
    exec .filemark s = .next (writeRow (fun _ => true) takeFilemarks x s) :=
  congrArg _ (streamRow_of_runsOp _ hruns)

theorem exec_flush_of_runsOp {x : ExecSt} {s : State} (hruns : runsOp opFLUSH x s = true) :
    exec .flush s = .next (afterClosure (endWith stOK) x s) :=
  congrArg _ (streamRow_of_runsOp _ hruns)

/-! ## A record joins a granule (R286–R289) -/

/-- Granule `g` with one whole record of a WRITE in it more. -/
def withRecord (w : WrCtx) (rec : Nat) (bytes : List Byte) (g : Gran) : Gran :=
  { g with
    startsMid := if g.plain.isEmpty && !bytes.isEmpty then false else g.startsMid
    endsMid   := false
    first     := if g.plain.isEmpty && !bytes.isEmpty ∨ g.pieces.isEmpty then rec else g.first
    records   := g.records + 1
    pieces    := g.pieces ++ [bytes.length]
    plain     := g.plain ++ bytes
    shares    := Tbl.set g.shares w.bracket (Tbl.get 0 g.shares w.bracket + bytes.length)
    bracket   := w.bracket }

/-- The granule that takes the next record of a WRITE, if it fits: the open one, or else a new one. -/
def taking (w : WrCtx) (s : State) : Gran := s.fmt.openGran.getD (w.gran (s.vol.nonce.getD 0))

theorem addPiece_whole (w : WrCtx) (rec : Nat) (bytes : List Byte) (s : State) :
    addPiece w rec bytes true true s =
      let g := withRecord w rec bytes (taking w s)
      let t := setFmt { s.fmt with openGran := some g } s
      if granMax ≤ g.plain.length ∨ 65535 ≤ g.records then closeGranule t else t := by
  unfold addPiece taking
  cases s.fmt.openGran <;> rfl

/-- A record that leaves room in its granule joins it, and the granule stays open (R287). -/
theorem addPiece_of_room {w : WrCtx} {rec : Nat} {bytes : List Byte} {s : State}
    (hroom : (taking w s).plain.length + bytes.length < granMax) (hrecs : (taking w s).records < 65534) :
    addPiece w rec bytes true true s = setFmt { s.fmt with openGran := some (withRecord w rec bytes (taking w s)) } s := by
  rw [addPiece_whole]
  refine if_neg ?_
  simp only [withRecord, List.length_append]
  omega

/-- A record that the open granule fits, or that finds none open, goes there without a granule closing first (R286, R287). -/
theorem cutRecord_of_room {w : WrCtx} {rec : Nat} {bytes : List Byte} {s : State} (hfits : w.fits (taking w s) = true)
    (hroom : (taking w s).plain.length + bytes.length < granMax) (hrecs : (taking w s).records < 65534) :
    cutRecord w rec bytes s = setFmt { s.fmt with openGran := some (withRecord w rec bytes (taking w s)) } s := by
  rw [← addPiece_of_room hroom hrecs, cutRecord]
  have hshort : bytes.length ≤ granMax := by omega
  cases ho : s.fmt.openGran with
  | none => simp only [ho, hshort, if_true]
  | some g =>
    have hg : taking w s = g := by rw [taking, ho]; rfl
    rw [hg] at hfits hroom
    simp only [ho, hfits, hshort, if_true, show ¬granMax < g.plain.length + bytes.length by omega, if_false]

/-- The granule that a WRITE opens takes that WRITE's records. -/
theorem fits_gran (w : WrCtx) (nonce : Nat) : w.fits (w.gran nonce) = true := by simp [WrCtx.fits, WrCtx.gran]

/-! ## A write goes on at end of data (R101, R440, R452) -/

theorem freshReads_false (x : ExecSt) (s : State) : freshReads false x s = { s with rch := (freshReads false x s).rch } := by
  unfold freshReads
  split <;> rfl

/-- What has not been read at all is not read after lost data sets have been dropped. -/
theorem readSet_freshReads {x : ExecSt} {s : State} {n : Nat} (h : readSet s n = none) : readSet (freshReads false x s) n = none := by
  unfold freshReads
  split
  · exact h
  · simp only [readSet, List.find?_eq_none, Bool.false_eq_true, if_false, List.mem_filter] at h ⊢
    exact fun d hd => h d hd.1

/-- A command that may write has begun its work: it no longer holds as lost what an earlier command failed to read, and its step is 1. -/
def begunWriting (x : ExecSt) (s : State) : State := onExec (fun x => { x with step := 1 }) (freshReads false x s)

section
variable (x : ExecSt) (s : State)

theorem begunWriting_eq :
    begunWriting x s = { s with rch := (freshReads false x s).rch, que := { s.que with exec := s.que.exec.map fun x => { x with step := 1 } } } := by
  rw [begunWriting, freshReads_false]; rfl

@[simp] theorem begunWriting_regs : (begunWriting x s).regs = s.regs := by rw [begunWriting_eq]
@[simp] theorem begunWriting_vol : (begunWriting x s).vol = s.vol := by rw [begunWriting_eq]
@[simp] theorem begunWriting_fmt : (begunWriting x s).fmt = s.fmt := by rw [begunWriting_eq]
@[simp] theorem begunWriting_ten : (begunWriting x s).ten = s.ten := by rw [begunWriting_eq]
@[simp] theorem begunWriting_keys : (begunWriting x s).keys = s.keys := by rw [begunWriting_eq]
@[simp] theorem begunWriting_rch : (begunWriting x s).rch = (freshReads false x s).rch := by rw [begunWriting_eq]
@[simp] theorem begunWriting_que : (begunWriting x s).que = { s.que with exec := s.que.exec.map fun x => { x with step := 1 } } := by
  rw [begunWriting_eq]

theorem begunWriting_mask {μ : Part → Bool} (hμ : μ .que = true ∧ μ .rch = true) : (begunWriting x s).mask μ = s.mask μ := by
  rw [begunWriting, onExec_mask hμ.1, freshReads_false, mask_rch hμ.2]

end

theorem eodSetRead_of_not_read {s : State} (h : readSet s s.vol.eodDsn = none) : eodSetRead s = s := by simp [eodSetRead, h]

/-- With a wrap group open, the write flow is under way. -/
theorem flowIdle_of_group {s : State} (hgroup : s.fmt.group.isSome = true) : flowIdle s = false := by
  simp [flowIdle, Option.isNone_eq_false_iff.2 hgroup]

/-- At end of data, with the wrap group open, writing goes on where it stands (R82, R101). -/
theorem writeAt_eod {s : State} (heod : s.vol.atEod = true) (hgroup : s.fmt.group.isSome = true) : writeAt s = .eod := by
  simp [writeAt, heod, eodGroup, flowIdle_of_group hgroup]

theorem acceptWrite_eod {s : State} (heod : s.vol.atEod = true) (hwrote : s.vol.wrote = true) (hdue : s.vol.dirtyDue = false)
    (hgroup : s.fmt.group.isSome = true) :
    acceptWrite .eod s = setFmt { s.fmt with closedUp := false } (setVol { s.vol with issued := true } s) := by
  have hvol : { s.vol with atEod := true, issued := true } = { s.vol with issued := true } := by rw [← heod]
  rw [← hvol]
  simp only [acceptWrite, beginEod, flowIdle_of_group hgroup, hwrote, hdue, Bool.not_false, Bool.and_self, if_true]

/-- A command that writes has been accepted at end of data. -/
def acceptedAtEod (x : ExecSt) (s : State) : State :=
  setFmt { s.fmt with closedUp := false } (setVol { s.vol with issued := true } (begunWriting x s))

/-- Once its data is here, a command that may write is accepted at end of data and taken whole (R440). -/
theorem writeRow_atEod {ready : ExecSt → Bool} {take : ExecSt → State → State} {x : ExecSt} {s : State} (hready : ready x = true)
    (hmay : writeRefusal s = none)
    (heod : s.vol.atEod = true ∧ s.vol.wrote = true ∧ s.vol.dirtyDue = false ∧ s.fmt.group.isSome = true)
    (hread : readSet s s.vol.eodDsn = none) : writeRow ready take x s = take x (acceptedAtEod x s) := by
  obtain ⟨hat, hwrote, hdue, hgroup⟩ := heod
  have hstill : eodSetRead (begunWriting x s) = begunWriting x s :=
    eodSetRead_of_not_read (by rw [begunWriting_vol]; exact readSet_freshReads hread)
  have hplace : writeAt (begunWriting x s) = .eod := writeAt_eod (by rw [begunWriting_vol, hat]) (by rw [begunWriting_fmt, hgroup])
  have haccept : acceptWrite .eod (begunWriting x s) = acceptedAtEod x s := by
    rw [acceptWrite_eod (by rw [begunWriting_vol, hat]) (by rw [begunWriting_vol, hwrote]) (by rw [begunWriting_vol, hdue])
      (by rw [begunWriting_fmt, hgroup]), begunWriting_vol, begunWriting_fmt, acceptedAtEod]
  rw [begunWriting] at hstill hplace haccept
  simp only [writeRow, hmay, ite_self, hstill, hplace, hready, if_true, haccept]

section
variable (x : ExecSt) (s : State)

@[simp] theorem acceptedAtEod_fmt : (acceptedAtEod x s).fmt = { s.fmt with closedUp := false } := rfl
@[simp] theorem acceptedAtEod_vol : (acceptedAtEod x s).vol = { s.vol with issued := true } := rfl
@[simp] theorem acceptedAtEod_regs : (acceptedAtEod x s).regs = s.regs := begunWriting_regs x s
@[simp] theorem acceptedAtEod_ten : (acceptedAtEod x s).ten = s.ten := begunWriting_ten x s
@[simp] theorem acceptedAtEod_keys : (acceptedAtEod x s).keys = s.keys := begunWriting_keys x s
@[simp] theorem acceptedAtEod_rch : (acceptedAtEod x s).rch = (freshReads false x s).rch := begunWriting_rch x s
@[simp] theorem acceptedAtEod_que : (acceptedAtEod x s).que = { s.que with exec := s.que.exec.map fun x => { x with step := 1 } } :=
  begunWriting_que x s

theorem acceptedAtEod_mask {μ : Part → Bool} (hμ : μ .que = true ∧ μ .vol = true ∧ μ .fmt = true ∧ μ .rch = true) :
    (acceptedAtEod x s).mask μ = s.mask μ := by
  obtain ⟨hque, hvol, hfmt, hrch⟩ := hμ
  rw [acceptedAtEod, setFmt_mask hfmt, setVol_mask hvol, begunWriting_mask x s ⟨hque, hrch⟩]

theorem taking_acceptedAtEod (w : WrCtx) : taking w (acceptedAtEod x s) = taking w s := rfl

/-- What a WRITE says of its granules does not change as it is accepted. -/
theorem wrCtx_acceptedAtEod (e : QEntry) : wrCtx (acceptedAtEod x s) e = wrCtx s e := by
  simp only [wrCtx, tenant, keySlot, acceptedAtEod_ten, acceptedAtEod_keys]

end

/-- A write accepted at end of data completes OK once its work has changed the meters, the volume and the formatter alone. -/
theorem accepted_runs {c : Instr} {x : ExecSt} {s u : State} {record count : Nat} (hexec : exec c s = .next (endExec stOK record count 0 0 u))
    (hf : mayFinish x s = true) (hl : s.que.loss = none) (hrec : x.recovered = false)
    (hop : dOpcode x.entry.desc ≠ opREAD ∧ dOpcode x.entry.desc ≠ opCLOSE_TENANT)
    (hu : ∀ μ : Part → Bool, μ .mtr = true → μ .vol = true → μ .fmt = true → u.mask μ = (acceptedAtEod x s).mask μ) :
    Runs c s fun t =>
      t.fmt = u.fmt ∧ t.vol = u.vol ∧ t.que.exec = none ∧ Completes 0 (dTag x.entry.desc) stOK 0 t ∧
      t.rch = (freshReads false x s).rch ∧ WordsKept (fun _ => False) s t ∧ OnlyTouches [.que, .mtr, .vol, .fmt, .rch] s t := by
  have hsame : OnlyTouches [.mtr, .vol, .fmt] (acceptedAtEod x s) u := onlyTouches_of_mask (hu _ rfl rfl rfl)
  have hque : u.que = { s.que with exec := some { x with step := 1 } } :=
    (hsame .que (by decide)).trans (by rw [acceptedAtEod_que, (mayFinish_iff.1 hf).1]; rfl)
  have hregs : u.regs = s.regs := (hsame .regs (by decide)).trans (acceptedAtEod_regs x s)
  rw [endExec_stOK hf hl hrec hop hque ⟨rfl, rfl, rfl⟩] at hexec
  have hrch : u.rch = (freshReads false x s).rch := (hsame .rch (by decide)).trans (acceptedAtEod_rch x s)
  refine ⟨_, hexec, completed_fmt, completed_vol, completed_exec, completed_completes, completed_rch.trans hrch,
    wordsKept_of_regs (completed_regs.trans hregs) _, onlyTouches_of_mask ?_⟩
  rw [completed_mask (by decide), hu _ rfl rfl rfl, acceptedAtEod_mask _ _ (by decide)]

/-! ## WRITE (R286–R289, R450) -/

/-- A WRITE of one record that stays in an open granule: its work, once it has been accepted. -/
theorem takeRecords_one {x : ExecSt} {s : State} {g : Gran} (hone : wREC_COUNT x.entry.desc = 1)
    (hcut :
      cutRecord (wrCtx s x.entry) s.vol.posRecord (bytesAt x.entry.data 0 (wREC_LEN x.entry.desc)) s = setFmt { s.fmt with openGran := some g } s) :
    ∃ f, takeRecords x s = endExec stOK s.vol.posRecord 1 0 0
      (setVol { s.vol with posRecord := s.vol.posRecord + 1 }
        (onUsage x.entry.bracket (wrCtx s x.entry).session f (setFmt { s.fmt with openGran := some g } s))) := by
  simp only [takeRecords, hone, forEach, List.range_one, List.foldl_cons, List.foldl_nil, Nat.mul_zero, Nat.add_zero, hcut]
  exact ⟨_, rfl⟩

theorem withRecord_gran (w : WrCtx) (nonce rec : Nat) (bytes : List Byte) :
    withRecord w rec bytes (w.gran nonce) =
      { w.gran nonce with
        records := 1, first := rec, pieces := [bytes.length], plain := bytes, shares := [(w.bracket, bytes.length)], bracket := w.bracket } := by
  simp [withRecord, WrCtx.gran, Tbl.set, Tbl.get]

theorem withRecord_of_plain {w : WrCtx} {rec : Nat} {bytes : List Byte} {g : Gran} (h : g.plain ≠ []) :
    withRecord w rec bytes g =
      { g with
        endsMid := false, records := g.records + 1, pieces := g.pieces ++ [bytes.length], plain := g.plain ++ bytes
        shares := Tbl.set g.shares w.bracket (Tbl.get 0 g.shares w.bracket + bytes.length), bracket := w.bracket
        first := if g.pieces.isEmpty then rec else g.first } := by
  simp [withRecord, List.isEmpty_eq_false_iff.2 h]

/-- A WRITE of one record at end of data, where its granule stays open. -/
theorem write_one_runs {x : ExecSt} {s : State}
    (hrun : runsOp opWRITE x s = true ∧ mayFinish x s = true ∧ s.que.loss = none ∧ x.recovered = false)
    (hone : wREC_COUNT x.entry.desc = 1) (hdata : dDataLen x.entry.desc ≤ x.entry.data.length) (hmay : writeRefusal s = none)
    (heod : s.vol.atEod = true ∧ s.vol.wrote = true ∧ s.vol.dirtyDue = false ∧ s.fmt.group.isSome = true)
    (hread : readSet s s.vol.eodDsn = none) (hfits : (wrCtx s x.entry).fits (taking (wrCtx s x.entry) s) = true)
    (hroom : (taking (wrCtx s x.entry) s).plain.length + (bytesAt x.entry.data 0 (wREC_LEN x.entry.desc)).length < granMax)
    (hrecs : (taking (wrCtx s x.entry) s).records < 65534) :
    Runs .write s fun t =>
      t.fmt = { s.fmt with
        closedUp := false
        openGran := some (withRecord (wrCtx s x.entry) s.vol.posRecord (bytesAt x.entry.data 0 (wREC_LEN x.entry.desc)) (taking (wrCtx s x.entry) s)) } ∧
      t.vol = { s.vol with posRecord := s.vol.posRecord + 1, issued := true } ∧ t.que.exec = none ∧ Completes 0 (dTag x.entry.desc) stOK 0 t ∧
      t.rch = (freshReads false x s).rch ∧ WordsKept (fun _ => False) s t ∧ OnlyTouches [.que, .mtr, .vol, .fmt, .rch] s t := by
  obtain ⟨hruns, hfin, hloss, hrec⟩ := hrun
  have hop : dOpcode x.entry.desc = opWRITE := opcode_of_runsOp hruns
  rw [← taking_acceptedAtEod x] at hfits hroom hrecs
  obtain ⟨f, htake⟩ := takeRecords_one hone (by rw [wrCtx_acceptedAtEod]; exact cutRecord_of_room hfits hroom hrecs)
  have hstep : exec .write s = .next (takeRecords x (acceptedAtEod x s)) := by
    rw [exec_write_of_runsOp hruns, writeWork, if_neg (by rw [hone]; decide),
      writeRow_atEod (by simpa [dataHere] using hdata) hmay heod hread]
  rw [htake] at hstep
  have hdone := accepted_runs hstep hfin hloss hrec (by rw [hop]; decide)
    fun μ hmtr hvol hfmt => by rw [setVol_mask hvol, onUsage_mask hmtr, setFmt_mask hfmt]
  exact hdone

/-! ## FILEMARK (R288) -/

/-- The filemark granule that a FILEMARK issues. -/
def filemarkGran (e : QEntry) (s : State) : Gran :=
  { gsn := s.vol.nextGsn, filemark := true, tenant := dTenant e.desc, session := (tenant s (dTenant e.desc)).session
    tenantTag := (tenant s (dTenant e.desc)).tag, nonce := s.vol.nonce.getD 0, first := s.vol.posRecord, bracket := e.bracket, stage := .sealed }

theorem filemarkGran_acceptedAtEod (e : QEntry) (x : ExecSt) (s : State) : filemarkGran e (acceptedAtEod x s) = filemarkGran e s := by
  simp only [filemarkGran, tenant, acceptedAtEod_ten, acceptedAtEod_vol]

/-- A FILEMARK of one: its work, once it has been accepted. -/
theorem takeFilemarks_one {x : ExecSt} (s : State) (hone : dField x.entry.desc 0x10 2 = 1) :
    ∃ f, takeFilemarks x s = endExec stOK s.vol.posRecord 1 0 0
      (setVol { s.vol with nextGsn := s.vol.nextGsn + 1, posFm := s.vol.posFm + 1 }
        (onUsage x.entry.bracket (tenant s (dTenant x.entry.desc)).session f
          (setFmt { s.fmt with grans := s.fmt.grans ++ [filemarkGran x.entry s] } (setVol { s.vol with nextGsn := s.vol.nextGsn + 1 } s)))) := by
  simp only [takeFilemarks, hone, forEach, List.range_one, List.foldl_cons, List.foldl_nil, cutFilemark]
  exact ⟨_, rfl⟩

/-- A FILEMARK of one at end of data. -/
theorem filemark_one_runs {x : ExecSt} {s : State}
    (hrun : runsOp opFILEMARK x s = true ∧ mayFinish x s = true ∧ s.que.loss = none ∧ x.recovered = false)
    (hone : dField x.entry.desc 0x10 2 = 1) (hmay : writeRefusal s = none)
    (heod : s.vol.atEod = true ∧ s.vol.wrote = true ∧ s.vol.dirtyDue = false ∧ s.fmt.group.isSome = true)
    (hread : readSet s s.vol.eodDsn = none) :
    Runs .filemark s fun t =>
      t.fmt = { s.fmt with closedUp := false, grans := s.fmt.grans ++ [filemarkGran x.entry s] } ∧
      t.vol = { s.vol with nextGsn := s.vol.nextGsn + 1, posFm := s.vol.posFm + 1, issued := true } ∧ t.que.exec = none ∧
      Completes 0 (dTag x.entry.desc) stOK 0 t ∧ t.rch = (freshReads false x s).rch ∧ WordsKept (fun _ => False) s t ∧
      OnlyTouches [.que, .mtr, .vol, .fmt, .rch] s t := by
  obtain ⟨hruns, hfin, hloss, hrec⟩ := hrun
  have hop : dOpcode x.entry.desc = opFILEMARK := opcode_of_runsOp hruns
  obtain ⟨f, htake⟩ := takeFilemarks_one (acceptedAtEod x s) hone
  have hstep : exec .filemark s = .next (takeFilemarks x (acceptedAtEod x s)) := by
    rw [exec_filemark_of_runsOp hruns, writeRow_atEod rfl hmay heod hread]
  rw [htake] at hstep
  have hdone := accepted_runs hstep hfin hloss hrec (by rw [hop]; decide)
    fun μ hmtr hvol hfmt => by rw [setVol_mask hvol, onUsage_mask hmtr, setFmt_mask hfmt, setVol_mask hvol]
  rw [filemarkGran_acceptedAtEod] at hdone
  exact hdone

/-! ## WRITE and FILEMARK where the mount may not write (R279, R282, R448) -/

/-- The refusals of a write are errors. -/
theorem writeRefusal_ne_ok {s : State} {st : Nat} (h : writeRefusal s = some st) : st ≠ stOK := by
  simp only [writeRefusal] at h
  (repeat' split at h) <;> cases h <;> decide

theorem writeRow_refused {ready : ExecSt → Bool} {take : ExecSt → State → State} {x : ExecSt} {s : State} {st : Nat}
    (hbegins : x.phase = .data ∧ x.step = 0) (hmay : writeRefusal s = some st) : writeRow ready take x s = endWith st s := by
  rw [writeRow, if_pos hbegins, hmay]

/-- A WRITE or FILEMARK that begins where the mount may not write. -/
theorem exec_write_refused {x : ExecSt} {s : State} {st : Nat} (hruns : runsOp opWRITE x s = true) (hbegins : x.phase = .data ∧ x.step = 0)
    (hmay : writeRefusal s = some st) : exec .write s = .next (endWith st s) := by
  rw [exec_write_of_runsOp hruns, writeWork, writeRow_refused hbegins hmay]
  simp only [hmay, ite_self]

theorem exec_filemark_refused {x : ExecSt} {s : State} {st : Nat} (hruns : runsOp opFILEMARK x s = true) (hbegins : x.phase = .data ∧ x.step = 0)
    (hmay : writeRefusal s = some st) : exec .filemark s = .next (endWith st s) := by
  rw [exec_filemark_of_runsOp hruns, writeRow_refused hbegins hmay]

/-! ## WRITE of no records, and FLUSH (R441) -/

/-- A WRITE of no records. -/
theorem exec_write_empty {x : ExecSt} {s : State} (hruns : runsOp opWRITE x s = true) (hnone : wREC_COUNT x.entry.desc = 0)
    (hmay : writeRefusal s = none) : exec .write s = .next (endExec stOK s.vol.posRecord 0 0 0 s) := by
  rw [exec_write_of_runsOp hruns, writeWork, if_pos hnone, hmay]

/-- A FLUSH whose closure is on tape, and one that waits for it. -/
theorem exec_flush_settled {x : ExecSt} {s : State} (hruns : runsOp opFLUSH x s = true) (hphase : x.phase = .settling)
    (hset : settledAll s = true) :
    exec .flush s = .next (endExec stOK 0 0 0 0 (setQue { s.que with exec := some { x with phase := .work } } s)) := by
  have hx := que_exec_of_runsOp hruns
  rw [exec_flush_of_runsOp hruns]
  simp [afterClosure, hphase, hx, hset, toPhase, onExec, endWith_stOK]

theorem exec_flush_waits {x : ExecSt} {s : State} (hruns : runsOp opFLUSH x s = true) (hphase : x.phase = .settling)
    (hset : settledAll s = false) : exec .flush s = .next s := by
  have hx := que_exec_of_runsOp hruns
  rw [exec_flush_of_runsOp hruns]
  simp [afterClosure, hphase, hx, hset]

/-! ## O45 -/

/-- Settles O45, clause by clause, each by the lemma on the state in which the command has completed. That a completing WRITE or FILEMARK no longer
holds as lost what an earlier command failed to read (`freshReads`) is the model's log entry 124. -/
theorem streamWriting : Obligations.StreamWriting := by
  unfold Obligations.StreamWriting
  refine ⟨?opens, ?joins, ?empty, ?refused, ?filemark, ?flushed, ?waits⟩
  case opens =>
    intro x s hrun ⟨hone, hlen⟩ hdata hmay heod hread hopen
    have hnew : taking (wrCtx s x.entry) s = (wrCtx s x.entry).gran (s.vol.nonce.getD 0) := by rw [taking, hopen]; rfl
    have hshort : (bytesAt x.entry.data 0 (wREC_LEN x.entry.desc)).length < granMax := by
      simp only [bytesAt, List.length_take]; omega
    have h := write_one_runs hrun hone hdata hmay heod hread (by rw [hnew, fits_gran]) (by simpa [hnew, WrCtx.gran] using hshort)
      (by simp [hnew, WrCtx.gran])
    rwa [hnew, withRecord_gran] at h
  case joins =>
    intro x g s hrun ⟨hone, hpos⟩ ⟨hdata, hlen⟩ hmay heod hread hopen hfits ⟨hroom, hrecs, hplain⟩
    have hold : taking (wrCtx s x.entry) s = g := by rw [taking, hopen]; rfl
    have hbytes : (bytesAt x.entry.data 0 (wREC_LEN x.entry.desc)).length = wREC_LEN x.entry.desc := by
      simp only [bytesAt, List.length_take, List.drop_zero]; omega
    have h := write_one_runs hrun hone hdata hmay heod hread (by rw [hold, hfits]) (by rw [hold, hbytes]; exact hroom) (by rw [hold]; exact hrecs)
    rwa [hold, withRecord_of_plain hplain, hbytes] at h
  case empty =>
    intro x s ⟨hruns, hfin, hloss, hrec⟩ hnone hmay
    have hx := que_exec_of_runsOp hruns
    have hop := opcode_of_runsOp hruns
    exact completes_runs (exec_write_empty hruns hnone hmay) hfin hloss hrec (by rw [hop]; decide) (by rw [← hx]; rfl) ⟨rfl, rfl, rfl⟩
  case refused =>
    intro c op st x s hc ⟨hruns, hfin, hloss⟩ hbegins hmay
    have hop := opcode_of_runsOp hruns
    obtain ⟨rfl, rfl⟩ | ⟨rfl, rfl⟩ := hc
    · exact refused_runs (exec_write_refused hruns hbegins hmay) hfin hloss (by rw [hop]; decide) (writeRefusal_ne_ok hmay)
    · exact refused_runs (exec_filemark_refused hruns hbegins hmay) hfin hloss (by rw [hop]; decide) (writeRefusal_ne_ok hmay)
  case filemark => exact fun x s hrun hone hmay heod hread => filemark_one_runs hrun hone hmay heod hread
  case flushed =>
    intro x s ⟨hruns, hfin, hloss, hrec⟩ hphase hset
    have hop := opcode_of_runsOp hruns
    exact completes_runs (exec_flush_settled hruns hphase hset) hfin hloss hrec (by rw [hop]; decide) rfl ⟨rfl, rfl, rfl⟩
  case waits => exact fun x s hruns hphase hset => exec_flush_waits hruns hphase hset

end Sys2Proof.Machine.StreamWriting
end
